-- ==== Sys2Proof/Word.lean ====
section
/-! DEFINITION. The word types of the D6: bits as software and the manual see them (00 R5, R7). -/

namespace Sys2Proof

/-- A word is 64 bits (R5). -/
abbrev Word := BitVec 64

/-- A byte. -/
abbrev Byte := BitVec 8

/-- A syllable is 32 bits (R5). -/
abbrev Syllable := BitVec 32

/-- A vector register or queue entry holds 1,024 bits (R151). -/
abbrev Vec := BitVec 1024

/-- A layout record holds 256 bits (R187). -/
abbrev Rec := BitVec 256

end Sys2Proof
end

