-- ==== Sys2Proof/Syntax.lean ====
section
/-! DEFINITION. The steps of the D6, one constructor for each row of spec/opcode_table.json: the instructions of the
eleven slots (16), the microinstructions of the matrix engine (11 R238), and the operations and events of the package,
which carry as arguments what they bring from outside. -/

namespace Sys2Proof

/-- Operation width (R157). -/
inductive Width | w256 | w512 | w1024
  deriving DecidableEq, Repr

/-- Element formats (R207). -/
inductive Fmt | f32 | bf16 | f16 | i8 | i16 | i32 | i64 | n8 | n16 | n32 | n64 | t8 | t6 | e8
  deriving DecidableEq, Repr

/-- Rounding modes (R209). -/
inductive Rm | rne | rtz | rup | rdn
  deriving DecidableEq, Repr

/-- Scalar comparisons (R356). -/
inductive Cnd | eq | ne | lt | ge | ltu | geu
  deriving DecidableEq, Repr

/-- Vector comparisons (R359). -/
inductive VCnd | eq | ne | lt | le | gt | ge
  deriving DecidableEq, Repr

/-- Scratchpad buffers (R160). -/
inductive Buf | wb | ab | cb | sb | lb | spb | xb
  deriving DecidableEq, Repr

/-- Fence scopes (R176). -/
inductive Scope | c | d | col | pkg | fab
  deriving DecidableEq, Repr

/-- Atomic operations (R429). -/
inductive Aop | add | swap | cas | and | or | xor | smax | umax
  deriving DecidableEq, Repr

/-- Scalar access sizes (R429). -/
inductive Sz | b8 | b16 | b32 | b64
  deriving DecidableEq, Repr

/-- Combine-add formats (R202, R444). -/
inductive Afmt | f32 | bf16 | i32 | i64 | sa
  deriving DecidableEq, Repr

/-- Modes of `coll`: a plain put or a combine-add (R444). -/
inductive CollMode | put | add (f : Afmt)
  deriving DecidableEq, Repr

/-- Target tiers of `mig` (R444). -/
inductive Tier | near | lp | cxl
  deriving DecidableEq, Repr

/-- System registers (R165). -/
inductive SysReg
  | ltrip | lpass | lrot | ctxid | coreid | dieid | world | prof | wid | wlay | tslc | dtime | gtick | qst | vbank
  | xcause | xval | xtok | xcnt
  deriving DecidableEq, Repr

/-- Matrix formats (R230). -/
inductive MFmt | t8 | t6 | bf16
  deriving DecidableEq, Repr

/-- Destinations of `u.drain` (R238). -/
inductive DrainDst | cb | sb | queue
  deriving DecidableEq, Repr

/-- A source of VA, VB and X: a vector register through a port, or a queue, popped or peeked (R185, R354). -/
inductive Src
  | v (r : BitVec 6) (port : BitVec 3)
  | q (r : BitVec 3) (pk : Bool)
  deriving DecidableEq, Repr

/-- A load destination: a vector register or a queue (R185, R429). -/
inductive Dst
  | v (r : BitVec 6)
  | q (r : BitVec 3)
  deriving DecidableEq, Repr

/-- The eleven slots (R144). -/
inductive Slot | C | IA | IB | VA | VB | X | M | L | S | K | Y
  deriving DecidableEq, Repr

/-- Slots that share one opcode map (R357 to R361), and `U` for microinstructions (R238). -/
inductive SlotKind | C | I | V | X | M | L | S | K | Y | U
  deriving DecidableEq, Repr

/-- What became of a flit on a link (R44). -/
inductive FlitOutcome | good | corrected | bad
  deriving DecidableEq, Repr

/-- Ultra Ethernet delivery modes (R52). -/
inductive UeMode | rud | rod | uud | rudi
  deriving DecidableEq, Repr

/-- Who needed a value whose check failed (R136): a context of a frond, or a COPY packet. -/
inductive Requester
  | ctx (core ctx frond : Nat)
  | packet (id : Nat)
  deriving DecidableEq, Repr

/-- One firmware image as flash holds it (R61): the stage its header names, its security version, its public key and
signature, and its header and body. -/
structure Image where
  stage : Nat
  version : Nat
  key : List Byte
  sig : List Byte
  body : List Byte
  deriving DecidableEq, Repr

/-- The manifest (R2, R62): its signed body, and what the body says: the grade limits, the identity policy, the permitted sets, the far
tier it is made for (bytes of LPDDR per far die), the device manager's region and queue 0 of world 0 (R85, R460), and the follower
ranks (R111). -/
structure Manifest where
  version : Nat
  key : List Byte
  sig : List Byte
  body : List Byte
  grades : List Nat
  identityPolicy : List Byte
  farTier : Nat
  partitions : List Nat
  profiles : List Nat
  regionBase : Nat
  queueBase : Word
  queueLog2n : Nat
  followers : List Nat
  deriving DecidableEq, Repr

/-- What a calibration of an endpoint finds (R40, R41): the tick's flight time, the smallest slack, and whether some data route comes
after its landing cycle. -/
structure Probe where
  die : Nat
  e : Nat
  raw : BitVec 8
  marg : BitVec 8
  late : Bool
  deriving DecidableEq, Repr

/-- Board flash as H's ROM finds it (R61): slots A and B of each stage, the manifest, the device certificate and its public key; and
what firmware finds about the board: the bytes of LPDDR behind each far die (R1, R58), those of the expander on each CXL port by
2 × die + port (R57), and the links that its calibration probes, those not listed calibrating well (R41). Stage 0 is stage 1's image, 1 to 3 the manager, policy and Freino images, and
8 + d the management-core firmware of die d. -/
structure Flash where
  slotA : List Image
  slotB : List Image
  manifest : Manifest
  cert : List Byte
  certKey : List Byte
  lpddr : Nat
  expanders : List Nat
  probes : List Probe
  deriving DecidableEq, Repr

/-- What SPDM negotiation selects (R63). -/
inductive SpdmAlg | sha384 | brainpoolP384 | p384 | aes256Gcm | spdmSchedule
  deriving DecidableEq, Repr

/-- A channel message (R68). -/
structure ChMsg where
  ctr : BitVec 32
  chid : Byte
  world : Byte
  kind : Byte
  rsv0 : Byte
  len : BitVec 32
  rsv1 : BitVec 32
  body : List Byte
  tag : BitVec 128
  deriving DecidableEq, Repr

/-- An encrypted run of flits (R55). -/
structure Run where
  seq : BitVec 64
  kgen : BitVec 32
  nfl : Byte
  flg : Byte
  rsv : BitVec 16
  flits : List Byte
  tag : BitVec 128
  deriving DecidableEq, Repr

/-- What comes from a member: a run, or the acknowledgement of a run of this package (R56). -/
inductive RunArrival
  | run (r : Run)
  | ack (seq : BitVec 64)
  deriving DecidableEq, Repr

/-- A member as a domain policy lists it (R76): the digest of its IDK public key, and the MSL values it must show. -/
structure PolicyEnt where
  member : Nat
  idkDigest : BitVec 384
  msl : List (Nat × BitVec 384)
  deriving DecidableEq, Repr

/-- What a member has shown H as the SPDM requester (R64, R76): its identity key, its alias key with the identity key's signature
over it, its measurement slots with the alias key's signature over a GET_MEASUREMENTS of all of them under H's nonce, the device
certificate, and the secret of the session opened. -/
structure MemberProof where
  member : Nat
  cert : List Byte
  idkKey : List Byte
  aliasKey : List Byte
  aliasSig : List Byte
  msl : List (BitVec 384)
  sig : List Byte
  session : BitVec 384
  deriving DecidableEq, Repr

/-- What the flits of a run carry (R54, R203): requests of a fabric operation by its number at the sender, of the sender's
world, and responses. -/
inductive RunMsg
  /-- Bytes for world virtual addresses, whether they combine, the XB offset of a sync word at the destination, and the address of a
  chunk that has no byte in bounds. -/
  | put (op world : Nat) (add : Option Afmt) (sync : Option Nat) (base : Nat) (cells : List (Nat × Byte))
  /-- Bytes wanted from world virtual addresses. -/
  | get (op world : Nat) (addrs : List Nat)
  /-- The response to an operation: the responder's world it acted on, performed or failed, and the bytes read in order. -/
  | reply (op world : Nat) (ok : Bool) (bytes : List Byte)
  deriving DecidableEq, Repr

/-- A queue descriptor as a checkpoint blob carries it (R85, R108). -/
structure BlobQueue where
  number : Nat
  base : Word
  log2n : Nat
  head : BitVec 32
  tail : BitVec 32
  error : Bool
  deriving DecidableEq, Repr

/-- An entry of the code page table as the stream carries it with the near tier, where its image lies (R318). -/
structure BlobPage where
  page : Nat
  tag : BitVec 32
  addr : Nat
  len : Nat
  loaded : Bool
  sealed : Bool
  deriving DecidableEq, Repr

/-- One world of a checkpoint blob: its entry of the world table, wrapped key, queue descriptors and code page table (R75, R108,
R318). -/
structure BlobWorld where
  world : Nat
  confidential : Bool
  wrapped : List Byte
  cred : BitVec 128
  wmr : BitVec 384
  grant : List Nat
  queues : List BlobQueue
  pages : List BlobPage
  /-- The world's state, 1 LOADING, 2 READY, 3 DRAINING, and the loader step reached (R72, R345). -/
  st : Nat := 2
  step : Nat := 9
  deriving DecidableEq, Repr

/-- The checkpoint device-state blob with the bytes of the stream, as they left the package (R108, R75). -/
structure Blob where
  gtick : Word
  profile : Nat
  partition : List Nat
  worlds : List BlobWorld
  msl : List (BitVec 384)
  mem : List (Nat × Byte)
  /-- The CXL ranges that were offline, as 2 × far die + port (R109). -/
  cxlOff : List Nat := []
  deriving DecidableEq, Repr

/-- Where an SPDM request comes from (R63, R65): its connection, and the session of it that the request came in, if any. -/
structure Asker where
  conn : Nat
  session : Option Nat
  deriving DecidableEq, Repr

/-- An Ultra Ethernet packet (R52, R54): the delivery mode it asks for, and whether its operation is none of R54's. -/
structure UePacket where
  mode : UeMode
  other : Bool
  deriving DecidableEq, Repr

/-- A run by its peer and its sequence number (R55). -/
structure RunName where
  peer : Nat
  seq : Nat
  deriving DecidableEq, Repr

/-- A report of a member of a trust domain in a re-key (R78). -/
structure RekeyReport where
  domain : Nat
  member : Nat
  deriving DecidableEq, Repr

/-- What a member of a trust domain says beside its reports (R76 to R79): it asks for a re-key, or leaves; and as the coordinator it begins
a re-key at Quiesce with the timeout of the phases, gives notice of the members, or admits this package to its domain: the
domain's number, this package's index, the generation and its secret, the session with the coordinator, and the members. -/
inductive RekeyKind
  | ask
  | leave
  | quiesce (timeout : Nat)
  | members (l : List Nat)
  | enrol (domain self kgen timeout : Nat) (secret : BitVec 256) (session : BitVec 384) (members : List Nat)
  deriving DecidableEq, Repr

/-- A control message of a member (R76 to R79), in the session with it. -/
structure RekeyAsk where
  peer : Nat
  kind : RekeyKind
  deriving DecidableEq, Repr

/-- THE STEPS OF THE MACHINE. For an instruction `p` is the guard predicate (R352); the other fields stand in the order
of the encoding. The instructions stand first, then the events the machine itself raises, then those that come from
outside: the Lean runtime can build only the first 244 constructors that have arguments. -/
inductive Instr
  /-- BR (R374). -/
  | br (p : BitVec 4) (l : BitVec 5)
  /-- BRX (R375). -/
  | brx (p : BitVec 4) (ga : BitVec 6)
  /-- CALL (R374). -/
  | call (p : BitVec 4) (l r : BitVec 5) (gd : BitVec 6)
  /-- LSETUP (R277). -/
  | lsetup (p : BitVec 4) (ga : BitVec 6) (ns : BitVec 3) (nb : BitVec 4)
  /-- LEND (R278). -/
  | lend (p : BitVec 4)
  /-- LQUIT (R374). -/
  | lquit (p : BitVec 4) (l : BitVec 5)
  /-- CALLX (R375). -/
  | callx (p : BitVec 4) (ga : BitVec 6) (r : BitVec 5) (gd : BitVec 6)
  /-- RET (R375). -/
  | ret (p : BitVec 4) (ga : BitVec 6)
  /-- BAR_L (R376). -/
  | barL (p : BitVec 4) (lev : BitVec 3)
  /-- TKALIGN (R377). -/
  | tkalign (p : BitVec 4) (off : BitVec 10)
  /-- CHILD_LAUNCH (R379). -/
  | childLaunch (p : BitVec 4) (gd ga gb : BitVec 6)
  /-- SIG_DEC (R381). -/
  | sigDec (p : BitVec 4) (ga : BitVec 6) (off : BitVec 9) (k : BitVec 6)
  /-- SIG_WAIT (R382). -/
  | sigWait (p : BitVec 4) (ga : BitVec 6) (off : BitVec 9) (thr : BitVec 6)
  /-- FENCE (R176). -/
  | fence (p : BitVec 4) (scope : Scope)
  /-- CWAIT (R383). -/
  | cwait (p : BitVec 4) (gm : BitVec 6) (off : BitVec 12)
  /-- SWAIT (R384). -/
  | swait (p : BitVec 4) (gg : BitVec 6) (off : BitVec 11)
  /-- SOFTWARE_TRAP (R388). -/
  | softwareTrap (p : BitVec 4) (imm : BitVec 16)
  /-- HALT (R389). -/
  | halt (p : BitVec 4)
  /-- RDSYS (R387). -/
  | rdsys (p : BitVec 4) (gd : BitVec 6) (sys : SysReg)
  /-- WRSYS (R387). -/
  | wrsys (p : BitVec 4) (ga : BitVec 6) (sys : SysReg)
  /-- WFE (R385). -/
  | wfe (p : BitVec 4)
  /-- SA_SEAL_C (R265). -/
  | saSealC (p : BitVec 4) (ga gb : BitVec 6)
  /-- SA_SEAL_G (R266). -/
  | saSealG (p : BitVec 4) (ga gb : BitVec 6)
  /-- SA_SEAL_P (R267). -/
  | saSealP (p : BitVec 4) (ga gb : BitVec 6)
  /-- ADD (R390). -/
  | add (p : BitVec 4) (gd ga gb : BitVec 6)
  /-- SUB (R390). -/
  | sub (p : BitVec 4) (gd ga gb : BitVec 6)
  /-- ADDS (R390). -/
  | adds (p : BitVec 4) (gd ga gb : BitVec 6) (sg : Bool)
  /-- SUBS (R390). -/
  | subs (p : BitVec 4) (gd ga gb : BitVec 6) (sg : Bool)
  /-- MUL (R391). -/
  | mul (p : BitVec 4) (gd ga gb : BitVec 6)
  /-- MULH (R391). -/
  | mulh (p : BitVec 4) (gd ga gb : BitVec 6)
  /-- MULHN (R391). -/
  | mulhn (p : BitVec 4) (gd ga gb : BitVec 6)
  /-- DIV (R393). -/
  | div (p : BitVec 4) (gd ga gb : BitVec 6) (sg : Bool)
  /-- REM (R393). -/
  | rem (p : BitVec 4) (gd ga gb : BitVec 6) (sg : Bool)
  /-- ADDI (R390). -/
  | addi (p : BitVec 4) (gd ga : BitVec 6) (imm : BitVec 9)
  /-- XORI (R394). -/
  | xori (p : BitVec 4) (gd ga : BitVec 6) (imm : BitVec 9)
  /-- ANDI (R394). -/
  | andi (p : BitVec 4) (gd ga : BitVec 6) (imm : BitVec 9)
  /-- ORI (R394). -/
  | ori (p : BitVec 4) (gd ga : BitVec 6) (imm : BitVec 9)
  /-- AND (R394). -/
  | and (p : BitVec 4) (gd ga gb : BitVec 6)
  /-- OR (R394). -/
  | or (p : BitVec 4) (gd ga gb : BitVec 6)
  /-- XOR (R394). -/
  | xor (p : BitVec 4) (gd ga gb : BitVec 6)
  /-- SHLI (R394). -/
  | shli (p : BitVec 4) (gd ga n : BitVec 6)
  /-- SHRI (R394). -/
  | shri (p : BitVec 4) (gd ga n : BitVec 6)
  /-- SRAI (R394). -/
  | srai (p : BitVec 4) (gd ga n : BitVec 6)
  /-- ROTI (R394). -/
  | roti (p : BitVec 4) (gd ga n : BitVec 6)
  /-- SHL (R394). -/
  | shl (p : BitVec 4) (gd ga gb : BitVec 6)
  /-- SHR (R394). -/
  | shr (p : BitVec 4) (gd ga gb : BitVec 6)
  /-- SRA (R394). -/
  | sra (p : BitVec 4) (gd ga gb : BitVec 6)
  /-- ROT (R394). -/
  | rot (p : BitVec 4) (gd ga gb : BitVec 6)
  /-- BFX (R395). -/
  | bfx (p : BitVec 4) (gd ga gb : BitVec 6)
  /-- BFXS (R395). -/
  | bfxs (p : BitVec 4) (gd ga gb : BitVec 6)
  /-- BFI (R395). -/
  | bfi (p : BitVec 4) (gd ga gb : BitVec 6)
  /-- FSH (R395). -/
  | fsh (p : BitVec 4) (gd ga gb : BitVec 6)
  /-- POPC (R396). -/
  | popc (p : BitVec 4) (gd ga : BitVec 6)
  /-- CLZ (R396). -/
  | clz (p : BitVec 4) (gd ga : BitVec 6)
  /-- CTZ (R396). -/
  | ctz (p : BitVec 4) (gd ga : BitVec 6)
  /-- MIN (R390). -/
  | min (p : BitVec 4) (gd ga gb : BitVec 6) (sg : Bool)
  /-- MAX (R390). -/
  | max (p : BitVec 4) (gd ga gb : BitVec 6) (sg : Bool)
  /-- CMP (R397). -/
  | cmp (p pd : BitVec 4) (cnd : Cnd) (ga gb : BitVec 6)
  /-- CMPI (R397). -/
  | cmpi (p pd : BitVec 4) (cnd : Cnd) (ga : BitVec 6) (imm : BitVec 8)
  /-- SEL (R397). -/
  | sel (p : BitVec 4) (gd ga gb : BitVec 6) (ps : BitVec 3)
  /-- MOVI (R398). -/
  | movi (p : BitVec 4) (gd : BitVec 6) (imm : BitVec 15)
  /-- ANDN (R394). -/
  | andn (p : BitVec 4) (gd ga gb : BitVec 6)
  /-- PAND (R397). -/
  | pand (p pd pa pb : BitVec 4)
  /-- POR (R397). -/
  | por (p pd pa pb : BitVec 4)
  /-- PXOR (R397). -/
  | pxor (p pd pa pb : BitVec 4)
  /-- PANDN (R397). -/
  | pandn (p pd pa pb : BitVec 4)
  /-- LEA (R398). -/
  | lea (p ad : BitVec 4) (ga : BitVec 6) (imm : BitVec 9)
  /-- MOVM (R398). -/
  | movm (p : BitVec 4) (md : BitVec 3) (ga : BitVec 6)
  /-- MOVG (R398). -/
  | movg (p : BitVec 4) (gd : BitVec 6) (aa : BitVec 4)
  /-- LEAA (R398). -/
  | leaa (p ad aa : BitVec 4) (imm : BitVec 13)
  /-- SP_ST_G (R440). -/
  | spStG (p : BitVec 4) (r : BitVec 6) (off : BitVec 10)
  /-- SP_ST_V (R440). -/
  | spStV (p : BitVec 4) (r off : BitVec 6)
  /-- SP_LD_G (R440). -/
  | spLdG (p : BitVec 4) (r : BitVec 6) (off : BitVec 10)
  /-- SP_LD_V (R440). -/
  | spLdV (p : BitVec 4) (r off : BitVec 6)
  /-- VADD (R405). -/
  | vadd (p : BitVec 4) (w : Width) (fmt : Fmt) (vd : BitVec 6) (rm : Rm) (sa sb : Src)
  /-- VSUB (R405). -/
  | vsub (p : BitVec 4) (w : Width) (fmt : Fmt) (vd : BitVec 6) (rm : Rm) (sa sb : Src)
  /-- VMUL (R405). -/
  | vmul (p : BitVec 4) (w : Width) (fmt : Fmt) (vd : BitVec 6) (rm : Rm) (sa sb : Src)
  /-- VFMA (R406). -/
  | vfma (p : BitVec 4) (w : Width) (fmt : Fmt) (vd : BitVec 6) (rm : Rm) (sa sb sc : Src)
  /-- VFNMA (R406). -/
  | vfnma (p : BitVec 4) (w : Width) (fmt : Fmt) (vd : BitVec 6) (rm : Rm) (sa sb sc : Src)
  /-- VADDS (R407). -/
  | vadds (p : BitVec 4) (w : Width) (fmt : Fmt) (vd : BitVec 6) (sa sb : Src)
  /-- VSUBS (R407). -/
  | vsubs (p : BitVec 4) (w : Width) (fmt : Fmt) (vd : BitVec 6) (sa sb : Src)
  /-- VMIN (R407). -/
  | vmin (p : BitVec 4) (w : Width) (fmt : Fmt) (vd : BitVec 6) (sa sb : Src)
  /-- VMAX (R407). -/
  | vmax (p : BitVec 4) (w : Width) (fmt : Fmt) (vd : BitVec 6) (sa sb : Src)
  /-- VABS (R408). -/
  | vabs (p : BitVec 4) (w : Width) (fmt : Fmt) (vd : BitVec 6) (sa : Src)
  /-- VNEG (R408). -/
  | vneg (p : BitVec 4) (w : Width) (fmt : Fmt) (vd : BitVec 6) (sa : Src)
  /-- VAND (R409). -/
  | vand (p : BitVec 4) (w : Width) (vd : BitVec 6) (sa sb : Src)
  /-- VOR (R409). -/
  | vor (p : BitVec 4) (w : Width) (vd : BitVec 6) (sa sb : Src)
  /-- VXOR (R409). -/
  | vxor (p : BitVec 4) (w : Width) (vd : BitVec 6) (sa sb : Src)
  /-- VANDN (R409). -/
  | vandn (p : BitVec 4) (w : Width) (vd : BitVec 6) (sa sb : Src)
  /-- VSHL (R410). -/
  | vshl (p : BitVec 4) (w : Width) (fmt : Fmt) (vd : BitVec 6) (sa sb : Src)
  /-- VSHR (R410). -/
  | vshr (p : BitVec 4) (w : Width) (fmt : Fmt) (vd : BitVec 6) (sa sb : Src)
  /-- VSRA (R410). -/
  | vsra (p : BitVec 4) (w : Width) (fmt : Fmt) (vd : BitVec 6) (sa sb : Src)
  /-- VSHLI (R410). -/
  | vshli (p : BitVec 4) (w : Width) (fmt : Fmt) (vd n : BitVec 6) (sa : Src)
  /-- VSHRI (R410). -/
  | vshri (p : BitVec 4) (w : Width) (fmt : Fmt) (vd n : BitVec 6) (sa : Src)
  /-- VSRAI (R410). -/
  | vsrai (p : BitVec 4) (w : Width) (fmt : Fmt) (vd n : BitVec 6) (sa : Src)
  /-- VCMP (R411). -/
  | vcmp (p : BitVec 4) (w : Width) (fmt : Fmt) (vd : BitVec 6) (cnd : VCnd) (sa sb : Src)
  /-- VSEL (R409). -/
  | vsel (p : BitVec 4) (w : Width) (vd : BitVec 6) (sa sb sc : Src)
  /-- VCVT (R414). -/
  | vcvt (p : BitVec 4) (w : Width) (fmt : Fmt) (vd : BitVec 6) (rm : Rm) (sat : Bool) (src : Fmt) (sa : Src)
  /-- VDUP (R412). -/
  | vdup (p : BitVec 4) (w : Width) (fmt : Fmt) (vd ga : BitVec 6)
  /-- VRSUM (R415). -/
  | vrsum (p : BitVec 4) (w : Width) (fmt : Fmt) (vd : BitVec 6) (sa : Src)
  /-- VRMAX (R415). -/
  | vrmax (p : BitVec 4) (w : Width) (fmt : Fmt) (vd : BitVec 6) (sa : Src)
  /-- VRMIN (R415). -/
  | vrmin (p : BitVec 4) (w : Width) (fmt : Fmt) (vd : BitVec 6) (sa : Src)
  /-- SA_ADD (R259). -/
  | saAdd (p : BitVec 4) (w : Width) (fmt : Fmt) (ga : BitVec 6) (sa : Src)
  /-- EXP_F (R418). -/
  | expF (p : BitVec 4) (w : Width) (vd : BitVec 6) (sa : Src)
  /-- EXP_R (R418). -/
  | expR (p : BitVec 4) (w : Width) (vd : BitVec 6) (sa : Src)
  /-- EXP2_F (R418). -/
  | exp2F (p : BitVec 4) (w : Width) (vd : BitVec 6) (sa : Src)
  /-- EXP2_R (R418). -/
  | exp2R (p : BitVec 4) (w : Width) (vd : BitVec 6) (sa : Src)
  /-- LOG2_F (R418). -/
  | log2F (p : BitVec 4) (w : Width) (vd : BitVec 6) (sa : Src)
  /-- LOG2_R (R418). -/
  | log2R (p : BitVec 4) (w : Width) (vd : BitVec 6) (sa : Src)
  /-- RCP_F (R418). -/
  | rcpF (p : BitVec 4) (w : Width) (vd : BitVec 6) (sa : Src)
  /-- RCP_R (R418). -/
  | rcpR (p : BitVec 4) (w : Width) (vd : BitVec 6) (sa : Src)
  /-- RSQ_F (R418). -/
  | rsqF (p : BitVec 4) (w : Width) (vd : BitVec 6) (sa : Src)
  /-- RSQ_R (R418). -/
  | rsqR (p : BitVec 4) (w : Width) (vd : BitVec 6) (sa : Src)
  /-- SQRT_F (R418). -/
  | sqrtF (p : BitVec 4) (w : Width) (vd : BitVec 6) (sa : Src)
  /-- SQRT_R (R418). -/
  | sqrtR (p : BitVec 4) (w : Width) (vd : BitVec 6) (sa : Src)
  /-- TANH_F (R418). -/
  | tanhF (p : BitVec 4) (w : Width) (vd : BitVec 6) (sa : Src)
  /-- TANH_R (R418). -/
  | tanhR (p : BitVec 4) (w : Width) (vd : BitVec 6) (sa : Src)
  /-- SIGM_F (R418). -/
  | sigmF (p : BitVec 4) (w : Width) (vd : BitVec 6) (sa : Src)
  /-- SIGM_R (R418). -/
  | sigmR (p : BitVec 4) (w : Width) (vd : BitVec 6) (sa : Src)
  /-- SIN_F (R418). -/
  | sinF (p : BitVec 4) (w : Width) (vd : BitVec 6) (sa : Src)
  /-- SIN_R (R418). -/
  | sinR (p : BitVec 4) (w : Width) (vd : BitVec 6) (sa : Src)
  /-- COS_F (R418). -/
  | cosF (p : BitVec 4) (w : Width) (vd : BitVec 6) (sa : Src)
  /-- COS_R (R418). -/
  | cosR (p : BitVec 4) (w : Width) (vd : BitVec 6) (sa : Src)
  /-- XPACK (R419). -/
  | xpack (p : BitVec 4) (w : Width) (fmt : Fmt) (vd : BitVec 6) (src : Fmt) (sa : Src) (ga : BitVec 6)
  /-- XUNPACK (R420). -/
  | xunpack (p : BitVec 4) (w : Width) (fmt : Fmt) (vd : BitVec 6) (src : Fmt) (sa : Src) (ga : BitVec 6)
  /-- XSCALE (R421). -/
  | xscale (p : BitVec 4) (w : Width) (fmt : Fmt) (vd : BitVec 6) (sa : Src) (ga : BitVec 6)
  /-- XMAXE (R422). -/
  | xmaxe (p : BitVec 4) (w : Width) (fmt : Fmt) (vd : BitVec 6) (tgt : Fmt) (sa sb : Src)
  /-- XPERM (R423). -/
  | xperm (p : BitVec 4) (w : Width) (fmt : Fmt) (vd : BitVec 6) (sa sb : Src)
  /-- XROT (R423). -/
  | xrot (p : BitVec 4) (w : Width) (fmt : Fmt) (vd : BitVec 6) (sa : Src) (ga : BitVec 6)
  /-- XZIP (R424). -/
  | xzip (p : BitVec 4) (w : Width) (fmt : Fmt) (vd : BitVec 6) (hi : Bool) (sa sb : Src)
  /-- XUNZIP (R424). -/
  | xunzip (p : BitVec 4) (w : Width) (fmt : Fmt) (vd : BitVec 6) (odd : Bool) (sa sb : Src)
  /-- XTRANS (R425). -/
  | xtrans (p : BitVec 4) (w : Width) (fmt : Fmt) (vd : BitVec 6) (lrows : BitVec 3) (sa : Src)
  /-- SA_NRD (R268). -/
  | saNrd (p : BitVec 4) (w : Width) (fmt : Fmt) (vd : BitVec 6) (sa : Src) (ga : BitVec 6)
  /-- SA_SAX (R263). -/
  | saSax (p : BitVec 4) (ga : BitVec 6)
  /-- MCALL (R245). -/
  | mcall (p : BitVec 4) (rtn : BitVec 6)
  /-- MREP (R246). -/
  | mrep (p : BitVec 4) (n : BitVec 12)
  /-- MPROG (R247). -/
  | mprog (p : BitVec 4) (ga : BitVec 6) (dst nm1 : BitVec 10)
  /-- MPROG_T (R247). -/
  | mprogT (p : BitVec 4) (ga : BitVec 6) (dst nm1 : BitVec 10)
  /-- MWB (R248). -/
  | mwb (p : BitVec 4) (ga : BitVec 6)
  /-- MSTAT (R249). -/
  | mstat (p : BitVec 4) (qd : BitVec 3)
  /-- MDRAIN (R250). -/
  | mdrain (p : BitVec 4) (qd : BitVec 3)
  /-- UA_LD (R239). -/
  | uaLd (fmt : MFmt) (asb ac : Bool) (pr : BitVec 3) (tgt : Bool)
  /-- UB_LD (R239). -/
  | ubLd (fmt : MFmt) (bs : Bool) (pr : BitVec 3)
  /-- U_STEP (R239). -/
  | uStep (fmt : MFmt) (asb bs ac zr : Bool)
  /-- U_DRAIN (R242). -/
  | uDrain (ac : Bool) (pr : BitVec 3) (zr : Bool) (dst : DrainDst) (qd : BitVec 3) (bf16 : Bool)
  /-- U_LOOP (R239). -/
  | uLoop (lv : BitVec 2) (tgt : BitVec 10) (cnt : BitVec 24)
  /-- U_ADDP (R239). -/
  | uAddp (pr : BitVec 3) (sh : BitVec 6) (imm : BitVec 24)
  /-- U_END (R239). -/
  | uEnd
  /-- LD (R432). -/
  | ld (p : BitVec 4) (w : Width) (buf : Buf) (d : Dst) (gb : BitVec 6) (off : BitVec 25)
  /-- ST (R432). -/
  | st (p : BitVec 4) (w : Width) (buf : Buf) (vr : BitVec 6) (port : BitVec 3) (gb : BitVec 6) (off : BitVec 25)
  /-- LDS (R433). -/
  | lds (p : BitVec 4) (sz : Sz) (buf : Buf) (gr : BitVec 6) (sx : Bool) (gb : BitVec 6) (off : BitVec 25)
  /-- STS (R433). -/
  | sts (p : BitVec 4) (sz : Sz) (buf : Buf) (gr gb : BitVec 6) (off : BitVec 25)
  /-- ATOM (R434). -/
  | atom (p : BitVec 4) (sz : Sz) (buf : Buf) (gr : BitVec 6) (aop : Aop) (gs gb : BitVec 6) (off : BitVec 25)
  /-- GLD (R436). -/
  | gld (p : BitVec 4) (w : Width) (d : Dst) (gb : BitVec 6) (off : BitVec 25)
  /-- GST (R436). -/
  | gst (p : BitVec 4) (w : Width) (vr : BitVec 6) (port : BitVec 3) (gb : BitVec 6) (off : BitVec 25)
  /-- GATOM (R437). -/
  | gatom (p : BitVec 4) (sz : Sz) (qd : BitVec 3) (aop : Aop) (gs gb : BitVec 6) (off : BitVec 25)
  /-- MCST (R438). -/
  | mcst (p : BitVec 4) (w : Width) (vr : BitVec 6) (port : BitVec 3) (gm gb : BitVec 6) (rank : BitVec 9) (xoff : BitVec 15)
  /-- CPY_TL (R448). -/
  | cpyTl (p yr ar : BitVec 4) (dir : Bool) (buf : Buf) (soff : BitVec 14) (gx : BitVec 5)
  /-- CPY_UT (R451). -/
  | cpyUt (p yr ar : BitVec 4) (dir : Bool) (buf : Buf) (soff : BitVec 14) (cbm : BitVec 12) (gx : BitVec 5)
  /-- CPY_ADD (R452). -/
  | cpyAdd (p yr ar : BitVec 4) (buf : Buf) (afmt : Afmt) (soff : BitVec 14) (cbm : BitVec 12) (gx : BitVec 5)
  /-- CPY_BC (R449). -/
  | cpyBc (p yr ar : BitVec 4) (buf : Buf) (soff : BitVec 14) (gx : BitVec 5)
  /-- CPY_EV (R450). -/
  | cpyEv (p yr ar : BitVec 4) (sae32 : Bool) (buf : Buf) (soff : BitVec 14)
  /-- CPY_RS (R271). -/
  | cpyRs (p yr ar : BitVec 4) (sae32 : Bool) (buf : Buf) (soff : BitVec 14)
  /-- CPY_PUT (R453). -/
  | cpyPut (p yr ar : BitVec 4) (buf : Buf) (soff : BitVec 14) (cbm : BitVec 12) (gx : BitVec 5)
  /-- CPY_GET (R453). -/
  | cpyGet (p yr ar : BitVec 4) (buf : Buf) (soff : BitVec 14) (cbm : BitVec 12) (gx : BitVec 5)
  /-- COLL (R454). -/
  | coll (p yr ar : BitVec 4) (buf : Buf) (mode : CollMode) (soff : BitVec 14) (cbm : BitVec 12) (gx : BitVec 5)
  /-- MIG (R455). -/
  | mig (p ar : BitVec 4) (tier : Tier) (cbm : BitVec 12)
  /-- YCLR (R457). -/
  | yclr (p yd : BitVec 4)
  /-- YSETD (R457). -/
  | ysetd (p yd : BitVec 4) (dim : BitVec 3) (stl : BitVec 14) (sth : BitVec 1) (bx : BitVec 8) (sz : BitVec 16)
  /-- YSETO (R457). -/
  | yseto (p yd : BitVec 4) (ga gb : BitVec 6)
  /-- YSETF (R457). -/
  | ysetf (p yd : BitVec 4) (esz : BitVec 2) (ndm : BitVec 3) (hi : BitVec 8) (fill : BitVec 16)
  /-- YSETB (R457). -/
  | ysetb (p yd : BitVec 4) (geo : BitVec 3)
  /-- YCPY (R457). -/
  | ycpy (p yd ys : BitVec 4)
  /-- FREEZE_END (R36). -/
  | freezeEnd (frond : Nat)
  /-- ERROR_RESPONSE_ARRIVAL (R141). -/
  | errorResponseArrival (id : Nat)
  /-- TIMED_FLIT_RELEASE (R39). -/
  | timedFlitRelease (die id : Nat)
  /-- PACKET_CONSUME (R87). -/
  | packetConsume (world queue : Nat)
  /-- PACKET_START (R129). -/
  | packetStart (id : Nat)
  /-- PACKET_COMPLETE (R99). -/
  | packetComplete (id : Nat)
  /-- NOP (R89). -/
  | nop (id : Nat)
  /-- LAUNCH (R93). -/
  | launch (id : Nat)
  /-- ALMANAC (R95). -/
  | almanac (id : Nat)
  /-- PRED (R97). -/
  | pred (id : Nat)
  /-- SIGDEC (R100). -/
  | sigdec (id : Nat)
  /-- SIGWAIT (R100). -/
  | sigwait (id : Nat)
  /-- SIGWAIT_REEVALUATE (R99). -/
  | sigwaitReevaluate (id : Nat)
  /-- SIGWAIT_TIMEOUT (R100). -/
  | sigwaitTimeout (id : Nat)
  /-- COPY (R102). -/
  | copy (id : Nat)
  /-- PARTITION (R27). -/
  | partition (id : Nat)
  /-- CHECKPOINT (R108). -/
  | checkpoint (id : Nat)
  /-- LOADKEY (R104). -/
  | loadkey (id : Nat)
  /-- ERASELOAD (R104). -/
  | eraseload (id : Nat)
  /-- DOMREKEY (R78). -/
  | domrekey (id : Nat)
  /-- IFST_LOCK (R83). -/
  | ifstLock (id : Nat)
  /-- IFST_UNLOCK (R83). -/
  | ifstUnlock (id : Nat)
  /-- IFST_RELEASE (R82). -/
  | ifstRelease (id : Nat)
  /-- CFGWR (R105). -/
  | cfgwr (id : Nat)
  /-- CFGRD (R105). -/
  | cfgrd (id : Nat)
  /-- CONFIG_REGISTER_WRITE (R105). -/
  | configRegisterWrite (addr : BitVec 32) (value : Word)
  /-- WORLD_CREATE (R73). -/
  | worldCreate (id : Nat) (key : BitVec 512)
  /-- WORLD_DRAIN (R72). -/
  | worldDrain (id : Nat)
  /-- WORLD_DRAIN_COMPLETE (R72). -/
  | worldDrainComplete (world : Nat)
  /-- WORLD_GRANT (R106). -/
  | worldGrant (id : Nat)
  /-- MEASURE (R60). -/
  | measure (id : Nat)
  /-- QUEUE_CREATE (R105). -/
  | queueCreate (id : Nat)
  /-- QUEUE_RESET (R87). -/
  | queueReset (id : Nat)
  /-- QUEUE_DESTROY (R105). -/
  | queueDestroy (id : Nat)
  /-- ALMANAC_BIND_DEADLINE (R95). -/
  | almanacBindDeadline (entry : Nat)
  /-- ALMANAC_START (R95). -/
  | almanacStart (frond : Nat)
  /-- ARMED_START (R150). -/
  | armedStart (core : Nat)
  /-- ALMANAC_LIMIT_EXPIRY (R95). -/
  | almanacLimitExpiry (frond : Nat)
  /-- FROND_START (R118). -/
  | frondStart (frond : Nat)
  /-- ITEM_START (R125). -/
  | itemStart (frond : Nat)
  /-- FROND_END (R119). -/
  | frondEnd (frond : Nat)
  /-- BARRIER_TIMEOUT (R123). -/
  | barrierTimeout (core ctx : Nat)
  /-- WAIT_TIMEOUT (R386). -/
  | waitTimeout (core ctx : Nat)
  /-- RESULT_LANDING (R12). -/
  | resultLanding (core ctx id : Nat)
  /-- QUEUE_DELIVERY (R154). -/
  | queueDelivery (id : Nat)
  /-- BANK_WAKE_DONE (R159). -/
  | bankWakeDone (core ctx bank : Nat)
  /-- TIMED_WRITE_LANDING (R170). -/
  | timedWriteLanding (id : Nat)
  /-- TIMED_READ_SAMPLE (R170). -/
  | timedReadSample (id : Nat)
  /-- UNTIMED_APPLY (R173). -/
  | untimedApply (id : Nat)
  /-- UNTIMED_SERVE (R173). -/
  | untimedServe (id : Nat)
  /-- UNTIMED_ATOMIC (R174). -/
  | untimedAtomic (id : Nat)
  /-- FENCE_COMPLETE (R176). -/
  | fenceComplete (core ctx : Nat)
  /-- MULTICAST_LANDING (R181). -/
  | multicastLanding (id : Nat)
  /-- TIMED_CHUNK_LANDING (R193). -/
  | timedChunkLanding (id : Nat)
  /-- UNTIMED_CHUNK_COMPLETE (R195). -/
  | untimedChunkComplete (core ctx copy chunk : Nat)
  /-- PUSH_ARRIVAL (R200). -/
  | pushArrival (id : Nat)
  /-- MIGRATION_WRITES_APPLIED (R205). -/
  | migrationWritesApplied (core ctx copy : Nat)
  /-- DRAIN_ROW_LANDING (R242). -/
  | drainRowLanding (id : Nat)
  /-- SA_FOLD (R265). -/
  | saFold (id : Nat)
  /-- SA_GROUP_SUM (R266). -/
  | saGroupSum (id : Nat)
  /-- SA_PLANE_ARRIVAL (R261). -/
  | saPlaneArrival (id : Nat)
  /-- CONTEXT_SAVE_DONE (R291). -/
  | contextSaveDone (core ctx : Nat)
  /-- LANDING_ENTRY (R307). -/
  | landingEntry (core ctx : Nat)
  /-- TKALIGN_RELEASE (R377). -/
  | tkalignRelease (core ctx : Nat)
  /-- SIG_WAIT_REPOST (R382). -/
  | sigWaitRepost (core ctx : Nat)
  /-- CONTEXT_RESTORE_DONE (R293). -/
  | contextRestoreDone (core ctx : Nat)
  /-- EMPTY_BUNDLE (R351). -/
  | emptyBundle (lnd qt : Bool)
  /-- ILLEGAL_ENCODING (R362). -/
  | illegalEncoding (slotIndex : Nat)
  /-- RESET_RELEASE (R61). -/
  | resetRelease (flash : Flash)
  /-- FRAME_TICK (R35). -/
  | frameTick
  /-- ENTER_RUN (R83). -/
  | enterRun
  /-- INTERFACE_DRAIN_COMPLETE (R82). -/
  | interfaceDrainComplete
  /-- ROLE_DRAIN_COMPLETE (R28). -/
  | roleDrainComplete
  /-- FLUSH_COMPLETE (R28). -/
  | flushComplete (die : Nat)
  /-- ZEROISE_COMPLETE (R28). -/
  | zeroiseComplete (die : Nat)
  /-- REENUMERATE_COMPLETE (R28). -/
  | reenumerateComplete (die : Nat)
  /-- ROLE_CHANGE_COMMIT (R28). -/
  | roleChangeCommit
  /-- DRAIN_DEADLINE_EXPIRY (R30). -/
  | drainDeadlineExpiry
  /-- LAYER_FENCE (R32). -/
  | layerFence (die : Nat) (addr : Word)
  /-- SCRATCHPAD_CORRECTABLE_ERROR (R136). -/
  | scratchpadCorrectableError (core : Nat) (addr : Word)
  /-- SCRATCHPAD_UNCORRECTABLE_ERROR (R136). -/
  | scratchpadUncorrectableError (core : Nat) (addr : Word)
  /-- NEAR_TIER_UNCORRECTABLE (R136). -/
  | nearTierUncorrectable (addr : Word) (req : Requester)
  /-- LAYER_POOL_UNCORRECTABLE (R136). -/
  | layerPoolUncorrectable (addr : Word) (req : Requester)
  /-- FAR_TIER_UNCORRECTABLE (R136). -/
  | farTierUncorrectable (addr : Word) (req : Requester)
  /-- COPY_PARITY_ERROR (R136). -/
  | copyParityError (core : Nat) (addr : Word)
  /-- CORE_RELEASE (R140). -/
  | coreRelease (die c : Nat)
  /-- LSKEW_WRITE (R41). -/
  | lskewWrite (die e : Nat) (value : Word)
  /-- LINK_CALIBRATION (R41). -/
  | linkCalibration (die e : Nat)
  /-- LINK_CALIBRATION_DONE (R42). -/
  | linkCalibrationDone (die e : Nat) (raw marg : BitVec 8) (late : Bool)
  /-- LSTAT_CLEAR (R44). -/
  | lstatClear (die e : Nat) (value : Word)
  /-- LOSTEV_CLEAR (R139). -/
  | lostevClear (die : Nat) (value : Word)
  /-- TIMED_FLIT_ARRIVAL (R44). -/
  | timedFlitArrival (die e : Nat) (outcome : FlitOutcome) (frond id : Nat) (addr : Word)
  /-- UNTIMED_FLIT_ARRIVAL (R44). -/
  | untimedFlitArrival (die e : Nat) (outcome : FlitOutcome) (id : Nat)
  /-- UE_PACKET_RECEIVE (R52). -/
  | uePacketReceive (port : Nat) (packet : UePacket)
  /-- PUT (R54). -/
  | put (world : Nat) (va : Word) (packets : List (List Byte))
  /-- GET (R54). -/
  | get (world : Nat) (va : Word) (len : Nat)
  /-- FETCH_AND_ADD (R54). -/
  | fetchAndAdd (world : Nat) (va x : Word)
  /-- COMPARE_AND_SWAP (R54). -/
  | compareAndSwap (world : Nat) (va cmp x : Word)
  /-- SWAP (R54). -/
  | swap (world : Nat) (va x : Word)
  /-- STATUS_WINDOW_GET (R81). -/
  | statusWindowGet
  /-- RUN_RECEIVE (R56). -/
  | runReceive (peer : Nat) (arrival : RunArrival)
  /-- RUN_IDLE_CLOSE (R55). -/
  | runIdleClose (peer : Nat)
  /-- RUN_RETRY_EXHAUSTED (R56). -/
  | runRetryExhausted (run : RunName)
  /-- CXL_LINK_DOWN (R59). -/
  | cxlLinkDown (die port : Nat)
  /-- GET_VERSION (R65). -/
  | getVersion (conn : Nat) (inSession : Bool)
  /-- GET_CAPABILITIES (R65). -/
  | getCapabilities (asker : Asker)
  /-- NEGOTIATE_ALGORITHMS (R63). -/
  | negotiateAlgorithms (asker : Asker) (offered : List SpdmAlg)
  /-- GET_DIGESTS (R65). -/
  | getDigests (asker : Asker)
  /-- GET_CERTIFICATE (R64). -/
  | getCertificate (asker : Asker) (slot offset len : Nat)
  /-- CHALLENGE (R64). -/
  | challenge (asker : Asker) (slot : Nat) (nonce : Word) (busy : Bool)
  /-- GET_MEASUREMENTS (R64). -/
  | getMeasurements (conn : Nat) (session : Option Nat) (slot index : Nat) (signed : Bool) (nonce : Word) (busy : Bool)
  /-- KEY_EXCHANGE (R65). -/
  | keyExchange (asker : Asker) (slot : Nat) (exchange : List Byte) (busy : Bool)
  /-- FINISH (R65). -/
  | finish (conn session : Nat) (mac : BitVec 384)
  /-- END_SESSION (R65). -/
  | endSession (conn session : Nat)
  /-- SPDM_UNSUPPORTED_REQUEST (R65). -/
  | spdmUnsupportedRequest (conn : Nat) (code : BitVec 8)
  /-- CHANNEL_PUT (R84). -/
  | channelPut (msg : ChMsg)
  /-- COMMAND_PACKET_MESSAGE (R84). -/
  | commandPacketMessage (msg : ChMsg)
  /-- TAIL_WRITE (R86). -/
  | tailWrite (msg : ChMsg)
  /-- HEARTBEAT (R70). -/
  | heartbeat (msg : ChMsg)
  /-- CHANNEL_CLOSE (R68). -/
  | channelClose (msg : ChMsg)
  /-- HEARTBEAT_TIMEOUT (R71). -/
  | heartbeatTimeout (session : Nat)
  /-- KEY_HOLD_EXPIRY (R71). -/
  | keyHoldExpiry (world : Nat)
  /-- MEASURED_LOAD (R345). -/
  | measuredLoad (world : Nat) (file : List Byte)
  /-- REKEY_DRAINED (R78). -/
  | rekeyDrained (report : RekeyReport)
  /-- REKEY_SWITCH (R78). -/
  | rekeySwitch (domain : Nat)
  /-- REKEY_SWITCHED (R78). -/
  | rekeySwitched (report : RekeyReport) (secret : BitVec 256)
  /-- REKEY_RESUME (R78). -/
  | rekeyResume (domain : Nat)
  /-- REKEY_PHASE_TIMEOUT (R79). -/
  | rekeyPhaseTimeout (domain peer : Nat)
  /-- CHECKPOINT_BARRIER (R108). -/
  | checkpointBarrier
  /-- CHECKPOINT_BUDGET_EXPIRY (R108). -/
  | checkpointBudgetExpiry
  /-- CHECKPOINT_SAVE_DONE (R108). -/
  | checkpointSaveDone
  /-- CHECKPOINT_STREAM_DONE (R108). -/
  | checkpointStreamDone (sinkOk : Bool)
  /-- CHECKPOINT_BLOB_DONE (R108). -/
  | checkpointBlobDone
  /-- DOMFORM (R76). -/
  | domform (id : Nat) (proofs : List MemberProof)
  /-- WORLD_OPEN (R67). -/
  | worldOpen (session : Nat) (body : List Byte)
  /-- LEASE_CLAIM (R110). -/
  | leaseClaim (die : BitVec 8)
  /-- LEASE_RENEW (R110). -/
  | leaseRenew (die : BitVec 8) (epoch : BitVec 32)
  /-- LEASE_EXPIRY (R110). -/
  | leaseExpiry
  /-- BIND_RECORD_WRITE (R116). -/
  | bindRecordWrite (entry word : Nat) (value : Word)
  /-- COMMIT (R117). -/
  | commit (entry : Nat) (value : Word)
  /-- MIGRATION_COPY_DONE (R205). -/
  | migrationCopyDone (core ctx copy : Nat) (frame : Option Word)
  /-- CONTEXT_PREEMPT (R275). -/
  | contextPreempt (core ctx : Nat)
  /-- CONTEXT_RESUME (R276). -/
  | contextResume (core ctx : Nat)
  /-- CONTEXT_SAVE (R291). -/
  | contextSave (core ctx : Nat)
  /-- CONTEXT_RESTORE (R293). -/
  | contextRestore (core ctx : Nat)
  /-- INSTRUCTION_STORE_WRITE (R297). -/
  | instructionStoreWrite (core frame syllable : Nat) (value : Syllable)
  /-- DIRECTORY_WRITE (R299). -/
  | directoryWrite (core frame : Nat) (value : Word)
  /-- FREINO_ENTRY_TRAP (R311). -/
  | freinoEntryTrap (core ctx : Nat)
  /-- RESET (R82). -/
  | reset
  /-- REKEY_REQUEST (R78). -/
  | rekeyRequest (ask : RekeyAsk)
  /-- CHECKPOINT_RESTORE (R75). -/
  | checkpointRestore (blob : Blob)
  deriving DecidableEq, Repr

end Sys2Proof
end

