-- ==== Sys2Proof/WellFormed.lean ====
section
/-! DEFINITION. Which steps are well formed: the field values that an encoding admits (16 R355, R362 and each form's own
rule), and the ranges of the numbers that events carry. -/

namespace Sys2Proof

/-- Element size in bits (R207). -/
def Fmt.bits : Fmt → Nat
  | .f32 | .i32 | .n32 => 32
  | .bf16 | .f16 | .i16 | .n16 => 16
  | .i8 | .n8 | .t8 | .e8 => 8
  | .i64 | .n64 => 64
  | .t6 => 6

/-- Width in bits (R157). -/
def Width.bits : Width → Nat
  | .w256 => 256 | .w512 => 512 | .w1024 => 1024

/-- The floating formats F of R403. -/
def Fmt.isF : Fmt → Bool
  | .f32 | .bf16 | .f16 => true
  | _ => false

/-- The signed formats I of R403. -/
def Fmt.isI : Fmt → Bool
  | .i8 | .i16 | .i32 | .i64 => true
  | _ => false

/-- The unsigned formats N of R403. -/
def Fmt.isN : Fmt → Bool
  | .n8 | .n16 | .n32 | .n64 => true
  | _ => false

/-- The tapered formats (R213). -/
def Fmt.isT : Fmt → Bool
  | .t8 | .t6 => true
  | _ => false

/-- I or N. -/
def Fmt.isIN (f : Fmt) : Bool := f.isI || f.isN

/-- F, I or N. -/
def Fmt.isFIN (f : Fmt) : Bool := f.isF || f.isIN

/-- The formats `vcvt` converts between (R413). -/
def Fmt.isCvt (f : Fmt) : Bool := f.isFIN || f.isT

/-- Ports 6 and 7 are an illegal encoding (R156). -/
def Src.portOk : Src → Bool
  | .v _ port => decide (port.toNat ≤ 5)
  | .q _ _ => true

/-- The buffers an L instruction may name (R430). -/
def Buf.isL : Buf → Bool
  | .ab | .cb | .lb | .xb => true
  | _ => false

/-- Sizes of four and eight bytes (R434). -/
def Sz.isWord : Sz → Bool
  | .b32 | .b64 => true
  | _ => false

/-- Layer dies have identifiers 8 to 39 (R15). -/
def layerDie (d : Nat) : Bool := decide (8 ≤ d ∧ d < 40)

/-- Every die but the reserved identifier 7 (R15). -/
def anyDie (d : Nat) : Bool := decide (d < 40 ∧ d ≠ 7)

/-- The index that a coordinator gives this package is one of R203's. -/
def RekeyKind.selfOk : RekeyKind → Bool
  | .enrol _ self _ _ _ _ _ => decide (self < 64)
  | _ => true

/-- The well-formed steps. -/
def Instr.Wf : Instr → Prop
  | .flushComplete die => layerDie die
  | .zeroiseComplete die => layerDie die
  | .reenumerateComplete die => layerDie die
  | .layerFence die _ => layerDie die
  | .scratchpadCorrectableError core _ => core < 512
  | .freezeEnd frond => frond < 384
  | .scratchpadUncorrectableError core _ => core < 512
  | .copyParityError core _ => core < 512
  | .coreRelease die c => layerDie die ∧ c < 16
  | .lskewWrite die _ _ => anyDie die
  | .linkCalibration die _ => anyDie die
  | .linkCalibrationDone die _ _ _ _ => anyDie die
  | .lstatClear die _ _ => anyDie die
  | .lostevClear die _ => anyDie die
  | .timedFlitArrival die _ _ _ _ _ => anyDie die
  | .timedFlitRelease die _ => anyDie die
  | .untimedFlitArrival die _ _ _ => anyDie die
  | .uePacketReceive port _ => port < 32
  | .put world _ _ => world < 256
  | .get world _ _ => world < 256
  | .fetchAndAdd world _ _ => world < 256
  | .compareAndSwap world _ _ _ => world < 256
  | .swap world _ _ => world < 256
  | .runReceive peer _ => peer < 64
  | .runIdleClose peer => peer < 64
  | .runRetryExhausted r => r.peer < 64
  | .cxlLinkDown die port => (die = 5 ∨ die = 6) ∧ port < 2
  | .getVersion conn _ => conn < 16
  | .getCapabilities q => q.conn < 16
  | .negotiateAlgorithms q _ => q.conn < 16
  | .getDigests q => q.conn < 16
  | .getCertificate q _ _ _ => q.conn < 16
  | .challenge q _ _ _ => q.conn < 16
  | .getMeasurements conn _ _ _ _ _ _ => conn < 16
  | .keyExchange q _ _ _ => q.conn < 16
  | .finish conn _ _ => conn < 16
  | .endSession conn _ => conn < 16
  | .spdmUnsupportedRequest conn _ => conn < 16
  | .heartbeatTimeout session => session < 64
  | .keyHoldExpiry world => world < 256
  | .measuredLoad world _ => world < 256
  | .packetConsume world queue => world < 256 ∧ queue < 16
  | .worldDrainComplete world => world < 256
  | .worldOpen session _ => session < 64
  | .almanacBindDeadline entry => entry < 256
  | .almanacStart frond => frond < 384
  | .armedStart core => core < 512
  | .almanacLimitExpiry frond => frond < 384
  | .bindRecordWrite entry word _ => entry < 256 ∧ word < 8
  | .commit entry _ => entry < 256
  | .frondStart frond => frond < 384
  | .itemStart frond => frond < 384
  | .frondEnd frond => frond < 384
  | .barrierTimeout core ctx => core < 512 ∧ ctx < 4
  | .waitTimeout core ctx => core < 512 ∧ ctx < 4
  | .resultLanding core ctx _ => core < 512 ∧ ctx < 4
  | .bankWakeDone core ctx bank => core < 512 ∧ ctx < 4 ∧ 1 ≤ bank ∧ bank < 4
  | .fenceComplete core ctx => core < 512 ∧ ctx < 4
  | .untimedChunkComplete core ctx _ _ => core < 512 ∧ ctx < 4
  | .migrationWritesApplied core ctx _ => core < 512 ∧ ctx < 4
  | .migrationCopyDone core ctx _ _ => core < 512 ∧ ctx < 4
  | .contextPreempt core ctx => core < 512 ∧ ctx < 4
  | .contextResume core ctx => core < 512 ∧ ctx < 4
  | .contextSave core ctx => core < 512 ∧ ctx < 4
  | .contextSaveDone core ctx => core < 512 ∧ ctx < 4
  | .contextRestore core ctx => core < 512 ∧ ctx < 4
  | .instructionStoreWrite core frame syllable _ => core < 512 ∧ frame < 64 ∧ syllable < 1024
  | .directoryWrite core frame _ => core < 512 ∧ frame < 64
  | .landingEntry core ctx => core < 512 ∧ ctx < 4
  | .freinoEntryTrap core ctx => core < 512 ∧ ctx < 4
  | .tkalignRelease core ctx => core < 512 ∧ ctx < 4
  | .sigWaitRepost core ctx => core < 512 ∧ ctx < 4
  | .contextRestoreDone core ctx => core < 512 ∧ ctx < 4
  | .emptyBundle lnd qt => lnd = true → qt = true
  | .illegalEncoding slotIndex => slotIndex ≤ 10 ∨ slotIndex = 15
  | .rekeyRequest a => a.peer < 64 ∧ a.kind.selfOk = true
  | .barL _ lev => lev.toNat ≤ 6
  | .childLaunch _ _ _ gb => gb.toNat % 2 = 0
  | .vadd _ _ fmt _ rm sa sb => fmt.isFIN ∧ (fmt.isF ∨ rm = .rne) ∧ sa.portOk ∧ sb.portOk
  | .vsub _ _ fmt _ rm sa sb => fmt.isFIN ∧ (fmt.isF ∨ rm = .rne) ∧ sa.portOk ∧ sb.portOk
  | .vmul _ _ fmt _ rm sa sb => fmt.isFIN ∧ (fmt.isF ∨ rm = .rne) ∧ sa.portOk ∧ sb.portOk
  | .vfma _ _ fmt _ _ sa sb sc => fmt.isF ∧ sa.portOk ∧ sb.portOk ∧ sc.portOk
  | .vfnma _ _ fmt _ _ sa sb sc => fmt.isF ∧ sa.portOk ∧ sb.portOk ∧ sc.portOk
  | .vadds _ _ fmt _ sa sb => fmt.isIN ∧ sa.portOk ∧ sb.portOk
  | .vsubs _ _ fmt _ sa sb => fmt.isIN ∧ sa.portOk ∧ sb.portOk
  | .vmin _ _ fmt _ sa sb => fmt.isFIN ∧ sa.portOk ∧ sb.portOk
  | .vmax _ _ fmt _ sa sb => fmt.isFIN ∧ sa.portOk ∧ sb.portOk
  | .vabs _ _ fmt _ sa => (fmt.isF ∨ fmt.isI) ∧ sa.portOk
  | .vneg _ _ fmt _ sa => (fmt.isF ∨ fmt.isI) ∧ sa.portOk
  | .vand _ _ _ sa sb => sa.portOk ∧ sb.portOk
  | .vor _ _ _ sa sb => sa.portOk ∧ sb.portOk
  | .vxor _ _ _ sa sb => sa.portOk ∧ sb.portOk
  | .vandn _ _ _ sa sb => sa.portOk ∧ sb.portOk
  | .vshl _ _ fmt _ sa sb => fmt.isIN ∧ sa.portOk ∧ sb.portOk
  | .vshr _ _ fmt _ sa sb => fmt.isIN ∧ sa.portOk ∧ sb.portOk
  | .vsra _ _ fmt _ sa sb => fmt.isI ∧ sa.portOk ∧ sb.portOk
  | .vshli _ _ fmt _ n sa => fmt.isIN ∧ n.toNat < fmt.bits ∧ sa.portOk
  | .vshri _ _ fmt _ n sa => fmt.isIN ∧ n.toNat < fmt.bits ∧ sa.portOk
  | .vsrai _ _ fmt _ n sa => fmt.isI ∧ n.toNat < fmt.bits ∧ sa.portOk
  | .vcmp _ _ fmt _ _ sa sb => fmt.isFIN ∧ sa.portOk ∧ sb.portOk
  | .vsel _ _ _ sa sb sc => sa.portOk ∧ sb.portOk ∧ sc.portOk
  | .vcvt _ _ fmt _ _ sat src sa => fmt.isCvt ∧ src.isCvt ∧ fmt ≠ src ∧ (sat = false ∨ (fmt.isIN ∧ src.isIN)) ∧ sa.portOk
  | .vdup _ _ fmt _ _ => fmt ≠ .t6
  | .vrsum _ _ fmt _ sa => fmt.isFIN ∧ sa.portOk
  | .vrmax _ _ fmt _ sa => fmt.isFIN ∧ sa.portOk
  | .vrmin _ _ fmt _ sa => fmt.isFIN ∧ sa.portOk
  | .saAdd _ _ fmt _ sa => fmt.isF ∧ sa.portOk
  | .expF _ w _ sa => w ≠ .w1024 ∧ sa.portOk
  | .expR _ w _ sa => w ≠ .w1024 ∧ sa.portOk
  | .exp2F _ w _ sa => w ≠ .w1024 ∧ sa.portOk
  | .exp2R _ w _ sa => w ≠ .w1024 ∧ sa.portOk
  | .log2F _ w _ sa => w ≠ .w1024 ∧ sa.portOk
  | .log2R _ w _ sa => w ≠ .w1024 ∧ sa.portOk
  | .rcpF _ w _ sa => w ≠ .w1024 ∧ sa.portOk
  | .rcpR _ w _ sa => w ≠ .w1024 ∧ sa.portOk
  | .rsqF _ w _ sa => w ≠ .w1024 ∧ sa.portOk
  | .rsqR _ w _ sa => w ≠ .w1024 ∧ sa.portOk
  | .sqrtF _ w _ sa => w ≠ .w1024 ∧ sa.portOk
  | .sqrtR _ w _ sa => w ≠ .w1024 ∧ sa.portOk
  | .tanhF _ w _ sa => w ≠ .w1024 ∧ sa.portOk
  | .tanhR _ w _ sa => w ≠ .w1024 ∧ sa.portOk
  | .sigmF _ w _ sa => w ≠ .w1024 ∧ sa.portOk
  | .sigmR _ w _ sa => w ≠ .w1024 ∧ sa.portOk
  | .sinF _ w _ sa => w ≠ .w1024 ∧ sa.portOk
  | .sinR _ w _ sa => w ≠ .w1024 ∧ sa.portOk
  | .cosF _ w _ sa => w ≠ .w1024 ∧ sa.portOk
  | .cosR _ w _ sa => w ≠ .w1024 ∧ sa.portOk
  | .xpack _ w fmt _ src sa _ => w ≠ .w1024 ∧ fmt.isT ∧ src.isF ∧ sa.portOk
  | .xunpack _ w fmt _ src sa _ => w ≠ .w1024 ∧ fmt.isF ∧ src.isT ∧ sa.portOk
  | .xscale _ w fmt _ sa _ => w ≠ .w1024 ∧ fmt.isF ∧ sa.portOk
  | .xmaxe _ w fmt _ tgt sa sb => w ≠ .w1024 ∧ fmt.isF ∧ tgt.isT ∧ sa.portOk ∧ sb.portOk
  | .xperm _ w fmt _ sa sb => w ≠ .w1024 ∧ fmt.isI ∧ sa.portOk ∧ sb.portOk
  | .xrot _ w fmt _ sa _ => w ≠ .w1024 ∧ fmt.isI ∧ sa.portOk
  | .xzip _ w fmt _ _ sa sb => w ≠ .w1024 ∧ fmt.isI ∧ sa.portOk ∧ sb.portOk
  | .xunzip _ w fmt _ _ sa sb => w ≠ .w1024 ∧ fmt.isI ∧ sa.portOk ∧ sb.portOk
  | .xtrans _ w fmt _ lrows sa => w ≠ .w1024 ∧ fmt.isI ∧ 2 ^ lrows.toNat * fmt.bits ≤ w.bits ∧ lrows.toNat ≤ 6 ∧ sa.portOk
  | .saNrd _ w fmt _ sa _ => w ≠ .w1024 ∧ (fmt.isF ∨ (fmt = .t8 ∧ w = .w512)) ∧ sa.portOk
  | .mrep _ n => n ≠ 0#12
  | .ld _ _ buf _ _ _ => buf.isL
  | .st _ _ buf _ port _ _ => buf.isL ∧ port.toNat ≤ 5
  | .lds _ _ buf _ _ _ _ => buf.isL
  | .sts _ _ buf _ _ _ => buf.isL
  | .atom _ sz buf _ aop gs _ _ => (buf = .lb ∨ buf = .xb) ∧ sz.isWord ∧ (aop = .cas → gs.toNat % 2 = 0)
  | .gst _ _ _ port _ _ => port.toNat ≤ 5
  | .gatom _ sz _ aop gs _ _ => sz.isWord ∧ (aop = .cas → gs.toNat % 2 = 0)
  | .mcst _ _ _ port _ _ _ _ => port.toNat ≤ 5
  | .cpyBc _ _ _ _ _ gx => gx.toNat % 2 = 0
  | .ysetd _ _ dim stl sth bx sz => dim.toNat ≤ 4 ∧ (if dim = 0#3 then stl = 0#14 ∧ sth = 0#1 else sz.toNat < 4096 ∧ bx.toNat < 64)
  | .uLoop _ _ cnt => cnt ≠ 0#24
  | .resetRelease .. | .frameTick | .enterRun | .interfaceDrainComplete | .roleDrainComplete
  | .roleChangeCommit | .drainDeadlineExpiry | .nearTierUncorrectable .. | .layerPoolUncorrectable ..
  | .farTierUncorrectable .. | .errorResponseArrival .. | .statusWindowGet | .channelPut ..
  | .commandPacketMessage .. | .tailWrite .. | .heartbeat .. | .channelClose .. | .rekeyDrained ..
  | .rekeySwitch .. | .rekeySwitched .. | .rekeyResume .. | .rekeyPhaseTimeout .. | .packetStart ..
  | .packetComplete .. | .nop .. | .launch .. | .almanac .. | .pred .. | .sigdec .. | .sigwait ..
  | .sigwaitReevaluate .. | .sigwaitTimeout .. | .copy .. | .partition .. | .checkpoint ..
  | .checkpointBarrier | .checkpointBudgetExpiry | .checkpointSaveDone | .checkpointStreamDone ..
  | .checkpointBlobDone | .loadkey .. | .eraseload .. | .domform .. | .domrekey .. | .ifstLock ..
  | .ifstUnlock .. | .ifstRelease .. | .cfgwr .. | .cfgrd .. | .configRegisterWrite .. | .worldCreate ..
  | .worldDrain .. | .worldGrant .. | .measure .. | .queueCreate .. | .queueReset .. | .queueDestroy ..
  | .leaseClaim .. | .leaseRenew .. | .leaseExpiry | .queueDelivery .. | .timedWriteLanding ..
  | .timedReadSample .. | .untimedApply .. | .untimedServe .. | .untimedAtomic .. | .multicastLanding ..
  | .timedChunkLanding .. | .pushArrival .. | .drainRowLanding .. | .saFold .. | .saGroupSum ..
  | .saPlaneArrival .. | .reset | .checkpointRestore .. | .br .. | .brx .. | .call .. | .lsetup .. | .lend ..
  | .lquit .. | .callx .. | .ret .. | .tkalign .. | .sigDec .. | .sigWait .. | .fence .. | .cwait ..
  | .swait .. | .softwareTrap .. | .halt .. | .rdsys .. | .wrsys .. | .wfe .. | .saSealC .. | .saSealG ..
  | .saSealP .. | .add .. | .sub .. | .adds .. | .subs .. | .mul .. | .mulh .. | .mulhn .. | .div ..
  | .rem .. | .addi .. | .xori .. | .andi .. | .ori .. | .and .. | .or .. | .xor .. | .shli .. | .shri ..
  | .srai .. | .roti .. | .shl .. | .shr .. | .sra .. | .rot .. | .bfx .. | .bfxs .. | .bfi .. | .fsh ..
  | .popc .. | .clz .. | .ctz .. | .min .. | .max .. | .cmp .. | .cmpi .. | .sel .. | .movi .. | .andn ..
  | .pand .. | .por .. | .pxor .. | .pandn .. | .lea .. | .movm .. | .movg .. | .leaa .. | .spStG ..
  | .spStV .. | .spLdG .. | .spLdV .. | .saSax .. | .mcall .. | .mprog .. | .mprogT .. | .mwb .. | .mstat ..
  | .mdrain .. | .gld .. | .cpyTl .. | .cpyUt .. | .cpyAdd .. | .cpyEv .. | .cpyRs .. | .cpyPut ..
  | .cpyGet .. | .coll .. | .mig .. | .yclr .. | .yseto .. | .ysetf .. | .ysetb .. | .ycpy .. | .uaLd ..
  | .ubLd .. | .uStep .. | .uDrain .. | .uAddp .. | .uEnd => True

/-- Well-formedness is decided by computation. -/
def Instr.wf (i : Instr) : Bool :=
  @decide i.Wf (by cases i <;> simp only [Instr.Wf] <;> infer_instance)

end Sys2Proof
end

