-- ==== Sys2Proof/Decode.lean ====
section
/-! DEFINITION. From bits to instructions and back (16 R350 to R363): bit fields, the codes of the modifier fields, the
decoder of each slot's map, the bundle decoder with the legality checks of R363, and after them the encoder. -/

namespace Sys2Proof

/-- Bits lo + n − 1 : lo of a syllable or word (R7). -/
def fld {w : Nat} (x : BitVec w) (lo n : Nat) : BitVec n := x.extractLsb' lo n

/-- One bit of a syllable or word. -/
def bit {w : Nat} (x : BitVec w) (i : Nat) : Bool := x.getLsbD i

/-- The codes of Width (R157). -/
def Width.code : Width → BitVec 2
  | .w256 => 0 | .w512 => 1 | .w1024 => 2

/-- The Width of a code; `none` where the code is an illegal encoding. -/
def Width.ofCode (x : BitVec 2) : Option Width :=
  match x.toNat with
  | 0 => some .w256 | 1 => some .w512 | 2 => some .w1024
  | _ => none

/-- The codes of Fmt (R207). -/
def Fmt.code : Fmt → BitVec 4
  | .f32 => 0 | .bf16 => 1 | .f16 => 2 | .i8 => 3 | .i16 => 4 | .i32 => 5 | .i64 => 6 | .n8 => 7 | .n16 => 8
  | .n32 => 9 | .n64 => 10 | .t8 => 11 | .t6 => 12 | .e8 => 13

/-- The Fmt of a code; `none` where the code is an illegal encoding. -/
def Fmt.ofCode (x : BitVec 4) : Option Fmt :=
  match x.toNat with
  | 0 => some .f32 | 1 => some .bf16 | 2 => some .f16 | 3 => some .i8 | 4 => some .i16 | 5 => some .i32
  | 6 => some .i64 | 7 => some .n8 | 8 => some .n16 | 9 => some .n32 | 10 => some .n64 | 11 => some .t8
  | 12 => some .t6 | 13 => some .e8
  | _ => none

/-- The codes of Rm (R209). -/
def Rm.code : Rm → BitVec 2
  | .rne => 0 | .rtz => 1 | .rup => 2 | .rdn => 3

/-- The Rm of a code; `none` where the code is an illegal encoding. -/
def Rm.ofCode (x : BitVec 2) : Option Rm :=
  match x.toNat with
  | 0 => some .rne | 1 => some .rtz | 2 => some .rup | 3 => some .rdn
  | _ => none

/-- The codes of Cnd (R356). -/
def Cnd.code : Cnd → BitVec 3
  | .eq => 0 | .ne => 1 | .lt => 2 | .ge => 3 | .ltu => 4 | .geu => 5

/-- The Cnd of a code; `none` where the code is an illegal encoding. -/
def Cnd.ofCode (x : BitVec 3) : Option Cnd :=
  match x.toNat with
  | 0 => some .eq | 1 => some .ne | 2 => some .lt | 3 => some .ge | 4 => some .ltu | 5 => some .geu
  | _ => none

/-- The codes of VCnd (R359). -/
def VCnd.code : VCnd → BitVec 3
  | .eq => 0 | .ne => 1 | .lt => 2 | .le => 3 | .gt => 4 | .ge => 5

/-- The VCnd of a code; `none` where the code is an illegal encoding. -/
def VCnd.ofCode (x : BitVec 3) : Option VCnd :=
  match x.toNat with
  | 0 => some .eq | 1 => some .ne | 2 => some .lt | 3 => some .le | 4 => some .gt | 5 => some .ge
  | _ => none

/-- The codes of Buf (R160). -/
def Buf.code : Buf → BitVec 3
  | .wb => 0 | .ab => 1 | .cb => 2 | .sb => 3 | .lb => 4 | .spb => 5 | .xb => 6

/-- The Buf of a code; `none` where the code is an illegal encoding. -/
def Buf.ofCode (x : BitVec 3) : Option Buf :=
  match x.toNat with
  | 0 => some .wb | 1 => some .ab | 2 => some .cb | 3 => some .sb | 4 => some .lb | 5 => some .spb
  | 6 => some .xb
  | _ => none

/-- The codes of Scope (R176). -/
def Scope.code : Scope → BitVec 3
  | .c => 0 | .d => 1 | .col => 2 | .pkg => 3 | .fab => 4

/-- The Scope of a code; `none` where the code is an illegal encoding. -/
def Scope.ofCode (x : BitVec 3) : Option Scope :=
  match x.toNat with
  | 0 => some .c | 1 => some .d | 2 => some .col | 3 => some .pkg | 4 => some .fab
  | _ => none

/-- The codes of Aop (R429). -/
def Aop.code : Aop → BitVec 3
  | .add => 0 | .swap => 1 | .cas => 2 | .and => 3 | .or => 4 | .xor => 5 | .smax => 6 | .umax => 7

/-- The Aop of a code; `none` where the code is an illegal encoding. -/
def Aop.ofCode (x : BitVec 3) : Option Aop :=
  match x.toNat with
  | 0 => some .add | 1 => some .swap | 2 => some .cas | 3 => some .and | 4 => some .or | 5 => some .xor
  | 6 => some .smax | 7 => some .umax
  | _ => none

/-- The codes of Sz (R429). -/
def Sz.code : Sz → BitVec 2
  | .b8 => 0 | .b16 => 1 | .b32 => 2 | .b64 => 3

/-- The Sz of a code; `none` where the code is an illegal encoding. -/
def Sz.ofCode (x : BitVec 2) : Option Sz :=
  match x.toNat with
  | 0 => some .b8 | 1 => some .b16 | 2 => some .b32 | 3 => some .b64
  | _ => none

/-- The codes of Afmt (R444). -/
def Afmt.code : Afmt → BitVec 3
  | .f32 => 1 | .bf16 => 2 | .i32 => 3 | .i64 => 4 | .sa => 5

/-- The Afmt of a code; `none` where the code is an illegal encoding. -/
def Afmt.ofCode (x : BitVec 3) : Option Afmt :=
  match x.toNat with
  | 1 => some .f32 | 2 => some .bf16 | 3 => some .i32 | 4 => some .i64 | 5 => some .sa
  | _ => none

/-- The codes of Tier (R444). -/
def Tier.code : Tier → BitVec 3
  | .near => 0 | .lp => 1 | .cxl => 2

/-- The Tier of a code; `none` where the code is an illegal encoding. -/
def Tier.ofCode (x : BitVec 3) : Option Tier :=
  match x.toNat with
  | 0 => some .near | 1 => some .lp | 2 => some .cxl
  | _ => none

/-- The codes of SysReg (R165). -/
def SysReg.code : SysReg → BitVec 8
  | .ltrip => 0 | .lpass => 1 | .lrot => 2 | .ctxid => 3 | .coreid => 4 | .dieid => 5 | .world => 6
  | .prof => 7 | .wid => 8 | .wlay => 9 | .tslc => 10 | .dtime => 11 | .gtick => 12 | .qst => 13
  | .vbank => 14 | .xcause => 16 | .xval => 17 | .xtok => 18 | .xcnt => 19

/-- The SysReg of a code; `none` where the code is an illegal encoding. -/
def SysReg.ofCode (x : BitVec 8) : Option SysReg :=
  match x.toNat with
  | 0 => some .ltrip | 1 => some .lpass | 2 => some .lrot | 3 => some .ctxid | 4 => some .coreid
  | 5 => some .dieid | 6 => some .world | 7 => some .prof | 8 => some .wid | 9 => some .wlay
  | 10 => some .tslc | 11 => some .dtime | 12 => some .gtick | 13 => some .qst | 14 => some .vbank
  | 16 => some .xcause | 17 => some .xval | 18 => some .xtok | 19 => some .xcnt
  | _ => none

/-- The codes of MFmt (R230). -/
def MFmt.code : MFmt → BitVec 3
  | .t8 => 0 | .t6 => 1 | .bf16 => 2

/-- The MFmt of a code; `none` where the code is an illegal encoding. -/
def MFmt.ofCode (x : BitVec 3) : Option MFmt :=
  match x.toNat with
  | 0 => some .t8 | 1 => some .t6 | 2 => some .bf16
  | _ => none

/-- The codes of DrainDst (R238). -/
def DrainDst.code : DrainDst → BitVec 2
  | .cb => 0 | .sb => 1 | .queue => 2

/-- The DrainDst of a code; `none` where the code is an illegal encoding. -/
def DrainDst.ofCode (x : BitVec 2) : Option DrainDst :=
  match x.toNat with
  | 0 => some .cb | 1 => some .sb | 2 => some .queue
  | _ => none

/-- The code of a `coll` mode (R444). -/
def CollMode.code : CollMode → BitVec 3
  | .put => 0
  | .add f => f.code

/-- The `coll` mode of a code. -/
def CollMode.ofCode (x : BitVec 3) : Option CollMode :=
  if x = 0#3 then some .put else (Afmt.ofCode x).map .add

/-- The source field (R185): Q, then a register and port, or zero, a queue, PK and zero. -/
def Src.code : Src → BitVec 10
  | .v r port => 0#1 ++ r ++ port
  | .q r pk => 1#1 ++ 0#3 ++ r ++ BitVec.ofBool pk ++ 0#2

/-- The source a field names; a queue source with nonzero bits 8:6 or 1:0 is an illegal encoding (R354). -/
def Src.ofCode (x : BitVec 10) : Option Src :=
  if bit x 9 then
    if fld x 6 3 = 0#3 ∧ fld x 0 2 = 0#2 then some (.q (fld x 3 3) (bit x 2)) else none
  else some (.v (fld x 3 6) (fld x 0 3))

/-- A load destination in bits 15:6 of an L syllable: VR, PORT zero, DQ (R185, R429). -/
def Dst.code : Dst → BitVec 10
  | .v r => r ++ 0#3 ++ 0#1
  | .q r => 0#3 ++ r ++ 0#3 ++ 1#1

/-- The destination those bits name. -/
def Dst.ofCode (x : BitVec 10) : Option Dst :=
  if fld x 1 3 = 0#3 then
    if bit x 0 then
      if fld x 7 3 = 0#3 then some (.q (fld x 4 3)) else none
    else some (.v (fld x 4 6))
  else none

/-- The C map (R357). -/
def decodeC (w0 : Syllable) : Option Instr :=
  let p : BitVec 4 := fld w0 21 4
  match (fld w0 25 6).toNat with
  | 0x01 => if fld w0 0 16 = 0#16 then
      some (.br p (fld w0 16 5))
    else none
  | 0x02 => if fld w0 0 15 = 0#15 then
      some (.brx p (fld w0 15 6))
    else none
  | 0x03 => if fld w0 0 5 = 0#5 then
      some (.call p (fld w0 16 5) (fld w0 11 5) (fld w0 5 6))
    else none
  | 0x04 => if fld w0 0 8 = 0#8 then
      some (.lsetup p (fld w0 15 6) (fld w0 12 3) (fld w0 8 4))
    else none
  | 0x05 => if fld w0 0 21 = 0#21 then
      some (.lend p)
    else none
  | 0x06 => if fld w0 0 16 = 0#16 then
      some (.lquit p (fld w0 16 5))
    else none
  | 0x07 => if fld w0 0 4 = 0#4 then
      some (.callx p (fld w0 15 6) (fld w0 10 5) (fld w0 4 6))
    else none
  | 0x08 => if fld w0 0 15 = 0#15 then
      some (.ret p (fld w0 15 6))
    else none
  | 0x09 => if fld w0 0 18 = 0#18 then
      some (.barL p (fld w0 18 3))
    else none
  | 0x0A => if fld w0 0 11 = 0#11 then
      some (.tkalign p (fld w0 11 10))
    else none
  | 0x0B => if fld w0 0 3 = 0#3 then
      some (.childLaunch p (fld w0 15 6) (fld w0 9 6) (fld w0 3 6))
    else none
  | 0x0C => some (.sigDec p (fld w0 15 6) (fld w0 6 9) (fld w0 0 6))
  | 0x0D => some (.sigWait p (fld w0 15 6) (fld w0 6 9) (fld w0 0 6))
  | 0x0E => if fld w0 0 18 = 0#18 then
      (do let scope ← Scope.ofCode (fld w0 18 3); some (.fence p scope))
    else none
  | 0x10 => if fld w0 0 3 = 0#3 then
      some (.cwait p (fld w0 15 6) (fld w0 3 12))
    else none
  | 0x11 => if fld w0 0 4 = 0#4 then
      some (.swait p (fld w0 15 6) (fld w0 4 11))
    else none
  | 0x12 => if fld w0 0 5 = 0#5 then
      some (.softwareTrap p (fld w0 5 16))
    else none
  | 0x13 => if fld w0 0 21 = 0#21 then
      some (.halt p)
    else none
  | 0x14 => if fld w0 0 7 = 0#7 then
      (do let sys ← SysReg.ofCode (fld w0 7 8); some (.rdsys p (fld w0 15 6) sys))
    else none
  | 0x15 => if fld w0 0 7 = 0#7 then
      (do let sys ← SysReg.ofCode (fld w0 7 8); some (.wrsys p (fld w0 15 6) sys))
    else none
  | 0x16 => if fld w0 0 21 = 0#21 then
      some (.wfe p)
    else none
  | 0x18 => if fld w0 7 2 = 0#2 ∧ fld w0 0 7 = 0#7 then
      some (.saSealC p (fld w0 15 6) (fld w0 9 6))
    else if fld w0 7 2 = 1#2 ∧ fld w0 0 7 = 0#7 then
      some (.saSealG p (fld w0 15 6) (fld w0 9 6))
    else if fld w0 7 2 = 2#2 ∧ fld w0 0 7 = 0#7 then
      some (.saSealP p (fld w0 15 6) (fld w0 9 6))
    else none
  | _ => none

/-- The IA and IB map (R356, R358). -/
def decodeI (w0 : Syllable) : Option Instr :=
  let p : BitVec 4 := fld w0 21 4
  match (fld w0 25 6).toNat with
  | 0x01 => if fld w0 0 3 = 0#3 then
      some (.add p (fld w0 15 6) (fld w0 9 6) (fld w0 3 6))
    else none
  | 0x02 => if fld w0 0 3 = 0#3 then
      some (.sub p (fld w0 15 6) (fld w0 9 6) (fld w0 3 6))
    else none
  | 0x03 => if fld w0 1 2 = 0#2 then
      some (.adds p (fld w0 15 6) (fld w0 9 6) (fld w0 3 6) (bit w0 0))
    else none
  | 0x04 => if fld w0 1 2 = 0#2 then
      some (.subs p (fld w0 15 6) (fld w0 9 6) (fld w0 3 6) (bit w0 0))
    else none
  | 0x05 => if fld w0 0 3 = 0#3 then
      some (.mul p (fld w0 15 6) (fld w0 9 6) (fld w0 3 6))
    else none
  | 0x06 => if fld w0 0 3 = 0#3 then
      some (.mulh p (fld w0 15 6) (fld w0 9 6) (fld w0 3 6))
    else none
  | 0x07 => if fld w0 0 3 = 0#3 then
      some (.mulhn p (fld w0 15 6) (fld w0 9 6) (fld w0 3 6))
    else none
  | 0x08 => if fld w0 1 2 = 0#2 then
      some (.div p (fld w0 15 6) (fld w0 9 6) (fld w0 3 6) (bit w0 0))
    else none
  | 0x09 => if fld w0 1 2 = 0#2 then
      some (.rem p (fld w0 15 6) (fld w0 9 6) (fld w0 3 6) (bit w0 0))
    else none
  | 0x0A => some (.addi p (fld w0 15 6) (fld w0 9 6) (fld w0 0 9))
  | 0x0B => some (.xori p (fld w0 15 6) (fld w0 9 6) (fld w0 0 9))
  | 0x0C => some (.andi p (fld w0 15 6) (fld w0 9 6) (fld w0 0 9))
  | 0x0D => some (.ori p (fld w0 15 6) (fld w0 9 6) (fld w0 0 9))
  | 0x0E => if fld w0 0 3 = 0#3 then
      some (.and p (fld w0 15 6) (fld w0 9 6) (fld w0 3 6))
    else none
  | 0x0F => if fld w0 0 3 = 0#3 then
      some (.or p (fld w0 15 6) (fld w0 9 6) (fld w0 3 6))
    else none
  | 0x10 => if fld w0 0 3 = 0#3 then
      some (.xor p (fld w0 15 6) (fld w0 9 6) (fld w0 3 6))
    else none
  | 0x11 => if fld w0 6 3 = 0#3 then
      some (.shli p (fld w0 15 6) (fld w0 9 6) (fld w0 0 6))
    else none
  | 0x12 => if fld w0 6 3 = 0#3 then
      some (.shri p (fld w0 15 6) (fld w0 9 6) (fld w0 0 6))
    else none
  | 0x13 => if fld w0 6 3 = 0#3 then
      some (.srai p (fld w0 15 6) (fld w0 9 6) (fld w0 0 6))
    else none
  | 0x14 => if fld w0 6 3 = 0#3 then
      some (.roti p (fld w0 15 6) (fld w0 9 6) (fld w0 0 6))
    else none
  | 0x15 => if fld w0 0 3 = 0#3 then
      some (.shl p (fld w0 15 6) (fld w0 9 6) (fld w0 3 6))
    else none
  | 0x16 => if fld w0 0 3 = 0#3 then
      some (.shr p (fld w0 15 6) (fld w0 9 6) (fld w0 3 6))
    else none
  | 0x17 => if fld w0 0 3 = 0#3 then
      some (.sra p (fld w0 15 6) (fld w0 9 6) (fld w0 3 6))
    else none
  | 0x18 => if fld w0 0 3 = 0#3 then
      some (.rot p (fld w0 15 6) (fld w0 9 6) (fld w0 3 6))
    else none
  | 0x19 => if fld w0 0 3 = 0#3 then
      some (.bfx p (fld w0 15 6) (fld w0 9 6) (fld w0 3 6))
    else none
  | 0x1A => if fld w0 0 3 = 0#3 then
      some (.bfxs p (fld w0 15 6) (fld w0 9 6) (fld w0 3 6))
    else none
  | 0x1B => if fld w0 0 3 = 0#3 then
      some (.bfi p (fld w0 15 6) (fld w0 9 6) (fld w0 3 6))
    else none
  | 0x1C => if fld w0 0 3 = 0#3 then
      some (.fsh p (fld w0 15 6) (fld w0 9 6) (fld w0 3 6))
    else none
  | 0x1D => if fld w0 0 9 = 0#9 then
      some (.popc p (fld w0 15 6) (fld w0 9 6))
    else none
  | 0x1E => if fld w0 0 9 = 0#9 then
      some (.clz p (fld w0 15 6) (fld w0 9 6))
    else none
  | 0x1F => if fld w0 0 9 = 0#9 then
      some (.ctz p (fld w0 15 6) (fld w0 9 6))
    else none
  | 0x20 => if fld w0 1 2 = 0#2 then
      some (.min p (fld w0 15 6) (fld w0 9 6) (fld w0 3 6) (bit w0 0))
    else none
  | 0x21 => if fld w0 1 2 = 0#2 then
      some (.max p (fld w0 15 6) (fld w0 9 6) (fld w0 3 6) (bit w0 0))
    else none
  | 0x22 => if fld w0 0 2 = 0#2 then
      (do let cnd ← Cnd.ofCode (fld w0 14 3); some (.cmp p (fld w0 17 4) cnd (fld w0 8 6) (fld w0 2 6)))
    else none
  | 0x23 => (do let cnd ← Cnd.ofCode (fld w0 14 3); some (.cmpi p (fld w0 17 4) cnd (fld w0 8 6) (fld w0 0 8)))
  | 0x24 => some (.sel p (fld w0 15 6) (fld w0 9 6) (fld w0 3 6) (fld w0 0 3))
  | 0x25 => some (.movi p (fld w0 15 6) (fld w0 0 15))
  | 0x26 => if fld w0 0 3 = 0#3 then
      some (.andn p (fld w0 15 6) (fld w0 9 6) (fld w0 3 6))
    else none
  | 0x28 => if fld w0 0 9 = 0#9 then
      some (.pand p (fld w0 17 4) (fld w0 13 4) (fld w0 9 4))
    else none
  | 0x29 => if fld w0 0 9 = 0#9 then
      some (.por p (fld w0 17 4) (fld w0 13 4) (fld w0 9 4))
    else none
  | 0x2A => if fld w0 0 9 = 0#9 then
      some (.pxor p (fld w0 17 4) (fld w0 13 4) (fld w0 9 4))
    else none
  | 0x2B => if fld w0 0 9 = 0#9 then
      some (.pandn p (fld w0 17 4) (fld w0 13 4) (fld w0 9 4))
    else none
  | 0x30 => if fld w0 15 2 = 0#2 then
      some (.lea p (fld w0 17 4) (fld w0 9 6) (fld w0 0 9))
    else none
  | 0x31 => if fld w0 15 3 = 0#3 ∧ fld w0 0 9 = 0#9 then
      some (.movm p (fld w0 18 3) (fld w0 9 6))
    else none
  | 0x32 => if fld w0 0 11 = 0#11 then
      some (.movg p (fld w0 15 6) (fld w0 11 4))
    else none
  | 0x33 => some (.leaa p (fld w0 17 4) (fld w0 13 4) (fld w0 0 13))
  | _ => none

/-- The VA and VB map (R359, R404, R259). -/
def decodeV (w0 w1 : Syllable) : Option Instr :=
  let p : BitVec 4 := fld w0 21 4
  match (fld w0 25 6).toNat with
  | 0x01 => if fld w0 0 7 = 0#7 ∧ fld w1 1 10 = 0#10 ∧ fld w1 0 1 = 0#1 then
      (do let w ← Width.ofCode (fld w0 19 2); let fmt ← Fmt.ofCode (fld w0 15 4); let rm ← Rm.ofCode (fld w0 7 2); let sa ← Src.ofCode (fld w1 21 10); let sb ← Src.ofCode (fld w1 11 10); some (.vadd p w fmt (fld w0 9 6) rm sa sb))
    else none
  | 0x02 => if fld w0 0 7 = 0#7 ∧ fld w1 1 10 = 0#10 ∧ fld w1 0 1 = 0#1 then
      (do let w ← Width.ofCode (fld w0 19 2); let fmt ← Fmt.ofCode (fld w0 15 4); let rm ← Rm.ofCode (fld w0 7 2); let sa ← Src.ofCode (fld w1 21 10); let sb ← Src.ofCode (fld w1 11 10); some (.vsub p w fmt (fld w0 9 6) rm sa sb))
    else none
  | 0x03 => if fld w0 0 7 = 0#7 ∧ fld w1 1 10 = 0#10 ∧ fld w1 0 1 = 0#1 then
      (do let w ← Width.ofCode (fld w0 19 2); let fmt ← Fmt.ofCode (fld w0 15 4); let rm ← Rm.ofCode (fld w0 7 2); let sa ← Src.ofCode (fld w1 21 10); let sb ← Src.ofCode (fld w1 11 10); some (.vmul p w fmt (fld w0 9 6) rm sa sb))
    else none
  | 0x04 => if fld w0 0 7 = 0#7 ∧ fld w1 0 1 = 0#1 then
      (do let w ← Width.ofCode (fld w0 19 2); let fmt ← Fmt.ofCode (fld w0 15 4); let rm ← Rm.ofCode (fld w0 7 2); let sa ← Src.ofCode (fld w1 21 10); let sb ← Src.ofCode (fld w1 11 10); let sc ← Src.ofCode (fld w1 1 10); some (.vfma p w fmt (fld w0 9 6) rm sa sb sc))
    else none
  | 0x05 => if fld w0 0 7 = 0#7 ∧ fld w1 0 1 = 0#1 then
      (do let w ← Width.ofCode (fld w0 19 2); let fmt ← Fmt.ofCode (fld w0 15 4); let rm ← Rm.ofCode (fld w0 7 2); let sa ← Src.ofCode (fld w1 21 10); let sb ← Src.ofCode (fld w1 11 10); let sc ← Src.ofCode (fld w1 1 10); some (.vfnma p w fmt (fld w0 9 6) rm sa sb sc))
    else none
  | 0x06 => if fld w0 7 2 = 0#2 ∧ fld w0 0 7 = 0#7 ∧ fld w1 1 10 = 0#10 ∧ fld w1 0 1 = 0#1 then
      (do let w ← Width.ofCode (fld w0 19 2); let fmt ← Fmt.ofCode (fld w0 15 4); let sa ← Src.ofCode (fld w1 21 10); let sb ← Src.ofCode (fld w1 11 10); some (.vadds p w fmt (fld w0 9 6) sa sb))
    else none
  | 0x07 => if fld w0 7 2 = 0#2 ∧ fld w0 0 7 = 0#7 ∧ fld w1 1 10 = 0#10 ∧ fld w1 0 1 = 0#1 then
      (do let w ← Width.ofCode (fld w0 19 2); let fmt ← Fmt.ofCode (fld w0 15 4); let sa ← Src.ofCode (fld w1 21 10); let sb ← Src.ofCode (fld w1 11 10); some (.vsubs p w fmt (fld w0 9 6) sa sb))
    else none
  | 0x08 => if fld w0 7 2 = 0#2 ∧ fld w0 0 7 = 0#7 ∧ fld w1 1 10 = 0#10 ∧ fld w1 0 1 = 0#1 then
      (do let w ← Width.ofCode (fld w0 19 2); let fmt ← Fmt.ofCode (fld w0 15 4); let sa ← Src.ofCode (fld w1 21 10); let sb ← Src.ofCode (fld w1 11 10); some (.vmin p w fmt (fld w0 9 6) sa sb))
    else none
  | 0x09 => if fld w0 7 2 = 0#2 ∧ fld w0 0 7 = 0#7 ∧ fld w1 1 10 = 0#10 ∧ fld w1 0 1 = 0#1 then
      (do let w ← Width.ofCode (fld w0 19 2); let fmt ← Fmt.ofCode (fld w0 15 4); let sa ← Src.ofCode (fld w1 21 10); let sb ← Src.ofCode (fld w1 11 10); some (.vmax p w fmt (fld w0 9 6) sa sb))
    else none
  | 0x0A => if fld w0 7 2 = 0#2 ∧ fld w0 0 7 = 0#7 ∧ fld w1 11 10 = 0#10 ∧ fld w1 1 10 = 0#10 ∧ fld w1 0 1 = 0#1 then
      (do let w ← Width.ofCode (fld w0 19 2); let fmt ← Fmt.ofCode (fld w0 15 4); let sa ← Src.ofCode (fld w1 21 10); some (.vabs p w fmt (fld w0 9 6) sa))
    else none
  | 0x0B => if fld w0 7 2 = 0#2 ∧ fld w0 0 7 = 0#7 ∧ fld w1 11 10 = 0#10 ∧ fld w1 1 10 = 0#10 ∧ fld w1 0 1 = 0#1 then
      (do let w ← Width.ofCode (fld w0 19 2); let fmt ← Fmt.ofCode (fld w0 15 4); let sa ← Src.ofCode (fld w1 21 10); some (.vneg p w fmt (fld w0 9 6) sa))
    else none
  | 0x0C => if fld w0 15 4 = 0#4 ∧ fld w0 7 2 = 0#2 ∧ fld w0 0 7 = 0#7 ∧ fld w1 1 10 = 0#10 ∧ fld w1 0 1 = 0#1 then
      (do let w ← Width.ofCode (fld w0 19 2); let sa ← Src.ofCode (fld w1 21 10); let sb ← Src.ofCode (fld w1 11 10); some (.vand p w (fld w0 9 6) sa sb))
    else none
  | 0x0D => if fld w0 15 4 = 0#4 ∧ fld w0 7 2 = 0#2 ∧ fld w0 0 7 = 0#7 ∧ fld w1 1 10 = 0#10 ∧ fld w1 0 1 = 0#1 then
      (do let w ← Width.ofCode (fld w0 19 2); let sa ← Src.ofCode (fld w1 21 10); let sb ← Src.ofCode (fld w1 11 10); some (.vor p w (fld w0 9 6) sa sb))
    else none
  | 0x0E => if fld w0 15 4 = 0#4 ∧ fld w0 7 2 = 0#2 ∧ fld w0 0 7 = 0#7 ∧ fld w1 1 10 = 0#10 ∧ fld w1 0 1 = 0#1 then
      (do let w ← Width.ofCode (fld w0 19 2); let sa ← Src.ofCode (fld w1 21 10); let sb ← Src.ofCode (fld w1 11 10); some (.vxor p w (fld w0 9 6) sa sb))
    else none
  | 0x0F => if fld w0 15 4 = 0#4 ∧ fld w0 7 2 = 0#2 ∧ fld w0 0 7 = 0#7 ∧ fld w1 1 10 = 0#10 ∧ fld w1 0 1 = 0#1 then
      (do let w ← Width.ofCode (fld w0 19 2); let sa ← Src.ofCode (fld w1 21 10); let sb ← Src.ofCode (fld w1 11 10); some (.vandn p w (fld w0 9 6) sa sb))
    else none
  | 0x10 => if fld w0 7 2 = 0#2 ∧ fld w0 0 7 = 0#7 ∧ fld w1 1 10 = 0#10 ∧ fld w1 0 1 = 0#1 then
      (do let w ← Width.ofCode (fld w0 19 2); let fmt ← Fmt.ofCode (fld w0 15 4); let sa ← Src.ofCode (fld w1 21 10); let sb ← Src.ofCode (fld w1 11 10); some (.vshl p w fmt (fld w0 9 6) sa sb))
    else none
  | 0x11 => if fld w0 7 2 = 0#2 ∧ fld w0 0 7 = 0#7 ∧ fld w1 1 10 = 0#10 ∧ fld w1 0 1 = 0#1 then
      (do let w ← Width.ofCode (fld w0 19 2); let fmt ← Fmt.ofCode (fld w0 15 4); let sa ← Src.ofCode (fld w1 21 10); let sb ← Src.ofCode (fld w1 11 10); some (.vshr p w fmt (fld w0 9 6) sa sb))
    else none
  | 0x12 => if fld w0 7 2 = 0#2 ∧ fld w0 0 7 = 0#7 ∧ fld w1 1 10 = 0#10 ∧ fld w1 0 1 = 0#1 then
      (do let w ← Width.ofCode (fld w0 19 2); let fmt ← Fmt.ofCode (fld w0 15 4); let sa ← Src.ofCode (fld w1 21 10); let sb ← Src.ofCode (fld w1 11 10); some (.vsra p w fmt (fld w0 9 6) sa sb))
    else none
  | 0x13 => if fld w0 7 2 = 0#2 ∧ fld w0 6 1 = 0#1 ∧ fld w1 11 10 = 0#10 ∧ fld w1 1 10 = 0#10 ∧ fld w1 0 1 = 0#1 then
      (do let w ← Width.ofCode (fld w0 19 2); let fmt ← Fmt.ofCode (fld w0 15 4); let sa ← Src.ofCode (fld w1 21 10); some (.vshli p w fmt (fld w0 9 6) (fld w0 0 6) sa))
    else none
  | 0x14 => if fld w0 7 2 = 0#2 ∧ fld w0 6 1 = 0#1 ∧ fld w1 11 10 = 0#10 ∧ fld w1 1 10 = 0#10 ∧ fld w1 0 1 = 0#1 then
      (do let w ← Width.ofCode (fld w0 19 2); let fmt ← Fmt.ofCode (fld w0 15 4); let sa ← Src.ofCode (fld w1 21 10); some (.vshri p w fmt (fld w0 9 6) (fld w0 0 6) sa))
    else none
  | 0x15 => if fld w0 7 2 = 0#2 ∧ fld w0 6 1 = 0#1 ∧ fld w1 11 10 = 0#10 ∧ fld w1 1 10 = 0#10 ∧ fld w1 0 1 = 0#1 then
      (do let w ← Width.ofCode (fld w0 19 2); let fmt ← Fmt.ofCode (fld w0 15 4); let sa ← Src.ofCode (fld w1 21 10); some (.vsrai p w fmt (fld w0 9 6) (fld w0 0 6) sa))
    else none
  | 0x16 => if fld w0 7 2 = 0#2 ∧ fld w0 3 4 = 0#4 ∧ fld w1 1 10 = 0#10 ∧ fld w1 0 1 = 0#1 then
      (do let w ← Width.ofCode (fld w0 19 2); let fmt ← Fmt.ofCode (fld w0 15 4); let cnd ← VCnd.ofCode (fld w0 0 3); let sa ← Src.ofCode (fld w1 21 10); let sb ← Src.ofCode (fld w1 11 10); some (.vcmp p w fmt (fld w0 9 6) cnd sa sb))
    else none
  | 0x17 => if fld w0 15 4 = 0#4 ∧ fld w0 7 2 = 0#2 ∧ fld w0 0 7 = 0#7 ∧ fld w1 0 1 = 0#1 then
      (do let w ← Width.ofCode (fld w0 19 2); let sa ← Src.ofCode (fld w1 21 10); let sb ← Src.ofCode (fld w1 11 10); let sc ← Src.ofCode (fld w1 1 10); some (.vsel p w (fld w0 9 6) sa sb sc))
    else none
  | 0x18 => if fld w0 5 2 = 0#2 ∧ fld w1 11 10 = 0#10 ∧ fld w1 1 10 = 0#10 ∧ fld w1 0 1 = 0#1 then
      (do let w ← Width.ofCode (fld w0 19 2); let fmt ← Fmt.ofCode (fld w0 15 4); let rm ← Rm.ofCode (fld w0 7 2); let src ← Fmt.ofCode (fld w0 0 4); let sa ← Src.ofCode (fld w1 21 10); some (.vcvt p w fmt (fld w0 9 6) rm (bit w0 4) src sa))
    else none
  | 0x19 => if fld w0 0 9 = 0#9 ∧ fld w1 0 25 = 0#25 then
      (do let w ← Width.ofCode (fld w0 19 2); let fmt ← Fmt.ofCode (fld w0 15 4); some (.vdup p w fmt (fld w0 9 6) (fld w1 25 6)))
    else none
  | 0x20 => if fld w0 7 2 = 0#2 ∧ fld w0 0 7 = 0#7 ∧ fld w1 11 10 = 0#10 ∧ fld w1 1 10 = 0#10 ∧ fld w1 0 1 = 0#1 then
      (do let w ← Width.ofCode (fld w0 19 2); let fmt ← Fmt.ofCode (fld w0 15 4); let sa ← Src.ofCode (fld w1 21 10); some (.vrsum p w fmt (fld w0 9 6) sa))
    else none
  | 0x21 => if fld w0 7 2 = 0#2 ∧ fld w0 0 7 = 0#7 ∧ fld w1 11 10 = 0#10 ∧ fld w1 1 10 = 0#10 ∧ fld w1 0 1 = 0#1 then
      (do let w ← Width.ofCode (fld w0 19 2); let fmt ← Fmt.ofCode (fld w0 15 4); let sa ← Src.ofCode (fld w1 21 10); some (.vrmax p w fmt (fld w0 9 6) sa))
    else none
  | 0x22 => if fld w0 7 2 = 0#2 ∧ fld w0 0 7 = 0#7 ∧ fld w1 11 10 = 0#10 ∧ fld w1 1 10 = 0#10 ∧ fld w1 0 1 = 0#1 then
      (do let w ← Width.ofCode (fld w0 19 2); let fmt ← Fmt.ofCode (fld w0 15 4); let sa ← Src.ofCode (fld w1 21 10); some (.vrmin p w fmt (fld w0 9 6) sa))
    else none
  | 0x30 => if fld w0 0 9 = 0#9 ∧ fld w1 0 21 = 0#21 then
      (do let w ← Width.ofCode (fld w0 19 2); let fmt ← Fmt.ofCode (fld w0 15 4); let sa ← Src.ofCode (fld w1 21 10); some (.saAdd p w fmt (fld w0 9 6) sa))
    else none
  | _ => none

/-- The X map (R360, R417). -/
def decodeX (w0 w1 : Syllable) : Option Instr :=
  let p : BitVec 4 := fld w0 21 4
  match (fld w0 25 6).toNat with
  | 0x01 => if fld w0 15 4 = 0#4 ∧ fld w0 0 9 = 0#9 ∧ fld w1 0 21 = 0#21 then
      (do let w ← Width.ofCode (fld w0 19 2); let sa ← Src.ofCode (fld w1 21 10); some (.expF p w (fld w0 9 6) sa))
    else none
  | 0x02 => if fld w0 15 4 = 0#4 ∧ fld w0 0 9 = 0#9 ∧ fld w1 0 21 = 0#21 then
      (do let w ← Width.ofCode (fld w0 19 2); let sa ← Src.ofCode (fld w1 21 10); some (.expR p w (fld w0 9 6) sa))
    else none
  | 0x03 => if fld w0 15 4 = 0#4 ∧ fld w0 0 9 = 0#9 ∧ fld w1 0 21 = 0#21 then
      (do let w ← Width.ofCode (fld w0 19 2); let sa ← Src.ofCode (fld w1 21 10); some (.exp2F p w (fld w0 9 6) sa))
    else none
  | 0x04 => if fld w0 15 4 = 0#4 ∧ fld w0 0 9 = 0#9 ∧ fld w1 0 21 = 0#21 then
      (do let w ← Width.ofCode (fld w0 19 2); let sa ← Src.ofCode (fld w1 21 10); some (.exp2R p w (fld w0 9 6) sa))
    else none
  | 0x05 => if fld w0 15 4 = 0#4 ∧ fld w0 0 9 = 0#9 ∧ fld w1 0 21 = 0#21 then
      (do let w ← Width.ofCode (fld w0 19 2); let sa ← Src.ofCode (fld w1 21 10); some (.log2F p w (fld w0 9 6) sa))
    else none
  | 0x06 => if fld w0 15 4 = 0#4 ∧ fld w0 0 9 = 0#9 ∧ fld w1 0 21 = 0#21 then
      (do let w ← Width.ofCode (fld w0 19 2); let sa ← Src.ofCode (fld w1 21 10); some (.log2R p w (fld w0 9 6) sa))
    else none
  | 0x07 => if fld w0 15 4 = 0#4 ∧ fld w0 0 9 = 0#9 ∧ fld w1 0 21 = 0#21 then
      (do let w ← Width.ofCode (fld w0 19 2); let sa ← Src.ofCode (fld w1 21 10); some (.rcpF p w (fld w0 9 6) sa))
    else none
  | 0x08 => if fld w0 15 4 = 0#4 ∧ fld w0 0 9 = 0#9 ∧ fld w1 0 21 = 0#21 then
      (do let w ← Width.ofCode (fld w0 19 2); let sa ← Src.ofCode (fld w1 21 10); some (.rcpR p w (fld w0 9 6) sa))
    else none
  | 0x09 => if fld w0 15 4 = 0#4 ∧ fld w0 0 9 = 0#9 ∧ fld w1 0 21 = 0#21 then
      (do let w ← Width.ofCode (fld w0 19 2); let sa ← Src.ofCode (fld w1 21 10); some (.rsqF p w (fld w0 9 6) sa))
    else none
  | 0x0A => if fld w0 15 4 = 0#4 ∧ fld w0 0 9 = 0#9 ∧ fld w1 0 21 = 0#21 then
      (do let w ← Width.ofCode (fld w0 19 2); let sa ← Src.ofCode (fld w1 21 10); some (.rsqR p w (fld w0 9 6) sa))
    else none
  | 0x0B => if fld w0 15 4 = 0#4 ∧ fld w0 0 9 = 0#9 ∧ fld w1 0 21 = 0#21 then
      (do let w ← Width.ofCode (fld w0 19 2); let sa ← Src.ofCode (fld w1 21 10); some (.sqrtF p w (fld w0 9 6) sa))
    else none
  | 0x0C => if fld w0 15 4 = 0#4 ∧ fld w0 0 9 = 0#9 ∧ fld w1 0 21 = 0#21 then
      (do let w ← Width.ofCode (fld w0 19 2); let sa ← Src.ofCode (fld w1 21 10); some (.sqrtR p w (fld w0 9 6) sa))
    else none
  | 0x0D => if fld w0 15 4 = 0#4 ∧ fld w0 0 9 = 0#9 ∧ fld w1 0 21 = 0#21 then
      (do let w ← Width.ofCode (fld w0 19 2); let sa ← Src.ofCode (fld w1 21 10); some (.tanhF p w (fld w0 9 6) sa))
    else none
  | 0x0E => if fld w0 15 4 = 0#4 ∧ fld w0 0 9 = 0#9 ∧ fld w1 0 21 = 0#21 then
      (do let w ← Width.ofCode (fld w0 19 2); let sa ← Src.ofCode (fld w1 21 10); some (.tanhR p w (fld w0 9 6) sa))
    else none
  | 0x0F => if fld w0 15 4 = 0#4 ∧ fld w0 0 9 = 0#9 ∧ fld w1 0 21 = 0#21 then
      (do let w ← Width.ofCode (fld w0 19 2); let sa ← Src.ofCode (fld w1 21 10); some (.sigmF p w (fld w0 9 6) sa))
    else none
  | 0x10 => if fld w0 15 4 = 0#4 ∧ fld w0 0 9 = 0#9 ∧ fld w1 0 21 = 0#21 then
      (do let w ← Width.ofCode (fld w0 19 2); let sa ← Src.ofCode (fld w1 21 10); some (.sigmR p w (fld w0 9 6) sa))
    else none
  | 0x11 => if fld w0 15 4 = 0#4 ∧ fld w0 0 9 = 0#9 ∧ fld w1 0 21 = 0#21 then
      (do let w ← Width.ofCode (fld w0 19 2); let sa ← Src.ofCode (fld w1 21 10); some (.sinF p w (fld w0 9 6) sa))
    else none
  | 0x12 => if fld w0 15 4 = 0#4 ∧ fld w0 0 9 = 0#9 ∧ fld w1 0 21 = 0#21 then
      (do let w ← Width.ofCode (fld w0 19 2); let sa ← Src.ofCode (fld w1 21 10); some (.sinR p w (fld w0 9 6) sa))
    else none
  | 0x13 => if fld w0 15 4 = 0#4 ∧ fld w0 0 9 = 0#9 ∧ fld w1 0 21 = 0#21 then
      (do let w ← Width.ofCode (fld w0 19 2); let sa ← Src.ofCode (fld w1 21 10); some (.cosF p w (fld w0 9 6) sa))
    else none
  | 0x14 => if fld w0 15 4 = 0#4 ∧ fld w0 0 9 = 0#9 ∧ fld w1 0 21 = 0#21 then
      (do let w ← Width.ofCode (fld w0 19 2); let sa ← Src.ofCode (fld w1 21 10); some (.cosR p w (fld w0 9 6) sa))
    else none
  | 0x18 => if fld w0 4 5 = 0#5 ∧ fld w1 0 15 = 0#15 then
      (do let w ← Width.ofCode (fld w0 19 2); let fmt ← Fmt.ofCode (fld w0 15 4); let src ← Fmt.ofCode (fld w0 0 4); let sa ← Src.ofCode (fld w1 21 10); some (.xpack p w fmt (fld w0 9 6) src sa (fld w1 15 6)))
    else none
  | 0x19 => if fld w0 4 5 = 0#5 ∧ fld w1 0 15 = 0#15 then
      (do let w ← Width.ofCode (fld w0 19 2); let fmt ← Fmt.ofCode (fld w0 15 4); let src ← Fmt.ofCode (fld w0 0 4); let sa ← Src.ofCode (fld w1 21 10); some (.xunpack p w fmt (fld w0 9 6) src sa (fld w1 15 6)))
    else none
  | 0x1A => if fld w0 0 9 = 0#9 ∧ fld w1 0 15 = 0#15 then
      (do let w ← Width.ofCode (fld w0 19 2); let fmt ← Fmt.ofCode (fld w0 15 4); let sa ← Src.ofCode (fld w1 21 10); some (.xscale p w fmt (fld w0 9 6) sa (fld w1 15 6)))
    else none
  | 0x1B => if fld w0 4 5 = 0#5 ∧ fld w1 0 11 = 0#11 then
      (do let w ← Width.ofCode (fld w0 19 2); let fmt ← Fmt.ofCode (fld w0 15 4); let tgt ← Fmt.ofCode (fld w0 0 4); let sa ← Src.ofCode (fld w1 21 10); let sb ← Src.ofCode (fld w1 11 10); some (.xmaxe p w fmt (fld w0 9 6) tgt sa sb))
    else none
  | 0x20 => if fld w0 0 9 = 0#9 ∧ fld w1 0 11 = 0#11 then
      (do let w ← Width.ofCode (fld w0 19 2); let fmt ← Fmt.ofCode (fld w0 15 4); let sa ← Src.ofCode (fld w1 21 10); let sb ← Src.ofCode (fld w1 11 10); some (.xperm p w fmt (fld w0 9 6) sa sb))
    else none
  | 0x21 => if fld w0 0 9 = 0#9 ∧ fld w1 0 15 = 0#15 then
      (do let w ← Width.ofCode (fld w0 19 2); let fmt ← Fmt.ofCode (fld w0 15 4); let sa ← Src.ofCode (fld w1 21 10); some (.xrot p w fmt (fld w0 9 6) sa (fld w1 15 6)))
    else none
  | 0x22 => if fld w0 1 8 = 0#8 ∧ fld w1 0 11 = 0#11 then
      (do let w ← Width.ofCode (fld w0 19 2); let fmt ← Fmt.ofCode (fld w0 15 4); let sa ← Src.ofCode (fld w1 21 10); let sb ← Src.ofCode (fld w1 11 10); some (.xzip p w fmt (fld w0 9 6) (bit w0 0) sa sb))
    else none
  | 0x23 => if fld w0 1 8 = 0#8 ∧ fld w1 0 11 = 0#11 then
      (do let w ← Width.ofCode (fld w0 19 2); let fmt ← Fmt.ofCode (fld w0 15 4); let sa ← Src.ofCode (fld w1 21 10); let sb ← Src.ofCode (fld w1 11 10); some (.xunzip p w fmt (fld w0 9 6) (bit w0 0) sa sb))
    else none
  | 0x24 => if fld w0 3 6 = 0#6 ∧ fld w1 11 10 = 0#10 ∧ fld w1 0 11 = 0#11 then
      (do let w ← Width.ofCode (fld w0 19 2); let fmt ← Fmt.ofCode (fld w0 15 4); let sa ← Src.ofCode (fld w1 21 10); some (.xtrans p w fmt (fld w0 9 6) (fld w0 0 3) sa))
    else none
  | 0x30 => if fld w0 0 9 = 0#9 ∧ fld w1 0 15 = 0#15 then
      (do let w ← Width.ofCode (fld w0 19 2); let fmt ← Fmt.ofCode (fld w0 15 4); let sa ← Src.ofCode (fld w1 21 10); some (.saNrd p w fmt (fld w0 9 6) sa (fld w1 15 6)))
    else none
  | 0x31 => if fld w0 19 2 = 0#2 ∧ fld w0 15 4 = 0#4 ∧ fld w0 0 9 = 0#9 ∧ fld w1 0 31 = 0#31 then
      some (.saSax p (fld w0 9 6))
    else none
  | _ => none

/-- The M map (R244). -/
def decodeM (w0 w1 : Syllable) : Option Instr :=
  let p : BitVec 4 := fld w0 21 4
  match (fld w0 25 6).toNat with
  | 0x01 => if fld w0 0 15 = 0#15 ∧ fld w1 0 31 = 0#31 then
      some (.mcall p (fld w0 15 6))
    else none
  | 0x02 => if fld w0 0 9 = 0#9 ∧ fld w1 0 31 = 0#31 then
      some (.mrep p (fld w0 9 12))
    else none
  | 0x03 => if fld w0 0 5 = 0#5 ∧ fld w1 30 1 = 0#1 ∧ fld w1 0 20 = 0#20 then
      some (.mprog p (fld w0 15 6) (fld w0 5 10) (fld w1 20 10))
    else if fld w0 0 5 = 0#5 ∧ fld w1 30 1 = 1#1 ∧ fld w1 0 20 = 0#20 then
      some (.mprogT p (fld w0 15 6) (fld w0 5 10) (fld w1 20 10))
    else none
  | 0x04 => if fld w0 0 15 = 0#15 ∧ fld w1 0 31 = 0#31 then
      some (.mwb p (fld w0 15 6))
    else none
  | 0x05 => if fld w0 0 18 = 0#18 ∧ fld w1 0 31 = 0#31 then
      some (.mstat p (fld w0 18 3))
    else none
  | 0x06 => if fld w0 0 18 = 0#18 ∧ fld w1 0 31 = 0#31 then
      some (.mdrain p (fld w0 18 3))
    else none
  | _ => none

/-- The L map (R429, R430). -/
def decodeL (w0 w1 : Syllable) : Option Instr :=
  let p : BitVec 4 := fld w0 21 4
  match (fld w0 25 6).toNat with
  | 0x01 => if fld w0 0 6 = 0#6 then
      (do let w ← Width.ofCode (fld w0 19 2); let buf ← Buf.ofCode (fld w0 16 3); let d ← Dst.ofCode (fld w0 6 10); some (.ld p w buf d (fld w1 25 6) (fld w1 0 25)))
    else none
  | 0x02 => if fld w0 6 1 = 0#1 ∧ fld w0 0 6 = 0#6 then
      (do let w ← Width.ofCode (fld w0 19 2); let buf ← Buf.ofCode (fld w0 16 3); some (.st p w buf (fld w0 10 6) (fld w0 7 3) (fld w1 25 6) (fld w1 0 25)))
    else none
  | 0x03 => if fld w0 7 3 = 0#3 ∧ fld w0 0 6 = 0#6 then
      (do let sz ← Sz.ofCode (fld w0 19 2); let buf ← Buf.ofCode (fld w0 16 3); some (.lds p sz buf (fld w0 10 6) (bit w0 6) (fld w1 25 6) (fld w1 0 25)))
    else none
  | 0x04 => if fld w0 7 3 = 0#3 ∧ fld w0 6 1 = 0#1 ∧ fld w0 0 6 = 0#6 then
      (do let sz ← Sz.ofCode (fld w0 19 2); let buf ← Buf.ofCode (fld w0 16 3); some (.sts p sz buf (fld w0 10 6) (fld w1 25 6) (fld w1 0 25)))
    else none
  | 0x05 => if fld w0 6 1 = 0#1 then
      (do let sz ← Sz.ofCode (fld w0 19 2); let buf ← Buf.ofCode (fld w0 16 3); let aop ← Aop.ofCode (fld w0 7 3); some (.atom p sz buf (fld w0 10 6) aop (fld w0 0 6) (fld w1 25 6) (fld w1 0 25)))
    else none
  | 0x08 => if fld w0 16 3 = 0#3 ∧ fld w0 0 6 = 0#6 then
      (do let w ← Width.ofCode (fld w0 19 2); let d ← Dst.ofCode (fld w0 6 10); some (.gld p w d (fld w1 25 6) (fld w1 0 25)))
    else none
  | 0x09 => if fld w0 16 3 = 0#3 ∧ fld w0 6 1 = 0#1 ∧ fld w0 0 6 = 0#6 then
      (do let w ← Width.ofCode (fld w0 19 2); some (.gst p w (fld w0 10 6) (fld w0 7 3) (fld w1 25 6) (fld w1 0 25)))
    else none
  | 0x0A => if fld w0 16 3 = 0#3 ∧ fld w0 13 3 = 0#3 ∧ fld w0 6 1 = 0#1 then
      (do let sz ← Sz.ofCode (fld w0 19 2); let aop ← Aop.ofCode (fld w0 7 3); some (.gatom p sz (fld w0 10 3) aop (fld w0 0 6) (fld w1 25 6) (fld w1 0 25)))
    else none
  | 0x0B => if fld w0 16 3 = 6#3 ∧ fld w0 6 1 = 0#1 ∧ fld w1 15 1 = 0#1 then
      (do let w ← Width.ofCode (fld w0 19 2); some (.mcst p w (fld w0 10 6) (fld w0 7 3) (fld w0 0 6) (fld w1 25 6) (fld w1 16 9) (fld w1 0 15)))
    else none
  | _ => none

/-- The S map (R361). -/
def decodeS (w0 : Syllable) : Option Instr :=
  let p : BitVec 4 := fld w0 21 4
  match (fld w0 25 6).toNat with
  | 0x01 => if fld w0 20 1 = 0#1 ∧ fld w0 10 4 = 0#4 then
      some (.spStG p (fld w0 14 6) (fld w0 0 10))
    else if fld w0 20 1 = 1#1 ∧ fld w0 10 4 = 0#4 ∧ fld w0 0 4 = 0#4 then
      some (.spStV p (fld w0 14 6) (fld w0 4 6))
    else none
  | 0x02 => if fld w0 20 1 = 0#1 ∧ fld w0 10 4 = 0#4 then
      some (.spLdG p (fld w0 14 6) (fld w0 0 10))
    else if fld w0 20 1 = 1#1 ∧ fld w0 10 4 = 0#4 ∧ fld w0 0 4 = 0#4 then
      some (.spLdV p (fld w0 14 6) (fld w0 4 6))
    else none
  | _ => none

/-- The K map (R443, R444, R269). -/
def decodeK (w0 w1 : Syllable) : Option Instr :=
  let p : BitVec 4 := fld w0 21 4
  match (fld w0 25 6).toNat with
  | 0x01 => if fld w0 3 6 = 0#6 ∧ fld w0 0 3 = 0#3 ∧ fld w1 5 12 = 0#12 then
      (do let buf ← Buf.ofCode (fld w0 9 3); some (.cpyTl p (fld w0 17 4) (fld w0 13 4) (bit w0 12) buf (fld w1 17 14) (fld w1 0 5)))
    else none
  | 0x02 => if fld w0 3 6 = 0#6 ∧ fld w0 0 3 = 0#3 then
      (do let buf ← Buf.ofCode (fld w0 9 3); some (.cpyUt p (fld w0 17 4) (fld w0 13 4) (bit w0 12) buf (fld w1 17 14) (fld w1 5 12) (fld w1 0 5)))
    else none
  | 0x03 => if fld w0 12 1 = 0#1 ∧ fld w0 3 6 = 0#6 then
      (do let buf ← Buf.ofCode (fld w0 9 3); let afmt ← Afmt.ofCode (fld w0 0 3); some (.cpyAdd p (fld w0 17 4) (fld w0 13 4) buf afmt (fld w1 17 14) (fld w1 5 12) (fld w1 0 5)))
    else none
  | 0x04 => if fld w0 12 1 = 0#1 ∧ fld w0 3 6 = 0#6 ∧ fld w0 0 3 = 0#3 ∧ fld w1 5 12 = 0#12 then
      (do let buf ← Buf.ofCode (fld w0 9 3); some (.cpyBc p (fld w0 17 4) (fld w0 13 4) buf (fld w1 17 14) (fld w1 0 5)))
    else none
  | 0x06 => if fld w0 3 6 = 0#6 ∧ fld w0 0 3 = 0#3 ∧ fld w1 5 12 = 0#12 ∧ fld w1 0 5 = 0#5 then
      (do let buf ← Buf.ofCode (fld w0 9 3); some (.cpyEv p (fld w0 17 4) (fld w0 13 4) (bit w0 12) buf (fld w1 17 14)))
    else none
  | 0x07 => if fld w0 3 6 = 0#6 ∧ fld w0 0 3 = 0#3 ∧ fld w1 5 12 = 0#12 ∧ fld w1 0 5 = 0#5 then
      (do let buf ← Buf.ofCode (fld w0 9 3); some (.cpyRs p (fld w0 17 4) (fld w0 13 4) (bit w0 12) buf (fld w1 17 14)))
    else none
  | 0x08 => if fld w0 12 1 = 0#1 ∧ fld w0 3 6 = 0#6 ∧ fld w0 0 3 = 0#3 then
      (do let buf ← Buf.ofCode (fld w0 9 3); some (.cpyPut p (fld w0 17 4) (fld w0 13 4) buf (fld w1 17 14) (fld w1 5 12) (fld w1 0 5)))
    else none
  | 0x09 => if fld w0 12 1 = 0#1 ∧ fld w0 3 6 = 0#6 ∧ fld w0 0 3 = 0#3 then
      (do let buf ← Buf.ofCode (fld w0 9 3); some (.cpyGet p (fld w0 17 4) (fld w0 13 4) buf (fld w1 17 14) (fld w1 5 12) (fld w1 0 5)))
    else none
  | 0x0A => if fld w0 12 1 = 0#1 ∧ fld w0 3 6 = 0#6 then
      (do let buf ← Buf.ofCode (fld w0 9 3); let mode ← CollMode.ofCode (fld w0 0 3); some (.coll p (fld w0 17 4) (fld w0 13 4) buf mode (fld w1 17 14) (fld w1 5 12) (fld w1 0 5)))
    else none
  | 0x0B => if fld w0 17 4 = 0#4 ∧ fld w0 12 1 = 0#1 ∧ fld w0 9 3 = 0#3 ∧ fld w0 3 6 = 0#6 ∧ fld w1 17 14 = 0#14 ∧ fld w1 0 5 = 0#5 then
      (do let tier ← Tier.ofCode (fld w0 0 3); some (.mig p (fld w0 13 4) tier (fld w1 5 12)))
    else none
  | _ => none

/-- The Y map (R456). -/
def decodeY (w0 w1 : Syllable) : Option Instr :=
  let p : BitVec 4 := fld w0 21 4
  match (fld w0 25 6).toNat with
  | 0x01 => if fld w0 0 17 = 0#17 ∧ fld w1 0 31 = 0#31 then
      some (.yclr p (fld w0 17 4))
    else none
  | 0x02 => if fld w1 24 6 = 0#6 then
      some (.ysetd p (fld w0 17 4) (fld w0 14 3) (fld w0 0 14) (fld w1 30 1) (fld w1 16 8) (fld w1 0 16))
    else none
  | 0x03 => if fld w0 0 5 = 0#5 ∧ fld w1 0 31 = 0#31 then
      some (.yseto p (fld w0 17 4) (fld w0 11 6) (fld w0 5 6))
    else none
  | 0x04 => if fld w0 0 12 = 0#12 ∧ fld w1 24 7 = 0#7 then
      some (.ysetf p (fld w0 17 4) (fld w0 15 2) (fld w0 12 3) (fld w1 16 8) (fld w1 0 16))
    else none
  | 0x05 => if fld w0 0 14 = 0#14 ∧ fld w1 0 31 = 0#31 then
      some (.ysetb p (fld w0 17 4) (fld w0 14 3))
    else none
  | 0x06 => if fld w0 0 13 = 0#13 ∧ fld w1 0 31 = 0#31 then
      some (.ycpy p (fld w0 17 4) (fld w0 13 4))
    else none
  | _ => none

/-- One microinstruction word of the matrix store (R238). -/
def decodeU (w0 : BitVec 64) : Option Instr :=
  match (fld w0 58 6).toNat with
  | 0x01 => if fld w0 53 1 = 0#1 ∧ fld w0 48 1 = 0#1 ∧ fld w0 47 1 = 0#1 ∧ fld w0 0 46 = 0#46 then
      (do let fmt ← MFmt.ofCode (fld w0 55 3); some (.uaLd fmt (bit w0 54) (bit w0 52) (fld w0 49 3) (bit w0 46)))
    else none
  | 0x02 => if fld w0 54 1 = 0#1 ∧ fld w0 52 1 = 0#1 ∧ fld w0 0 49 = 0#49 then
      (do let fmt ← MFmt.ofCode (fld w0 55 3); some (.ubLd fmt (bit w0 53) (fld w0 49 3)))
    else none
  | 0x03 => if fld w0 49 3 = 0#3 ∧ fld w0 0 48 = 0#48 then
      (do let fmt ← MFmt.ofCode (fld w0 55 3); some (.uStep fmt (bit w0 54) (bit w0 53) (bit w0 52) (bit w0 48)))
    else none
  | 0x04 => if fld w0 53 5 = 0#5 ∧ fld w0 42 1 = 0#1 ∧ fld w0 0 41 = 0#41 then
      (do let dst ← DrainDst.ofCode (fld w0 46 2); some (.uDrain (bit w0 52) (fld w0 49 3) (bit w0 48) dst (fld w0 43 3) (bit w0 41)))
    else none
  | 0x05 => if fld w0 41 17 = 0#17 ∧ fld w0 24 5 = 0#5 then
      some (.uLoop (fld w0 39 2) (fld w0 29 10) (fld w0 0 24))
    else none
  | 0x06 => if fld w0 52 6 = 0#6 ∧ fld w0 30 19 = 0#19 then
      some (.uAddp (fld w0 49 3) (fld w0 24 6) (fld w0 0 24))
    else none
  | 0x07 => if fld w0 0 58 = 0#58 then
      some (.uEnd )
    else none
  | _ => none

/-- Which map an instruction belongs to; events have none. -/
def Instr.kind : Instr → Option SlotKind
  | .br .. | .brx .. | .call .. | .lsetup .. | .lend .. | .lquit .. | .callx .. | .ret .. | .barL ..
  | .tkalign .. | .childLaunch .. | .sigDec .. | .sigWait .. | .fence .. | .cwait .. | .swait ..
  | .softwareTrap .. | .halt .. | .rdsys .. | .wrsys .. | .wfe .. | .saSealC .. | .saSealG .. | .saSealP .. => some .C
  | .add .. | .sub .. | .adds .. | .subs .. | .mul .. | .mulh .. | .mulhn .. | .div .. | .rem .. | .addi ..
  | .xori .. | .andi .. | .ori .. | .and .. | .or .. | .xor .. | .shli .. | .shri .. | .srai .. | .roti ..
  | .shl .. | .shr .. | .sra .. | .rot .. | .bfx .. | .bfxs .. | .bfi .. | .fsh .. | .popc .. | .clz ..
  | .ctz .. | .min .. | .max .. | .cmp .. | .cmpi .. | .sel .. | .movi .. | .andn .. | .pand .. | .por ..
  | .pxor .. | .pandn .. | .lea .. | .movm .. | .movg .. | .leaa .. => some .I
  | .vadd .. | .vsub .. | .vmul .. | .vfma .. | .vfnma .. | .vadds .. | .vsubs .. | .vmin .. | .vmax ..
  | .vabs .. | .vneg .. | .vand .. | .vor .. | .vxor .. | .vandn .. | .vshl .. | .vshr .. | .vsra ..
  | .vshli .. | .vshri .. | .vsrai .. | .vcmp .. | .vsel .. | .vcvt .. | .vdup .. | .vrsum .. | .vrmax ..
  | .vrmin .. | .saAdd .. => some .V
  | .expF .. | .expR .. | .exp2F .. | .exp2R .. | .log2F .. | .log2R .. | .rcpF .. | .rcpR .. | .rsqF ..
  | .rsqR .. | .sqrtF .. | .sqrtR .. | .tanhF .. | .tanhR .. | .sigmF .. | .sigmR .. | .sinF .. | .sinR ..
  | .cosF .. | .cosR .. | .xpack .. | .xunpack .. | .xscale .. | .xmaxe .. | .xperm .. | .xrot .. | .xzip ..
  | .xunzip .. | .xtrans .. | .saNrd .. | .saSax .. => some .X
  | .mcall .. | .mrep .. | .mprog .. | .mprogT .. | .mwb .. | .mstat .. | .mdrain .. => some .M
  | .ld .. | .st .. | .lds .. | .sts .. | .atom .. | .gld .. | .gst .. | .gatom .. | .mcst .. => some .L
  | .spStG .. | .spStV .. | .spLdG .. | .spLdV .. => some .S
  | .cpyTl .. | .cpyUt .. | .cpyAdd .. | .cpyBc .. | .cpyEv .. | .cpyRs .. | .cpyPut .. | .cpyGet ..
  | .coll .. | .mig .. => some .K
  | .yclr .. | .ysetd .. | .yseto .. | .ysetf .. | .ysetb .. | .ycpy .. => some .Y
  | .uaLd .. | .ubLd .. | .uStep .. | .uDrain .. | .uLoop .. | .uAddp .. | .uEnd => some .U
  | .resetRelease .. | .frameTick | .enterRun | .interfaceDrainComplete | .roleDrainComplete
  | .flushComplete .. | .zeroiseComplete .. | .reenumerateComplete .. | .roleChangeCommit
  | .drainDeadlineExpiry | .layerFence .. | .scratchpadCorrectableError .. | .freezeEnd ..
  | .scratchpadUncorrectableError .. | .nearTierUncorrectable .. | .layerPoolUncorrectable ..
  | .farTierUncorrectable .. | .copyParityError .. | .errorResponseArrival .. | .coreRelease ..
  | .lskewWrite .. | .linkCalibration .. | .linkCalibrationDone .. | .lstatClear .. | .lostevClear ..
  | .timedFlitArrival .. | .timedFlitRelease .. | .untimedFlitArrival .. | .uePacketReceive .. | .put ..
  | .get .. | .fetchAndAdd .. | .compareAndSwap .. | .swap .. | .statusWindowGet | .runReceive ..
  | .runIdleClose .. | .runRetryExhausted .. | .cxlLinkDown .. | .getVersion .. | .getCapabilities ..
  | .negotiateAlgorithms .. | .getDigests .. | .getCertificate .. | .challenge .. | .getMeasurements ..
  | .keyExchange .. | .finish .. | .endSession .. | .spdmUnsupportedRequest .. | .channelPut ..
  | .commandPacketMessage .. | .tailWrite .. | .heartbeat .. | .channelClose .. | .heartbeatTimeout ..
  | .keyHoldExpiry .. | .measuredLoad .. | .rekeyDrained .. | .rekeySwitch .. | .rekeySwitched ..
  | .rekeyResume .. | .rekeyPhaseTimeout .. | .packetConsume .. | .packetStart .. | .packetComplete ..
  | .nop .. | .launch .. | .almanac .. | .pred .. | .sigdec .. | .sigwait .. | .sigwaitReevaluate ..
  | .sigwaitTimeout .. | .copy .. | .partition .. | .checkpoint .. | .checkpointBarrier
  | .checkpointBudgetExpiry | .checkpointSaveDone | .checkpointStreamDone .. | .checkpointBlobDone
  | .loadkey .. | .eraseload .. | .domform .. | .domrekey .. | .ifstLock .. | .ifstUnlock ..
  | .ifstRelease .. | .cfgwr .. | .cfgrd .. | .configRegisterWrite .. | .worldCreate .. | .worldDrain ..
  | .worldDrainComplete .. | .worldOpen .. | .worldGrant .. | .measure .. | .queueCreate .. | .queueReset ..
  | .queueDestroy .. | .almanacBindDeadline .. | .almanacStart .. | .armedStart .. | .almanacLimitExpiry ..
  | .leaseClaim .. | .leaseRenew .. | .leaseExpiry | .bindRecordWrite .. | .commit .. | .frondStart ..
  | .itemStart .. | .frondEnd .. | .barrierTimeout .. | .waitTimeout .. | .resultLanding ..
  | .queueDelivery .. | .bankWakeDone .. | .timedWriteLanding .. | .timedReadSample .. | .untimedApply ..
  | .untimedServe .. | .untimedAtomic .. | .fenceComplete .. | .multicastLanding .. | .timedChunkLanding ..
  | .untimedChunkComplete .. | .pushArrival .. | .migrationWritesApplied .. | .migrationCopyDone ..
  | .drainRowLanding .. | .saFold .. | .saGroupSum .. | .saPlaneArrival .. | .contextPreempt ..
  | .contextResume .. | .contextSave .. | .contextSaveDone .. | .contextRestore ..
  | .instructionStoreWrite .. | .directoryWrite .. | .landingEntry .. | .freinoEntryTrap ..
  | .tkalignRelease .. | .sigWaitRepost .. | .reset | .contextRestoreDone .. | .emptyBundle ..
  | .illegalEncoding .. | .rekeyRequest .. | .checkpointRestore .. => none

/-- The map a slot uses (R358, R359). -/
def Slot.kind : Slot → SlotKind
  | .C => .C | .IA | .IB => .I | .VA | .VB => .V | .X => .X | .M => .M | .L => .L | .S => .S | .K => .K | .Y => .Y

/-- The slot index of the illegal-encoding trap (R281). -/
def Slot.index : Slot → Nat
  | .C => 0 | .IA => 1 | .IB => 2 | .VA => 3 | .VB => 4 | .X => 5 | .M => 6 | .L => 7 | .S => 8 | .K => 9 | .Y => 10

/-- Syllables of a slot (R144). -/
def Slot.syllables : Slot → Nat
  | .C | .IA | .IB | .S => 1
  | .VA | .VB | .X | .M | .L | .K | .Y => 2

/-- The slots in storage order (R350). -/
def Slot.all : List Slot := [.C, .IA, .IB, .VA, .VB, .X, .M, .L, .S, .K, .Y]

/-- Why bits are not an instruction: too few syllables, a start bit where none may stand (R352), an OP that is not
assigned (R362), or a field value or zero field that the OP does not admit (R355, R362). -/
inductive Reject | short | startBit | unassigned | badField
  deriving DecidableEq, Repr

/-- The assigned OPs of each map (R357 to R361). -/
def assigned (k : SlotKind) (op : Nat) : Bool :=
  match k with
  | .C => decide ((1 ≤ op ∧ op ≤ 0x16 ∧ op ≠ 0x0F) ∨ op = 0x18)
  | .I => decide ((1 ≤ op ∧ op ≤ 0x26) ∨ (0x28 ≤ op ∧ op ≤ 0x2B) ∨ (0x30 ≤ op ∧ op ≤ 0x33))
  | .V => decide ((1 ≤ op ∧ op ≤ 0x19) ∨ (0x20 ≤ op ∧ op ≤ 0x22) ∨ op = 0x30)
  | .X => decide ((1 ≤ op ∧ op ≤ 0x14) ∨ (0x18 ≤ op ∧ op ≤ 0x1B) ∨ (0x20 ≤ op ∧ op ≤ 0x24) ∨ op = 0x30 ∨ op = 0x31)
  | .M => decide (1 ≤ op ∧ op ≤ 6)
  | .L => decide ((1 ≤ op ∧ op ≤ 5) ∨ (8 ≤ op ∧ op ≤ 0x0B))
  | .S => decide (1 ≤ op ∧ op ≤ 2)
  | .K => decide ((1 ≤ op ∧ op ≤ 4) ∨ (6 ≤ op ∧ op ≤ 0x0B))
  | .Y => decide (1 ≤ op ∧ op ≤ 6)
  | .U => decide (1 ≤ op ∧ op ≤ 7)

/-- The raw map of a kind, one or two syllables. -/
def decodeRaw (k : SlotKind) (w0 w1 : Syllable) : Option Instr :=
  match k with
  | .C => decodeC w0 | .I => decodeI w0 | .V => decodeV w0 w1 | .X => decodeX w0 w1 | .M => decodeM w0 w1
  | .L => decodeL w0 w1 | .S => decodeS w0 | .K => decodeK w0 w1 | .Y => decodeY w0 w1 | .U => decodeU (w1 ++ w0)

/-- THE DECODER of one slot: total, rejecting by name. The second syllable of a one-syllable slot is not read. -/
def decodeSlot (k : SlotKind) (w0 w1 : Syllable) : Except Reject Instr :=
  if bit w0 31 ∧ k ≠ .U then .error .startBit
  else if ¬ assigned k (if k = .U then (fld w1 26 6).toNat else (fld w0 25 6).toNat) then .error .unassigned
  else if bit w1 31 ∧ k ≠ .C ∧ k ≠ .I ∧ k ≠ .S ∧ k ≠ .U then .error .startBit
  else
    match decodeRaw k w0 w1 with
    | none => .error .badField
    | some i => if i.wf then .ok i else .error .badField

/-- The two syllables of a 64-bit word, the low one first (R7). -/
def half (w : BitVec 64) : List Syllable := [fld w 0 32, fld w 32 32]

/-- THE ENCODER: the syllables of an instruction, each a concatenation of its fields from bit 31 down, from the tables of
16 and the chapters they cite. Events have no encoding. -/
def encode : Instr → List Syllable
  | .br p l => [0#1 ++ 0x01#6 ++ p ++ l ++ 0#16]
  | .brx p ga => [0#1 ++ 0x02#6 ++ p ++ ga ++ 0#15]
  | .call p l r gd => [0#1 ++ 0x03#6 ++ p ++ l ++ r ++ gd ++ 0#5]
  | .lsetup p ga ns nb => [0#1 ++ 0x04#6 ++ p ++ ga ++ ns ++ nb ++ 0#8]
  | .lend p => [0#1 ++ 0x05#6 ++ p ++ 0#21]
  | .lquit p l => [0#1 ++ 0x06#6 ++ p ++ l ++ 0#16]
  | .callx p ga r gd => [0#1 ++ 0x07#6 ++ p ++ ga ++ r ++ gd ++ 0#4]
  | .ret p ga => [0#1 ++ 0x08#6 ++ p ++ ga ++ 0#15]
  | .barL p lev => [0#1 ++ 0x09#6 ++ p ++ lev ++ 0#18]
  | .tkalign p off => [0#1 ++ 0x0A#6 ++ p ++ off ++ 0#11]
  | .childLaunch p gd ga gb => [0#1 ++ 0x0B#6 ++ p ++ gd ++ ga ++ gb ++ 0#3]
  | .sigDec p ga off k => [0#1 ++ 0x0C#6 ++ p ++ ga ++ off ++ k]
  | .sigWait p ga off thr => [0#1 ++ 0x0D#6 ++ p ++ ga ++ off ++ thr]
  | .fence p scope => [0#1 ++ 0x0E#6 ++ p ++ scope.code ++ 0#18]
  | .cwait p gm off => [0#1 ++ 0x10#6 ++ p ++ gm ++ off ++ 0#3]
  | .swait p gg off => [0#1 ++ 0x11#6 ++ p ++ gg ++ off ++ 0#4]
  | .softwareTrap p imm => [0#1 ++ 0x12#6 ++ p ++ imm ++ 0#5]
  | .halt p => [0#1 ++ 0x13#6 ++ p ++ 0#21]
  | .rdsys p gd sys => [0#1 ++ 0x14#6 ++ p ++ gd ++ sys.code ++ 0#7]
  | .wrsys p ga sys => [0#1 ++ 0x15#6 ++ p ++ ga ++ sys.code ++ 0#7]
  | .wfe p => [0#1 ++ 0x16#6 ++ p ++ 0#21]
  | .saSealC p ga gb => [0#1 ++ 0x18#6 ++ p ++ ga ++ gb ++ 0#2 ++ 0#7]
  | .saSealG p ga gb => [0#1 ++ 0x18#6 ++ p ++ ga ++ gb ++ 1#2 ++ 0#7]
  | .saSealP p ga gb => [0#1 ++ 0x18#6 ++ p ++ ga ++ gb ++ 2#2 ++ 0#7]
  | .add p gd ga gb => [0#1 ++ 0x01#6 ++ p ++ gd ++ ga ++ gb ++ 0#3]
  | .sub p gd ga gb => [0#1 ++ 0x02#6 ++ p ++ gd ++ ga ++ gb ++ 0#3]
  | .adds p gd ga gb sg => [0#1 ++ 0x03#6 ++ p ++ gd ++ ga ++ gb ++ 0#2 ++ BitVec.ofBool sg]
  | .subs p gd ga gb sg => [0#1 ++ 0x04#6 ++ p ++ gd ++ ga ++ gb ++ 0#2 ++ BitVec.ofBool sg]
  | .mul p gd ga gb => [0#1 ++ 0x05#6 ++ p ++ gd ++ ga ++ gb ++ 0#3]
  | .mulh p gd ga gb => [0#1 ++ 0x06#6 ++ p ++ gd ++ ga ++ gb ++ 0#3]
  | .mulhn p gd ga gb => [0#1 ++ 0x07#6 ++ p ++ gd ++ ga ++ gb ++ 0#3]
  | .div p gd ga gb sg => [0#1 ++ 0x08#6 ++ p ++ gd ++ ga ++ gb ++ 0#2 ++ BitVec.ofBool sg]
  | .rem p gd ga gb sg => [0#1 ++ 0x09#6 ++ p ++ gd ++ ga ++ gb ++ 0#2 ++ BitVec.ofBool sg]
  | .addi p gd ga imm => [0#1 ++ 0x0A#6 ++ p ++ gd ++ ga ++ imm]
  | .xori p gd ga imm => [0#1 ++ 0x0B#6 ++ p ++ gd ++ ga ++ imm]
  | .andi p gd ga imm => [0#1 ++ 0x0C#6 ++ p ++ gd ++ ga ++ imm]
  | .ori p gd ga imm => [0#1 ++ 0x0D#6 ++ p ++ gd ++ ga ++ imm]
  | .and p gd ga gb => [0#1 ++ 0x0E#6 ++ p ++ gd ++ ga ++ gb ++ 0#3]
  | .or p gd ga gb => [0#1 ++ 0x0F#6 ++ p ++ gd ++ ga ++ gb ++ 0#3]
  | .xor p gd ga gb => [0#1 ++ 0x10#6 ++ p ++ gd ++ ga ++ gb ++ 0#3]
  | .shli p gd ga n => [0#1 ++ 0x11#6 ++ p ++ gd ++ ga ++ 0#3 ++ n]
  | .shri p gd ga n => [0#1 ++ 0x12#6 ++ p ++ gd ++ ga ++ 0#3 ++ n]
  | .srai p gd ga n => [0#1 ++ 0x13#6 ++ p ++ gd ++ ga ++ 0#3 ++ n]
  | .roti p gd ga n => [0#1 ++ 0x14#6 ++ p ++ gd ++ ga ++ 0#3 ++ n]
  | .shl p gd ga gb => [0#1 ++ 0x15#6 ++ p ++ gd ++ ga ++ gb ++ 0#3]
  | .shr p gd ga gb => [0#1 ++ 0x16#6 ++ p ++ gd ++ ga ++ gb ++ 0#3]
  | .sra p gd ga gb => [0#1 ++ 0x17#6 ++ p ++ gd ++ ga ++ gb ++ 0#3]
  | .rot p gd ga gb => [0#1 ++ 0x18#6 ++ p ++ gd ++ ga ++ gb ++ 0#3]
  | .bfx p gd ga gb => [0#1 ++ 0x19#6 ++ p ++ gd ++ ga ++ gb ++ 0#3]
  | .bfxs p gd ga gb => [0#1 ++ 0x1A#6 ++ p ++ gd ++ ga ++ gb ++ 0#3]
  | .bfi p gd ga gb => [0#1 ++ 0x1B#6 ++ p ++ gd ++ ga ++ gb ++ 0#3]
  | .fsh p gd ga gb => [0#1 ++ 0x1C#6 ++ p ++ gd ++ ga ++ gb ++ 0#3]
  | .popc p gd ga => [0#1 ++ 0x1D#6 ++ p ++ gd ++ ga ++ 0#9]
  | .clz p gd ga => [0#1 ++ 0x1E#6 ++ p ++ gd ++ ga ++ 0#9]
  | .ctz p gd ga => [0#1 ++ 0x1F#6 ++ p ++ gd ++ ga ++ 0#9]
  | .min p gd ga gb sg => [0#1 ++ 0x20#6 ++ p ++ gd ++ ga ++ gb ++ 0#2 ++ BitVec.ofBool sg]
  | .max p gd ga gb sg => [0#1 ++ 0x21#6 ++ p ++ gd ++ ga ++ gb ++ 0#2 ++ BitVec.ofBool sg]
  | .cmp p pd cnd ga gb => [0#1 ++ 0x22#6 ++ p ++ pd ++ cnd.code ++ ga ++ gb ++ 0#2]
  | .cmpi p pd cnd ga imm => [0#1 ++ 0x23#6 ++ p ++ pd ++ cnd.code ++ ga ++ imm]
  | .sel p gd ga gb ps => [0#1 ++ 0x24#6 ++ p ++ gd ++ ga ++ gb ++ ps]
  | .movi p gd imm => [0#1 ++ 0x25#6 ++ p ++ gd ++ imm]
  | .andn p gd ga gb => [0#1 ++ 0x26#6 ++ p ++ gd ++ ga ++ gb ++ 0#3]
  | .pand p pd pa pb => [0#1 ++ 0x28#6 ++ p ++ pd ++ pa ++ pb ++ 0#9]
  | .por p pd pa pb => [0#1 ++ 0x29#6 ++ p ++ pd ++ pa ++ pb ++ 0#9]
  | .pxor p pd pa pb => [0#1 ++ 0x2A#6 ++ p ++ pd ++ pa ++ pb ++ 0#9]
  | .pandn p pd pa pb => [0#1 ++ 0x2B#6 ++ p ++ pd ++ pa ++ pb ++ 0#9]
  | .lea p ad ga imm => [0#1 ++ 0x30#6 ++ p ++ ad ++ 0#2 ++ ga ++ imm]
  | .movm p md ga => [0#1 ++ 0x31#6 ++ p ++ md ++ 0#3 ++ ga ++ 0#9]
  | .movg p gd aa => [0#1 ++ 0x32#6 ++ p ++ gd ++ aa ++ 0#11]
  | .leaa p ad aa imm => [0#1 ++ 0x33#6 ++ p ++ ad ++ aa ++ imm]
  | .spStG p r off => [0#1 ++ 0x01#6 ++ p ++ 0#1 ++ r ++ 0#4 ++ off]
  | .spStV p r off => [0#1 ++ 0x01#6 ++ p ++ 1#1 ++ r ++ 0#4 ++ off ++ 0#4]
  | .spLdG p r off => [0#1 ++ 0x02#6 ++ p ++ 0#1 ++ r ++ 0#4 ++ off]
  | .spLdV p r off => [0#1 ++ 0x02#6 ++ p ++ 1#1 ++ r ++ 0#4 ++ off ++ 0#4]
  | .vadd p w fmt vd rm sa sb => [0#1 ++ 0x01#6 ++ p ++ w.code ++ fmt.code ++ vd ++ rm.code ++ 0#7, 0#1 ++ sa.code ++ sb.code ++ 0#10 ++ 0#1]
  | .vsub p w fmt vd rm sa sb => [0#1 ++ 0x02#6 ++ p ++ w.code ++ fmt.code ++ vd ++ rm.code ++ 0#7, 0#1 ++ sa.code ++ sb.code ++ 0#10 ++ 0#1]
  | .vmul p w fmt vd rm sa sb => [0#1 ++ 0x03#6 ++ p ++ w.code ++ fmt.code ++ vd ++ rm.code ++ 0#7, 0#1 ++ sa.code ++ sb.code ++ 0#10 ++ 0#1]
  | .vfma p w fmt vd rm sa sb sc => [0#1 ++ 0x04#6 ++ p ++ w.code ++ fmt.code ++ vd ++ rm.code ++ 0#7, 0#1 ++ sa.code ++ sb.code ++ sc.code ++ 0#1]
  | .vfnma p w fmt vd rm sa sb sc => [0#1 ++ 0x05#6 ++ p ++ w.code ++ fmt.code ++ vd ++ rm.code ++ 0#7, 0#1 ++ sa.code ++ sb.code ++ sc.code ++ 0#1]
  | .vadds p w fmt vd sa sb => [0#1 ++ 0x06#6 ++ p ++ w.code ++ fmt.code ++ vd ++ 0#2 ++ 0#7, 0#1 ++ sa.code ++ sb.code ++ 0#10 ++ 0#1]
  | .vsubs p w fmt vd sa sb => [0#1 ++ 0x07#6 ++ p ++ w.code ++ fmt.code ++ vd ++ 0#2 ++ 0#7, 0#1 ++ sa.code ++ sb.code ++ 0#10 ++ 0#1]
  | .vmin p w fmt vd sa sb => [0#1 ++ 0x08#6 ++ p ++ w.code ++ fmt.code ++ vd ++ 0#2 ++ 0#7, 0#1 ++ sa.code ++ sb.code ++ 0#10 ++ 0#1]
  | .vmax p w fmt vd sa sb => [0#1 ++ 0x09#6 ++ p ++ w.code ++ fmt.code ++ vd ++ 0#2 ++ 0#7, 0#1 ++ sa.code ++ sb.code ++ 0#10 ++ 0#1]
  | .vabs p w fmt vd sa => [0#1 ++ 0x0A#6 ++ p ++ w.code ++ fmt.code ++ vd ++ 0#2 ++ 0#7, 0#1 ++ sa.code ++ 0#10 ++ 0#10 ++ 0#1]
  | .vneg p w fmt vd sa => [0#1 ++ 0x0B#6 ++ p ++ w.code ++ fmt.code ++ vd ++ 0#2 ++ 0#7, 0#1 ++ sa.code ++ 0#10 ++ 0#10 ++ 0#1]
  | .vand p w vd sa sb => [0#1 ++ 0x0C#6 ++ p ++ w.code ++ 0#4 ++ vd ++ 0#2 ++ 0#7, 0#1 ++ sa.code ++ sb.code ++ 0#10 ++ 0#1]
  | .vor p w vd sa sb => [0#1 ++ 0x0D#6 ++ p ++ w.code ++ 0#4 ++ vd ++ 0#2 ++ 0#7, 0#1 ++ sa.code ++ sb.code ++ 0#10 ++ 0#1]
  | .vxor p w vd sa sb => [0#1 ++ 0x0E#6 ++ p ++ w.code ++ 0#4 ++ vd ++ 0#2 ++ 0#7, 0#1 ++ sa.code ++ sb.code ++ 0#10 ++ 0#1]
  | .vandn p w vd sa sb => [0#1 ++ 0x0F#6 ++ p ++ w.code ++ 0#4 ++ vd ++ 0#2 ++ 0#7, 0#1 ++ sa.code ++ sb.code ++ 0#10 ++ 0#1]
  | .vshl p w fmt vd sa sb => [0#1 ++ 0x10#6 ++ p ++ w.code ++ fmt.code ++ vd ++ 0#2 ++ 0#7, 0#1 ++ sa.code ++ sb.code ++ 0#10 ++ 0#1]
  | .vshr p w fmt vd sa sb => [0#1 ++ 0x11#6 ++ p ++ w.code ++ fmt.code ++ vd ++ 0#2 ++ 0#7, 0#1 ++ sa.code ++ sb.code ++ 0#10 ++ 0#1]
  | .vsra p w fmt vd sa sb => [0#1 ++ 0x12#6 ++ p ++ w.code ++ fmt.code ++ vd ++ 0#2 ++ 0#7, 0#1 ++ sa.code ++ sb.code ++ 0#10 ++ 0#1]
  | .vshli p w fmt vd n sa => [0#1 ++ 0x13#6 ++ p ++ w.code ++ fmt.code ++ vd ++ 0#2 ++ 0#1 ++ n, 0#1 ++ sa.code ++ 0#10 ++ 0#10 ++ 0#1]
  | .vshri p w fmt vd n sa => [0#1 ++ 0x14#6 ++ p ++ w.code ++ fmt.code ++ vd ++ 0#2 ++ 0#1 ++ n, 0#1 ++ sa.code ++ 0#10 ++ 0#10 ++ 0#1]
  | .vsrai p w fmt vd n sa => [0#1 ++ 0x15#6 ++ p ++ w.code ++ fmt.code ++ vd ++ 0#2 ++ 0#1 ++ n, 0#1 ++ sa.code ++ 0#10 ++ 0#10 ++ 0#1]
  | .vcmp p w fmt vd cnd sa sb => [0#1 ++ 0x16#6 ++ p ++ w.code ++ fmt.code ++ vd ++ 0#2 ++ 0#4 ++ cnd.code, 0#1 ++ sa.code ++ sb.code ++ 0#10 ++ 0#1]
  | .vsel p w vd sa sb sc => [0#1 ++ 0x17#6 ++ p ++ w.code ++ 0#4 ++ vd ++ 0#2 ++ 0#7, 0#1 ++ sa.code ++ sb.code ++ sc.code ++ 0#1]
  | .vcvt p w fmt vd rm sat src sa => [0#1 ++ 0x18#6 ++ p ++ w.code ++ fmt.code ++ vd ++ rm.code ++ 0#2 ++ BitVec.ofBool sat ++ src.code, 0#1 ++ sa.code ++ 0#10 ++ 0#10 ++ 0#1]
  | .vdup p w fmt vd ga => [0#1 ++ 0x19#6 ++ p ++ w.code ++ fmt.code ++ vd ++ 0#9, 0#1 ++ ga ++ 0#25]
  | .vrsum p w fmt vd sa => [0#1 ++ 0x20#6 ++ p ++ w.code ++ fmt.code ++ vd ++ 0#2 ++ 0#7, 0#1 ++ sa.code ++ 0#10 ++ 0#10 ++ 0#1]
  | .vrmax p w fmt vd sa => [0#1 ++ 0x21#6 ++ p ++ w.code ++ fmt.code ++ vd ++ 0#2 ++ 0#7, 0#1 ++ sa.code ++ 0#10 ++ 0#10 ++ 0#1]
  | .vrmin p w fmt vd sa => [0#1 ++ 0x22#6 ++ p ++ w.code ++ fmt.code ++ vd ++ 0#2 ++ 0#7, 0#1 ++ sa.code ++ 0#10 ++ 0#10 ++ 0#1]
  | .saAdd p w fmt ga sa => [0#1 ++ 0x30#6 ++ p ++ w.code ++ fmt.code ++ ga ++ 0#9, 0#1 ++ sa.code ++ 0#21]
  | .expF p w vd sa => [0#1 ++ 0x01#6 ++ p ++ w.code ++ 0#4 ++ vd ++ 0#9, 0#1 ++ sa.code ++ 0#21]
  | .expR p w vd sa => [0#1 ++ 0x02#6 ++ p ++ w.code ++ 0#4 ++ vd ++ 0#9, 0#1 ++ sa.code ++ 0#21]
  | .exp2F p w vd sa => [0#1 ++ 0x03#6 ++ p ++ w.code ++ 0#4 ++ vd ++ 0#9, 0#1 ++ sa.code ++ 0#21]
  | .exp2R p w vd sa => [0#1 ++ 0x04#6 ++ p ++ w.code ++ 0#4 ++ vd ++ 0#9, 0#1 ++ sa.code ++ 0#21]
  | .log2F p w vd sa => [0#1 ++ 0x05#6 ++ p ++ w.code ++ 0#4 ++ vd ++ 0#9, 0#1 ++ sa.code ++ 0#21]
  | .log2R p w vd sa => [0#1 ++ 0x06#6 ++ p ++ w.code ++ 0#4 ++ vd ++ 0#9, 0#1 ++ sa.code ++ 0#21]
  | .rcpF p w vd sa => [0#1 ++ 0x07#6 ++ p ++ w.code ++ 0#4 ++ vd ++ 0#9, 0#1 ++ sa.code ++ 0#21]
  | .rcpR p w vd sa => [0#1 ++ 0x08#6 ++ p ++ w.code ++ 0#4 ++ vd ++ 0#9, 0#1 ++ sa.code ++ 0#21]
  | .rsqF p w vd sa => [0#1 ++ 0x09#6 ++ p ++ w.code ++ 0#4 ++ vd ++ 0#9, 0#1 ++ sa.code ++ 0#21]
  | .rsqR p w vd sa => [0#1 ++ 0x0A#6 ++ p ++ w.code ++ 0#4 ++ vd ++ 0#9, 0#1 ++ sa.code ++ 0#21]
  | .sqrtF p w vd sa => [0#1 ++ 0x0B#6 ++ p ++ w.code ++ 0#4 ++ vd ++ 0#9, 0#1 ++ sa.code ++ 0#21]
  | .sqrtR p w vd sa => [0#1 ++ 0x0C#6 ++ p ++ w.code ++ 0#4 ++ vd ++ 0#9, 0#1 ++ sa.code ++ 0#21]
  | .tanhF p w vd sa => [0#1 ++ 0x0D#6 ++ p ++ w.code ++ 0#4 ++ vd ++ 0#9, 0#1 ++ sa.code ++ 0#21]
  | .tanhR p w vd sa => [0#1 ++ 0x0E#6 ++ p ++ w.code ++ 0#4 ++ vd ++ 0#9, 0#1 ++ sa.code ++ 0#21]
  | .sigmF p w vd sa => [0#1 ++ 0x0F#6 ++ p ++ w.code ++ 0#4 ++ vd ++ 0#9, 0#1 ++ sa.code ++ 0#21]
  | .sigmR p w vd sa => [0#1 ++ 0x10#6 ++ p ++ w.code ++ 0#4 ++ vd ++ 0#9, 0#1 ++ sa.code ++ 0#21]
  | .sinF p w vd sa => [0#1 ++ 0x11#6 ++ p ++ w.code ++ 0#4 ++ vd ++ 0#9, 0#1 ++ sa.code ++ 0#21]
  | .sinR p w vd sa => [0#1 ++ 0x12#6 ++ p ++ w.code ++ 0#4 ++ vd ++ 0#9, 0#1 ++ sa.code ++ 0#21]
  | .cosF p w vd sa => [0#1 ++ 0x13#6 ++ p ++ w.code ++ 0#4 ++ vd ++ 0#9, 0#1 ++ sa.code ++ 0#21]
  | .cosR p w vd sa => [0#1 ++ 0x14#6 ++ p ++ w.code ++ 0#4 ++ vd ++ 0#9, 0#1 ++ sa.code ++ 0#21]
  | .xpack p w fmt vd src sa ga => [0#1 ++ 0x18#6 ++ p ++ w.code ++ fmt.code ++ vd ++ 0#5 ++ src.code, 0#1 ++ sa.code ++ ga ++ 0#15]
  | .xunpack p w fmt vd src sa ga => [0#1 ++ 0x19#6 ++ p ++ w.code ++ fmt.code ++ vd ++ 0#5 ++ src.code, 0#1 ++ sa.code ++ ga ++ 0#15]
  | .xscale p w fmt vd sa ga => [0#1 ++ 0x1A#6 ++ p ++ w.code ++ fmt.code ++ vd ++ 0#9, 0#1 ++ sa.code ++ ga ++ 0#15]
  | .xmaxe p w fmt vd tgt sa sb => [0#1 ++ 0x1B#6 ++ p ++ w.code ++ fmt.code ++ vd ++ 0#5 ++ tgt.code, 0#1 ++ sa.code ++ sb.code ++ 0#11]
  | .xperm p w fmt vd sa sb => [0#1 ++ 0x20#6 ++ p ++ w.code ++ fmt.code ++ vd ++ 0#9, 0#1 ++ sa.code ++ sb.code ++ 0#11]
  | .xrot p w fmt vd sa ga => [0#1 ++ 0x21#6 ++ p ++ w.code ++ fmt.code ++ vd ++ 0#9, 0#1 ++ sa.code ++ ga ++ 0#15]
  | .xzip p w fmt vd hi sa sb => [0#1 ++ 0x22#6 ++ p ++ w.code ++ fmt.code ++ vd ++ 0#8 ++ BitVec.ofBool hi, 0#1 ++ sa.code ++ sb.code ++ 0#11]
  | .xunzip p w fmt vd odd sa sb => [0#1 ++ 0x23#6 ++ p ++ w.code ++ fmt.code ++ vd ++ 0#8 ++ BitVec.ofBool odd, 0#1 ++ sa.code ++ sb.code ++ 0#11]
  | .xtrans p w fmt vd lrows sa => [0#1 ++ 0x24#6 ++ p ++ w.code ++ fmt.code ++ vd ++ 0#6 ++ lrows, 0#1 ++ sa.code ++ 0#10 ++ 0#11]
  | .saNrd p w fmt vd sa ga => [0#1 ++ 0x30#6 ++ p ++ w.code ++ fmt.code ++ vd ++ 0#9, 0#1 ++ sa.code ++ ga ++ 0#15]
  | .saSax p ga => [0#1 ++ 0x31#6 ++ p ++ 0#2 ++ 0#4 ++ ga ++ 0#9, 0#1 ++ 0#31]
  | .mcall p rtn => [0#1 ++ 0x01#6 ++ p ++ rtn ++ 0#15, 0#1 ++ 0#31]
  | .mrep p n => [0#1 ++ 0x02#6 ++ p ++ n ++ 0#9, 0#1 ++ 0#31]
  | .mprog p ga dst nm1 => [0#1 ++ 0x03#6 ++ p ++ ga ++ dst ++ 0#5, 0#1 ++ 0#1 ++ nm1 ++ 0#20]
  | .mprogT p ga dst nm1 => [0#1 ++ 0x03#6 ++ p ++ ga ++ dst ++ 0#5, 0#1 ++ 1#1 ++ nm1 ++ 0#20]
  | .mwb p ga => [0#1 ++ 0x04#6 ++ p ++ ga ++ 0#15, 0#1 ++ 0#31]
  | .mstat p qd => [0#1 ++ 0x05#6 ++ p ++ qd ++ 0#18, 0#1 ++ 0#31]
  | .mdrain p qd => [0#1 ++ 0x06#6 ++ p ++ qd ++ 0#18, 0#1 ++ 0#31]
  | .ld p w buf d gb off => [0#1 ++ 0x01#6 ++ p ++ w.code ++ buf.code ++ d.code ++ 0#6, 0#1 ++ gb ++ off]
  | .st p w buf vr port gb off => [0#1 ++ 0x02#6 ++ p ++ w.code ++ buf.code ++ vr ++ port ++ 0#1 ++ 0#6, 0#1 ++ gb ++ off]
  | .lds p sz buf gr sx gb off => [0#1 ++ 0x03#6 ++ p ++ sz.code ++ buf.code ++ gr ++ 0#3 ++ BitVec.ofBool sx ++ 0#6, 0#1 ++ gb ++ off]
  | .sts p sz buf gr gb off => [0#1 ++ 0x04#6 ++ p ++ sz.code ++ buf.code ++ gr ++ 0#3 ++ 0#1 ++ 0#6, 0#1 ++ gb ++ off]
  | .atom p sz buf gr aop gs gb off => [0#1 ++ 0x05#6 ++ p ++ sz.code ++ buf.code ++ gr ++ aop.code ++ 0#1 ++ gs, 0#1 ++ gb ++ off]
  | .gld p w d gb off => [0#1 ++ 0x08#6 ++ p ++ w.code ++ 0#3 ++ d.code ++ 0#6, 0#1 ++ gb ++ off]
  | .gst p w vr port gb off => [0#1 ++ 0x09#6 ++ p ++ w.code ++ 0#3 ++ vr ++ port ++ 0#1 ++ 0#6, 0#1 ++ gb ++ off]
  | .gatom p sz qd aop gs gb off => [0#1 ++ 0x0A#6 ++ p ++ sz.code ++ 0#3 ++ 0#3 ++ qd ++ aop.code ++ 0#1 ++ gs, 0#1 ++ gb ++ off]
  | .mcst p w vr port gm gb rank xoff => [0#1 ++ 0x0B#6 ++ p ++ w.code ++ 6#3 ++ vr ++ port ++ 0#1 ++ gm, 0#1 ++ gb ++ rank ++ 0#1 ++ xoff]
  | .cpyTl p yr ar dir buf soff gx => [0#1 ++ 0x01#6 ++ p ++ yr ++ ar ++ BitVec.ofBool dir ++ buf.code ++ 0#6 ++ 0#3, 0#1 ++ soff ++ 0#12 ++ gx]
  | .cpyUt p yr ar dir buf soff cbm gx => [0#1 ++ 0x02#6 ++ p ++ yr ++ ar ++ BitVec.ofBool dir ++ buf.code ++ 0#6 ++ 0#3, 0#1 ++ soff ++ cbm ++ gx]
  | .cpyAdd p yr ar buf afmt soff cbm gx => [0#1 ++ 0x03#6 ++ p ++ yr ++ ar ++ 0#1 ++ buf.code ++ 0#6 ++ afmt.code, 0#1 ++ soff ++ cbm ++ gx]
  | .cpyBc p yr ar buf soff gx => [0#1 ++ 0x04#6 ++ p ++ yr ++ ar ++ 0#1 ++ buf.code ++ 0#6 ++ 0#3, 0#1 ++ soff ++ 0#12 ++ gx]
  | .cpyEv p yr ar sae32 buf soff => [0#1 ++ 0x06#6 ++ p ++ yr ++ ar ++ BitVec.ofBool sae32 ++ buf.code ++ 0#6 ++ 0#3, 0#1 ++ soff ++ 0#12 ++ 0#5]
  | .cpyRs p yr ar sae32 buf soff => [0#1 ++ 0x07#6 ++ p ++ yr ++ ar ++ BitVec.ofBool sae32 ++ buf.code ++ 0#6 ++ 0#3, 0#1 ++ soff ++ 0#12 ++ 0#5]
  | .cpyPut p yr ar buf soff cbm gx => [0#1 ++ 0x08#6 ++ p ++ yr ++ ar ++ 0#1 ++ buf.code ++ 0#6 ++ 0#3, 0#1 ++ soff ++ cbm ++ gx]
  | .cpyGet p yr ar buf soff cbm gx => [0#1 ++ 0x09#6 ++ p ++ yr ++ ar ++ 0#1 ++ buf.code ++ 0#6 ++ 0#3, 0#1 ++ soff ++ cbm ++ gx]
  | .coll p yr ar buf mode soff cbm gx => [0#1 ++ 0x0A#6 ++ p ++ yr ++ ar ++ 0#1 ++ buf.code ++ 0#6 ++ mode.code, 0#1 ++ soff ++ cbm ++ gx]
  | .mig p ar tier cbm => [0#1 ++ 0x0B#6 ++ p ++ 0#4 ++ ar ++ 0#1 ++ 0#3 ++ 0#6 ++ tier.code, 0#1 ++ 0#14 ++ cbm ++ 0#5]
  | .yclr p yd => [0#1 ++ 0x01#6 ++ p ++ yd ++ 0#17, 0#1 ++ 0#31]
  | .ysetd p yd dim stl sth bx sz => [0#1 ++ 0x02#6 ++ p ++ yd ++ dim ++ stl, 0#1 ++ sth ++ 0#6 ++ bx ++ sz]
  | .yseto p yd ga gb => [0#1 ++ 0x03#6 ++ p ++ yd ++ ga ++ gb ++ 0#5, 0#1 ++ 0#31]
  | .ysetf p yd esz ndm hi fill => [0#1 ++ 0x04#6 ++ p ++ yd ++ esz ++ ndm ++ 0#12, 0#1 ++ 0#7 ++ hi ++ fill]
  | .ysetb p yd geo => [0#1 ++ 0x05#6 ++ p ++ yd ++ geo ++ 0#14, 0#1 ++ 0#31]
  | .ycpy p yd ys => [0#1 ++ 0x06#6 ++ p ++ yd ++ ys ++ 0#13, 0#1 ++ 0#31]
  | .uaLd fmt asb ac pr tgt => half (0x01#6 ++ fmt.code ++ BitVec.ofBool asb ++ 0#1 ++ BitVec.ofBool ac ++ pr ++ 0#1 ++ 0#1 ++ BitVec.ofBool tgt ++ 0#46)
  | .ubLd fmt bs pr => half (0x02#6 ++ fmt.code ++ 0#1 ++ BitVec.ofBool bs ++ 0#1 ++ pr ++ 0#49)
  | .uStep fmt asb bs ac zr => half (0x03#6 ++ fmt.code ++ BitVec.ofBool asb ++ BitVec.ofBool bs ++ BitVec.ofBool ac ++ 0#3 ++ BitVec.ofBool zr ++ 0#48)
  | .uDrain ac pr zr dst qd bf16 => half (0x04#6 ++ 0#5 ++ BitVec.ofBool ac ++ pr ++ BitVec.ofBool zr ++ dst.code ++ qd ++ 0#1 ++ BitVec.ofBool bf16 ++ 0#41)
  | .uLoop lv tgt cnt => half (0x05#6 ++ 0#17 ++ lv ++ tgt ++ 0#5 ++ cnt)
  | .uAddp pr sh imm => half (0x06#6 ++ 0#6 ++ pr ++ 0#19 ++ sh ++ imm)
  | .uEnd => half (0x07#6 ++ 0#58)
  | .resetRelease .. | .frameTick | .enterRun | .interfaceDrainComplete | .roleDrainComplete
  | .flushComplete .. | .zeroiseComplete .. | .reenumerateComplete .. | .roleChangeCommit
  | .drainDeadlineExpiry | .layerFence .. | .scratchpadCorrectableError .. | .freezeEnd ..
  | .scratchpadUncorrectableError .. | .nearTierUncorrectable .. | .layerPoolUncorrectable ..
  | .farTierUncorrectable .. | .copyParityError .. | .errorResponseArrival .. | .coreRelease ..
  | .lskewWrite .. | .linkCalibration .. | .linkCalibrationDone .. | .lstatClear .. | .lostevClear ..
  | .timedFlitArrival .. | .timedFlitRelease .. | .untimedFlitArrival .. | .uePacketReceive .. | .put ..
  | .get .. | .fetchAndAdd .. | .compareAndSwap .. | .swap .. | .statusWindowGet | .runReceive ..
  | .runIdleClose .. | .runRetryExhausted .. | .cxlLinkDown .. | .getVersion .. | .getCapabilities ..
  | .negotiateAlgorithms .. | .getDigests .. | .getCertificate .. | .challenge .. | .getMeasurements ..
  | .keyExchange .. | .finish .. | .endSession .. | .spdmUnsupportedRequest .. | .channelPut ..
  | .commandPacketMessage .. | .tailWrite .. | .heartbeat .. | .channelClose .. | .heartbeatTimeout ..
  | .keyHoldExpiry .. | .measuredLoad .. | .rekeyDrained .. | .rekeySwitch .. | .rekeySwitched ..
  | .rekeyResume .. | .rekeyPhaseTimeout .. | .packetConsume .. | .packetStart .. | .packetComplete ..
  | .nop .. | .launch .. | .almanac .. | .pred .. | .sigdec .. | .sigwait .. | .sigwaitReevaluate ..
  | .sigwaitTimeout .. | .copy .. | .partition .. | .checkpoint .. | .checkpointBarrier
  | .checkpointBudgetExpiry | .checkpointSaveDone | .checkpointStreamDone .. | .checkpointBlobDone
  | .loadkey .. | .eraseload .. | .domform .. | .domrekey .. | .ifstLock .. | .ifstUnlock ..
  | .ifstRelease .. | .cfgwr .. | .cfgrd .. | .configRegisterWrite .. | .worldCreate .. | .worldDrain ..
  | .worldDrainComplete .. | .worldOpen .. | .worldGrant .. | .measure .. | .queueCreate .. | .queueReset ..
  | .queueDestroy .. | .almanacBindDeadline .. | .almanacStart .. | .armedStart .. | .almanacLimitExpiry ..
  | .leaseClaim .. | .leaseRenew .. | .leaseExpiry | .bindRecordWrite .. | .commit .. | .frondStart ..
  | .itemStart .. | .frondEnd .. | .barrierTimeout .. | .waitTimeout .. | .resultLanding ..
  | .queueDelivery .. | .bankWakeDone .. | .timedWriteLanding .. | .timedReadSample .. | .untimedApply ..
  | .untimedServe .. | .untimedAtomic .. | .fenceComplete .. | .multicastLanding .. | .timedChunkLanding ..
  | .untimedChunkComplete .. | .pushArrival .. | .migrationWritesApplied .. | .migrationCopyDone ..
  | .drainRowLanding .. | .saFold .. | .saGroupSum .. | .saPlaneArrival .. | .contextPreempt ..
  | .contextResume .. | .contextSave .. | .contextSaveDone .. | .contextRestore ..
  | .instructionStoreWrite .. | .directoryWrite .. | .landingEntry .. | .freinoEntryTrap ..
  | .tkalignRelease .. | .sigWaitRepost .. | .reset | .contextRestoreDone .. | .emptyBundle ..
  | .illegalEncoding .. | .rekeyRequest .. | .checkpointRestore .. => []

/-- A decoded bundle (R350, R351): its landing and quiet bits, its slots in order, and its length in syllables. -/
structure Bundle where
  lnd : Bool
  qt : Bool
  slots : List (Slot × Instr)
  len : Nat
  deriving DecidableEq, Repr

/-- The presence bit of a slot in the header (R351): C at bit 30 down to Y at bit 20. -/
def Slot.pmBit (s : Slot) : Nat := 30 - s.index

/-- The slots a header names, in order. -/
def presentSlots (h : Syllable) : List Slot := Slot.all.filter (fun s => bit h s.pmBit)

/-- The length of the bundle a header describes (R350). -/
def bundleLen (h : Syllable) : Nat := (presentSlots h).foldl (fun n s => n + s.syllables) 1

/-- The slots of a bundle read from its syllables after the header; a failure names the slot (R363 check 2). -/
def decodeSlots : List Slot → List Syllable → Except Slot (List (Slot × Instr))
  | [], _ => .ok []
  | s :: rest, ws =>
    let w0 := ws.headD 0
    let w1 := if s.syllables = 2 then (ws.drop 1).headD 0 else 0#32
    match decodeSlot s.kind w0 w1 with
    | .error _ => .error s
    | .ok i =>
      match decodeSlots rest (ws.drop s.syllables) with
      | .error t => .error t
      | .ok l => .ok ((s, i) :: l)

/-- The instruction the decoder reads from bits numbered as the opcode table numbers them. A table row of 32 bits does not
name its slot, and C, IA, IB and S share OP values: the maps are tried in the order C, I, S, then the two-syllable maps
with the second syllable from bits 63:32. -/
def decodeTableWord (nbits w : Nat) : Option Instr :=
  let w0 : Syllable := BitVec.ofNat 32 w
  let w1 : Syllable := if nbits ≤ 32 then 0#32 else BitVec.ofNat 32 (w / 2 ^ 32)
  let one (ks : List SlotKind) : Option Instr :=
    ks.firstM (fun k => match decodeSlot k w0 w1 with | .ok i => some i | .error _ => none)
  if nbits ≤ 32 then one [.C, .I, .S, .V, .X, .M, .L, .K, .Y] else one [.V, .X, .M, .L, .K, .Y, .U]

end Sys2Proof
end

