-- ==== Sys2Proof/Machine/SMap.lean ====
section
/-! DEFINITION. Sparse data by key, in one canonical form: keys strictly rising, and no entry equal to what an unlisted key
reads as. Memory, register files, cores, worlds and fronds are held so. -/

namespace Sys2Proof.Machine

/-- Pairs of a key and a value. -/
abbrev SMap (α : Type) := List (Nat × α)

/-- The value at a key; an unlisted key reads as `d`. -/
def SMap.get {α : Type} (d : α) : SMap α → Nat → α
  | [], _ => d
  | (j, x) :: r, k => if j = k then x else SMap.get d r k

/-- The entries of the other keys. -/
def SMap.erase {α : Type} : SMap α → Nat → SMap α
  | [], _ => []
  | (j, x) :: r, k => if j = k then SMap.erase r k else (j, x) :: SMap.erase r k

/-- An entry put before the first greater key. -/
def SMap.insert {α : Type} : SMap α → Nat → α → SMap α
  | [], k, x => [(k, x)]
  | (j, y) :: r, k, x => if k < j then (k, x) :: (j, y) :: r else (j, y) :: SMap.insert r k x

/-- Writing one key: writing what an unlisted key reads as removes the entry. -/
def SMap.put {α : Type} [DecidableEq α] (d : α) (m : SMap α) (k : Nat) (x : α) : SMap α :=
  if x = d then SMap.erase m k else SMap.insert (SMap.erase m k) k x

/-- Writing one key of a map of records, whose default entries may stay listed. -/
def SMap.set {α : Type} (m : SMap α) (k : Nat) (x : α) : SMap α :=
  SMap.insert (SMap.erase m k) k x

/-- Changing the record at one key. -/
def SMap.upd {α : Type} (d : α) (m : SMap α) (k : Nat) (f : α → α) : SMap α :=
  SMap.set m k (f (SMap.get d m k))

/-- The keys listed. -/
def SMap.keys {α : Type} (m : SMap α) : List Nat := m.map Prod.fst

/-- Keys strictly rising and no default entry. -/
def SMap.wf {α : Type} [DecidableEq α] (d : α) : SMap α → Bool
  | [] => true
  | [(_, x)] => decide (x ≠ d)
  | (j, x) :: (k, y) :: r => decide (x ≠ d) && decide (j < k) && SMap.wf d ((k, y) :: r)

end Sys2Proof.Machine
end

