-- ==== Sys2Proof/Machine/Bundle.lean ====
section
/-! DEFINITION. What the slots of a bundle name: guards, vector registers, read ports, lane groups and destinations
(R152, R156, R157, R353, R364), the order of the whole-bundle legality checks (R363), and the bundle decoder. -/

namespace Sys2Proof

/-- Vector registers a source names. -/
def Src.vregs : Src → List (BitVec 6)
  | .v r _ => [r]
  | .q _ _ => []

/-- Read ports a source uses, with their registers (R156). -/
def Src.ports : Src → List (BitVec 3 × BitVec 6)
  | .v r port => [(port, r)]
  | .q _ _ => []

/-- The vector register of a load destination. -/
def Dst.vregs : Dst → List (BitVec 6)
  | .v r => [r]
  | .q _ => []

/-- A load destination as a destination: a queue is none (R364). -/
def Dst.dests : Dst → List (Nat × Nat)
  | .v r => [(3, r.toNat)]
  | .q _ => []

end Sys2Proof

namespace Sys2Proof.Machine

/-- The stage predicates p8 to p15 as destinations. -/
def stageDests : List (Nat × Nat) := (List.range 8).map (fun i => (2, 8 + i))
/-- The implicit destinations of `lsetup` and `lend` (R364): `ltrip` 0, `lpass` 1, `lrot` 2. -/
def lsetupDests : List (Nat × Nat) := [(6, 0), (6, 1), (6, 2)] ++ stageDests
def lendDests : List (Nat × Nat) := [(6, 1), (6, 2)] ++ stageDests

/-- The guard of an instruction (R352); events have none. -/
def guardOf : Instr → Option (BitVec 4)
  | .br p _ => some p
  | .brx p _ => some p
  | .call p _ _ _ => some p
  | .lsetup p _ _ _ => some p
  | .lend p => some p
  | .lquit p _ => some p
  | .callx p _ _ _ => some p
  | .ret p _ => some p
  | .barL p _ => some p
  | .tkalign p _ => some p
  | .childLaunch p _ _ _ => some p
  | .sigDec p _ _ _ => some p
  | .sigWait p _ _ _ => some p
  | .fence p _ => some p
  | .cwait p _ _ => some p
  | .swait p _ _ => some p
  | .softwareTrap p _ => some p
  | .halt p => some p
  | .rdsys p _ _ => some p
  | .wrsys p _ _ => some p
  | .wfe p => some p
  | .saSealC p _ _ => some p
  | .saSealG p _ _ => some p
  | .saSealP p _ _ => some p
  | .add p _ _ _ => some p
  | .sub p _ _ _ => some p
  | .adds p _ _ _ _ => some p
  | .subs p _ _ _ _ => some p
  | .mul p _ _ _ => some p
  | .mulh p _ _ _ => some p
  | .mulhn p _ _ _ => some p
  | .div p _ _ _ _ => some p
  | .rem p _ _ _ _ => some p
  | .addi p _ _ _ => some p
  | .xori p _ _ _ => some p
  | .andi p _ _ _ => some p
  | .ori p _ _ _ => some p
  | .and p _ _ _ => some p
  | .or p _ _ _ => some p
  | .xor p _ _ _ => some p
  | .shli p _ _ _ => some p
  | .shri p _ _ _ => some p
  | .srai p _ _ _ => some p
  | .roti p _ _ _ => some p
  | .shl p _ _ _ => some p
  | .shr p _ _ _ => some p
  | .sra p _ _ _ => some p
  | .rot p _ _ _ => some p
  | .bfx p _ _ _ => some p
  | .bfxs p _ _ _ => some p
  | .bfi p _ _ _ => some p
  | .fsh p _ _ _ => some p
  | .popc p _ _ => some p
  | .clz p _ _ => some p
  | .ctz p _ _ => some p
  | .min p _ _ _ _ => some p
  | .max p _ _ _ _ => some p
  | .cmp p _ _ _ _ => some p
  | .cmpi p _ _ _ _ => some p
  | .sel p _ _ _ _ => some p
  | .movi p _ _ => some p
  | .andn p _ _ _ => some p
  | .pand p _ _ _ => some p
  | .por p _ _ _ => some p
  | .pxor p _ _ _ => some p
  | .pandn p _ _ _ => some p
  | .lea p _ _ _ => some p
  | .movm p _ _ => some p
  | .movg p _ _ => some p
  | .leaa p _ _ _ => some p
  | .spStG p _ _ => some p
  | .spStV p _ _ => some p
  | .spLdG p _ _ => some p
  | .spLdV p _ _ => some p
  | .vadd p _ _ _ _ _ _ => some p
  | .vsub p _ _ _ _ _ _ => some p
  | .vmul p _ _ _ _ _ _ => some p
  | .vfma p _ _ _ _ _ _ _ => some p
  | .vfnma p _ _ _ _ _ _ _ => some p
  | .vadds p _ _ _ _ _ => some p
  | .vsubs p _ _ _ _ _ => some p
  | .vmin p _ _ _ _ _ => some p
  | .vmax p _ _ _ _ _ => some p
  | .vabs p _ _ _ _ => some p
  | .vneg p _ _ _ _ => some p
  | .vand p _ _ _ _ => some p
  | .vor p _ _ _ _ => some p
  | .vxor p _ _ _ _ => some p
  | .vandn p _ _ _ _ => some p
  | .vshl p _ _ _ _ _ => some p
  | .vshr p _ _ _ _ _ => some p
  | .vsra p _ _ _ _ _ => some p
  | .vshli p _ _ _ _ _ => some p
  | .vshri p _ _ _ _ _ => some p
  | .vsrai p _ _ _ _ _ => some p
  | .vcmp p _ _ _ _ _ _ => some p
  | .vsel p _ _ _ _ _ => some p
  | .vcvt p _ _ _ _ _ _ _ => some p
  | .vdup p _ _ _ _ => some p
  | .vrsum p _ _ _ _ => some p
  | .vrmax p _ _ _ _ => some p
  | .vrmin p _ _ _ _ => some p
  | .saAdd p _ _ _ _ => some p
  | .expF p _ _ _ => some p
  | .expR p _ _ _ => some p
  | .exp2F p _ _ _ => some p
  | .exp2R p _ _ _ => some p
  | .log2F p _ _ _ => some p
  | .log2R p _ _ _ => some p
  | .rcpF p _ _ _ => some p
  | .rcpR p _ _ _ => some p
  | .rsqF p _ _ _ => some p
  | .rsqR p _ _ _ => some p
  | .sqrtF p _ _ _ => some p
  | .sqrtR p _ _ _ => some p
  | .tanhF p _ _ _ => some p
  | .tanhR p _ _ _ => some p
  | .sigmF p _ _ _ => some p
  | .sigmR p _ _ _ => some p
  | .sinF p _ _ _ => some p
  | .sinR p _ _ _ => some p
  | .cosF p _ _ _ => some p
  | .cosR p _ _ _ => some p
  | .xpack p _ _ _ _ _ _ => some p
  | .xunpack p _ _ _ _ _ _ => some p
  | .xscale p _ _ _ _ _ => some p
  | .xmaxe p _ _ _ _ _ _ => some p
  | .xperm p _ _ _ _ _ => some p
  | .xrot p _ _ _ _ _ => some p
  | .xzip p _ _ _ _ _ _ => some p
  | .xunzip p _ _ _ _ _ _ => some p
  | .xtrans p _ _ _ _ _ => some p
  | .saNrd p _ _ _ _ _ => some p
  | .saSax p _ => some p
  | .mcall p _ => some p
  | .mrep p _ => some p
  | .mprog p _ _ _ => some p
  | .mprogT p _ _ _ => some p
  | .mwb p _ => some p
  | .mstat p _ => some p
  | .mdrain p _ => some p
  | .ld p _ _ _ _ _ => some p
  | .st p _ _ _ _ _ _ => some p
  | .lds p _ _ _ _ _ _ => some p
  | .sts p _ _ _ _ _ => some p
  | .atom p _ _ _ _ _ _ _ => some p
  | .gld p _ _ _ _ => some p
  | .gst p _ _ _ _ _ => some p
  | .gatom p _ _ _ _ _ _ => some p
  | .mcst p _ _ _ _ _ _ _ => some p
  | .cpyTl p _ _ _ _ _ _ => some p
  | .cpyUt p _ _ _ _ _ _ _ => some p
  | .cpyAdd p _ _ _ _ _ _ _ => some p
  | .cpyBc p _ _ _ _ _ => some p
  | .cpyEv p _ _ _ _ _ => some p
  | .cpyRs p _ _ _ _ _ => some p
  | .cpyPut p _ _ _ _ _ _ => some p
  | .cpyGet p _ _ _ _ _ _ => some p
  | .coll p _ _ _ _ _ _ _ => some p
  | .mig p _ _ _ => some p
  | .yclr p _ => some p
  | .ysetd p _ _ _ _ _ _ => some p
  | .yseto p _ _ _ => some p
  | .ysetf p _ _ _ _ _ => some p
  | .ysetb p _ _ => some p
  | .ycpy p _ _ => some p
  | _ => none

/-- The vector registers an instruction names, sources and destinations (R159). -/
def vregsOf : Instr → List (BitVec 6)
  | .spStV _ r _ => [r]
  | .spLdV _ r _ => [r]
  | .vadd _ _ _ vd _ sa sb => [vd] ++ sa.vregs ++ sb.vregs
  | .vsub _ _ _ vd _ sa sb => [vd] ++ sa.vregs ++ sb.vregs
  | .vmul _ _ _ vd _ sa sb => [vd] ++ sa.vregs ++ sb.vregs
  | .vfma _ _ _ vd _ sa sb sc => [vd] ++ sa.vregs ++ sb.vregs ++ sc.vregs
  | .vfnma _ _ _ vd _ sa sb sc => [vd] ++ sa.vregs ++ sb.vregs ++ sc.vregs
  | .vadds _ _ _ vd sa sb => [vd] ++ sa.vregs ++ sb.vregs
  | .vsubs _ _ _ vd sa sb => [vd] ++ sa.vregs ++ sb.vregs
  | .vmin _ _ _ vd sa sb => [vd] ++ sa.vregs ++ sb.vregs
  | .vmax _ _ _ vd sa sb => [vd] ++ sa.vregs ++ sb.vregs
  | .vabs _ _ _ vd sa => [vd] ++ sa.vregs
  | .vneg _ _ _ vd sa => [vd] ++ sa.vregs
  | .vand _ _ vd sa sb => [vd] ++ sa.vregs ++ sb.vregs
  | .vor _ _ vd sa sb => [vd] ++ sa.vregs ++ sb.vregs
  | .vxor _ _ vd sa sb => [vd] ++ sa.vregs ++ sb.vregs
  | .vandn _ _ vd sa sb => [vd] ++ sa.vregs ++ sb.vregs
  | .vshl _ _ _ vd sa sb => [vd] ++ sa.vregs ++ sb.vregs
  | .vshr _ _ _ vd sa sb => [vd] ++ sa.vregs ++ sb.vregs
  | .vsra _ _ _ vd sa sb => [vd] ++ sa.vregs ++ sb.vregs
  | .vshli _ _ _ vd _ sa => [vd] ++ sa.vregs
  | .vshri _ _ _ vd _ sa => [vd] ++ sa.vregs
  | .vsrai _ _ _ vd _ sa => [vd] ++ sa.vregs
  | .vcmp _ _ _ vd _ sa sb => [vd] ++ sa.vregs ++ sb.vregs
  | .vsel _ _ vd sa sb sc => [vd] ++ sa.vregs ++ sb.vregs ++ sc.vregs
  | .vcvt _ _ _ vd _ _ _ sa => [vd] ++ sa.vregs
  | .vdup _ _ _ vd _ => [vd]
  | .vrsum _ _ _ vd sa => [vd] ++ sa.vregs
  | .vrmax _ _ _ vd sa => [vd] ++ sa.vregs
  | .vrmin _ _ _ vd sa => [vd] ++ sa.vregs
  | .saAdd _ _ _ _ sa => sa.vregs
  | .expF _ _ vd sa => [vd] ++ sa.vregs
  | .expR _ _ vd sa => [vd] ++ sa.vregs
  | .exp2F _ _ vd sa => [vd] ++ sa.vregs
  | .exp2R _ _ vd sa => [vd] ++ sa.vregs
  | .log2F _ _ vd sa => [vd] ++ sa.vregs
  | .log2R _ _ vd sa => [vd] ++ sa.vregs
  | .rcpF _ _ vd sa => [vd] ++ sa.vregs
  | .rcpR _ _ vd sa => [vd] ++ sa.vregs
  | .rsqF _ _ vd sa => [vd] ++ sa.vregs
  | .rsqR _ _ vd sa => [vd] ++ sa.vregs
  | .sqrtF _ _ vd sa => [vd] ++ sa.vregs
  | .sqrtR _ _ vd sa => [vd] ++ sa.vregs
  | .tanhF _ _ vd sa => [vd] ++ sa.vregs
  | .tanhR _ _ vd sa => [vd] ++ sa.vregs
  | .sigmF _ _ vd sa => [vd] ++ sa.vregs
  | .sigmR _ _ vd sa => [vd] ++ sa.vregs
  | .sinF _ _ vd sa => [vd] ++ sa.vregs
  | .sinR _ _ vd sa => [vd] ++ sa.vregs
  | .cosF _ _ vd sa => [vd] ++ sa.vregs
  | .cosR _ _ vd sa => [vd] ++ sa.vregs
  | .xpack _ _ _ vd _ sa _ => [vd] ++ sa.vregs
  | .xunpack _ _ _ vd _ sa _ => [vd] ++ sa.vregs
  | .xscale _ _ _ vd sa _ => [vd] ++ sa.vregs
  | .xmaxe _ _ _ vd _ sa sb => [vd] ++ sa.vregs ++ sb.vregs
  | .xperm _ _ _ vd sa sb => [vd] ++ sa.vregs ++ sb.vregs
  | .xrot _ _ _ vd sa _ => [vd] ++ sa.vregs
  | .xzip _ _ _ vd _ sa sb => [vd] ++ sa.vregs ++ sb.vregs
  | .xunzip _ _ _ vd _ sa sb => [vd] ++ sa.vregs ++ sb.vregs
  | .xtrans _ _ _ vd _ sa => [vd] ++ sa.vregs
  | .saNrd _ _ _ vd sa _ => [vd] ++ sa.vregs
  | .ld _ _ _ d _ _ => d.vregs
  | .st _ _ _ vr _ _ _ => [vr]
  | .gld _ _ d _ _ => d.vregs
  | .gst _ _ vr _ _ _ => [vr]
  | .mcst _ _ vr _ _ _ _ _ => [vr]
  | _ => []

/-- The sources of an instruction that are vector registers or queues (R154). -/
def srcsOf : Instr → List Src
  | .vadd _ _ _ _ _ sa sb => [sa, sb]
  | .vsub _ _ _ _ _ sa sb => [sa, sb]
  | .vmul _ _ _ _ _ sa sb => [sa, sb]
  | .vfma _ _ _ _ _ sa sb sc => [sa, sb, sc]
  | .vfnma _ _ _ _ _ sa sb sc => [sa, sb, sc]
  | .vadds _ _ _ _ sa sb => [sa, sb]
  | .vsubs _ _ _ _ sa sb => [sa, sb]
  | .vmin _ _ _ _ sa sb => [sa, sb]
  | .vmax _ _ _ _ sa sb => [sa, sb]
  | .vabs _ _ _ _ sa => [sa]
  | .vneg _ _ _ _ sa => [sa]
  | .vand _ _ _ sa sb => [sa, sb]
  | .vor _ _ _ sa sb => [sa, sb]
  | .vxor _ _ _ sa sb => [sa, sb]
  | .vandn _ _ _ sa sb => [sa, sb]
  | .vshl _ _ _ _ sa sb => [sa, sb]
  | .vshr _ _ _ _ sa sb => [sa, sb]
  | .vsra _ _ _ _ sa sb => [sa, sb]
  | .vshli _ _ _ _ _ sa => [sa]
  | .vshri _ _ _ _ _ sa => [sa]
  | .vsrai _ _ _ _ _ sa => [sa]
  | .vcmp _ _ _ _ _ sa sb => [sa, sb]
  | .vsel _ _ _ sa sb sc => [sa, sb, sc]
  | .vcvt _ _ _ _ _ _ _ sa => [sa]
  | .vrsum _ _ _ _ sa => [sa]
  | .vrmax _ _ _ _ sa => [sa]
  | .vrmin _ _ _ _ sa => [sa]
  | .saAdd _ _ _ _ sa => [sa]
  | .expF _ _ _ sa => [sa]
  | .expR _ _ _ sa => [sa]
  | .exp2F _ _ _ sa => [sa]
  | .exp2R _ _ _ sa => [sa]
  | .log2F _ _ _ sa => [sa]
  | .log2R _ _ _ sa => [sa]
  | .rcpF _ _ _ sa => [sa]
  | .rcpR _ _ _ sa => [sa]
  | .rsqF _ _ _ sa => [sa]
  | .rsqR _ _ _ sa => [sa]
  | .sqrtF _ _ _ sa => [sa]
  | .sqrtR _ _ _ sa => [sa]
  | .tanhF _ _ _ sa => [sa]
  | .tanhR _ _ _ sa => [sa]
  | .sigmF _ _ _ sa => [sa]
  | .sigmR _ _ _ sa => [sa]
  | .sinF _ _ _ sa => [sa]
  | .sinR _ _ _ sa => [sa]
  | .cosF _ _ _ sa => [sa]
  | .cosR _ _ _ sa => [sa]
  | .xpack _ _ _ _ _ sa _ => [sa]
  | .xunpack _ _ _ _ _ sa _ => [sa]
  | .xscale _ _ _ _ sa _ => [sa]
  | .xmaxe _ _ _ _ _ sa sb => [sa, sb]
  | .xperm _ _ _ _ sa sb => [sa, sb]
  | .xrot _ _ _ _ sa _ => [sa]
  | .xzip _ _ _ _ _ sa sb => [sa, sb]
  | .xunzip _ _ _ _ _ sa sb => [sa, sb]
  | .xtrans _ _ _ _ _ sa => [sa]
  | .saNrd _ _ _ _ sa _ => [sa]
  | _ => []
/-- An instruction with a queue among its sources; queues as load destinations belong to the L slot. -/
def queueOperand (i : Instr) : Bool := (srcsOf i).any (fun x => match x with | .q _ _ => true | .v _ _ => false)

/-- The read ports an instruction uses, in field order (R156, R363 check 4). -/
def portsOf : Instr → List (BitVec 3 × BitVec 6)
  | .vadd _ _ _ _ _ sa sb => sa.ports ++ sb.ports
  | .vsub _ _ _ _ _ sa sb => sa.ports ++ sb.ports
  | .vmul _ _ _ _ _ sa sb => sa.ports ++ sb.ports
  | .vfma _ _ _ _ _ sa sb sc => sa.ports ++ sb.ports ++ sc.ports
  | .vfnma _ _ _ _ _ sa sb sc => sa.ports ++ sb.ports ++ sc.ports
  | .vadds _ _ _ _ sa sb => sa.ports ++ sb.ports
  | .vsubs _ _ _ _ sa sb => sa.ports ++ sb.ports
  | .vmin _ _ _ _ sa sb => sa.ports ++ sb.ports
  | .vmax _ _ _ _ sa sb => sa.ports ++ sb.ports
  | .vabs _ _ _ _ sa => sa.ports
  | .vneg _ _ _ _ sa => sa.ports
  | .vand _ _ _ sa sb => sa.ports ++ sb.ports
  | .vor _ _ _ sa sb => sa.ports ++ sb.ports
  | .vxor _ _ _ sa sb => sa.ports ++ sb.ports
  | .vandn _ _ _ sa sb => sa.ports ++ sb.ports
  | .vshl _ _ _ _ sa sb => sa.ports ++ sb.ports
  | .vshr _ _ _ _ sa sb => sa.ports ++ sb.ports
  | .vsra _ _ _ _ sa sb => sa.ports ++ sb.ports
  | .vshli _ _ _ _ _ sa => sa.ports
  | .vshri _ _ _ _ _ sa => sa.ports
  | .vsrai _ _ _ _ _ sa => sa.ports
  | .vcmp _ _ _ _ _ sa sb => sa.ports ++ sb.ports
  | .vsel _ _ _ sa sb sc => sa.ports ++ sb.ports ++ sc.ports
  | .vcvt _ _ _ _ _ _ _ sa => sa.ports
  | .vrsum _ _ _ _ sa => sa.ports
  | .vrmax _ _ _ _ sa => sa.ports
  | .vrmin _ _ _ _ sa => sa.ports
  | .saAdd _ _ _ _ sa => sa.ports
  | .expF _ _ _ sa => sa.ports
  | .expR _ _ _ sa => sa.ports
  | .exp2F _ _ _ sa => sa.ports
  | .exp2R _ _ _ sa => sa.ports
  | .log2F _ _ _ sa => sa.ports
  | .log2R _ _ _ sa => sa.ports
  | .rcpF _ _ _ sa => sa.ports
  | .rcpR _ _ _ sa => sa.ports
  | .rsqF _ _ _ sa => sa.ports
  | .rsqR _ _ _ sa => sa.ports
  | .sqrtF _ _ _ sa => sa.ports
  | .sqrtR _ _ _ sa => sa.ports
  | .tanhF _ _ _ sa => sa.ports
  | .tanhR _ _ _ sa => sa.ports
  | .sigmF _ _ _ sa => sa.ports
  | .sigmR _ _ _ sa => sa.ports
  | .sinF _ _ _ sa => sa.ports
  | .sinR _ _ _ sa => sa.ports
  | .cosF _ _ _ sa => sa.ports
  | .cosR _ _ _ sa => sa.ports
  | .xpack _ _ _ _ _ sa _ => sa.ports
  | .xunpack _ _ _ _ _ sa _ => sa.ports
  | .xscale _ _ _ _ sa _ => sa.ports
  | .xmaxe _ _ _ _ _ sa sb => sa.ports ++ sb.ports
  | .xperm _ _ _ _ sa sb => sa.ports ++ sb.ports
  | .xrot _ _ _ _ sa _ => sa.ports
  | .xzip _ _ _ _ _ sa sb => sa.ports ++ sb.ports
  | .xunzip _ _ _ _ _ sa sb => sa.ports ++ sb.ports
  | .xtrans _ _ _ _ _ sa => sa.ports
  | .saNrd _ _ _ _ sa _ => sa.ports
  | .st _ _ _ vr port _ _ => [(port, vr)]
  | .gst _ _ vr port _ _ => [(port, vr)]
  | .mcst _ _ vr port _ _ _ _ => [(port, vr)]
  | _ => []

/-- Lane groups (R157). -/
def groupsOf : Instr → Nat
  | .vadd _ w _ _ _ _ _ => w.bits / 256
  | .vsub _ w _ _ _ _ _ => w.bits / 256
  | .vmul _ w _ _ _ _ _ => w.bits / 256
  | .vfma _ w _ _ _ _ _ _ => w.bits / 256
  | .vfnma _ w _ _ _ _ _ _ => w.bits / 256
  | .vadds _ w _ _ _ _ => w.bits / 256
  | .vsubs _ w _ _ _ _ => w.bits / 256
  | .vmin _ w _ _ _ _ => w.bits / 256
  | .vmax _ w _ _ _ _ => w.bits / 256
  | .vabs _ w _ _ _ => w.bits / 256
  | .vneg _ w _ _ _ => w.bits / 256
  | .vand _ w _ _ _ => w.bits / 256
  | .vor _ w _ _ _ => w.bits / 256
  | .vxor _ w _ _ _ => w.bits / 256
  | .vandn _ w _ _ _ => w.bits / 256
  | .vshl _ w _ _ _ _ => w.bits / 256
  | .vshr _ w _ _ _ _ => w.bits / 256
  | .vsra _ w _ _ _ _ => w.bits / 256
  | .vshli _ w _ _ _ _ => w.bits / 256
  | .vshri _ w _ _ _ _ => w.bits / 256
  | .vsrai _ w _ _ _ _ => w.bits / 256
  | .vcmp _ w _ _ _ _ _ => w.bits / 256
  | .vsel _ w _ _ _ _ => w.bits / 256
  | .vcvt _ w _ _ _ _ _ _ => w.bits / 256
  | .vdup _ w _ _ _ => w.bits / 256
  | .vrsum _ w _ _ _ => w.bits / 256
  | .vrmax _ w _ _ _ => w.bits / 256
  | .vrmin _ w _ _ _ => w.bits / 256
  | .saAdd _ w _ _ _ => w.bits / 256
  | .expF _ w _ _ => w.bits / 256
  | .expR _ w _ _ => w.bits / 256
  | .exp2F _ w _ _ => w.bits / 256
  | .exp2R _ w _ _ => w.bits / 256
  | .log2F _ w _ _ => w.bits / 256
  | .log2R _ w _ _ => w.bits / 256
  | .rcpF _ w _ _ => w.bits / 256
  | .rcpR _ w _ _ => w.bits / 256
  | .rsqF _ w _ _ => w.bits / 256
  | .rsqR _ w _ _ => w.bits / 256
  | .sqrtF _ w _ _ => w.bits / 256
  | .sqrtR _ w _ _ => w.bits / 256
  | .tanhF _ w _ _ => w.bits / 256
  | .tanhR _ w _ _ => w.bits / 256
  | .sigmF _ w _ _ => w.bits / 256
  | .sigmR _ w _ _ => w.bits / 256
  | .sinF _ w _ _ => w.bits / 256
  | .sinR _ w _ _ => w.bits / 256
  | .cosF _ w _ _ => w.bits / 256
  | .cosR _ w _ _ => w.bits / 256
  | .xpack _ w _ _ _ _ _ => w.bits / 256
  | .xunpack _ w _ _ _ _ _ => w.bits / 256
  | .xscale _ w _ _ _ _ => w.bits / 256
  | .xmaxe _ w _ _ _ _ _ => w.bits / 256
  | .xperm _ w _ _ _ _ => w.bits / 256
  | .xrot _ w _ _ _ _ => w.bits / 256
  | .xzip _ w _ _ _ _ _ => w.bits / 256
  | .xunzip _ w _ _ _ _ _ => w.bits / 256
  | .xtrans _ w _ _ _ _ => w.bits / 256
  | .saNrd _ w _ _ _ _ => w.bits / 256
  | .saSax _ _ => 1
  | _ => 0

/-- Destinations, explicit and implicit, by file (R281) and named register (R364). -/
def destsRaw : Instr → List (Nat × Nat)
  | .call _ _ _ gd => [(0, gd.toNat)]
  | .lsetup _ _ _ _ => lsetupDests
  | .lend _ => lendDests
  | .callx _ _ _ gd => [(0, gd.toNat)]
  | .childLaunch _ gd _ _ => [(0, gd.toNat)]
  | .rdsys _ gd _ => [(0, gd.toNat)]
  | .wrsys _ _ sys => [(6, sys.code.toNat)]
  | .add _ gd _ _ => [(0, gd.toNat)]
  | .sub _ gd _ _ => [(0, gd.toNat)]
  | .adds _ gd _ _ _ => [(0, gd.toNat)]
  | .subs _ gd _ _ _ => [(0, gd.toNat)]
  | .mul _ gd _ _ => [(0, gd.toNat)]
  | .mulh _ gd _ _ => [(0, gd.toNat)]
  | .mulhn _ gd _ _ => [(0, gd.toNat)]
  | .div _ gd _ _ _ => [(0, gd.toNat)]
  | .rem _ gd _ _ _ => [(0, gd.toNat)]
  | .addi _ gd _ _ => [(0, gd.toNat)]
  | .xori _ gd _ _ => [(0, gd.toNat)]
  | .andi _ gd _ _ => [(0, gd.toNat)]
  | .ori _ gd _ _ => [(0, gd.toNat)]
  | .and _ gd _ _ => [(0, gd.toNat)]
  | .or _ gd _ _ => [(0, gd.toNat)]
  | .xor _ gd _ _ => [(0, gd.toNat)]
  | .shli _ gd _ _ => [(0, gd.toNat)]
  | .shri _ gd _ _ => [(0, gd.toNat)]
  | .srai _ gd _ _ => [(0, gd.toNat)]
  | .roti _ gd _ _ => [(0, gd.toNat)]
  | .shl _ gd _ _ => [(0, gd.toNat)]
  | .shr _ gd _ _ => [(0, gd.toNat)]
  | .sra _ gd _ _ => [(0, gd.toNat)]
  | .rot _ gd _ _ => [(0, gd.toNat)]
  | .bfx _ gd _ _ => [(0, gd.toNat)]
  | .bfxs _ gd _ _ => [(0, gd.toNat)]
  | .bfi _ gd _ _ => [(0, gd.toNat)]
  | .fsh _ gd _ _ => [(0, gd.toNat)]
  | .popc _ gd _ => [(0, gd.toNat)]
  | .clz _ gd _ => [(0, gd.toNat)]
  | .ctz _ gd _ => [(0, gd.toNat)]
  | .min _ gd _ _ _ => [(0, gd.toNat)]
  | .max _ gd _ _ _ => [(0, gd.toNat)]
  | .cmp _ pd _ _ _ => [(2, pd.toNat)]
  | .cmpi _ pd _ _ _ => [(2, pd.toNat)]
  | .sel _ gd _ _ _ => [(0, gd.toNat)]
  | .movi _ gd _ => [(0, gd.toNat)]
  | .andn _ gd _ _ => [(0, gd.toNat)]
  | .pand _ pd _ _ => [(2, pd.toNat)]
  | .por _ pd _ _ => [(2, pd.toNat)]
  | .pxor _ pd _ _ => [(2, pd.toNat)]
  | .pandn _ pd _ _ => [(2, pd.toNat)]
  | .lea _ ad _ _ => [(1, ad.toNat)]
  | .movm _ md _ => [(4, md.toNat)]
  | .movg _ gd _ => [(0, gd.toNat)]
  | .leaa _ ad _ _ => [(1, ad.toNat)]
  | .spLdG _ r _ => [(0, r.toNat)]
  | .spLdV _ r _ => [(3, r.toNat)]
  | .vadd _ _ _ vd _ _ _ => [(3, vd.toNat)]
  | .vsub _ _ _ vd _ _ _ => [(3, vd.toNat)]
  | .vmul _ _ _ vd _ _ _ => [(3, vd.toNat)]
  | .vfma _ _ _ vd _ _ _ _ => [(3, vd.toNat)]
  | .vfnma _ _ _ vd _ _ _ _ => [(3, vd.toNat)]
  | .vadds _ _ _ vd _ _ => [(3, vd.toNat)]
  | .vsubs _ _ _ vd _ _ => [(3, vd.toNat)]
  | .vmin _ _ _ vd _ _ => [(3, vd.toNat)]
  | .vmax _ _ _ vd _ _ => [(3, vd.toNat)]
  | .vabs _ _ _ vd _ => [(3, vd.toNat)]
  | .vneg _ _ _ vd _ => [(3, vd.toNat)]
  | .vand _ _ vd _ _ => [(3, vd.toNat)]
  | .vor _ _ vd _ _ => [(3, vd.toNat)]
  | .vxor _ _ vd _ _ => [(3, vd.toNat)]
  | .vandn _ _ vd _ _ => [(3, vd.toNat)]
  | .vshl _ _ _ vd _ _ => [(3, vd.toNat)]
  | .vshr _ _ _ vd _ _ => [(3, vd.toNat)]
  | .vsra _ _ _ vd _ _ => [(3, vd.toNat)]
  | .vshli _ _ _ vd _ _ => [(3, vd.toNat)]
  | .vshri _ _ _ vd _ _ => [(3, vd.toNat)]
  | .vsrai _ _ _ vd _ _ => [(3, vd.toNat)]
  | .vcmp _ _ _ vd _ _ _ => [(3, vd.toNat)]
  | .vsel _ _ vd _ _ _ => [(3, vd.toNat)]
  | .vcvt _ _ _ vd _ _ _ _ => [(3, vd.toNat)]
  | .vdup _ _ _ vd _ => [(3, vd.toNat)]
  | .vrsum _ _ _ vd _ => [(3, vd.toNat)]
  | .vrmax _ _ _ vd _ => [(3, vd.toNat)]
  | .vrmin _ _ _ vd _ => [(3, vd.toNat)]
  | .expF _ _ vd _ => [(3, vd.toNat)]
  | .expR _ _ vd _ => [(3, vd.toNat)]
  | .exp2F _ _ vd _ => [(3, vd.toNat)]
  | .exp2R _ _ vd _ => [(3, vd.toNat)]
  | .log2F _ _ vd _ => [(3, vd.toNat)]
  | .log2R _ _ vd _ => [(3, vd.toNat)]
  | .rcpF _ _ vd _ => [(3, vd.toNat)]
  | .rcpR _ _ vd _ => [(3, vd.toNat)]
  | .rsqF _ _ vd _ => [(3, vd.toNat)]
  | .rsqR _ _ vd _ => [(3, vd.toNat)]
  | .sqrtF _ _ vd _ => [(3, vd.toNat)]
  | .sqrtR _ _ vd _ => [(3, vd.toNat)]
  | .tanhF _ _ vd _ => [(3, vd.toNat)]
  | .tanhR _ _ vd _ => [(3, vd.toNat)]
  | .sigmF _ _ vd _ => [(3, vd.toNat)]
  | .sigmR _ _ vd _ => [(3, vd.toNat)]
  | .sinF _ _ vd _ => [(3, vd.toNat)]
  | .sinR _ _ vd _ => [(3, vd.toNat)]
  | .cosF _ _ vd _ => [(3, vd.toNat)]
  | .cosR _ _ vd _ => [(3, vd.toNat)]
  | .xpack _ _ _ vd _ _ _ => [(3, vd.toNat)]
  | .xunpack _ _ _ vd _ _ _ => [(3, vd.toNat)]
  | .xscale _ _ _ vd _ _ => [(3, vd.toNat)]
  | .xmaxe _ _ _ vd _ _ _ => [(3, vd.toNat)]
  | .xperm _ _ _ vd _ _ => [(3, vd.toNat)]
  | .xrot _ _ _ vd _ _ => [(3, vd.toNat)]
  | .xzip _ _ _ vd _ _ _ => [(3, vd.toNat)]
  | .xunzip _ _ _ vd _ _ _ => [(3, vd.toNat)]
  | .xtrans _ _ _ vd _ _ => [(3, vd.toNat)]
  | .saNrd _ _ _ vd _ _ => [(3, vd.toNat)]
  | .mcall _ _ => [(4, 0), (4, 1), (4, 2), (4, 3)]
  | .ld _ _ _ d _ _ => d.dests
  | .lds _ _ _ gr _ _ _ => [(0, gr.toNat)]
  | .atom _ _ _ gr _ _ _ _ => [(0, gr.toNat)]
  | .gld _ _ d _ _ => d.dests
  | .yclr _ yd => [(5, yd.toNat)]
  | .ysetd _ yd _ _ _ _ _ => [(5, yd.toNat)]
  | .yseto _ yd _ _ => [(5, yd.toNat)]
  | .ysetf _ yd _ _ _ _ => [(5, yd.toNat)]
  | .ysetb _ yd _ => [(5, yd.toNat)]
  | .ycpy _ yd _ => [(5, yd.toNat)]
  | _ => []

/-- Destinations: g0 and p0 are never one (R152). -/
def destsOf (i : Instr) : List (Nat × Nat) :=
  (destsRaw i).filter (fun d => decide (¬ (d.2 = 0 ∧ (d.1 = 0 ∨ d.1 = 2))))

/-- Does a header break check 1 of R363: bits 17:0 nonzero, or LND without QT? -/
def headerBad (h : Syllable) : Bool := decide (fld h 0 18 ≠ 0#18) || (bit h 19 && !bit h 18)

/-- Check 3 of R363: the slot whose lane groups first carry the sum past 8. -/
def groupsBad : List (Slot × Instr) → Nat → Option Slot
  | [], _ => none
  | (sl, i) :: r, n => if 8 < n + groupsOf i then some sl else groupsBad r (n + groupsOf i)

/-- Two reads on one port of different registers conflict (R156). -/
def portClash (l : List (BitVec 3 × BitVec 6)) (x : BitVec 3 × BitVec 6) : Bool :=
  l.any (fun y => decide (y.1 = x.1 ∧ y.2 ≠ x.2))

/-- Whether some later operand of a list conflicts with those before it. -/
def portsClash : List (BitVec 3 × BitVec 6) → List (BitVec 3 × BitVec 6) → Bool
  | _, [] => false
  | seen, x :: r => portClash seen x || portsClash (seen ++ [x]) r

/-- Check 4 of R363: the slot of the later operand of the first conflicting pair. -/
def portsBad : List (Slot × Instr) → List (BitVec 3 × BitVec 6) → Option Slot
  | [], _ => none
  | (sl, i) :: r, seen => if portsClash seen (portsOf i) then some sl else portsBad r (seen ++ portsOf i)

/-- Check 5 of R363: the later slot of the first pair of one destination whose guards are both p0 (R366). -/
def pairsBad : List (Slot × Instr) → List (Nat × Nat) → Option Slot
  | [], _ => none
  | (sl, i) :: r, seen =>
    if guardOf i = some 0#4 then
      if (destsOf i).any (fun d => seen.contains d) then some sl else pairsBad r (seen ++ destsOf i)
    else pairsBad r seen

/-- The whole-bundle legality checks of R363 on a header and the syllables after it, of which `room` lie in its packet:
the bundle, or the slot index of the illegal-encoding trap. -/
def decodeBundle (h : Syllable) (ws : List Syllable) (room : Nat) : Except Nat Bundle :=
  if headerBad h || decide (room < bundleLen h) then .error 15
  else
    match decodeSlots (presentSlots h) ws with
    | .error sl => .error sl.index
    | .ok slots =>
      match groupsBad slots 0 with
      | some sl => .error sl.index
      | none =>
        match portsBad slots [] with
        | some sl => .error sl.index
        | none =>
          match pairsBad slots [] with
          | some sl => .error sl.index
          | none => .ok { lnd := bit h 19, qt := bit h 18, slots := slots, len := bundleLen h }

end Sys2Proof.Machine
end

