-- ==== Sys2Proof/Machine/Flags.lean ====
section
/-! DEFINITION. The predicate computations: scalar comparisons (R356, R397), packet comparisons (R97), the stage predicates
of a counted loop (R277), and the saturating and dividing arithmetic of the integer slots (R212, R390 to R396). -/

namespace Sys2Proof.Machine

/-- Compare (R397). -/
def cndHolds (c : Cnd) (a b : Word) : Bool :=
  match c with
  | .eq => decide (a = b)
  | .ne => decide (a ≠ b)
  | .lt => decide (a.toInt < b.toInt)
  | .ge => decide (b.toInt ≤ a.toInt)
  | .ltu => decide (a.toNat < b.toNat)
  | .geu => decide (b.toNat ≤ a.toNat)

/-- Compare of a PRED packet (R97): 0 EQ, 1 NE, 2 LTU, 3 GEU, 4 LTS, 5 GES. -/
def predHolds (code : Nat) (a b : Word) : Bool :=
  match code with
  | 0 => decide (a = b)
  | 1 => decide (a ≠ b)
  | 2 => decide (a.toNat < b.toNat)
  | 3 => decide (b.toNat ≤ a.toNat)
  | 4 => decide (a.toInt < b.toInt)
  | _ => decide (b.toInt ≤ a.toInt)

/-- Win(k, s) (R277): stage s of pass k is enabled. -/
def win (stages ltrip k s : Nat) : Bool := decide (s ≤ stages - 1 ∧ s ≤ k ∧ k - s < ltrip)

/-- p8 to p15 of pass k. -/
def stageBits (stages ltrip k : Nat) : BitVec 8 :=
  (List.range 8).foldl (fun b s => if win stages ltrip k s then b ||| BitVec.twoPow 8 s else b) 0

/-- Wrap(x, 64) (R212). -/
def wrap64 (x : Int) : Word := BitVec.ofInt 64 x

/-- SatS(x, n) (R212). -/
def satS (n : Nat) (x : Int) : Int := Max.max (-(2 ^ (n - 1) : Int)) (Min.min x (2 ^ (n - 1) - 1))

/-- SatU(x, n) (R212). -/
def satU (n : Nat) (x : Int) : Int := Max.max 0 (Min.min x (2 ^ n - 1))

/-- Signed or unsigned reading by SG: 0 `.i`, 1 `.n` (R356). -/
def rd64 (sg : Bool) (a : Word) : Int := if sg then (a.toNat : Int) else a.toInt

/-- Saturating add and subtract (R390). -/
def sat64 (sg : Bool) (x : Int) : Word := wrap64 (if sg then satU 64 x else satS 64 x)

/-- `div` (R393). -/
def divide (sg : Bool) (a b : Word) : Word :=
  if sg then (if b = 0 then wrap64 (2 ^ 64 - 1) else BitVec.ofNat 64 (a.toNat / b.toNat))
  else if b = 0 then wrap64 (-1)
  else if a.toInt = -(2 ^ 63) ∧ b.toInt = -1 then wrap64 (-(2 ^ 63))
  else wrap64 (Int.tdiv a.toInt b.toInt)

/-- `rem` (R393): the remainder takes the sign of the dividend. -/
def remainder (sg : Bool) (a b : Word) : Word :=
  if sg then (if b = 0 then a else BitVec.ofNat 64 (a.toNat % b.toNat))
  else if b = 0 then a
  else if a.toInt = -(2 ^ 63) ∧ b.toInt = -1 then 0
  else wrap64 (a.toInt - b.toInt * Int.tdiv a.toInt b.toInt)

/-- The field descriptor of R395: offset and width. -/
def fieldOf (b : Word) : Nat × Nat :=
  let ofs := b.toNat % 64
  (ofs, Min.min (b.toNat / 256 % 128) (64 - ofs))

/-- `bfx` (R395). -/
def extractField (a b : Word) : Word := BitVec.ofNat 64 (a.toNat / 2 ^ (fieldOf b).1 % 2 ^ (fieldOf b).2)

/-- `bfxs` (R395). -/
def extractSigned (a b : Word) : Word :=
  let w := (fieldOf b).2
  let f := a.toNat / 2 ^ (fieldOf b).1 % 2 ^ w
  if w = 0 then 0 else if 2 ^ (w - 1) ≤ f then wrap64 ((f : Int) - 2 ^ w) else BitVec.ofNat 64 f

/-- `bfi` (R395). -/
def insertField (d a b : Word) : Word :=
  let msk : Word := BitVec.ofNat 64 ((2 ^ (fieldOf b).2 - 1) * 2 ^ (fieldOf b).1)
  (d &&& ~~~ msk) ||| (BitVec.ofNat 64 (a.toNat * 2 ^ (fieldOf b).1) &&& msk)

/-- `fsh` (R395). -/
def funnel (d a b : Word) : Word := BitVec.ofNat 64 ((d.toNat * 2 ^ 64 + a.toNat) / 2 ^ (b.toNat % 128))

/-- Number of 1 bits (R396). -/
def popCount (a : Word) : Nat := (List.range 64).foldl (fun n i => n + (a.getLsbD i).toNat) 0

/-- Zero bits above the highest 1 bit; 64 for zero (R396). -/
def leadingZeros (a : Word) : Nat := if a = 0 then 64 else 63 - Nat.log2 a.toNat

/-- Zero bits below the lowest 1 bit; 64 for zero (R396). -/
def trailingZeros (a : Word) : Nat := ((List.range 64).find? (fun i => a.getLsbD i)).getD 64

/-- The new value of an atomic on an N-bit word (R434). -/
def atomNew (aop : Aop) (n x v c : Nat) : Nat :=
  let sx (y : Nat) : Int := if 2 ^ (n - 1) ≤ y then (y : Int) - 2 ^ n else y
  match aop with
  | .add => (x + v) % 2 ^ n
  | .swap => v
  | .cas => if x = v then c else x
  | .and => Nat.land x v
  | .or => Nat.lor x v
  | .xor => Nat.xor x v
  | .smax => if sx x < sx v then v else x
  | .umax => Max.max x v

end Sys2Proof.Machine
end

