-- ==== Sys2Proof/Config.lean ====
section
/-! DEFINITION. What the manual leaves to a named standard or leaves open: opaque constants, of which nothing can be
proved but what holds for every value of them. -/

namespace Sys2Proof.Config

/-- The secret number of an ECDSA signature, by the scalar and the digest (03 R64): drawn at random. Log 5. -/
opaque ecdsaNonce : BitVec 384 → BitVec 384 → Nat

/-- The responder's part of a key exchange, and the value type of a raw digest in a measurement block (03 R63, R64; DSP0274). Log 5. -/
opaque spdmPublic : Nat → List Byte
opaque rawDigestType : Byte

/-- The Diffie-Hellman and key-schedule secret of an SPDM key exchange (03 R63): connection count and exchange bytes. Log 5. -/
opaque spdmSecret : Nat → List Byte → BitVec 384

/-- The bytes of an operation or a response in flits, and what a run's flits carry (R55): the manual gives operations no layout in
flits. Log 18. -/
opaque runFlits : RunMsg → List Byte
opaque runMessages : List Byte → List RunMsg

/-- The world that the domain policy pairs with a member's world (R203): domain number, member, world. Log 18. -/
opaque pairedWorld : Nat → Nat → Nat → Nat

/-- The members that a domain policy lists (R76), whose layout the manual does not give, and its length by its first 64 bytes.
Log 18. -/
opaque policyMembers : List Byte → List PolicyEnt
opaque policyLength : List Byte → Nat

/-- The barrier timeout of a domain's re-keys in ms, where its coordinator sets one (R79). Log 45. -/
opaque barrierTimeout : Nat → Option Nat

/-- RUNLEN of a domain towards its members (R55), which nothing in the manual sets. Log 18. -/
opaque runLen : Nat → Nat

/-- The part of an alias certificate that its issuer signs: the alias public key and MSL0 to MSL3 (R61). Log 5. -/
opaque aliasTbs : List Byte → List Byte → List Byte

/-- The silicon secret SSEC (03 R61). Log 5. -/
opaque ssec : List Byte

/-- The digest of the Yelrath signing key held in the H ROM (03 R61). Log 5. -/
opaque yelrathKeyDigest : BitVec 384

/-- The Yelrath root certificate, and the alias certificate in DER for what its issuer signs and the signature (03 R61, R64). Log 5. -/
opaque rootCert : List Byte
opaque aliasCert : List Byte → List Byte → List Byte

/-- What the header of a signed image names: its stage and its security version (03 R61). Log 5. -/
opaque imageHead : List Byte → Nat × Nat
/-- A certificate verifies under its issuer's, and the public key that a certificate certifies (03 R61, R64, R76). Log 5. -/
opaque certOk : List Byte → List Byte → Bool
opaque certifiedKey : List Byte → List Byte

/-- The signed body of a manifest for what it says (00 R2, 03 R62), whose layout the manual does not give. Log 5. -/
opaque manifestBody : Manifest → List Byte

/-- Freino's rescheduling of a loaded version (its syllables) for a tag, where the version must be rewritten
(14 R312, R313, R315): a fixed function of the version, the tag and Freino's image, whose algorithm the manual does not
give. `none` where it fails. Log 13. -/
opaque freinoReschedule : List Syllable → Syllable → Option (List Syllable)

/-- A free choice: which of the actions that may come next comes next (08 R173). Log 3. -/
opaque freeChoice : Nat → Nat

/-- A free word: a value the manual does not state. Log 3. -/
opaque freeWord : Nat → Word

/-- Whether the lower of the two binary32 results is right between which the interval evaluation of Machine/Transc.lean could not decide:
for the function's number, the rounding and the input. Log 14. -/
opaque undecidedRounding : Nat → Nat → BitVec 32 → Bool

end Sys2Proof.Config
end

