-- ==== Sys2Proof/Machine/Crypto.lean ====
section
/-! DEFINITION. The cryptographic functions that the manual names by their standards (00 R14, 02 R55, 03 R60, R61, R68, R75, 09 R204):
SHA-384 and HMAC-SHA-384, ECDSA on the 384-bit curve of RFC 5639 in its non-twisted form, AES-256 with GCM, XTS and key wrap. A digest
or a key is held as a number whose lowest byte is the first of its bytes (log 5). -/

namespace Sys2Proof.Machine

/-- Little-endian value of bytes (R7). -/
def leNat : List Byte → Nat
  | [] => 0
  | b :: r => b.toNat + 256 * leNat r
/-- The n bytes of a value, lowest first (R7). -/
def leBytes : Nat → Nat → List Byte
  | 0, _ => []
  | n + 1, v => BitVec.ofNat 8 v :: leBytes n (v / 256)
/-- The n bytes of a value, highest first, and the value of bytes so ordered: the order of the standards named here. -/
def beBytes (n v : Nat) : List Byte := (leBytes n v).reverse
def beNat (l : List Byte) : Nat := leNat l.reverse
/-- Bytes in groups of n. -/
def bytesBy (n : Nat) (l : List Byte) : List (List Byte) :=
  (List.range ((l.length + n - 1) / n)).map (fun i => (l.drop (n * i)).take n)
/-- Two byte strings of one length, exclusive-or. -/
def xorBytes (a b : List Byte) : List Byte := (a.zip b).map (fun x => x.1 ^^^ x.2)

/-! ### SHA-384 and HMAC (FIPS 180-4, FIPS 198-1) -/

/-- The integer root of n of the given degree, bit by bit from bit k. -/
def rootNat (deg n : Nat) : Nat → Nat
  | 0 => 0
  | k + 1 =>
    let r := rootNat deg n k
    let t := 2 * r + 1
    if t ^ deg ≤ n / 2 ^ (deg * (83 - (k + 1))) then t else 2 * r
/-- The first n primes. -/
def isPrime (n : Nat) : Bool := decide (2 ≤ n) && (List.range n).all (fun d => decide (d < 2) || decide (n % d ≠ 0))
def primes : List Nat := (List.range 410).filter isPrime
/-- The first 64 bits of the fractional part of the root of a prime. -/
def rootFraction (deg p : Nat) : Word := BitVec.ofNat 64 (rootNat deg (p * 2 ^ (64 * deg)) 83)
/-- The 80 constants of the rounds: of the cube roots of the first 80 primes. -/
def shaK : List Word := primes.map (rootFraction 3)
/-- The initial value of SHA-384: of the square roots of the ninth to sixteenth primes. -/
def shaInit : List Word := ((primes.drop 8).take 8).map (rootFraction 2)
/-- The message of a schedule's word t, from the sixteen words before it, the latest first. -/
def shaNext (w : List Word) : Word :=
  let a := w.getD 1 0
  let b := w.getD 14 0
  (a.rotateRight 19 ^^^ a.rotateRight 61 ^^^ (a >>> 6)) + w.getD 6 0 + (b.rotateRight 1 ^^^ b.rotateRight 8 ^^^ (b >>> 7)) + w.getD 15 0
/-- One round on the eight working words. -/
def shaRound (h : List Word) (k w : Word) : List Word :=
  match h with
  | [a, b, c, d, e, f, g, x] =>
    let t1 := x + (e.rotateRight 14 ^^^ e.rotateRight 18 ^^^ e.rotateRight 41) + ((e &&& f) ^^^ (~~~ e &&& g)) + k + w
    let t2 := (a.rotateRight 28 ^^^ a.rotateRight 34 ^^^ a.rotateRight 39) + ((a &&& b) ^^^ (a &&& c) ^^^ (b &&& c))
    [t1 + t2, a, b, c, d + t1, e, f, g]
  | h => h
/-- The schedule of a block of 128 bytes. -/
def shaSchedule (block : List Byte) : List Word :=
  let w := (bytesBy 8 block).map (fun l => BitVec.ofNat 64 (beNat l))
  ((List.range 64).foldl (fun r _ => shaNext r :: r) w.reverse).reverse
/-- A block's compression. -/
def shaBlock (h : List Word) (block : List Byte) : List Word :=
  let r := (shaK.zip (shaSchedule block)).foldl (fun h x => shaRound h x.1 x.2) h
  (h.zip r).map (fun x => x.1 + x.2)
/-- The padded message. -/
def shaPad (l : List Byte) : List Byte :=
  l ++ [0x80#8] ++ List.replicate ((239 - l.length % 128) % 128) 0 ++ beBytes 16 (8 * l.length)
/-- SHA-384 of a byte string. -/
def shaBytes (l : List Byte) : List Byte :=
  (((bytesBy 128 (shaPad l)).foldl shaBlock shaInit).take 6).flatMap (fun w => beBytes 8 w.toNat)
def sha384 (l : List Byte) : BitVec 384 := BitVec.ofNat 384 (leNat (shaBytes l))
/-- HMAC-SHA-384 of a key and a message. -/
def hmac384 (key msg : List Byte) : BitVec 384 :=
  let k := if 128 < key.length then shaBytes key else key
  let k := k ++ List.replicate (128 - k.length) 0
  sha384 (k.map (· ^^^ 0x5C) ++ shaBytes (k.map (· ^^^ 0x36) ++ msg))

/-! ### ECDSA on brainpoolP384r1 (RFC 5639, FIPS 186-4) -/

/-- The field, the coefficients, the base point and the order of the curve. -/
def ecP : Nat := 0x8CB91E82A3386D280F5D6F7E50E641DF152F7109ED5456B412B1DA197FB71123ACD3A729901D1A71874700133107EC53
def ecA : Nat := 0x7BC382C63D8C150C3C72080ACE05AFA0C2BEA28E4FB22787139165EFBA91F90F8AA5814A503AD4EB04A8C7DD22CE2826
def ecB : Nat := 0x04A8C7DD22CE28268B39B55416F0447C2FB77DE107DCD2A62E880EA53EEB62D57CB4390295DBC9943AB78696FA504C11
def ecG : Nat × Nat :=
  (0x1D1C64F068CF45FFA2A63A81B7C13F6B8847A3E77EF14FE3DB7FCAFE0CBD10E8E826E03436D646AAEF87B2E247D4AF1E,
   0x8ABE1D7520F9C2A45CB1EB8E95CFD55262B70B29FEEC5864E19C054FF99129280E4646217791811142820341263C5315)
def ecN : Nat := 0x8CB91E82A3386D280F5D6F7E50E641DF152F7109ED5456B31F166E6CAC0425A7CF3AB6AF6B7FC3103B883202E9046565
/-- A power modulo m, by the low `n` bits of the exponent. -/
def powMod (m a e : Nat) : Nat → Nat
  | 0 => 1
  | n + 1 =>
    let r := powMod m a (e / 2) n
    r * r % m * (if e % 2 = 1 then a % m else 1) % m
/-- The inverse modulo a prime. -/
def invMod (m a : Nat) : Nat := powMod m a (m - 2) 384
/-- The sum of two points of the curve; none is the point at infinity. -/
def ecAdd : Option (Nat × Nat) → Option (Nat × Nat) → Option (Nat × Nat)
  | none, q => q
  | p, none => p
  | some (x, y), some (u, v) =>
    if x = u ∧ (y + v) % ecP = 0 then none
    else
      let l := if x = u then (3 * x * x + ecA) % ecP * invMod ecP (2 * y) % ecP
        else (v + ecP - y) % ecP * invMod ecP ((u + ecP - x) % ecP) % ecP
      let z := (l * l + 2 * ecP - x - u) % ecP
      some (z, (l * ((x + ecP - z) % ecP) + ecP - y) % ecP)
/-- A multiple of a point, by the low `n` bits of the factor. -/
def ecMul (p : Option (Nat × Nat)) (k : Nat) : Nat → Option (Nat × Nat)
  | 0 => none
  | n + 1 =>
    let q := ecMul p (k / 2) n
    let d := ecAdd q q
    if k % 2 = 1 then ecAdd d p else d
/-- The public key of a scalar, as an uncompressed point of 97 bytes (R344): 0x04 and the coordinates, their highest bytes first
(PRESUMED, log 5). -/
def publicKey (d : BitVec 384) : List Byte :=
  match ecMul (some ecG) d.toNat 384 with
  | some (x, y) => 0x04 :: (beBytes 48 x ++ beBytes 48 y)
  | none => List.replicate 97 0
/-- The point that a public key names, where it lies on the curve. -/
def keyPoint (key : List Byte) : Option (Nat × Nat) :=
  let x := beNat ((key.drop 1).take 48)
  let y := beNat (key.drop 49)
  if key.length = 97 ∧ key.head? = some 4 ∧ x < ecP ∧ y < ecP ∧ y * y % ecP = (x * x % ecP * x + ecA * x + ecB) % ecP then some (x, y) else none
/-- A digest as a number, its first byte highest. -/
def digestNat (d : BitVec 384) : Nat := beNat (leBytes 48 d.toNat)
/-- ECDSA verification of a digest under a public key with a signature, r and then s, 48 bytes each, highest byte first (PRESUMED,
log 5). -/
def ecdsaVerify (key : List Byte) (digest : BitVec 384) (sig : List Byte) : Bool :=
  let r := beNat (sig.take 48)
  let s := beNat (sig.drop 48)
  match keyPoint key with
  | none => false
  | some q =>
    decide (sig.length = 96 ∧ 0 < r ∧ r < ecN ∧ 0 < s ∧ s < ecN) &&
    (let w := invMod ecN s
     match ecAdd (ecMul (some ecG) (digestNat digest * w % ecN) 384) (ecMul (some q) (r * w % ecN) 384) with
     | some (x, _) => decide (x % ecN = r)
     | none => false)
/-- An ECDSA signature of a digest under a private scalar; the secret number of each signature is free. -/
def ecdsaSign (d : BitVec 384) (digest : BitVec 384) : List Byte :=
  let k := 1 + Config.ecdsaNonce d digest % (ecN - 1)
  match ecMul (some ecG) k 384 with
  | some (x, _) =>
    let r := x % ecN
    beBytes 48 r ++ beBytes 48 (invMod ecN k * (digestNat digest + r * d.toNat) % ecN)
  | none => []
/-- `DeriveScalar` reduces 96 bytes modulo n − 1 and adds 1 (R61); the first byte is the highest (DESIGN CHOICE, log 5). -/
def reduceScalar (l : List Byte) : BitVec 384 := BitVec.ofNat 384 (beNat l % (ecN - 1) + 1)

/-! ### AES-256 (FIPS 197) -/

/-- Multiplication by x, and by an element bit by bit, in the field of 256 elements. -/
def xtime (b : Byte) : Byte := (b <<< 1) ^^^ (if b.getLsbD 7 then 0x1B else 0)
def gfMulBits : Nat → Nat → Byte → Byte
  | 0, _, _ => 0
  | n + 1, c, b => if c = 0 then 0 else if c % 2 = 1 then b ^^^ gfMulBits n (c / 2) (xtime b) else gfMulBits n (c / 2) (xtime b)
def gfMul (c b : Byte) : Byte := gfMulBits 8 c.toNat b
/-- The byte at a place of a table of 256 bytes. -/
def byteAt (t : Nat) (b : Byte) : Byte := BitVec.ofNat 8 (t >>> (8 * b.toNat))
/-- The substitution and its inverse, as the standard's tables give them. -/
def sboxTable : Nat :=
  0x16BB54B00F2D99416842E6BF0D89A18CDF2855CEE9871E9B948ED9691198F8E19E1DC186B95735610EF6034866B53E708A8BBD4B1F74DDE8C6B4A61C2E2578BA08AE7A65EAF4566CA94ED58D6D37C8E779E4959162ACD3C25C2406490A3A32E0DB0B5EDE14B8EE4688902A22DC4F816073195D643D7EA7C41744975FEC130CCDD2F3FF1021DAB6BCF5389D928F40A351A89F3C507F02F94585334D43FBAAEFD0CF584C4A39BECB6A5BB1FC20ED00D153842FE329B3D63B52A05A6E1B1A2C830975B227EBE28012079A059618C323C7041531D871F1E5A534CCF73F362693FDB7C072A49CAFA2D4ADF04759FA7DC982CA76ABD7FE2B670130C56F6BF27B777C63
def unsboxTable : Nat :=
  0x7D0C2155631469E126D677BA7E042B17619953833CBBEBC8B0F52AAE4D3BE0A0EF9CC9939F7AE52D0D4AB519A97F51605FEC8027591012B131C7078833A8DD1FF45ACD78FEC0DB9A2079D2C64B3E56FC1BBE18AA0E62B76F89C5291D711AF1476EDF751CE837F9E28535ADE72274AC9673E6B4F0CECFF297EADC674F4111913A6B8A130103BDAFC1020F3FCA8F1E2CD00645B3B80558E4F70AD3BC8C00ABD890849D8DA75746155EDAB9EDFD5048706C92B6655DCC5CA4D41698688664F6F87225D18B6D49A25B76B224D92866A12E084EC3FA420B954CEE3D23C2A632947B54CBE9DEC444438E3487FF2F9B8239E37CFBD7F3819EA340BF38A53630D56A0952
def subByte (b : Byte) : Byte := byteAt sboxTable b
def unsubByte (b : Byte) : Byte := byteAt unsboxTable b
/-- The word after the n + 8 first of the key schedule. -/
def aesWord (w : List (List Byte)) (n : Nat) : List Byte :=
  let t := w.getD (n + 7) []
  let t := if n % 8 = 0 then
      (match (t.drop 1 ++ t.take 1).map subByte with
       | a :: r => (a ^^^ BitVec.ofNat 8 (2 ^ (n / 8))) :: r
       | [] => [])
    else if n % 8 = 4 then t.map subByte else t
  xorBytes (w.getD n []) t
/-- The fifteen round keys of sixteen bytes. -/
def aesKeys (key : List Byte) : List (List Byte) :=
  let w := (List.range 52).foldl (fun w n => w ++ [aesWord w n]) (bytesBy 4 key)
  (List.range 15).map (fun r => ((w.drop (4 * r)).take 4).flatten)
/-- Rows shifted by their number, to the left or back. -/
def shiftRows (m : Nat) (l : List Byte) : List Byte :=
  (List.range 16).map (fun i => l.getD (4 * ((i / 4 + m * (i % 4)) % 4) + i % 4) 0)
/-- Each column multiplied by a row of four elements that rotates. -/
def mixColumns (c : List Byte) (l : List Byte) : List Byte :=
  (List.range 16).map (fun i =>
    (List.range 4).foldl (fun a j => a ^^^ gfMul (c.getD ((j + 4 - i % 4) % 4) 0) (l.getD (4 * (i / 4) + j) 0)) 0)
/-- A block of sixteen bytes encrypted. -/
def aesEncrypt (key block : List Byte) : List Byte :=
  match aesKeys key with
  | [] => block
  | k :: r =>
    (r.zipIdx).foldl (fun l x =>
      let l := shiftRows 1 (l.map subByte)
      xorBytes (if x.2 = 13 then l else mixColumns [2, 3, 1, 1] l) x.1) (xorBytes block k)
/-- A block of sixteen bytes decrypted. -/
def aesDecrypt (key block : List Byte) : List Byte :=
  match (aesKeys key).reverse with
  | [] => block
  | k :: r =>
    (r.zipIdx).foldl (fun l x =>
      let l := xorBytes ((shiftRows 3 l).map unsubByte) x.1
      if x.2 = 13 then l else mixColumns [14, 11, 13, 9] l) (xorBytes block k)
/-- The bytes of a 256-bit key. -/
def keyBytes (k : BitVec 256) : List Byte := leBytes 32 k.toNat

/-! ### GCM (SP 800-38D) -/

/-- The product in the field of 2^128 elements, the first bit highest. -/
def gcmMul (x y : BitVec 128) : BitVec 128 :=
  ((List.range 128).foldl (fun (a : BitVec 128 × BitVec 128) i =>
    (if x.getLsbD (127 - i) then a.1 ^^^ a.2 else a.1,
     (a.2 >>> 1) ^^^ (if a.2.getLsbD 0 then 0xE1000000000000000000000000000000#128 else 0))) (0, y)).1
/-- A string filled up with zeros to whole blocks. -/
def padBlock (l : List Byte) : List Byte := l ++ List.replicate ((16 - l.length % 16) % 16) 0
/-- The tag of associated data and a ciphertext. -/
def gcmTag (key iv aad cipher : List Byte) : List Byte :=
  let h := BitVec.ofNat 128 (beNat (aesEncrypt key (List.replicate 16 0)))
  let text := padBlock aad ++ padBlock cipher ++ beBytes 8 (8 * aad.length) ++ beBytes 8 (8 * cipher.length)
  let y := (bytesBy 16 text).foldl (fun y b => gcmMul (y ^^^ BitVec.ofNat 128 (beNat b)) h) (0 : BitVec 128)
  xorBytes (beBytes 16 y.toNat) (aesEncrypt key (iv ++ beBytes 4 1))
/-- The text under the counter mode. -/
def gcmText (key iv text : List Byte) : List Byte :=
  ((bytesBy 16 text).zipIdx).flatMap (fun x => xorBytes x.1 (aesEncrypt key (iv ++ beBytes 4 (x.2 + 2))))
/-- AES-256-GCM sealing: key, IV, associated data, plaintext; ciphertext and tag. The IV stands with its highest byte first (log 60). -/
def gcmSeal (key : BitVec 256) (iv : BitVec 96) (aad plain : List Byte) : List Byte × BitVec 128 :=
  let c := gcmText (keyBytes key) (beBytes 12 iv.toNat) plain
  (c, BitVec.ofNat 128 (leNat (gcmTag (keyBytes key) (beBytes 12 iv.toNat) aad c)))
/-- AES-256-GCM opening: none where the tag fails. -/
def gcmOpen (key : BitVec 256) (iv : BitVec 96) (aad cipher : List Byte) (tag : BitVec 128) : Option (List Byte) :=
  if BitVec.ofNat 128 (leNat (gcmTag (keyBytes key) (beBytes 12 iv.toNat) aad cipher)) = tag then
    some (gcmText (keyBytes key) (beBytes 12 iv.toNat) cipher)
  else none

/-! ### XTS (IEEE 1619) and key wrap (RFC 3394) -/

/-- The tweaks of the four blocks of a line: of its package physical address, and then each times x (R204). -/
def xtsTweaks (key : BitVec 512) (pa : Nat) : List (List Byte) :=
  let t := leNat (aesEncrypt (leBytes 32 (key.toNat / 2 ^ 256)) (leBytes 16 pa))
  let next (t : Nat) : Nat := (2 * t % 2 ^ 128) ^^^ (if 2 ^ 128 ≤ 2 * t then 0x87 else 0)
  [t, next t, next (next t), next (next (next t))].map (leBytes 16)
/-- A line of 64 bytes under a block function. -/
def xtsLine (f : List Byte → List Byte) (key : BitVec 512) (pa : Nat) (line : List Byte) : List Byte :=
  ((bytesBy 16 line).zip (xtsTweaks key pa)).flatMap (fun x => xorBytes (f (xorBytes x.1 x.2)) x.2)
/-- AES-256-XTS of a line under a world key: the first half of the key's bytes is the data key. -/
def xtsEncrypt (key : BitVec 512) (pa : Nat) (line : List Byte) : List Byte := xtsLine (aesEncrypt (leBytes 32 key.toNat)) key pa line
def xtsDecrypt (key : BitVec 512) (pa : Nat) (line : List Byte) : List Byte := xtsLine (aesDecrypt (leBytes 32 key.toNat)) key pa line
/-- A number of 64 bits as eight bytes, exclusive-or. -/
def wrapStep (kek : List Byte) (x : List Byte × List (List Byte)) (t : Nat) : List Byte × List (List Byte) :=
  match x.2 with
  | r :: rest =>
    let b := aesEncrypt kek (x.1 ++ r)
    (xorBytes (b.take 8) (beBytes 8 t), rest ++ [b.drop 8])
  | [] => x
/-- AES-256 key wrap of a world key under a key. -/
def keyWrap (kek : BitVec 256) (key : BitVec 512) : List Byte :=
  let x := (List.range 48).foldl (fun x i => wrapStep (keyBytes kek) x (i + 1))
    (List.replicate 8 0xA6#8, bytesBy 8 (leBytes 64 key.toNat))
  x.1 ++ x.2.flatten
/-- One step of unwrapping, on the last of the blocks. -/
def unwrapStep (kek : List Byte) (x : List Byte × List (List Byte)) (t : Nat) : List Byte × List (List Byte) :=
  match x.2.reverse with
  | r :: rest =>
    let b := aesDecrypt kek (xorBytes x.1 (beBytes 8 t) ++ r)
    (b.take 8, b.drop 8 :: rest.reverse)
  | [] => x
/-- Unwrapping: none where the key does not fit. -/
def keyUnwrap (kek : BitVec 256) (l : List Byte) : Option (BitVec 512) :=
  let x := (List.range 48).foldl (fun x i => unwrapStep (keyBytes kek) x (48 - i)) (l.take 8, bytesBy 8 (l.drop 8))
  if l.length = 72 ∧ x.1 = List.replicate 8 0xA6#8 then some (BitVec.ofNat 512 (leNat x.2.flatten)) else none

end Sys2Proof.Machine
end

