-- ==== Sys2Proof/Machine/Timing.lean ====
section
/-! DEFINITION. The latencies of the two timing profiles (R23, R34, R146, R193, R371, R401). T12 is `false`, T16 `true`. -/

namespace Sys2Proof.Machine

/-- The profile code of T16 (R24). -/
def isT16 (profile : Nat) : Bool := decide (profile = 0x16)

/-- One figure for each profile. -/
def byProfile (t16 : Bool) (a b : Nat) : Nat := if t16 then b else a

/-- Near-tier padded latency by profile and latency class (R23). -/
def latNear (t16 : Bool) (cls : Nat) : Nat :=
  if t16 then (if cls = 2 then 896 else 960)
  else if cls = 2 then 624 else if cls = 4 then 672 else 720

/-- Layer-pool padded latency (R23). -/
def latPool (t16 : Bool) (cls : Nat) : Nat :=
  if t16 then (if cls = 2 then 120 else 128)
  else if cls = 2 then 80 else if cls = 4 then 88 else 96

/-- Multicast landing (R23): within one column, or across columns. -/
def latMcast (t16 : Bool) (same : Bool) : Nat :=
  if same then byProfile t16 24 32 else byProfile t16 48 64

/-- Integer add, logic, compare, `sel`, `rdsys` and moves (R146, R371). -/
def latInt (_ : Bool) : Nat := 1
/-- Integer multiply. -/
def latMul (t : Bool) : Nat := byProfile t 2 4
/-- Integer divide and remainder. -/
def latDiv (t : Bool) : Nat := byProfile t 18 24
/-- Bit fields and counts. -/
def latBits (t : Bool) : Nat := byProfile t 1 2
/-- Vector add, logic and compare. -/
def latVec (t : Bool) : Nat := byProfile t 3 4
/-- Vector multiply and FMA. -/
def latFma (t : Bool) : Nat := byProfile t 4 6
/-- Reductions `vrmax`, `vrmin` and `vrsum` (R401). -/
def latRed (t : Bool) : Nat := byProfile t 5 6
def latSum (t : Bool) : Nat := byProfile t 8 12
/-- Fast transcendental. -/
def latFast (t : Bool) : Nat := byProfile t 6 8
/-- Reproducible transcendental. -/
def latRepro (t : Bool) : Nat := byProfile t 14 20
/-- Pack, unpack and scale. -/
def latPack (t : Bool) : Nat := byProfile t 3 4
/-- Scratchpad load. -/
def latLd (t : Bool) : Nat := byProfile t 3 4
/-- Spill load. -/
def latSp (t : Bool) : Nat := byProfile t 4 5
/-- Stream-accumulator read (R268). -/
def latNrd (t : Bool) : Nat := byProfile t 16 22
/-- The stream-accumulator add latency A (R258). -/
def latSaAdd (t : Bool) : Nat := byProfile t 4 5
/-- A copy between buffers of one core: landing of chunk 0 (R193). -/
def latLocal (t : Bool) : Nat := byProfile t 8 10
/-- What a broadcast across columns adds (R201). -/
def latBcAcross (t : Bool) : Nat := byProfile t 24 32

/-- Cycles of a K-step (R230). -/
def kstepCycles : MFmt → Nat
  | .t8 => 8 | .t6 => 4 | .bf16 => 32
/-- Cycles of an A panel load (R240). -/
def aloadCycles : MFmt → Nat
  | .t8 => 4 | .t6 => 3 | .bf16 => 8
/-- Cycles of a B panel load (R240). -/
def bloadCycles : MFmt → Nat
  | .t8 => 8 | .t6 => 6 | .bf16 => 16

/-- Cycles of a correctable-error freeze (R136). -/
def freezeCycles : Nat := 128
/-- Core cycles of a frame (R35). -/
def frameCycles : Nat := 1024
/-- Cycles of a bank's clearing (R159). -/
def clearCycles : Nat := 32
/-- Frames of a barrier or wait timeout (R123, R386). -/
def timeoutFrames : Nat := 65536

end Sys2Proof.Machine
end

