-- ==== Sys2Proof/Machine/Map.lean ====
section
/-! DEFINITION. Package physical space (R460, R19, R192), scratchpad buffers (R160), and the homes of lines (R167). -/

namespace Sys2Proof.Machine

/-- The regions of package physical space (R460), with the offset inside. -/
inductive Region
  | near (k off : Nat)
  | layer (die off : Nat)
  | spad (core off : Nat)
  | lpddr (f off : Nat)
  | cxl (f off : Nat)
  | unmapped
  deriving DecidableEq, Repr

/-- The region an address lies in. -/
def region (pa : Nat) : Region :=
  if pa < 0xC000000000 then .near (pa / 0x3000000000) (pa % 0x3000000000)
  else if 0xF000000000 ≤ pa ∧ pa < 0xF100000000 then
    .layer (8 + (pa - 0xF000000000) / 0x8000000) ((pa - 0xF000000000) % 0x8000000)
  else if 0xF800000000 ≤ pa ∧ pa < 0xF840000000 then
    .spad ((pa - 0xF800000000) / 0x200000) ((pa - 0xF800000000) % 0x200000)
  else if 0x10000000000 ≤ pa ∧ pa < 0x20000000000 then .lpddr 0 (pa - 0x10000000000)
  else if 0x20000000000 ≤ pa ∧ pa < 0x30000000000 then .lpddr 1 (pa - 0x20000000000)
  else if 0x40000000000 ≤ pa ∧ pa < 0x80000000000 then .cxl 0 (pa - 0x40000000000)
  else if 0x80000000000 ≤ pa ∧ pa < 0xC0000000000 then .cxl 1 (pa - 0x80000000000)
  else .unmapped

/-- The backed bytes of one anchor's near tier: 192 × 10^9 (R460). -/
def nearBytes : Nat := 192000000000

/-- The column of a layer die. -/
def dieColumn (die : Nat) : Nat := (die - 8) / 8
/-- The position of a layer die in its column. -/
def diePos (die : Nat) : Nat := (die - 8) % 8
/-- The die of a core (R16). -/
def coreDie (c : Nat) : Nat := 8 + c / 16
/-- The column of a core. -/
def coreColumn (c : Nat) : Nat := c / 128

/-- The seven nodes (R167): H 0, columns 1 to 4, F0 and F1 5 and 6. -/
def homeNode (pa : Nat) : Nat :=
  match region pa with
  | .near k _ => 1 + k
  | .layer d _ => 1 + dieColumn d
  | .spad c _ => 1 + coreColumn c
  | .lpddr f _ => 5 + f
  | .cxl f _ => 5 + f
  | .unmapped => 0

/-- The node of a core. -/
def coreNode (c : Nat) : Nat := 1 + coreColumn c

/-- Arbitration points (R50): the vertical wheel of a column, the lateral wheel between two anchors, the memory-path wheel of a column, the
link between H and an anchor, and the link between an anchor and a far die. -/
def vertical (k : Nat) : Nat := k
def lateral (a b : Nat) : Nat := 4 + 4 * Min.min a b + Max.max a b
def columnPath (k : Nat) : Nat := 20 + k
def hubLink (k : Nat) : Nat := 24 + k
def farLink (k f : Nat) : Nat := 28 + 2 * k + f
/-- The arbitration points that a request of a node crosses towards an address, in order (R50): through its own column, then a lateral link,
then the column of the address. H reaches a far die through N0, through which R43 has the frame tick enter it (log 64). -/
def pathTo (node pa : Nat) : List Nat :=
  let last (k : Nat) : List Nat := match region pa with | .near _ _ => [columnPath k] | _ => [vertical k]
  match node, homeNode pa with
  | 0, 0 => []
  | 0, h => if h ≤ 4 then hubLink (h - 1) :: last (h - 1) else [hubLink 0, farLink 0 (h - 5)]
  | n + 1, 0 => [vertical n, hubLink n]
  | n + 1, h =>
    if h = n + 1 then last n
    else if h ≤ 4 then vertical n :: lateral n (h - 1) :: last (h - 1)
    else [vertical n, farLink n (h - 5)]

/-- The line of an address (R167). -/
def lineOf (pa : Nat) : Nat := pa / 64

/-- An address holds world data as ciphertext (R204). -/
def encrypted (pa : Nat) : Bool := match region pa with | .near _ _ | .layer _ _ | .lpddr _ _ | .cxl _ _ => true | _ => false
/-- The lines of addresses, each once, in ascending order (R167). -/
def linesOf (l : List Nat) : List Nat := (l.foldl (fun m a => SMap.set m (lineOf a) ()) []).map Prod.fst
/-- The first bytes of the lines of addresses. -/
def lineStarts (l : List Nat) : List Nat := (linesOf l).map (fun n => 64 * n)

/-- First byte of a buffer within a core's scratchpad (R160). -/
def bufBase : Buf → Nat
  | .wb => 0 | .ab => 0xC0000 | .cb => 0x140000 | .sb => 0x180000 | .lb => 0x1C0000 | .spb => 0x1F0000 | .xb => 0x1F8000

/-- Bytes of a buffer. -/
def bufSize : Buf → Nat
  | .wb => 0xC0000 | .ab => 0x80000 | .cb => 0x40000 | .sb => 0x40000 | .lb => 0x30000 | .spb => 0x8000 | .xb => 0x8000

/-- The BUF code (R160). -/
def bufNum : Buf → Nat
  | .wb => 0 | .ab => 1 | .cb => 2 | .sb => 3 | .lb => 4 | .spb => 5 | .xb => 6

/-- The buffer a scratchpad offset lies in. -/
def bufAt (off : Nat) : Buf :=
  if off < 0xC0000 then .wb else if off < 0x140000 then .ab else if off < 0x180000 then .cb
  else if off < 0x1C0000 then .sb else if off < 0x1F0000 then .lb else if off < 0x1F8000 then .spb else .xb

/-- The scratchpad window of a core (R192). -/
def spadBase (c : Nat) : Nat := 0xF800000000 + 0x200000 * c

/-- The physical address of a buffer's byte. -/
def bufAddr (c : Nat) (b : Buf) (off : Nat) : Nat := spadBase c + bufBase b + off

/-- The window of a layer die (R19). -/
def layerBase (die : Nat) : Nat := 0xF000000000 + (die - 8) * 0x8000000

/-- Positions of a partition's compute layers (R20). -/
def computePos (part pos : Nat) : Bool := decide (8 - part ≤ pos ∧ part ≠ 0)

end Sys2Proof.Machine
end

