-- ==== Sys2Proof/Machine/CoreState.lean ====
section
/-! DEFINITION. The plain data of a core: its contexts, engines and instruction store (07, 09, 11, 12, 13, 14). -/

namespace Sys2Proof.Machine

/-- Register files with results in flight (R281's file numbers). -/
inductive RFile | g | a | p | v | m
  deriving DecidableEq, Repr

/-- A register result in flight (R12), or a pending-write entry (R287), where `due` is the remaining count. -/
structure Result where
  id : Nat
  due : Nat
  file : RFile
  reg : Nat
  /-- The low bits written (R152). -/
  width : Nat
  /-- The value, once the unit has produced it. -/
  value : Option Vec
  /-- For a pending-write entry: the cycle of its landing but for the suspension, in which its value enters the record (R287). -/
  ready : Nat := 0
  /-- A result that has landed in the present cycle: what its register held before. A suspension in this cycle takes it into
  the record (R287). -/
  old : Option Vec := none
  deriving DecidableEq, Repr

/-- A queue entry: a delivery, or the error entry of a `gatom` (R284). -/
inductive QEntry
  | data (v : Vec)
  | error (va : Word)
  deriving DecidableEq, Repr

/-- Context states (R274). -/
inductive CtxState | idle | ready | running | blocked | trapped | preempted | saved
  deriving DecidableEq, Repr

/-- Where a context issues next: a bundle of the version it pins, or an entry into a landing (R282, R307). -/
inductive Point
  | inside (page base land off : Nat)
  | entry (page idx kind : Nat)
  deriving DecidableEq, Repr

/-- The counted loop of a context (R277); `first` is the first bundle's syllable offset, `ends` the offset of the body's
last bundle. -/
structure Loop where
  active : Bool := false
  first : Nat := 0
  len : Nat := 0
  pos : Nat := 0
  stages : Nat := 1
  deriving DecidableEq, Repr

/-- Vector bank states (R158). -/
inductive Bank | off | retain | on
  deriving DecidableEq, Repr

/-- One vector bank: its state, and while it clears, the cycle at which clearing ends (R159); a pending state waits for
results in flight. -/
structure BankSt where
  st : Bank := .on
  clearing : Option Nat := none
  next : Bank := .on
  /-- The contents that the bank had as its last result landed in the present cycle and it left ON: a suspension in this cycle takes that
  landing back (R287), and the bank is ON until the result lands (R159). -/
  left : Option (SMap Vec) := none
  deriving DecidableEq, Repr

/-- A pending Y write (R189): the record fields written by mask, and the context's bundles still to pass. -/
structure YWrite where
  reg : Nat
  left : Nat
  mask : Rec
  value : Rec
  deriving DecidableEq, Repr

/-- A held record (R284). -/
structure Held where
  count : Nat
  xval : Word
  /-- The completion bits a copy error is held against (R197): XB byte offset and bit. -/
  bits : List (Nat × Nat) := []
  /-- An overflow of a fold (R265), raised by an SA instruction, and not of a drain (R243), raised by an M instruction. -/
  fold : Bool := false
  deriving DecidableEq, Repr

/-- One byte of a copy's destination: the address, and where its value comes from (R190). -/
structure Move where
  dst : Nat
  src : Nat
  deriving DecidableEq, Repr

/-- Bytes to be written: the cells as read at issue, and where they were read from, in the same order; a store's source is
read at some cycle from issue until it is applied (R198). `srcs` is empty for bytes that have no source in memory. -/
structure Payload where
  cells : List Host.Cell
  srcs : List Nat := []
  deriving DecidableEq, Repr

/-- What becomes of an untimed access when it is performed or refused (R169, R197). -/
inductive Owed
  | none
  /-- One entry of a queue (R437). -/
  | queue (q : Nat) (va : Word)
  /-- One line of a chunk of an outstanding copy (R195). -/
  | chunk (copy i : Nat) (va : Word) (store : Bool)
  /-- A `sig.dec` (R381). -/
  | store (va : Word)
  /-- The read of a `sig.wait` (R382). -/
  | sig (thr : Int) (va : Word)
  /-- The tier move of `mig` (R205). -/
  | mig (copy : Nat)
  /-- A part of an operation of the host or of a remote package (R54); `i` is the first byte's place in it. -/
  | host (op i : Nat)
  /-- A part of a packet's work (R87, R99, R102). -/
  | packet (id : Nat)
  deriving DecidableEq, Repr

/-- What an untimed access does at its home (R173, R174, R200, R202). Addresses are package physical. -/
inductive Act
  | write (pl : Payload)
  /-- Bytes read for a copy into the issuing scratchpad. -/
  | read (moves : List Move)
  | atomic (pa n : Nat) (aop : Aop) (v cmp : Word)
  | dec (pa : Nat) (k : Word)
  | sigRead (pa : Nat)
  /-- A combine-add: the source elements as bytes at the destination elements' addresses. -/
  | combine (f : Afmt) (pl : Payload)
  /-- A chunk to a scratchpad window (R167, R200): its bytes, whether they combine, the sync word's address, the bytes
  delivered. -/
  | push (add : Option Afmt) (sync : Option Nat) (bytes : Nat) (pl : Payload)
  /-- A fabric operation to another member (R203): world virtual addresses there; a load's moves, a store's payload. -/
  | fabric (member : Nat) (add : Option Afmt) (sync : Option Nat) (moves : List Move) (pl : Payload)
  /-- A page move (R205): world virtual page and tier. -/
  | move (va : Word) (tier : Tier)
  /-- A write that has no effect any more; its home still counts it (R143, R192). -/
  | void
  deriving DecidableEq, Repr

/-- An untimed access (R168): who issued it, for which world and frond, its home and tag once posted. Core 512 stands for
node H. -/
structure Access where
  id : Nat
  core : Nat
  ctx : Nat
  frond : Nat
  world : Nat
  /-- The landing token of the issuing page (R139, R141). -/
  token : Word := 0
  node : Nat
  home : Nat
  tag : SMap Nat := []
  act : Act
  owed : Owed
  /-- The flit was lost or the home has refused it: an error response is due or on its way (R44, R141). -/
  err : Bool := false
  /-- The home has done its part, and the response is on its way with the bytes read or the old value. -/
  done : Option (List Host.Cell × Word) := none
  /-- First bytes of the lines it was issued for, which its fences go by whatever became of it (R176). -/
  span : List Nat := []
  /-- It was issued as a fabric operation (R177). -/
  far : Bool := false
  /-- Its class, the arbitration points that its request has still to cross, and the cycle of its arrival at the first of them (R50). -/
  cls : Nat := 0
  hops : List Nat := []
  arr : Option Nat := none
  deriving DecidableEq, Repr

/-- An ordered event of a context (R178). -/
inductive OrdEv
  | post (a : Access)
  | arrive (lev : Nat)
  /-- A child launch: the number of its result, the frond and the landing token of the page that issued it, the record's address, WBASE and
  WCNT (R379). -/
  | launch (rid frond : Nat) (token va wbase wcnt : Word)
  deriving DecidableEq, Repr

/-- An ordered event with the fences that hold it; `rel` is the cycle of its release once they are complete. -/
structure HeldEv where
  id : Nat
  fences : List Nat
  rel : Option Nat := none
  /-- It is discarded, and only settles what it owed (R178). -/
  dropped : Bool := false
  ev : OrdEv
  deriving DecidableEq, Repr

/-- An incomplete fence (R176). -/
structure FenceSt where
  id : Nat
  scope : Scope
  set : List Nat
  err : Bool := false
  deriving DecidableEq, Repr

/-- One chunk of an outstanding untimed copy (R195). -/
structure Chunk where
  i : Nat
  /-- Accesses of the chunk not yet performed. -/
  waiting : Nat
  /-- Bytes a load will write. -/
  cells : List Host.Cell := []
  failed : Bool := false
  deriving DecidableEq, Repr

/-- A page move in progress (R205). -/
structure MigSt where
  va : Word
  tier : Tier
  /-- The landing token of the issuing page (R139). -/
  token : Word := 0
  /-- Step 1 is done: MIG is set. -/
  marked : Bool := false
  /-- Writes posted to the page before step 1, still to be applied (step 2). -/
  writes : List Nat := []
  /-- Step 2 is done. -/
  applied : Bool := false
  deriving DecidableEq, Repr

/-- An outstanding untimed copy (R196). -/
structure CopySt where
  id : Nat
  cbm : Nat
  store : Bool
  va : Word
  chunks : List Chunk
  mig : Option MigSt := none
  /-- The frond of the item that issued it (R136). -/
  frond : Nat := 384
  deriving DecidableEq, Repr

/-- What a blocked context waits for (R149). -/
inductive Wait
  /-- Entries of queues: queue and the count of positions reached. -/
  | queues (need : List (Nat × Nat))
  | barrier (lev : Nat)
  | cwait (pa : Nat) (mask : Word)
  | swait (pa : Nat) (g : BitVec 32)
  | sigWait
  | wfe
  deriving DecidableEq, Repr

/-- The read of a `sig.wait` in progress (R382). -/
inductive SigSt
  | posted (acc : Nat)
  /-- A served value failed the threshold: the next read is posted at the next frame tick. -/
  | repost (a : Access)
  | satisfied
  | error (va : Word)
  deriving DecidableEq, Repr

/-- Changes that apply from the next bundle (R166, R277, R278, R371), and the next issue of a transfer (R373). -/
structure Staged where
  ltrip : Option Word := none
  lpass : Option Word := none
  lrot : Option Word := none
  stagep : Option (BitVec 8) := none
  loop : Option Loop := none
  vbank : Option Word := none
  xcause : Option Word := none
  xval : Option Word := none
  xtok : Option Word := none
  xcnt : Option Word := none
  next : Option Point := none
  fences : List Scope := []
  hold : Option Nat := none
  halt : Bool := false
  /-- Ordered events and accesses issued by the bundle, for its fences (R176). -/
  issued : List Nat := []
  deriving DecidableEq, Repr

/-- The item of a context (R125): its frond, and the `bar.l` arrivals it has made at each level (R123). -/
structure Item where
  frond : Nat
  wid : Word
  arrivals : SMap Nat := []
  depth : Nat := 0
  deriving DecidableEq, Repr

/-- Trap causes (R281). -/
abbrev Cause := Nat

/-- Why a bundle does not issue: a precise trap with its `xval`, or a block. -/
inductive Stop
  | trap (cause : Cause) (xval : Word) (xcnt : Word := 0)
  | block (w : Wait)
  deriving DecidableEq, Repr

/-- A context (R147). -/
structure Ctx where
  st : CtxState := .idle
  point : Point := .entry 0 0 1
  g : SMap Word := []
  a : SMap Word := []
  p : BitVec 16 := 0
  v : SMap Vec := []
  m : SMap Word := []
  y : SMap Rec := []
  q : SMap (List QEntry) := []
  /-- The position of each queue's head entry (R292). -/
  qhead : SMap Nat := []
  /-- Words that a window write left at queue positions that hold no entry (R290), at 8 × queue + position. -/
  qspare : SMap Vec := []
  /-- The positions of error entries of a SAVED context, for which the area has no field (log 17). -/
  qmark : List Nat := []
  owed : SMap Nat := []
  /-- The cycle of the last deliveries into each queue, and the numbers of the requests whose entries entered in it, ascending (R369). -/
  came : SMap (Nat × List Nat) := []
  ltrip : Word := 0
  lpass : Word := 0
  lrot : Word := 0
  bank1 : BankSt := {}
  bank2 : BankSt := {}
  bank3 : BankSt := {}
  wid : Word := 0
  wlay : Word := 0
  tslc : Word := 0
  xcause : Word := 0
  xval : Word := 0
  xtok : Word := 0
  xcnt : Word := 0
  loop : Loop := {}
  armed : Nat := 0
  inflight : List Result := []
  record : List Result := []
  ywrites : List YWrite := []
  remote : Option Held := none
  copyErr : Option Held := none
  overflow : Option Held := none
  fences : List FenceSt := []
  heldev : List HeldEv := []
  copies : List CopySt := []
  wait : List Wait := []
  /-- Frame count when the wait began (R123, R386). -/
  since : Word := 0
  sig : Option SigSt := none
  /-- The `bar.l` arrival of the present bundle has been made (R376). -/
  arrived : Bool := false
  latch : Bool := false
  hold : Option Nat := none
  /-- The cycle in which a pre-emption request was latched (R275). -/
  pre : Option Nat := none
  /-- A resumption was accepted together with that request (R274): once suspended, the context is READY. -/
  preResume : Bool := false
  /-- A save or a restore is in progress (BSY, R274), and SAVEBASE as it stood at the save (R293). -/
  saving : Bool := false
  restoring : Bool := false
  savedAt : Option Word := none
  item : Option Item := none
  /-- Changes of the bundle being issued. -/
  staged : Staged := {}
  /-- Queue positions the bundle being issued has popped, and deliveries it has asked for (R154). -/
  popped : SMap Nat := []
  asked : SMap Nat := []
  deriving DecidableEq, Repr

/-- A resident page directory entry (R298); PINS is derived from the contexts. -/
structure DirEnt where
  page : Nat := 0
  v : Bool := false
  cur : Bool := false
  cont : Bool := false
  cidx : Nat := 0
  sealed : Bool := false
  deriving DecidableEq, Repr

/-- A translation window (R133). -/
structure Window where
  vbase : Nat := 0
  pbase : Nat := 0
  /-- Units of 2 MiB, less one. -/
  size : Nat := 0
  v : Bool := false
  rd : Bool := false
  wr : Bool := false
  atm : Bool := false
  mig : Bool := false
  /-- The reserved bits as written. -/
  rsv : Nat := 0
  deriving DecidableEq, Repr

/-- A staging buffer of the matrix engine (R230, R231): element codes and scales by index, and the format. -/
structure Panel where
  codes : SMap Nat := []
  scales : SMap Nat := []
  fmt : MFmt := .t8
  deriving DecidableEq, Repr

/-- The last busy times of the engine's units and panels (R240); cycles are global. -/
structure UnitTimes where
  /-- First cycle after the start of the last micro-op. -/
  last : Nat := 0
  aFree : Nat := 0
  bFree : Nat := 0
  arrFree : Nat := 0
  drFree : Nat := 0
  as0Ready : Nat := 0
  as1Ready : Nat := 0
  bs0Ready : Nat := 0
  bs1Ready : Nat := 0
  /-- First cycle after the start of the last step that reads the buffer. -/
  as0Read : Nat := 0
  as1Read : Nat := 0
  bs0Read : Nat := 0
  bs1Read : Nat := 0
  ac0Step : Nat := 0
  ac1Step : Nat := 0
  ac0Load : Nat := 0
  ac1Load : Nat := 0
  /-- First cycle after the start of the last drain. -/
  ac0Drain : Nat := 0
  ac1Drain : Nat := 0
  /-- First cycle at which no micro-op of a call that has left the queue is in progress. -/
  gone : Nat := 0
  /-- Latest landing, delivery or effect of queued work so far, and of `mstat` and `mprog`. -/
  landing : Nat := 0
  side : Nat := 0
  /-- Any of them has been made or is to come since the engine was last zeroised (R250). -/
  any : Bool := false
  deriving DecidableEq, Repr

/-- A call-queue entry (R244). -/
inductive CallKind
  | call (rtn : Nat) (m : List Word) (n : Nat)
  | wb (cursor : Nat)
  | drain (q : Nat)
  deriving DecidableEq, Repr

/-- A queued call with its issuer and issue cycle; for an `mdrain`, the latest effect of `mstat` and `mprog` before it, and
the cycle of its delivery once the entries before it are done. -/
structure CallEnt where
  id : Nat
  ctx : Nat
  frond : Nat
  issue : Nat
  kind : CallKind
  base : Nat := 0
  due : Option Nat := none
  deriving DecidableEq, Repr

/-- The run of the first call that is in progress or comes next (R239): its number, whether a micro-op of it has started,
the word address, P0 to P7, the loop counts and the words that own them. -/
structure RunSt where
  run : Nat := 0
  begun : Bool := false
  w : Nat := 0
  p : SMap Word := []
  lcnt : SMap Nat := []
  lown : SMap Nat := []
  deriving DecidableEq, Repr

/-- The matrix engine (R230, R231, R237). -/
structure Engine where
  as0 : Panel := {}
  as1 : Panel := {}
  bs0 : Panel := {}
  bs1 : Panel := {}
  ac0 : SMap (BitVec 32) := []
  ac1 : SMap (BitVec 32) := []
  store : SMap Word := []
  table : SMap (BitVec 16) := []
  cursor : Nat := 0
  calls : List CallEnt := []
  run : Option RunSt := none
  times : UnitTimes := {}
  /-- The frond of the micro-op started last, whose domain time the unit times keep (R252); 384 for none. -/
  owner : Nat := 384
  /-- The last write cycle of an `mprog` (R247). -/
  mprogEnd : Nat := 0
  deriving DecidableEq, Repr

/-- A core (R144 to R165). -/
structure Core where
  powered : Bool := false
  fenced : Bool := false
  world : Nat := 0
  /-- The core belongs to a world's grant (R132). -/
  granted : Bool := false
  logical : Nat := 0xFFFF
  windows : SMap Window := []
  ctxs : SMap Ctx := []
  running : Option Nat := none
  lastLeft : Nat := 3
  /-- First cycle in which the core may issue again. -/
  nextIssue : Nat := 0
  istore : SMap Syllable := []
  dir : SMap DirEnt := []
  cursor : Nat := 0
  /-- Base frames of versions that Freino has replaced while contexts pinned them (R319). -/
  retired : List Nat := []
  /-- Cycle until which a correctable error holds the core, whatever it runs (R136, R349). -/
  stands : Nat := 0
  savebase : Word := 0
  engine : Engine := {}
  /-- Holdings of the copy landing port and read port (R194): first global cycle, issuing frond. -/
  landPort : List (Nat × Nat) := []
  readPort : List (Nat × Nat) := []
  /-- Inbound directory of the stream accumulator (R261): region offsets, 0x3FFFF for an empty entry. -/
  inbound : SMap Nat := []
  /-- Old bytes under the timed applies, newest first, each with its global cycle (R258). -/
  saUndo : List (Nat × List Host.Cell) := []
  /-- Cycle and source core of the last untimed arrival in the scratchpad (R200, R258, R435). -/
  lastArrival : Nat × Nat := (0, 0)
  /-- The domain cycle at which an almanac's first bundle is due (R95, R150). -/
  armedAt : Option Nat := none
  deriving DecidableEq, Repr

end Sys2Proof.Machine
end

