-- ==== Sys2Proof/Machine/HubState.lean ====
section
/-! DEFINITION. The plain data of the package outside the cores: timed actions on their way, fronds, worlds, the slot
table, packets, dies, and the identity, channel and trust-domain state of H (01 to 06, 08). -/

namespace Sys2Proof.Machine

/-- Where the bytes of a timed read go (R170). -/
inductive Sink
  /-- A register result in flight of (core, ctx), by its number. -/
  | result (ctx rid : Nat)
  /-- The entry of a later delivery, by its number. -/
  | entry (delivery : Nat)
  /-- The bytes of a later chunk landing, by its number. -/
  | chunk (landing : Nat)
  deriving DecidableEq, Repr

/-- A timed action (R168, R170, R181, R193, R242, R258, R265, R266). -/
inductive TAct
  /-- A timed write to memory or scratchpad; `rank` is the agent's place in R162 (1 the L slot, 2 the S slot, 3 the stream
  accumulator), 0 for memory. -/
  | write (rank : Nat) (cells : List Host.Cell)
  /-- The step of a scratchpad atomic (R434, R435). -/
  | atom (ctx rid pa n : Nat) (aop : Aop) (v cmp : Word)
  /-- A timed read of n bytes. -/
  | sample (pa n : Nat) (dst : Sink)
  /-- A timed chunk's source bytes (R193). -/
  | chunkRead (moves : List Move) (land : Nat)
  /-- A timed chunk's landing: fill bytes, then the bytes its read brought. -/
  | chunkLand (cells : List Host.Cell)
  /-- A multicast landing (R181, R438): target cores and cells. -/
  | mcast (targets : List Nat) (cells : List Host.Cell)
  /-- A delivery to a queue of a context of the core (R154). -/
  | deliver (ctx q : Nat) (e : QEntry)
  /-- A row group of a drain to CB (R242). -/
  | drainCb (cells : List Host.Cell)
  /-- A row pair of a drain in SB add mode (R242, R260): issuer, region, pair's first row, first element, values. -/
  | drainSb (ctx reg row sel : Nat) (rows : List (List (BitVec 32))) (call : Nat)
  /-- A fold (R265): issuer, region, first row, count. -/
  | fold (ctx reg row cnt : Nat)
  /-- A group sum (R266): exchange table, group size, rows. -/
  | gsum (xtab gsz row cnt : Nat)
  /-- The landing of chunk i of a restore (R270, R271): the region, what earlier chunks leave for later ones (row, its
  header's upper half, a NaN landed), and the image bytes by offset in the image. -/
  | restore (sae32 : Bool) (reg i : Nat) (carry : List (Nat × Nat × Bool)) (cells : List Host.Cell)
  /-- Forming a chunk of an SAE32 image (R271): moves from image offsets to memory, for a later chunk landing. -/
  | evict (reg : Nat) (moves : List Move) (land : Nat)
  /-- Words of the microprogram store or routine table (R247). -/
  | mprog (table : Bool) (words : List (Nat × Word))
  deriving DecidableEq, Repr

/-- A timed action with its cycle (global), frond, core and order of issue. -/
structure Timed where
  id : Nat
  due : Nat
  frond : Nat
  core : Nat
  /-- Context that issued it, for fences. -/
  ctx : Nat := 0
  /-- The number of the request it belongs to: fences name requests (R176), and deliveries of one cycle enter a queue in
  the order of their requests (R369). -/
  ord : Nat := 0
  /-- First bytes of the lines that a copy chunk reads and writes (R169, R176). -/
  span : List Nat := []
  /-- The cycle of its issue (R48). -/
  born : Nat := 0
  /-- The landing token of the issuing page (R139). -/
  token : Word := 0
  /-- Lines of a restore's chunk that have taken their new value before its landing (R182). -/
  landed : List Nat := []
  act : TAct
  deriving DecidableEq, Repr

/-- Kinds of work (R115). -/
inductive WorkKind | launch | almanac | child
  deriving DecidableEq, Repr

/-- A launch record as read once at consumption (R120); only its use is kept. -/
structure LaunchRec where
  entry : Word := 0
  widths : List Nat := [0, 0, 0, 0, 0, 0]
  rlev : Nat := 0
  ctxn : Nat := 1
  lqm : Nat := 0
  csig : Word := 0
  args : List Word := [0, 0, 0, 0]
  nl : Nat := 0
  perm : List Nat := []
  trips : List Nat := []
  rd : List (Nat × Nat) := []
  wr : List (Nat × Nat) := []
  deriving DecidableEq, Repr

/-- An almanac image as loaded (R95, 15): tag, ranks with their first bundle's cycle and landing. -/
structure AlmanacImg where
  tag : BitVec 32 := 0
  ncore : Nat := 0
  /-- For each rank: the entry's landing token and the armed domain cycle. -/
  starts : List (Word × Nat) := []
  rd : List (Nat × Nat) := []
  wr : List (Nat × Nat) := []
  deriving DecidableEq, Repr

/-- A frond (R115, R118, R125, R172). -/
structure Frond where
  bound : Bool := false
  kind : WorkKind := .launch
  world : Nat := 0
  entry : Nat := 0
  first : Nat := 0
  /-- Physical cores in rank order. -/
  cores : List Nat := []
  ctxm : Nat := 0
  /-- Domain time: at global cycle n it is n - base - frozen while not frozen (R172). -/
  base : Int := 0
  frozen : Nat := 0
  /-- End of the present freeze (R36), and every freeze begun so far: first cycle and end. -/
  freezeEnd : Nat := 0
  freezes : List (Nat × Nat) := []
  /-- An abort that an error during a freeze holds back to the end of the freeze (R143). -/
  thawAbort : Option (Nat × Nat) := none
  /-- Frame tick of the start. -/
  start : Nat := 0
  started : Bool := false
  ended : Bool := false
  /-- The cycle in which it ended or was aborted, and whether its slots, contexts and number have been freed while work of it is still to
  complete (R119). -/
  endedAt : Nat := 0
  released : Bool := false
  /-- The AUX of an abort, or the status of a slip or timeout (R92, R95, R96). -/
  abort : Option (Nat × Nat) := none
  /-- Slips of the present cycle: core and landing token (R96). -/
  slips : List (Nat × Word) := []
  wlay : Word := 0
  rlev : Nat := 0
  args : List Word := []
  tiles : Nat := 0
  /-- Items not yet started: ranges of identifiers, ascending, first and count (R125). -/
  pending : List (Nat × Nat) := []
  /-- Items running. -/
  running : List Nat := []
  /-- Barrier arrivals (R123) at key 8 × item + level. -/
  arrivals : SMap Nat := []
  /-- For an almanac: LIMIT tick, and the ranks that have halted. -/
  limit : Option Nat := none
  halted : List Nat := []
  /-- Nesting depth of a child (R130). -/
  depth : Nat := 0
  lslt : Nat := 0
  mslt : Nat := 0
  /-- The slots it holds, as wheel and slot number: on the link wheels, and in the layers' sets of the memory paths (R47, R118). -/
  linkSlots : List (Nat × Nat) := []
  memSlots : List (Nat × Nat) := []
  deriving DecidableEq, Repr

/-- Slot-table entry states (R114). -/
inductive SlotSt | free | pending | bound
  deriving DecidableEq, Repr

/-- A slot-table entry (R116). -/
structure Entry where
  st : SlotSt := .free
  kind : WorkKind := .launch
  world : Nat := 0
  cls : Nat := 0
  ncore : Nat := 0
  recAddr : Word := 0
  wbase : Word := 0
  wcnt : Word := 0
  start : Word := 0
  parent : Nat := 0xFFFF
  /-- The 8 words of the bind record. -/
  bind : SMap Word := []
  /-- The packet it came from, and the record or image read. -/
  packet : Nat := 0
  launch : LaunchRec := {}
  image : AlmanacImg := {}
  frond : Nat := 0
  limit : Nat := 0
  /-- A COMMIT that is held until the record may be checked (R117, R129, R135). -/
  committed : Bool := false
  /-- For a child: the parent's frond, the core and context that launched it, and the requests its start waits for (R131). -/
  parentFrond : Nat := 384
  from_ : Nat × Nat := (0, 0)
  after : List Nat := []
  depth : Nat := 0
  deriving DecidableEq, Repr

/-- The entry becomes FREE; the bytes of its bind record stay as last written (R116). -/
def Entry.freed (e : Entry) : Entry := { bind := e.bind }

/-- Progress of a consumed packet (R87, R91, R95, R99, R129): one whose act at consumption is due (R83, R105, R106, R120); consumed;
started; its status decided; its status word posted; its signal's decrement posted. -/
inductive PktSt | fresh | waiting | running | done | stat | sig
  deriving DecidableEq, Repr

/-- A consumed packet: the footprint table's entry (R128, R129). A child launch is held as one without a queue (R131). -/
structure Packet where
  id : Nat
  world : Nat
  /-- Queue number; 0xFFFF for a child launch. -/
  queue : Nat
  /-- Its 64 bytes as a number, byte 0 lowest. -/
  bits : BitVec 512
  st : PktSt := .waiting
  rd : List (Nat × Nat) := []
  wr : List (Nat × Nat) := []
  /-- Packets with an edge to it that have not completed; `doomed`: one completed with a status other than OK (R129). -/
  edges : List Nat := []
  doomed : Bool := false
  /-- A packet of a taken arm (R97), judged as it runs (R98). -/
  arm : Bool := false
  /-- Its own effect has been started. -/
  acted : Bool := false
  /-- Its queue has been destroyed (R105): it neither orders nor stops the packets of a later queue of that number. -/
  orphan : Bool := false
  /-- Status and AUX once decided; `force`: the queue enters ERROR whatever HALTE. -/
  status : Nat := 0
  aux : Nat := 0
  force : Bool := false
  /-- A SIGWAIT's timeout tick (R100), an almanac's start tick S (R95). -/
  until_ : Option Nat := none
  /-- The packets of both arms of a PRED (R97). -/
  arms : List (BitVec 512) := []
  /-- Its slot-table entry. -/
  entry : Option Nat := none
  /-- The frond whose context launched it (R130). -/
  parent : Option Nat := none
  /-- Bytes the copy service has taken up (R102), and accesses of the packet not yet performed. -/
  progress : Nat := 0
  waiting : Nat := 0
  err : Bool := false
  launch : LaunchRec := {}
  image : AlmanacImg := {}
  deriving DecidableEq, Repr

/-- A queue descriptor (R85). -/
structure Queue where
  present : Bool := false
  base : Word := 0
  log2n : Nat := 6
  head : BitVec 32 := 0
  tail : BitVec 32 := 0
  error : Bool := false
  deriving DecidableEq, Repr

/-- World states (R72). -/
inductive WorldSt | empty | loading | ready | draining
  deriving DecidableEq, Repr

/-- An entry of a world's code page table: one version of a code page, with the place and the packets of its image, of which a sealed page has
none (R318). -/
structure Version where
  page : Nat
  tag : BitVec 32
  addr : Nat
  len : Nat
  loaded : Bool
  sealed : Bool
  deriving DecidableEq, Repr

/-- A code page to be loaded. -/
structure LoadPage where
  page : Nat
  sealed : Bool
  proc : Nat
  image : List Byte
  deriving DecidableEq, Repr

/-- What a load has still to do from step 8 on (R345, R349): the microprograms, the records for memory, the pages, and, once step 9 has begun, the
cores that do not have them yet. -/
structure Loading where
  mprg : Option (List Byte)
  recs : List (Nat × List Byte)
  pages : List LoadPage
  cores : Option (List Nat) := none
  deriving DecidableEq, Repr

/-- A world (R72, R73). -/
structure World where
  st : WorldSt := .empty
  confidential : Bool := false
  key : Option (BitVec 512) := none
  loadkey : Option (BitVec 256) := none
  wmr : BitVec 384 := 0
  cred : BitVec 128 := 0
  /-- Tick until which the keys of a world without channels are held (R71). -/
  hold : Bool := false
  /-- Loader step reached (R345). -/
  step : Nat := 0
  /-- A load in progress. -/
  load : Option Loading := none
  queues : SMap Queue := []
  cpt : List Version := []
  /-- Windows of host and front-end accesses (log 10). -/
  windows : SMap Window := []
  deriving DecidableEq, Repr

/-- Layer states (R25). -/
inductive LayerSt | compute | store | draining | flushing | zeroing | enumerating | off | fenced
  deriving DecidableEq, Repr

/-- One receiving endpoint (R40, R44). -/
structure Endpoint where
  dly : Nat := 0
  raw : Nat := 0
  ok : Bool := false
  marg : Nat := 0
  corr : Nat := 0
  unc : Nat := 0
  /-- A calibration is in progress (R41). -/
  busy : Bool := false
  deriving DecidableEq, Repr

/-- A fault-log entry (R139). -/
structure LogEnt where
  kind : Nat
  world : Nat
  srccore : Nat
  srcdie : Nat
  addr : Word
  token : Word
  tick : Word
  deriving DecidableEq, Repr

/-- A die (R25, R139). -/
structure Die where
  st : LayerSt := .off
  prior : LayerSt := .off
  /-- Step 4 of the role change in progress is complete for this die (R28, R31). -/
  enumerated : Bool := false
  chgn : Nat := 0
  eps : SMap Endpoint := []
  /-- Held fault-log entries, oldest first, and the index of the oldest (R139). -/
  log : List LogEnt := []
  oldest : Nat := 0
  lost : Nat := 0
  /-- Corrected memory errors (R137). -/
  memCorr : Nat := 0
  /-- Flits held for their landing cycle (R39): number, landing cycle and bytes' address. -/
  flits : List (Nat × Nat) := []
  deriving DecidableEq, Repr

/-- A role change in progress (R28): the request, the step (5: step 4 is complete; 6: its commit tick has come), the tick at
which step 2 began (R31), and the contexts that stopped at a landing (R29). -/
structure RoleChange where
  packet : Nat
  mask : Nat
  profile : Nat
  /-- The new partition codes of columns 0 to 3. -/
  parts : List Nat
  deadline : Nat
  accepted : Nat
  step : Nat := 1
  fault : Bool := false
  since : Nat := 0
  /-- The number of the first access posted after step 2 began (R28). -/
  flushFrom : Nat := 0
  stopped : List (Nat × Nat) := []
  deriving DecidableEq, Repr

/-- A checkpoint in progress (R108). -/
structure Checkpoint where
  packet : Nat
  budget : Nat
  began : Nat
  step : Nat := 1
  incx : Bool := false
  sinkOk : Bool := true
  /-- The ports used, and the sink's fabric address and base (R107). -/
  pmask : Nat := 0
  peer : Nat := 0
  sbase : Word := 0
  /-- Cores whose save blocks are sent as zero, and CXL ports whose range is (R109). -/
  zeroed : List Nat := []
  cxlOff : List Nat := []
  /-- Contexts stopped at a landing by step 2, and contexts suspended before. -/
  stopped : List (Nat × Nat) := []
  kept : List (Nat × Nat × CtxState) := []
  deriving DecidableEq, Repr

/-- What an operation from outside answers when all its parts are performed. -/
inductive HostKind | put | get | word
  deriving DecidableEq, Repr

/-- A semantic operation of the host or of a member of the trust domain (R54): parts not yet performed, and what they
brought. -/
structure HostOp where
  kind : HostKind
  world : Nat
  len : Nat := 0
  waiting : Nat := 0
  err : Bool := false
  cells : List Host.Cell := []
  word : Word := 0
  /-- The member it came from, and its number there. -/
  peer : Option (Nat × Nat) := none
  /-- A put of a channel message: nothing is answered. -/
  silent : Bool := false
  deriving DecidableEq, Repr

/-- Interface states (R81). -/
inductive Ifs | reset | boot | config | locked | run | drain | fault
  deriving DecidableEq, Repr

/-- SPDM connection states (R65). -/
inductive ConnSt | none | afterVersion | afterCaps | negotiated
  deriving DecidableEq, Repr

/-- An SPDM connection (R63, R66): transcripts are byte strings of the request and reply codes exchanged. -/
structure Conn where
  st : ConnSt := .none
  digests : Bool := false
  a : List Byte := []
  b : List Byte := []
  c : List Byte := []
  l1 : List Byte := []
  deriving DecidableEq, Repr

/-- An SPDM session (R65, R70). -/
structure Session where
  live : Bool := false
  conn : Nat := 0
  established : Bool := false
  secret : BitVec 384 := 0
  th : List Byte := []
  /-- Heartbeat period in units of 100 ms; 0 before a channel is open. -/
  period : Nat := 0
  /-- A heartbeat was accepted since the deadline last ran. -/
  beat : Bool := false
  deriving DecidableEq, Repr

/-- What the accepted messages of a channel still have to do (R84): bytes for world memory, packets for a queue, a tail write. -/
inductive ChJob
  | put (va : Word) (bytes : List Byte)
  | packets (queue : Nat) (bytes : List Byte)
  | tail (queue : Nat) (value : BitVec 32)
  /-- The channel closes. -/
  | close
  deriving DecidableEq, Repr

/-- A host channel (R67, R69). -/
structure Channel where
  live : Bool := false
  session : Nat := 0
  world : Nat := 0
  last : Option (BitVec 32) := none
  devCtr : BitVec 32 := 0x80000000
  fails : Nat := 0
  refused : Nat := 0
  dead : Bool := false
  /-- It is to close when what it has accepted is carried out (R84). -/
  closing : Bool := false
  key : BitVec 256 := 0
  salt : BitVec 64 := 0
  /-- Messages accepted and not yet carried out, oldest first, and the number of the put in progress (R84). -/
  jobs : List ChJob := []
  busy : Option Nat := none
  deriving DecidableEq, Repr

/-- A channel closes: at once, or after the jobs of the messages it has accepted (R84). -/
def Channel.close (c : Channel) : Option Channel :=
  if c.jobs.isEmpty && c.busy.isNone then none
  else some { c with closing := true, jobs := if c.closing then c.jobs else c.jobs ++ [.close] }
/-- The channels of which some close. -/
def closeChannels (l : SMap Channel) (hit : Nat × Channel → Bool) : SMap Channel :=
  l.filterMap (fun e => if hit e then e.2.close.map (fun c => (e.1, c)) else some e)

/-- Re-key phases (R78). -/
inductive Phase | idle | quiesce | drained | switching | switched
  deriving DecidableEq, Repr

/-- A run that this package has sent and that has not been acknowledged (R56): the run, and the operations it carries. -/
structure SentRun where
  seq : Nat
  kgen : Nat
  flg : Nat
  flits : List Byte
  tag : BitVec 128
  ops : List Nat
  deriving DecidableEq, Repr

/-- What this package knows of a peer of its trust domain (R55, R56, R76). -/
structure Peer where
  present : Bool := false
  /-- The secret of the session that carries the domain's control traffic with it (R76). -/
  session : BitVec 384 := 0
  sendSeq : Nat := 0
  /-- Its runs that are not acknowledged, oldest first. -/
  runs : List SentRun := []
  /-- The replay window: the 256 highest sequence numbers seen. -/
  seen : List Nat := []
  replays : Nat := 0
  stale : Nat := 0
  /-- Messages for the run that is still open, oldest first. -/
  queued : List RunMsg := []
  /-- Flits of the first of them that have left already. -/
  cut : Nat := 0
  barrierSeen : Bool := false
  rekeyAsked : Bool := false
  /-- It has reported DRAINED, and SWITCHED, to this package as the coordinator (R78). -/
  drained : Bool := false
  switched : Bool := false
  deriving DecidableEq, Repr

/-- The trust domain of the package (R76 to R80). -/
structure Domain where
  formed : Bool := false
  number : Nat := 0
  self : Nat := 0
  coordinator : Nat := 0
  kgen : Nat := 0
  /-- The key generation that the re-key in progress installs (R78, R79), and its secret where this package has drawn it. -/
  target : Nat := 0
  next : Option (BitVec 256) := none
  secret : BitVec 256 := 0
  /-- RUNLEN towards each member (R55), and the barrier timeout of a phase in ms (R79). -/
  runlen : Nat := 64
  timeout : Nat := 100
  /-- The policy's members while the domain is being formed (R76). -/
  policy : List PolicyEnt := []
  /-- The nonce that H has sent to each of them. -/
  nonces : SMap Word := []
  /-- A member left, or was removed, after the new secret had been sent: another re-key follows this one (R78, R79). -/
  again : Bool := false
  phase : Phase := .idle
  peers : SMap Peer := []
  /-- Fabric operations held at H (R78) with their members, oldest first. -/
  held : List (Nat × RunMsg) := []
  deriving DecidableEq, Repr

/-- What the manager is told (06 R461, 04 R84). -/
inductive Event
  | fault (e : LogEnt)
  | leader (holder epoch : Nat)
  | linkcal (die e : Nat)
  | qover (world queue : Nat)
  | qback (world queue : Nat)
  | qnone (world queue : Nat)
  | qxlate (world queue : Nat)
  | statlost (world queue tag : Nat)
  | siglost (world queue tag : Nat)
  | launchf (entry aux : Nat)
  | trap (core ctx : Nat) (cause : Nat) (xval xtok : Word)
  /-- The notice of a trap to the management core of the core's die (R280). -/
  | trapNotice (core ctx : Nat)
  /-- The far tier detected, where it is not the one of the manifest (R2). -/
  | farTier (bytes : Nat)
  | slip (core : Nat) (cycle : Int) (token : Word) (others : Nat)
  | sealstale (world page : Nat)
  | resched (world page : Nat)
  | worldlost (world : Nat)
  | loadfail (world code : Nat)
  | channelDead (ch : Nat)
  | peerUnreachable (peer : Nat)
  | notAdmitted (member : Nat)
  | cxlDown (die port : Nat)
  | domainDissolved (domain : Nat)
  deriving DecidableEq, Repr

/-- SPDM responses (R64 to R66). -/
inductive SpdmRsp
  | version | capabilities | algorithms | digests | certificate | challengeAuth | measurements | keyExchangeRsp | finishRsp
  | endSessionAck
  deriving DecidableEq, Repr

/-- Codes of an SPDM ERROR (R63 to R66); UnexpectedRequest is 0x04 and UnsupportedRequest 0x07. -/
inductive SpdmErr | invalidRequest | busy | unexpectedRequest | decryptError | unsupportedRequest | sessionLimitExceeded | negotiationFail
  deriving DecidableEq, Repr

/-- Control traffic of a trust domain, which travels in the session with a member (R76 to R79). -/
inductive Control
  /-- H asks for certificates and measurements, with its nonce, and opens a session. -/
  | attest (nonce : Word)
  | members (l : List Nat)
  | secret (kgen : Nat) (value : BitVec 256)
  /-- A re-key begins, with the timeout of its phases in ms. -/
  | quiesce (kgen timeout : Nat)
  | drained (kgen : Nat)
  | switch (kgen : Nat)
  | switched (kgen : Nat)
  | resume (kgen : Nat)
  | rekeyAsk
  deriving DecidableEq, Repr

/-- Answers of the device to requests from outside (R64, R65, R81, R54, R68), and what it sends of itself: a run (R55),
control traffic of a domain (R76), and the stream of a checkpoint (R108). -/
inductive Reply
  | statusWindow (words : List Word)
  | bytes (l : List Byte)
  | word (w : Word)
  | done
  | accessError
  | unsupported
  | spdm (conn : Nat) (rsp : SpdmRsp) (body : List Byte)
  | spdmError (conn : Nat) (err : SpdmErr)
  | run (peer seq kgen flg : Nat) (flits : List Byte) (tag : BitVec 128)
  | runAck (peer seq : Nat)
  /-- A message of the device on a host channel (R68, R69). -/
  | channel (m : ChMsg)
  /-- Control traffic for a member, in the session with it by its secret (R76); 0 before one is open. -/
  | control (member : Nat) (session : BitVec 384) (c : Control)
  /-- A message of a checkpoint's stream by a port, with the bytes that are not zero by their offset in it; and the blob (R108). -/
  | stream (port peer : Nat) (addr : Word) (cells : List Host.Cell)
  | blob (b : Blob) (sig : List Byte)
  deriving DecidableEq, Repr

/-- The hub (H). -/
structure Hub where
  ifs : Ifs := .reset
  bst : Nat := 0
  profile : Nat := 0
  qerr : Nat := 0
  idkDigest : BitVec 384 := 0
  lockTick : Option Word := none
  msl : SMap (BitVec 384) := []
  ssecLocked : Bool := false
  floor : Nat := 0
  slk : BitVec 256 := 0
  alk : BitVec 384 := 0
  idk : BitVec 384 := 0
  manifest : Manifest :=
    { version := 0, key := [], sig := [], body := [], grades := [], identityPolicy := [], farTier := 0, partitions := [6, 4, 2],
      profiles := [0x12, 0x16], regionBase := 0, queueBase := 0, queueLog2n := 6, followers := [] }
  /-- The certificate chain of slot 0 (R64), formed at boot. -/
  chain : List Byte := []
  /-- Stage 1 has run, and stage 2 is still to start (R61). -/
  booting : Bool := false
  /-- The far tier that firmware has detected: bytes of LPDDR per far die, and of the expander on each CXL port (R2, R57, R58). -/
  lpddr : Nat := 0
  expanders : SMap Nat := []
  holder : Nat := 0xFF
  epoch : Nat := 0
  /-- The claim that the lease was last granted on: die and cycle (R111). -/
  claims : List (Nat × Nat) := []
  slots : SMap Entry := []
  queue : List Event := []
  partitions : SMap Nat := []
  role : Option RoleChange := none
  ckpt : Option Checkpoint := none
  /-- Refused packets of each port (R52). -/
  refused : SMap Nat := []
  /-- Configuration registers held as written: port splits, CXL decoders, statistics (log 8). -/
  cfg : SMap Word := []
  /-- Offline marks of CXL ports (R59), at 2 × die + port. -/
  offline : SMap Bool := []
  /-- Operations from outside in progress (R54), by number. -/
  ops : SMap HostOp := []
  /-- SPDM and channels. -/
  conns : SMap Conn := []
  sessions : SMap Session := []
  channels : SMap Channel := []
  /-- The connection whose signature the security engine serves (R66). -/
  signing : Option Nat := none
  domain : Domain := {}
  sent : List Reply := []
  rekeys : Nat := 0
  deriving DecidableEq, Repr

end Sys2Proof.Machine
end

