-- ==== Sys2Proof/Machine/State.lean ====
section
/-! DEFINITION. The state of the package, the reasons a step can stop, and the state after reset. -/

namespace Sys2Proof.Machine

/-- THE MACHINE. Plain data; every map is sparse (Machine/SMap.lean). -/
structure State where
  /-- Global core cycle, counted from the release of reset. -/
  now : Nat := 0
  /-- The frame count (R35). -/
  gtick : Word := 0
  /-- The context the instruction of this step acts for (log 4). -/
  curCore : Nat := 0
  curCtx : Nat := 0
  /-- Counter of free values and free choices (log 3). -/
  fresh : Nat := 0
  /-- Next number of an access, result or event (log 4). -/
  seqno : Nat := 1
  /-- Steps from outside that are still to be taken, oldest first (log 2). -/
  inbox : List Instr := []
  mem : SMap Byte := []
  /-- The world under whose key each line of encrypted memory was last written, plus 1; 0 for a line that no world has written (R204,
  log 12). `mem` holds what that world sees. -/
  owner : SMap Nat := []
  /-- Clock tags of lines (R168), by line number; 49 counts, source 7 * k + home h. -/
  tags : SMap (SMap Nat) := []
  /-- Clk[n][k][h] at 49 n + 7 k + h, and Applied[h][k] at 7 h + k (R168). -/
  clk : SMap Nat := []
  applied : SMap Nat := []
  /-- Causal buffers (R168): posted accesses of all homes, oldest first. -/
  posted : List Access := []
  /-- The landing calendar (R168), in order of issue. -/
  calendar : List Timed := []
  /-- Addresses whose check fails (R138). -/
  faulty : List Nat := []
  cores : SMap Core := []
  fronds : SMap Frond := []
  worlds : SMap World := []
  dies : SMap Die := []
  packets : List Packet := []
  hub : Hub := {}
  deriving DecidableEq, Repr

/-- Why the machine stops with a fault: it never does. Every stop of the manual is a precise trap, an access error, a
status, or the interface state FAULT, and each is a next state. -/
inductive Fault
  deriving DecidableEq, Repr

/-- Why a step is refused. -/
inductive Refusal
  /-- Raised by `exec` for an instruction that has no meaning yet. Safe. -/
  | notModelled (mnemonic : String)
  deriving DecidableEq, Repr

/-- The machine right after reset (R82, R35): the interface in RESET, every layer OFF, no frond, no world, memory with
nothing listed. Every register the manual gives no reset value for is zero (log 5 to 11). -/
def State.reset : State := {}

end Sys2Proof.Machine
end

