-- ==== Sys2Proof/Machine/Ops.lean ====
section
/-! DEFINITION. The named operations over the state: cores, contexts, registers, memory, translation, the landing
calendar, causal posting, fault logs; taking a trap, suspending and resuming a context. -/

namespace Sys2Proof.Machine

/-! ### Cores, contexts, fronds, worlds and dies -/

/-- A core. -/
def State.core (s : State) (c : Nat) : Core := SMap.get {} s.cores c
/-- Changing a core. -/
def State.updCore (s : State) (c : Nat) (f : Core → Core) : State := { s with cores := SMap.upd {} s.cores c f }
/-- A context of a core. -/
def Core.ctx (c : Core) (k : Nat) : Ctx := SMap.get {} c.ctxs k
/-- Changing a context of a core. -/
def Core.updCtx (c : Core) (k : Nat) (f : Ctx → Ctx) : Core := { c with ctxs := SMap.upd {} c.ctxs k f }
/-- A context. -/
def State.ctx (s : State) (c k : Nat) : Ctx := (s.core c).ctx k
/-- Changing a context. -/
def State.updCtx (s : State) (c k : Nat) (f : Ctx → Ctx) : State := s.updCore c (fun x => x.updCtx k f)
/-- The core and the context that the instruction acts for. -/
def State.me (s : State) : Core := s.core s.curCore
def State.cur (s : State) : Ctx := s.ctx s.curCore s.curCtx
/-- Changing the context that the instruction acts for. -/
def State.updCur (s : State) (f : Ctx → Ctx) : State := s.updCtx s.curCore s.curCtx f
/-- A frond. -/
def State.frond (s : State) (f : Nat) : Frond := SMap.get {} s.fronds f
def State.updFrond (s : State) (n : Nat) (f : Frond → Frond) : State := { s with fronds := SMap.upd {} s.fronds n f }
/-- A world. -/
def State.world (s : State) (w : Nat) : World := SMap.get {} s.worlds w
def State.updWorld (s : State) (w : Nat) (f : World → World) : State := { s with worlds := SMap.upd {} s.worlds w f }
/-- A die. -/
def State.die (s : State) (d : Nat) : Die := SMap.get {} s.dies d
def State.updDie (s : State) (d : Nat) (f : Die → Die) : State := { s with dies := SMap.upd {} s.dies d f }
/-- Changing the hub. -/
def State.updHub (s : State) (f : Hub → Hub) : State := { s with hub := f s.hub }
/-- A slot-table entry. -/
def State.slot (s : State) (i : Nat) : Entry := SMap.get {} s.hub.slots i
def State.updSlot (s : State) (i : Nat) (f : Entry → Entry) : State :=
  s.updHub (fun h => { h with slots := SMap.upd {} h.slots i f })
/-- The manager receives an event (R461). -/
def State.tell (s : State) (e : Event) : State := s.updHub (fun h => { h with queue := h.queue ++ [e] })
/-- The device answers (R65, R81). -/
def State.answer (s : State) (r : Reply) : State := s.updHub (fun h => { h with sent := h.sent ++ [r] })

/-- The next number of an access, result or event. -/
def State.bump (s : State) : State := { s with seqno := s.seqno + 1 }
/-- A free choice below n (R173). -/
def State.choose (s : State) (n : Nat) : Nat × State := (Config.freeChoice s.fresh % n, { s with fresh := s.fresh + 1 })

/-! ### Profile, latency class and tag -/

/-- The profile in force is T16. -/
def State.t16 (s : State) : Bool := isT16 s.hub.profile
/-- The partition of a column: 6, 4, 2 or 0 for none (R20); it is the latency class as well. -/
def State.part (s : State) (k : Nat) : Nat := SMap.get 0 s.hub.partitions k
/-- The latency class of a core (R23). -/
def State.cls (s : State) (c : Nat) : Nat := s.part (coreColumn c)
/-- The present generation tag of a core (R24, R303): every core has all eleven slots and eight lane groups. -/
def State.tag (s : State) (c : Nat) : BitVec 32 :=
  BitVec.ofNat 32 (s.hub.profile * 0x1000000 + s.cls c * 0x10000 + 0x47FF)
/-- A layer die holds compute cores in service (R18): one that stays in compute role keeps them through a role change, and one that
takes the role has them from the end of its step 4 (R28). -/
def State.computes (s : State) (die : Nat) : Bool :=
  (s.die die).st = .compute || ((s.die die).st = .draining || (s.die die).st = .enumerating) && (s.die die).prior = .compute

/-! ### Memory (R7, R168) -/

/-- What a byte of memory reads as; a byte nothing has written reads as zero (log 1). -/
def State.byte (s : State) (pa : Nat) : Byte := SMap.get 0 s.mem pa
/-- Writing a byte. -/
def State.setByte (s : State) (pa : Nat) (b : Byte) : State := { s with mem := SMap.put 0 s.mem pa b }
/-- n bytes from an address. -/
def State.bytes (s : State) (pa n : Nat) : List Byte := (List.range n).map (fun i => s.byte (pa + i))
/-- Writing cells in order. -/
def State.writeCells (s : State) (l : List Host.Cell) : State := l.foldl (fun s c => s.setByte c.1 c.2) s
/-- n bytes at an address as cells. -/
def cellsAt (pa n v : Nat) : List Host.Cell := (List.range n).map (fun i => (pa + i, BitVec.ofNat 8 (v / 2 ^ (8 * i))))
/-- The value of n bytes at an address. -/
def State.load (s : State) (pa n : Nat) : Nat := leNat (s.bytes pa n)
/-- Storing the n low bytes of a value. -/
def State.store (s : State) (pa n v : Nat) : State := s.writeCells (cellsAt pa n v)
/-- Giving the lines of the cells a clock tag (R170, R173). -/
def State.tagLines (s : State) (l : List Host.Cell) (t : SMap Nat) : State :=
  { s with tags := l.foldl (fun m c => SMap.put [] m (lineOf c.1) t) s.tags }
/-- A timed write: its lines take the empty clock (R170). -/
def State.timedWrite (s : State) (l : List Host.Cell) : State := (s.writeCells l).tagLines l []
/-- Zeroising a range: every byte of it reads zero, to every world. -/
def State.zeroise (s : State) (lo n : Nat) : State :=
  { s with mem := s.mem.filter (fun c => decide (¬ (lo ≤ c.1 ∧ c.1 < lo + n)))
           owner := s.owner.filter (fun c => decide (¬ (lo ≤ 64 * c.1 ∧ 64 * c.1 < lo + n))) }

/-! ### World keys (R204) -/

/-- The bytes of a line, and 64 bytes as the cells of a line. -/
def State.lineBytes (s : State) (n : Nat) : List Byte := s.bytes (64 * n) 64
def lineCells (n : Nat) (l : List Byte) : List Host.Cell := (List.range 64).map (fun i => (64 * n + i, l.getD i 0))
/-- What a line that was written under one world key holds for a reader under another: its ciphertext, decrypted (R204). World 0 has no
key, and sees the ciphertext (R72). -/
def lineSeen (writer reader : Option (BitVec 512)) (n : Nat) (l : List Byte) : List Byte :=
  let c := match writer with | some k => xtsEncrypt k (64 * n) l | none => l
  match reader with | some k => xtsDecrypt k (64 * n) c | none => c
/-- A line was last written under another world's key. -/
def State.foreign (s : State) (w n : Nat) : Bool :=
  let o := SMap.get 0 s.owner n
  decide (o ≠ 0 ∧ o ≠ w + 1)
/-- Memory as a world sees the lines of some addresses: those of another world are decrypted under its own key. -/
def State.seenBy (s : State) (w : Nat) (l : List Nat) : State :=
  ((linesOf l).filter (s.foreign w)).foldl (fun t n =>
    t.writeCells (lineCells n (lineSeen (s.world (SMap.get 0 s.owner n - 1)).key (s.world w).key n (s.lineBytes n)))) s
/-- A range of whole lines is written whole under a world's key, zero but for the cells given: lines of zeros are the world's as well (R204). -/
def State.writeRange (s : State) (w lo n : Nat) (l : List Host.Cell) : State :=
  let t := (s.zeroise lo n).timedWrite l
  { t with owner := t.owner.filter (fun e => decide (64 * e.1 < lo)) ++
      (((List.range (n / 64)).map (fun i => lo / 64 + i)).filter (fun m => encrypted (64 * m))).map (fun m => (m, w + 1)) ++
      t.owner.filter (fun e => decide (lo + n ≤ 64 * e.1)) }
/-- A world writes to the lines of some addresses: each is encrypted anew under its key. -/
def State.claim (s : State) (w : Nat) (l : List Nat) : State :=
  { s.seenBy w l with
    owner := ((linesOf l).filter (fun n => encrypted (64 * n))).foldl (fun m n => SMap.put 0 m n (w + 1)) s.owner }
/-- A timed write of a world. -/
def State.landAs (s : State) (w : Nat) (l : List Host.Cell) : State := (s.claim w (l.map Prod.fst)).timedWrite l

/-! ### Registers (R151 to R153) -/

/-- ROT of a context. -/
def Ctx.rot (c : Ctx) : Nat := c.lrot.toNat % 32
/-- The physical register of a rotating file (R153). -/
def physReg (rot k : Nat) : Nat := if k < 32 then k else 32 + ((k - 32) + (32 - rot % 32)) % 32
/-- g0 reads zero. -/
def Ctx.gr (c : Ctx) (r : BitVec 6) : Word := if r = 0 then 0 else SMap.get 0 c.g (physReg c.rot r.toNat)
def Ctx.ar (c : Ctx) (r : BitVec 4) : Word := SMap.get 0 c.a r.toNat
/-- p0 reads one. -/
def Ctx.pr (c : Ctx) (r : BitVec 4) : Bool := if r = 0 then true else c.p.getLsbD r.toNat
def Ctx.vr (c : Ctx) (r : BitVec 6) : Vec := SMap.get 0 c.v (physReg c.rot r.toNat)
def Ctx.mr (c : Ctx) (r : BitVec 3) : Word := SMap.get 0 c.m r.toNat
def Ctx.yr (c : Ctx) (r : BitVec 4) : Rec := SMap.get 0 c.y r.toNat
/-- A predicate bit set. -/
def setPred (p : BitVec 16) (i : Nat) (b : Bool) : BitVec 16 :=
  if i = 0 then p else if b then p ||| BitVec.twoPow 16 i else p &&& ~~~ BitVec.twoPow 16 i
/-- Bits w − 1 : 0 of a value over an old one (R152). -/
def narrow (w : Nat) (new old : Vec) : Vec :=
  if 1024 ≤ w then new else (new &&& BitVec.ofNat 1024 (2 ^ w - 1)) ||| (old &&& ~~~ BitVec.ofNat 1024 (2 ^ w - 1))

/-- Writing a physical register (R152): g0 and p0 discard. -/
def Ctx.writeReg (c : Ctx) (f : RFile) (r w : Nat) (v : Vec) : Ctx :=
  match f with
  | .g => if r = 0 then c else { c with g := SMap.put 0 c.g r (v.setWidth 64) }
  | .a => { c with a := SMap.put 0 c.a r (v.setWidth 64) }
  | .p => { c with p := setPred c.p r (v.getLsbD 0) }
  | .v => { c with v := SMap.put 0 c.v r (narrow w v (SMap.get 0 c.v r)) }
  | .m => { c with m := SMap.put 0 c.m r (v.setWidth 64) }

/-- A result put in flight for the present context: the physical register is taken at issue (R12, R153). -/
def State.result (s : State) (f : RFile) (r w lat : Nat) (v : Option Vec) : State :=
  (s.updCur (fun c => { c with inflight := c.inflight ++
    [{ id := s.seqno, due := s.now + lat, file := f, reg := r, width := w, value := v }] })).bump

/-- A result for gD; a destination g0 is discarded (R152). -/
def State.toG (s : State) (rd : BitVec 6) (lat : Nat) (v : Word) : State :=
  if rd = 0 then s else s.result .g (physReg s.cur.rot rd.toNat) 64 lat (some (v.setWidth 1024))
/-- A result for aD. -/
def State.toA (s : State) (rd : BitVec 4) (lat : Nat) (v : Word) : State :=
  s.result .a rd.toNat 64 lat (some (v.setWidth 1024))
/-- A result for pD; p0 is never written. -/
def State.toP (s : State) (rd : BitVec 4) (lat : Nat) (b : Bool) : State :=
  if rd = 0 then s else s.result .p rd.toNat 1 lat (some (BitVec.ofNat 1024 b.toNat))
/-- A result for vD, bits w − 1 : 0 (R152). -/
def State.toV (s : State) (rd : BitVec 6) (w lat : Nat) (v : Vec) : State :=
  s.result .v (physReg s.cur.rot rd.toNat) w lat (some v)
/-- A result for mD. -/
def State.toM (s : State) (rd : Nat) (lat : Nat) (v : Word) : State :=
  s.result .m rd 64 lat (some (v.setWidth 1024))

/-- The result a timed read brings, filled where it waits: in flight, or in the pending-write record (R287). -/
def fillResult (l : List Result) (rid : Nat) (v : Vec) : List Result :=
  l.map (fun r => if r.id = rid then { r with value := some v } else r)
def State.fill (s : State) (c k rid : Nat) (v : Vec) : State :=
  s.updCtx c k (fun x => { x with inflight := fillResult x.inflight rid v, record := fillResult x.record rid v })

/-! ### Queues (R154) -/

/-- Entries present in a queue. -/
def Ctx.count (c : Ctx) (q : Nat) : Nat := (SMap.get [] c.q q).length
/-- Deliveries owed to a queue. -/
def Ctx.owes (c : Ctx) (q : Nat) : Nat := SMap.get 0 c.owed q
/-- The numbers of the requests whose entries have entered a queue in a cycle (R369). -/
def Ctx.cameIn (x : Ctx) (q now : Nat) : List Nat :=
  let a := SMap.get (0, []) x.came q
  if a.1 = now then a.2 else []
/-- The delivery of a request enters the queue, before what later requests have brought in the same cycle (R369): what was owed is paid. -/
def State.deliver (s : State) (c k q ord : Nat) (e : QEntry) : State :=
  s.updCtx c k (fun x => 
    let l := x.cameIn q s.now
    let later := l.filter (fun n => decide (ord < n))
    let old := SMap.get [] x.q q
    { x with
    q := SMap.put [] x.q q (old.take (old.length - later.length) ++ [e] ++ old.drop (old.length - later.length))
    came := SMap.put (0, []) x.came q (s.now, l.filter (fun n => decide (n ≤ ord)) ++ [ord] ++ later)
    qspare := SMap.erase x.qspare (8 * q + (SMap.get 0 x.qhead q + x.count q) % 8)
    owed := SMap.put 0 x.owed q (SMap.get 0 x.owed q - 1) })
/-- n more deliveries are owed to a queue of the present context. -/
def State.owe (s : State) (q n : Nat) : State :=
  s.updCur (fun x => { x with owed := SMap.put 0 x.owed q (SMap.get 0 x.owed q + n) })
/-- A request for n deliveries into a queue overflows it (R154). -/
def Ctx.overflows (c : Ctx) (q n : Nat) : Bool := decide (8 < c.count q + c.owes q + n)

/-! ### Translation (R133, R134) -/

/-- 2 MiB. -/
def pageBytes : Nat := 0x200000
/-- Bytes a window covers. -/
def Window.bytes (w : Window) : Nat := (w.size + 1) * pageBytes
/-- The n bytes at a lie in the window. -/
def Window.holds (w : Window) (a n : Nat) : Bool := w.v && decide (w.vbase ≤ a ∧ a + n ≤ w.vbase + w.bytes)
/-- The valid window that holds the n bytes at a. -/
def findWindow (l : SMap Window) (a n : Nat) : Option Window := (l.map Prod.snd).find? (fun w => w.holds a n)
/-- What an access needs (R133). -/
inductive Perm | rd | wr | atm | rdwr
  deriving DecidableEq, Repr
/-- A window gives a permission; a page under migration refuses writes (MIG). -/
def Window.permits (w : Window) : Perm → Bool
  | .rd => w.rd
  | .wr => w.wr && !w.mig
  | .atm => w.atm && !w.mig
  | .rdwr => w.rd && w.wr && !w.mig
/-- The translation of n bytes at a world virtual address under a table. -/
def translate (l : SMap Window) (a n : Nat) (p : Perm) : Option Nat :=
  match findWindow l a n with
  | some w => if w.permits p then some (w.pbase + (a - w.vbase)) else none
  | none => none
/-- The refusal is due to MIG alone, so the trap is resumable (R281). -/
def refusedByMig (l : SMap Window) (a n : Nat) (p : Perm) : Bool :=
  match findWindow l a n with
  | some w => w.mig && ({ w with mig := false } : Window).permits p
  | none => false

/-- Bytes of the pool that a role gives a die (R19): 64 MiB in compute role, 96 MiB in store role. -/
def rolePool : LayerSt → Nat
  | .compute => 0x4000000
  | .store => 0x6000000
  | _ => 0
/-- Bytes of a pool window that are backed (R19): by the role held, through a role change as well (R28). -/
def State.poolBytes (s : State) (die : Nat) : Nat :=
  match (s.die die).st with
  | .compute => rolePool .compute
  | .store => rolePool .store
  | .draining | .enumerating => rolePool (s.die die).prior
  | _ => 0
/-- A timed access of a core may reach the n bytes at pa: near tier, but for one behind an anchor whose calibration has failed (R42), a
store pool, or a compute pool of its column (R18, R431). -/
def State.timedReach (s : State) (c pa n : Nat) : Bool :=
  match region pa with
  | .near k off => decide (off + n ≤ nearBytes) && decide ((s.die (1 + k)).st ≠ .fenced)
  | .layer d off =>
    decide (off + n ≤ s.poolBytes d) && (!s.computes d || decide (dieColumn d = coreColumn c))
  | _ => false
/-- The padded latency of a timed access to pa (R23). -/
def State.padded (s : State) (c pa : Nat) : Nat :=
  match region pa with
  | .layer _ _ => latPool s.t16 (s.cls c)
  | _ => latNear s.t16 (s.cls c)

/-! ### Fronds and domain time (R36, R172) -/

/-- The frond of a context's item; 384 names none. -/
def Ctx.frond (c : Ctx) : Nat := match c.item with | some i => i.frond | none => 384
/-- What frond f still owes context k of core c arrives there: its item is of that frond, or it has ended its item and the frond,
not aborted, still holds the context (R119, R389). -/
def State.keeps (s : State) (f c k : Nat) : Bool :=
  decide ((s.ctx c k).frond = f) ||
  ((s.ctx c k).item.isNone && (s.frond f).bound && (s.frond f).abort.isNone && (s.frond f).ctxm.testBit k &&
   decide (c ∈ (s.frond f).cores))
/-- The frond is frozen at the present cycle. -/
def State.frozen (s : State) (f : Nat) : Bool := decide (s.now < (s.frond f).freezeEnd)
/-- Domain time (R36): it holds still during a freeze. `frozen` counts every cycle of every freeze begun so far, so a
freeze in progress is counted up to its end. -/
def State.dtime (s : State) (f : Nat) : Int :=
  let fr := s.frond f
  (Max.max s.now fr.freezeEnd : Nat) - fr.base - fr.frozen
/-- The number of bits a context's domain time shows in `dtime`. -/
def State.dtimeWord (s : State) (f : Nat) : Word := BitVec.ofInt 64 (s.dtime f)

/-! ### The landing calendar (R168) -/

/-- The landing token or bundle name of a resume point (R282). -/
def Point.token : Point → Word
  | .inside page _ land off => BitVec.ofNat 64 (page * 0x1000000 + land * 0x10000 + off)
  | .entry page idx _ => BitVec.ofNat 64 (page * 0x1000000 + idx * 0x10000)
/-- The landing token that an access of a context carries (R139, R141). -/
def Ctx.pageToken (c : Ctx) : Word := c.point.token &&& ~~~ 0xFFFF

/-- A timed action of the present context's frond, due after some cycles. -/
def State.schedule (s : State) (due : Nat) (core : Nat) (a : TAct) : State :=
  { s with
    calendar := s.calendar ++
      [{ id := s.seqno, due := due, frond := s.cur.frond, core := core, ctx := s.curCtx, ord := s.seqno, born := s.now,
         token := s.cur.pageToken, act := a }]
    seqno := s.seqno + 1 }
/-- The landing of a copy chunk, which touches the lines of `span` (R169). -/
def State.scheduleSpan (s : State) (due : Nat) (core : Nat) (span : List Nat) (a : TAct) : State :=
  { s with
    calendar := s.calendar ++
      [{ id := s.seqno, due := due, frond := s.cur.frond, core := core, ctx := s.curCtx, ord := s.seqno, span := span, born := s.now,
         token := s.cur.pageToken, act := a }]
    seqno := s.seqno + 1 }
/-- A further timed action of the request `ord`, made for a context and a frond. -/
def State.scheduleFor (s : State) (due core ctx frond ord : Nat) (a : TAct) (span : List Nat := []) (token : Word := 0) : State :=
  { s with
    calendar := s.calendar ++ [{ id := s.seqno, due := due, frond := frond, core := core, ctx := ctx, ord := ord, span := span, born := s.now,
                                  token := token, act := a }]
    seqno := s.seqno + 1 }
/-- Removing an action from the calendar. -/
def State.unschedule (s : State) (id : Nat) : State := { s with calendar := s.calendar.filter (fun t => t.id ≠ id) }
/-- The action of a number. -/
def State.timed (s : State) (id : Nat) : Option Timed := s.calendar.find? (fun t => t.id = id)
/-- An action's cycle has come. -/
def State.isDue (s : State) (t : Timed) : Bool := decide (t.due ≤ s.now)

/-! ### Fault logs (R139, R140) -/

/-- A die's log takes an entry; a full log counts it (R140). -/
def State.logFault (s : State) (d : Nat) (e : LogEnt) : State :=
  s.updDie d (fun x =>
    if 64 ≤ x.log.length then { x with lost := Min.min (x.lost + 1) 0xFFFFFFFF } else { x with log := x.log ++ [e] })
/-- An entry from a core. -/
def State.coreFault (s : State) (kind c : Nat) (addr token : Word) : LogEnt :=
  { kind := kind, world := (s.core c).world, srccore := c, srcdie := coreDie c, addr := addr, token := token, tick := s.gtick }
/-- A configuration access error (R136, code 0x0A) that a management core of the die itself makes. -/
def State.cfgError (s : State) (d : Nat) (addr : Word) : State :=
  s.logFault d { kind := 0x0A, world := 0, srccore := 0xFFFF, srcdie := d, addr := addr, token := 0, tick := s.gtick }
/-- A configuration access error that die `src` makes at die d (R110, R139). -/
def State.cfgErrorBy (s : State) (src d : Nat) (addr : Word) : State :=
  s.logFault d { kind := 0x0A, world := 0, srccore := 0xFFFF, srcdie := src, addr := addr, token := 0, tick := s.gtick }
/-- A configuration access error of a packet (R110, R139): its source is H. -/
def State.cfgErrorH (s : State) (d : Nat) (addr : Word) : State := s.cfgErrorBy 0 d addr

/-! ### Suspension, traps and resumption (R280 to R288) -/

/-- What a physical register holds. -/
def Ctx.regVal (c : Ctx) (f : RFile) (r : Nat) : Vec :=
  match f with
  | .g => (SMap.get 0 c.g r).setWidth 1024
  | .a => (SMap.get 0 c.a r).setWidth 1024
  | .p => BitVec.ofNat 1024 (c.p.getLsbD r).toNat
  | .v => SMap.get 0 c.v r
  | .m => (SMap.get 0 c.m r).setWidth 1024
/-- Registers of bank k, 1 to 3. -/
def inBank (k r : Nat) : Bool := decide (16 * k ≤ r ∧ r < 16 * k + 16)
/-- The contents of a bank are lost. -/
def Ctx.loseBank (c : Ctx) (k : Nat) : Ctx := { c with v := c.v.filter (fun e => !inBank k e.1) }
def Ctx.bankOf (c : Ctx) (k : Nat) : BankSt := if k = 1 then c.bank1 else if k = 2 then c.bank2 else c.bank3
def Ctx.setBank (c : Ctx) (k : Nat) (b : BankSt) : Ctx :=
  if k = 1 then { c with bank1 := b } else if k = 2 then { c with bank2 := b } else { c with bank3 := b }
/-- A bank that left ON in the present cycle is ON again with its contents, and still to leave (R159, R287). -/
def Ctx.reenterBank (c : Ctx) (k : Nat) : Ctx :=
  match (c.bankOf k).left with
  | none => c
  | some l =>
    let c := l.foldl (fun x e => { x with v := SMap.put 0 x.v e.1 e.2 }) (c.loseBank k)
    c.setBank k { st := .on, next := (c.bankOf k).st }
/-- Landings of the present cycle are taken back (R287). -/
def Ctx.unland (c : Ctx) : Ctx :=
  let x := ((c.reenterBank 1).reenterBank 2).reenterBank 3
  c.inflight.foldr (fun r x => match r.old with | some v => x.writeReg r.file r.reg 1024 v | none => x) x
/-- Results still in flight enter the pending-write record with their remaining counts (R287). -/
def toRecord (t : Nat) (l : List Result) : List Result := l.map (fun r => { r with due := r.due - t, old := none, ready := r.due })
/-- Pending-write entries land at τ + k (R288). -/
def fromRecord (tau : Nat) (l : List Result) : List Result := l.map (fun r => { r with due := r.due + tau })

/-- The context's part of a suspension at cycle t: results in flight become the record, and nothing of the bundle being
issued remains (R286, R287). What a BLOCKED context waited for stays noted, since its timeout keeps counting (R295). -/
def Ctx.suspend (c : Ctx) (t : Nat) (st : CtxState) : Ctx :=
  { c.unland with
    st := st
    record := c.record ++ toRecord t c.inflight
    inflight := []
    staged := {}
    popped := []
    asked := []
    sig := none
    hold := none
    pre := none
    preResume := false }

/-- The core's part of a context leaving the issue position at the present cycle (R148). -/
def Core.leave (x : Core) (k now : Nat) : Core :=
  if x.running = some k then { x with running := none, lastLeft := k, nextIssue := now + 1 } else x

/-- TAKING A TRAP (R280, R281, R282): no effect of the bundle commits, the context enters TRAPPED, its results in flight
are held, the trap registers take the cause, the value, the token of the bundle and the count of further failures, and
another context takes the issue position. The management core of the die receives a notice. -/
def State.takeTrap (s : State) (c k : Nat) (cause : Nat) (xval xcnt : Word) : State :=
  (s.tell (.trapNotice c k)).updCore c (fun x =>
    (x.updCtx k (fun t =>
      { t.suspend s.now .trapped with
        xcause := BitVec.ofNat 64 (cause % 256)
        xval := xval
        xtok := t.point.token
        xcnt := xcnt })).leave k s.now)

/-- Blocking (R149): the bundle has no effect, its context waits, and another context takes the issue position. -/
def State.block (s : State) (c k : Nat) (w : List Wait) : State :=
  s.updCore c (fun x =>
    (x.updCtx k (fun t =>
      { t with st := .blocked, wait := w, since := if t.wait = [] then s.gtick else t.since,
               staged := {}, popped := [], asked := [] })).leave k s.now)

/-- A pre-emption takes effect (R275): the context would next have issued at cycle t. With a resumption accepted beside it, it is
READY at once (R274). -/
def State.preempt (s : State) (c k t : Nat) : State :=
  s.updCore c (fun x => (x.updCtx k (fun y => y.suspend t (if y.preResume then .ready else .preempted))).leave k s.now)

/-- RES (R276): a TRAPPED or PREEMPTED context becomes READY; its record lands from the cycle in which it first takes the
issue position. -/
def State.resume (s : State) (c k : Nat) : State :=
  s.updCtx c k (fun t => match t.st with | .trapped | .preempted => { t with st := .ready } | _ => t)

/-- A context takes the issue position of its core, and issues in this cycle or, where one has left in it, in the next: entries
of its record land from that cycle on (R148, R288). -/
def State.take (s : State) (c k : Nat) : State :=
  s.updCore c (fun x =>
    let tau := Max.max s.now x.nextIssue
    { (x.updCtx k (fun t => { t with st := .running, inflight := t.inflight ++ fromRecord tau t.record, record := [] }))
      with running := some k, nextIssue := tau })

/-- A context becomes IDLE: its item, loop, armed repeat, record and held state end (R389, R295). -/
def State.idle (s : State) (c k : Nat) : State :=
  s.updCore c (fun x =>
    (x.updCtx k (fun t =>
      { t with st := .idle, item := none, loop := {}, armed := 0, staged := {}, wait := [], sig := none, arrived := false,
               hold := none, pre := none, preResume := false, saving := false, point := .entry 0 0 1, tslc := 0, popped := [], asked := [] })).leave k s.now)

/-! ### Causal posting (R173) -/

/-- The access has an apply half: it raises its node's count for the home. -/
def Act.writes : Act → Bool
  | .read _ | .sigRead _ | .fabric _ _ _ _ _ | .move _ _ => false
  | .write _ | .atomic _ _ _ _ _ | .dec _ _ | .combine _ _ | .push _ _ _ _ | .void => true
/-- The access is a fabric operation. -/
def Act.isFabric : Act → Bool
  | .fabric _ _ _ _ _ => true
  | _ => false
/-- The access has a serve half. -/
def Act.serves : Act → Bool
  | .read _ | .sigRead _ | .atomic _ _ _ _ _ | .dec _ _ | .combine _ _ | .push (some _) _ _ _ => true
  | .write _ | .push none _ _ _ | .fabric _ _ _ _ _ | .move _ _ | .void => false

/-- Addresses an untimed access touches. -/
def Act.touches : Act → List Nat
  | .write pl => pl.cells.map Prod.fst
  | .read moves => moves.map Move.src
  | .atomic pa _ _ _ _ => [pa]
  | .dec pa _ => [pa]
  | .sigRead pa => [pa]
  | .combine _ pl => pl.cells.map Prod.fst
  | .push _ sync _ pl => pl.cells.map Prod.fst ++ sync.toList
  | .fabric _ _ _ _ _ | .move _ _ | .void => []

/-- Index of Clk[n][k][h]. -/
def clkKey (n k h : Nat) : Nat := 49 * n + 7 * k + h
/-- Clk[n] as a tag. -/
def State.clock (s : State) (n : Nat) : SMap Nat :=
  (List.range 49).foldl (fun m i => SMap.put 0 m i (SMap.get 0 s.clk (49 * n + i))) []

/-- Changing what is known of a peer. -/
def State.updPeer (s : State) (m : Nat) (f : Peer → Peer) : State :=
  s.updHub (fun h => { h with domain := { h.domain with peers := SMap.upd {} h.domain.peers m f } })
/-- A member is reachable: it is present, or this package. -/
def Domain.has (d : Domain) (m : Nat) : Bool := d.formed && ((SMap.get {} d.peers m).present || decide (m = d.self))
/-- A message for a member goes into its open run. -/
def State.queueMsg (s : State) (m : Nat) (msg : RunMsg) : State := s.updPeer m (fun p => { p with queued := p.queued ++ [msg] })
/-- The world virtual address an access was issued for, where what it owes names one. -/
def Access.base (a : Access) : Nat :=
  match a.owed with
  | .chunk _ _ va _ => va.toNat
  | _ => 0
/-- The member and the request of a fabric operation (R203). -/
def Access.request (a : Access) : Option (Nat × RunMsg) :=
  match a.act with
  | .fabric m add sync moves pl =>
    some (m, if moves.isEmpty then .put a.id a.world add sync a.base pl.cells else .get a.id a.world (moves.map Move.src))
  | _ => none
/-- A fabric operation reaches H (R78, R79): it goes into the run for its member, is held during a re-key, or fails where its
member has gone. -/
def State.originate (s : State) (a : Access) : State :=
  match a.request with
  | none => s
  | some (m, msg) =>
    if !s.hub.domain.has m then
      { s with posted := s.posted.map (fun b : Access => if b.id = a.id then { b with act := .read [], err := true } else b) }
    else if s.hub.domain.phase = .idle then s.queueMsg m msg
    else s.updHub (fun h => { h with domain := { h.domain with held := h.domain.held ++ [(m, msg)] } })

/-! ### Arbitration of untimed requests (R48, R50) -/

/-- The die that a request leaves (R50): a core's, or H. -/
def Access.source (a : Access) : Nat := if a.core < 512 then coreDie a.core else 0
/-- The class bound in cycles (R50). -/
def classBound (cls : Nat) : Nat := frameCycles * 2 ^ (cls + 1)
/-- The class of a request (R50): that of the launch a core works for, or the one that H's packet names. What has none is of class 0
(log 64). -/
def State.classOf (s : State) (a : Access) : Nat :=
  if a.core < 512 then (s.slot (s.frond a.frond).entry).cls % 4 else a.cls
/-- It waits at an arbitration point with another, as a request of the same die and class. -/
def Access.beside (a b : Access) : Bool :=
  decide (a.hops.head? = b.hops.head? ∧ a.cls = b.cls) && decide (a.source = b.source)
/-- A request arrives at its next arbitration point when fewer than 8 of its die and class are outstanding there (R50); the oldest first. -/
def admitted (now : Nat) (done : List Access) : List Access → List Access
  | [] => done
  | a :: r =>
    admitted now
      (done ++ [if a.hops.isEmpty || a.arr.isSome || decide (8 ≤ ((done ++ r).filter (fun b => b.arr.isSome && a.beside b)).length) then a
        else { a with arr := some now }]) r
/-- Requests arrive at the points where there is room for them. -/
def State.letIn (s : State) : State := { s with posted := admitted s.now [] s.posted }

/-- The deadline of a request at its arbitration point (R50). -/
def Access.deadline (a : Access) : Nat := a.arr.getD 0 + classBound a.cls
/-- A request comes before another at their arbitration point: by deadline, then by class (R50). -/
def Access.beats (a b : Access) : Bool :=
  decide (a.deadline < b.deadline) || (decide (a.deadline = b.deadline) && decide (a.cls < b.cls))
/-- Cycles of a slot of a link wheel and of a memory-path wheel, and slots of a layer's set (R47). -/
def linkSlotCycles : Nat := 16
def memSlotCycles : Nat := 8
def memSetSlots : Nat := 8
/-- The owner of a slot has a timed flit ready, as far as the calendar tells: something it has issued by the slot's first cycle has not
landed, and its domain is not frozen (R46, R48). -/
def State.timedFlit (s : State) (f first : Nat) : Bool :=
  !s.frozen f && s.calendar.any (fun t => decide (t.frond = f ∧ t.born ≤ first ∧ first < t.due))
/-- The link slot of a wheel at the present cycle and its first cycle. -/
def State.linkSlot (s : State) : Nat × Nat := (s.now / linkSlotCycles % 64, s.now / linkSlotCycles * linkSlotCycles)
/-- The set and the slot of the wheel of a column's memory path at the present cycle, and the slot's first cycle (R47): one set per compute
layer, then the untimed set. That the sets stand in the order of the layers and the wheel starts at cycle 0 is the model's (log 64). -/
def State.memSlot (s : State) (k : Nat) : Nat × Nat × Nat :=
  let n := s.now / memSlotCycles
  (n / memSetSlots % (s.part k + 1), n % memSetSlots, n * memSlotCycles)
/-- The frond that a slot is given to lets an untimed transfer have it (R48): this is the slot's first cycle, so that the transfer completes
within it, and the frond has no timed flit ready. -/
def State.lends (s : State) (f first : Nat) : Bool := decide (s.now = first) && !s.timedFlit f first
/-- An untimed transfer may start on a wheel (R47, R48): its slot is in the untimed set, is given to no frond, or is lent. -/
def State.slotFree (s : State) (point : Nat) : Bool :=
  if 20 ≤ point ∧ point < 24 then
    let k := point - 20
    let x := s.memSlot k
    decide (x.1 = s.part k) ||
    s.fronds.all (fun e => !(e.2.bound && e.2.memSlots.contains (8 + 8 * k + (8 - s.part k + x.1), x.2.1)) || s.lends e.1 x.2.2)
  else
    let x := s.linkSlot
    s.fronds.all (fun e => !(e.2.bound && e.2.linkSlots.contains (point, x.1)) || s.lends e.1 x.2)
/-- A request goes first at an arbitration point now: a slot is free, and none that waits there comes before it (R50). -/
def State.passes (s : State) (a : Access) (point : Nat) : Bool :=
  s.slotFree point && !s.posted.any (fun b => decide (b.hops.head? = some point) && b.arr.isSome && b.beats a)
/-- A request may pass its arbitration point now. -/
def State.mayHop (s : State) (a : Access) : Bool :=
  match a.hops with
  | [] => false
  | p :: _ => a.arr.isSome && a.done.isNone && s.passes a p
/-- The arbitration points that a request crosses (R50): to the line it touches first; a fabric operation to H, and a page move to a far
die, F0 (log 64). -/
def Access.path (a : Access) : List Nat :=
  match a.act with
  | .fabric _ _ _ _ _ => if a.node = 0 then [] else [vertical (a.node - 1), hubLink (a.node - 1)]
  | .move _ _ => if a.node = 0 then [] else [vertical (a.node - 1), farLink (a.node - 1) 0]
  | act => (act.touches.head?.map (pathTo a.node)).getD []

/-- PostWrite and the posting of a read (R173): a write raises its node's count for the home and carries the clock. Its request sets out
for the home (R50). -/
def State.post (s : State) (a : Access) : State :=
  let s := if a.act.writes then
      { s with clk := SMap.put 0 s.clk (clkKey a.node a.node a.home) (SMap.get 0 s.clk (clkKey a.node a.node a.home) + 1) }
    else s
  let t : State := { s with posted := s.posted ++ [{ a with tag := s.clock a.node, cls := s.classOf a, hops := a.path }] }.letIn
  if a.path.isEmpty then t.originate a else t
/-- A request passes its arbitration point and arrives at the next, or at its home; a fabric operation that has crossed them all has
reached H. -/
def State.hop (s : State) (id : Nat) : State :=
  let t : State := ({ s with posted := s.posted.map (fun a : Access =>
    if a.id = id then { a with hops := a.hops.tail, arr := none } else a) } : State).letIn
  match s.posted.find? (fun a => decide (a.id = id)) with
  | some a => if a.hops.tail.isEmpty then t.originate a else t
  | none => t

/-- The fences of the present context that hold an ordered event: those recorded in earlier bundles (R178). -/
def Ctx.holding (c : Ctx) : List Nat := c.fences.map FenceSt.id

/-- An ordered event is held while a fence of an earlier bundle is incomplete (R178). -/
def Ctx.holds (c : Ctx) : Bool := !c.fences.isEmpty

/-- An access of the present context, as an ordered event: posted now, or held behind fences. -/
def State.order (s : State) (act : Act) (home : Nat) (owed : Owed) : State :=
  let c := s.cur
  let a : Access := { id := s.seqno, core := s.curCore, ctx := s.curCtx, frond := c.frond, world := s.me.world,
                      token := c.pageToken, node := coreNode s.curCore, home := home, act := act, owed := owed,
                      span := lineStarts act.touches, far := act.isFabric }
  let s := s.bump.updCur (fun x => { x with staged := { x.staged with issued := x.staged.issued ++ [a.id] } })
  if c.holds then s.updCur (fun x => { x with heldev := x.heldev ++ [{ id := a.id, fences := c.holding, ev := .post a }] })
  else s.post a

end Sys2Proof.Machine
end

