-- ==== Sys2Proof/Machine/Operands.lean ====
section
/-! DEFINITION. Every operand form of the slots: vector and queue sources (R154, R185, R354), load destinations, scratchpad and
global addresses (R431), and the checks every slot makes before its own effect (R283 items 6, 7 and 9, R352). -/

namespace Sys2Proof.Machine

/-- The outcome of an instruction. -/
abbrev Out := Host.Outcome State Fault Refusal

/-- What a slot's own effect answers: the state with the effect, or the reason the bundle does not issue. A blocked slot's
state keeps the queue positions it has taken, so that later slots count theirs (R154). -/
abbrev Eff := State × Option Stop

/-- The first trap of a list of reasons, else the first block (R283). -/
def firstStop : List (Option Stop) → Option Stop
  | [] => none
  | none :: r => firstStop r
  | some (.trap c x n) :: _ => some (.trap c x n)
  | some (.block w) :: r =>
    match firstStop r with
    | some (.trap c x n) => some (.trap c x n)
    | _ => some (.block w)

/-- The value of a queue entry; an error entry raises the load fault (R284). -/
def QEntry.take : QEntry → Vec × Option Stop
  | .data v => (v, none)
  | .error va => (0, some (.trap 0x15 va))

/-- A vector or queue source (R154): its value, and the state in which a popping operand has advanced its queue's
position. -/
def takeSrc (s : State) (x : Src) : State × Vec × Option Stop :=
  match x with
  | .v r _ => (s, s.cur.vr r, none)
  | .q r pk =>
    let q := r.toNat
    let pos := SMap.get 0 s.cur.popped q
    let t := if pk then s else s.updCur (fun c => { c with popped := SMap.put 0 c.popped q (pos + 1) })
    if pos + 1 ≤ s.cur.count q then
      let e := (SMap.get [] s.cur.q q).getD pos (.data 0)
      (t, e.take.1, e.take.2)
    else if pos + 1 ≤ s.cur.count q + s.cur.owes q then (t, 0, some (.block (.queues [(q, pos + 1)])))
    else (t, 0, some (.trap 0x05 (BitVec.ofNat 64 q)))

/-- n deliveries asked into a queue (R154): owed, or the queue-overflow trap. -/
def askQueue (s : State) (q n : Nat) : Eff :=
  if s.cur.overflows q n then (s, some (.trap 0x06 (BitVec.ofNat 64 q))) else (s.owe q n, none)

/-- The bank of a physical vector register is asleep (R159). -/
def BankSt.asleep (b : BankSt) : Bool := decide (b.st ≠ .on) || b.clearing.isSome
def Ctx.bank (c : Ctx) (r : Nat) : BankSt :=
  if r < 16 then {} else if r < 32 then c.bank1 else if r < 48 then c.bank2 else c.bank3
def Ctx.asleep (c : Ctx) (r : BitVec 6) : Bool := (c.bank (physReg c.rot r.toNat)).asleep

/-- The physical register of the first named vector register whose bank is asleep (R159). -/
def sleeper (c : Ctx) (i : Instr) : Option Nat :=
  ((vregsOf i).find? (fun r => c.asleep r)).map (fun r => physReg c.rot r.toNat)

/-- The instruction holds a fence of package or fabric scope, or is `halt` (R141, R197, R243, R265); `sa.seal.p` acts as
`fence.pkg` (R267). -/
def raisesAll : Instr → Bool
  | .fence _ .pkg | .fence _ .fab | .halt _ | .saSealP _ _ _ => true
  | _ => false

/-- The instruction is an SA instruction (R257, R265). -/
def isSa : Instr → Bool
  | .saAdd _ _ _ _ _ | .saNrd _ _ _ _ _ _ | .saSax _ _ | .saSealC _ _ _ | .saSealG _ _ _ | .saSealP _ _ _ => true
  | _ => false

/-- The scratchpad address of the XB word of a `cwait` and its mask, for the copy errors it raises (R197, R383). -/
def cwaitBits (c : Ctx) : Instr → Option (Nat × Word)
  | .cwait _ gm off => some (8 * off.toNat, c.gr gm)
  | _ => none

/-- A copy-error record is raised by a `cwait` whose mask includes one of its bits (R197). -/
def copyErrRaised (c : Ctx) (i : Instr) (h : Held) : Bool :=
  raisesAll i ||
    (match cwaitBits c i with
     | some (off, m) => h.bits.any (fun b => decide (off ≤ b.1 ∧ b.1 < off + 8) && m.getLsbD (8 * (b.1 - off) + b.2))
     | none => false)

/-- A stream-accumulator overflow record is raised by the next M instruction (a drain's, R243) or SA instruction (a
fold's, R265), and by wide fences and `halt`. -/
def overflowRaised (i : Instr) (h : Held) : Bool :=
  raisesAll i || (if h.fold then isSa i else decide (i.kind = some .M))

/-- Item 6 of R283: the held record that an instruction with a true guard raises, in the order remote write, copy error,
overflow, then the error of its `sig.wait` read: the cause, the value, the count, and the context without the record. -/
def heldStop (c : Ctx) (i : Instr) : Option (Nat × Word × Word × Ctx) :=
  match c.remote, raisesAll i with
  | some h, true => some (0x10, h.xval, BitVec.ofNat 64 h.count, { c with remote := none })
  | _, _ =>
    match c.copyErr.filter (copyErrRaised c i) with
    | some h => some (0x0C, h.xval, BitVec.ofNat 64 h.count, { c with copyErr := none })
    | none =>
      match c.overflow.filter (overflowRaised i) with
      | some h => some (0x0F, h.xval, BitVec.ofNat 64 h.count, { c with overflow := none })
      | none =>
        match i, c.sig with
        | .sigWait _ _ _ _, some (.error va) => some (0x15, va, 0, { c with sig := none })
        | _, _ => none

/-- Register results an instruction puts in flight (R289): the stage predicates of `lsetup` and `lend` and the system
registers are none. -/
def resultsOf (i : Instr) : Nat :=
  match i with
  | .lsetup _ _ _ _ | .lend _ => 0
  | i => ((destsOf i).filter (fun d => decide (d.1 ≤ 4))).length

/-- Results in flight and held of a context (R289). -/
def Ctx.inFlight (c : Ctx) : Nat := (c.inflight.filter (fun r => r.old.isNone)).length + c.record.length

/-- The end of a slot's attempt: its effect, a trap taken, or a block. -/
def settle (s : State) (e : Eff) : Out :=
  match e.2 with
  | none => .next e.1
  | some (.trap cause x n) => .next (s.takeTrap s.curCore s.curCtx cause x n)
  | some (.block w) =>
    .next (e.1.updCore s.curCore (fun x =>
      (x.updCtx s.curCtx (fun t => { t with st := .blocked, wait := w :: t.wait,
                                            since := if t.wait = [] then s.gtick else t.since })).leave s.curCtx s.now))

/-- ONE SLOT. In the order of R283: a held record the instruction raises, a bank asleep whatever the guard (R159), the
in-flight limit, then the instruction's own checks and effect. A false guard has no effect (R352). -/
def runSlot (s : State) (i : Instr) (p : BitVec 4) (body : State → Eff) : Out :=
  match (if s.cur.pr p then heldStop s.cur i else none) with
  | some (cause, x, n, c) => .next ((s.updCur (fun _ => c)).takeTrap s.curCore s.curCtx cause x n)
  | none =>
    match sleeper s.cur i with
    | some r => .next (s.takeTrap s.curCore s.curCtx 0x04 (BitVec.ofNat 64 r) 0)
    | none =>
      if s.cur.pr p then
        if 256 < s.cur.inFlight + resultsOf i then .next (s.takeTrap s.curCore s.curCtx 0x16 256 0)
        else settle s (body s)
      else .next s

/-- A scalar slot: it names no vector register, raises no held record and no trap of its own but the in-flight limit
(R372). -/
def runScalar (s : State) (p : BitVec 4) (n : Nat) (body : State → State) : Out :=
  if s.cur.pr p then
    if 256 < s.cur.inFlight + n then .next (s.takeTrap s.curCore s.curCtx 0x16 256 0)
    else .next (body s)
  else .next s

/-- Result count of a destination gD (R152, R289). -/
def countG (rd : BitVec 6) : Nat := if rd = 0 then 0 else 1
def countP (rd : BitVec 4) : Nat := if rd = 0 then 0 else 1

/-- The scratchpad check of R431: an exact address, aligned, every byte below the buffer's size. -/
def spadAddr (s : State) (b : Buf) (a align n : Nat) : Nat × Option Stop :=
  if a % align = 0 ∧ a + n ≤ bufSize b then (bufAddr s.curCore b a, none)
  else (0, some (.trap 0x09 (BitVec.ofNat 64 (bufNum b * 0x100000000 + a % 0x100000000))))

/-- The translation of an access at issue (R134, R431), with the core's own windows. -/
def globalAddr (s : State) (a : Word) (align n : Nat) (p : Perm) (timed : Bool) : Nat × Option Stop :=
  if a.toNat % align ≠ 0 then (0, some (.trap 0x0A a))
  else
    match translate s.me.windows a.toNat n p with
    | some pa => if timed && !s.timedReach s.curCore pa n then (0, some (.trap 0x0A a)) else (pa, none)
    | none => (0, some (.trap 0x0A a))

/-- Sign extension of a field. -/
def sx {n : Nat} (x : BitVec n) : Word := x.signExtend 64
/-- Zero extension of a field. -/
def zx {n : Nat} (x : BitVec n) : Word := x.setWidth 64

end Sys2Proof.Machine
end

