-- ==== Sys2Proof/Machine/Fetch.lean ====
section
/-! DEFINITION. The instruction store, the resident page directory and fetch (14 R297 to R310). -/

namespace Sys2Proof.Machine

/-- A syllable of a frame of the instruction store (R297). -/
def Core.syl (x : Core) (frame o : Nat) : Syllable := SMap.get 0 x.istore (1024 * frame + o)

/-- Header fields of the version whose base frame is `base` (R300, R301, R303). -/
def Core.pageTag (x : Core) (base : Nat) : BitVec 32 := x.syl base 1
def Core.pageLen (x : Core) (base : Nat) : Nat := (x.syl base 2).toNat % 256
def Core.pageNcont (x : Core) (base : Nat) : Nat := (x.syl base 2).toNat / 256 % 4
def Core.pageLcd (x : Core) (base : Nat) : Bool := bit (x.syl base 2) 16
def Core.pagePfd (x : Core) (base : Nat) : Bool := bit (x.syl base 2) 17

/-- A syllable offset of a version: base frame, then continuation frames (R301). -/
def Core.pageSyl (x : Core) (base o : Nat) : Syllable :=
  if o < 1024 then x.syl base o else x.syl ((x.syl base (2 + o / 1024)).toNat % 64) (o % 1024)

/-- A landing table entry (R302). -/
structure Landing where
  off : Nat
  ent : Bool
  ret : Bool
  loop : Bool
  deriving DecidableEq, Repr

def landingOf (w : Syllable) : Landing := { off := w.toNat % 65536, ent := bit w 16, ret := bit w 17, loop := bit w 18 }
def Core.landing (x : Core) (base i : Nat) : Landing := landingOf (x.syl base (8 + i))
/-- The landing is used and admits an entry of a kind (R302, R305). -/
def Landing.admits (l : Landing) (kind : Nat) : Bool :=
  if kind = 3 then l.ret else if kind = 2 then l.ent || l.loop else l.ent

/-- The valid base frame of a page's current version (R298). -/
def Core.current (x : Core) (page : Nat) : Option Nat :=
  (x.dir.find? (fun e => e.2.v && !e.2.cont && e.2.cur && decide (e.2.page = page))).map Prod.fst

/-- Contexts of the core that pin the version at a base frame (R309). -/
def Core.pins (x : Core) (base : Nat) : Nat :=
  (x.ctxs.filter (fun e => decide (e.2.st ≠ .idle) &&
    (match e.2.point with | .inside _ b _ _ => decide (b = base) | .entry _ _ _ => false))).length

/-- Where sequential fetch goes from a bundle boundary (R304). -/
inductive Seek
  | bundle (off : Nat)
  /-- A nonzero syllable with S = 0. -/
  | bad (off : Nat)
  /-- Beyond packet LEN − 1: fall-through. -/
  | beyond
  deriving DecidableEq, Repr

/-- Fetch passes over padding, packet by packet (R304). -/
def Core.seek (x : Core) (base : Nat) : Nat → Nat → Seek
  | 0, _ => .beyond
  | fuel + 1, o =>
    if x.pageLen base ≤ o / 32 then .beyond
    else if bit (x.pageSyl base o) 31 then .bundle o
    else if x.pageSyl base o = 0#32 then x.seek base fuel (32 * (o / 32 + 1))
    else .bad o

/-- Packets of a page at most (R301), with one for the end. -/
def seekFuel : Nat := 130

/-- The bundle at an offset lies within its packet (R304). -/
def Core.bundleAt (x : Core) (base o : Nat) : Except Nat Bundle :=
  decodeBundle (x.pageSyl base o) ((List.range 18).map (fun i => x.pageSyl base (o + 1 + i))) (32 - o % 32)

/-- What the body of a counted loop holds, found as sequential fetch would (R277): bundles found, whether the walk met the
page's end, and whether one of them is a landing. -/
def Core.walkBody (x : Core) (base : Nat) : Nat → Nat → Bool × Bool
  | 0, _ => (false, false)
  | n + 1, o =>
    match x.seek base seekFuel o with
    | .bad _ => (false, false)
    | .beyond => (true, false)
    | .bundle b =>
      let h := x.pageSyl base b
      if 32 - b % 32 < bundleLen h then (false, false)
      else
        let r := x.walkBody base n (b + bundleLen h)
        (r.1, r.2 || bit h 19)

/-- The first bundle of a loop body: where fetch goes after the present bundle. -/
def Core.bodyFirst (x : Core) (base o : Nat) : Nat :=
  match x.seek base seekFuel o with | .bundle b => b | .bad b => b | .beyond => o

/-- The tag of a pinned version lets its context go on (R310). -/
def pinnedOk (lcd pfd : Bool) (have_ want : BitVec 32) : Bool :=
  decide (fld have_ 0 16 = fld want 0 16) &&
  (decide (fld have_ 16 8 = fld want 16 8) || !lcd) &&
  (decide (fld have_ 24 8 = fld want 24 8) || (!lcd && !pfd))

/-- The entry checks 1 to 5 of R307: the base frame and the bundle's offset, or the trap. -/
def State.enter (s : State) (c page idx kind : Nat) : Except (Nat × Word) (Nat × Nat) :=
  let x := s.core c
  match x.current page with
  | none => .error (0x11, BitVec.ofNat 64 page)
  | some base =>
    if x.pageTag base ≠ s.tag c then .error (0x12, (x.pageTag base).setWidth 64)
    else if 24 ≤ idx ∨ !(x.landing base idx).admits kind then .error (0x14, BitVec.ofNat 64 (page * 0x1000000 + idx * 0x10000))
    else
      let o := (x.landing base idx).off
      if !bit (x.pageSyl base o) 31 then .error (0x02, BitVec.ofNat 64 o)
      else if !bit (x.pageSyl base o) 19 then .error (0x14, BitVec.ofNat 64 (page * 0x1000000 + idx * 0x10000))
      else .ok (base, o)

/-- The page, and the landing last entered, of a point. -/
def Point.page : Point → Nat
  | .inside page _ _ _ => page
  | .entry page _ _ => page

/-- The present bundle lies in the current version of its page (R373). -/
def Core.inCurrent (x : Core) : Point → Bool
  | .inside page base _ _ => decide (x.current page = some base)
  | .entry _ _ _ => true

/-- The present bundle's length in syllables. -/
def Core.lenAt (x : Core) (base o : Nat) : Nat := bundleLen (x.pageSyl base o)

end Sys2Proof.Machine
end

