-- ==== Sys2Proof/Machine/Frond.lean ====
section
/-! DEFINITION. Fronds: their contexts, aborts and slips (04 R96, 05 R119, 06 R136, R143), freezes (R36, R46), and barrier
groups (R122 to R124). -/

namespace Sys2Proof.Machine

/-- The contexts of a frond, those that have ended their item too: core and context. -/
def State.frondCtxs (s : State) (f : Nat) : List (Nat × Nat) :=
  (s.frond f).cores.flatMap (fun c => ((s.core c).ctxs.filter (fun e => s.keeps f c e.1)).map
    (fun e => (c, e.1)))

/-- The event is the access of a chunk of a copy, or the move of a `mig`. -/
def OrdEv.ofChunk (e : OrdEv) (copy i : Nat) : Bool :=
  match e with
  | .post a =>
    (match a.owed with
     | .chunk c j _ _ => decide (c = copy ∧ j = i)
     | .mig c => decide (c = copy ∧ i = 0)
     | _ => false)
  | _ => false
/-- Chunks whose accesses are discarded while they are held are no part of their copies any more; a chunk of which others have been posted
fails (R178). -/
def Ctx.dropHeld (x : Ctx) : Ctx :=
  let held (y : CopySt) (h : Chunk) : Nat := (x.heldev.filter (fun e => e.ev.ofChunk y.id h.i)).length
  { x with
    heldev := []
    copies := (x.copies.map (fun y : CopySt =>
      { y with chunks := (y.chunks.filter (fun h => decide (held y h = 0 ∨ held y h < h.waiting))).map (fun h : Chunk =>
          { h with waiting := h.waiting - held y h, failed := h.failed || decide (held y h ≠ 0) }) })).filter (fun y => !y.chunks.isEmpty) }
/-- A context stops for good: results in flight, pending-write records, held events, held records and deliveries owed are
discarded (R96, R184, R295, R459). Untimed copies already issued complete. -/
def State.stopCtx (s : State) (c k : Nat) : State :=
  (s.idle c k).updCtx c k (fun t =>
    { t.dropHeld with
      inflight := [], record := [], ywrites := [], fences := [], remote := none, copyErr := none, overflow := none, owed := []
      saving := false, restoring := false })

/-- The first call in the queue, whose run it is that an engine holds. -/
def Engine.nextCall (e : Engine) : Option CallEnt := e.calls.find? (fun x => match x.kind with | .call _ _ _ => true | _ => false)
/-- First cycle at which no micro-op started so far is in progress. -/
def UnitTimes.idleAt (t : UnitTimes) : Nat :=
  Max.max t.last (Max.max (Max.max t.aFree t.bFree) (Max.max t.arrFree t.drFree))
/-- Queued engine work of a context that has not started is discarded (R252). -/
def Engine.dropCalls (e : Engine) (k : Nat) : Engine :=
  { e with calls := e.calls.filter (fun x => x.ctx ≠ k), run := match e.nextCall with
                                                               | some x => if x.ctx = k then none else e.run
                                                               | none => none }

/-- Deliveries to queues still on their way for a context are discarded (R459). -/
def State.dropDeliveries (s : State) (c k : Nat) : State :=
  { s with calendar := s.calendar.filter (fun t =>
      match t.act with
      | .deliver k' _ _ => decide (¬ (t.core = c ∧ k' = k))
      | .sample _ _ (.result k' _) => decide (¬ (t.core = c ∧ k' = k))
      | _ => true) }

/-- The status and AUX of an abort (R92): ABORT is 0x10. -/
def abortStatus (cls detail : Nat) : Nat × Nat := (0x10, cls * 256 + detail)

/-- PENDING children of an aborted frond become FREE and complete with ABORT, AUX 0x0600 (R135). -/
def State.orphans (s : State) (f : Nat) : State :=
  let l := (s.hub.slots.filter (fun e => decide (e.2.st = .pending ∧ e.2.kind = .child ∧ e.2.parentFrond = f))).map Prod.fst
  l.foldl (fun s e =>
    { s.updSlot e Entry.freed with
      packets := s.packets.map (fun p : Packet =>
        if p.entry = some e then { p with st := .done, status := 0x10, aux := 0x0600, entry := none } else p) }) s

/-- An uncorrectable error aborts a frond in steps 2 or 3 of a checkpoint (R109, R143): the save blocks of its cores are sent as zero. -/
def State.zeroBlocks (s : State) (cores : List Nat) (why : Nat × Nat) : State :=
  s.updHub (fun h => { h with ckpt := h.ckpt.map (fun q =>
    if why.1 = 0x10 ∧ why.2 < 0x100 ∧ (q.step = 2 ∨ q.step = 3) then { q with zeroed := q.zeroed ++ cores } else q) })
/-- Aborting a frond, steps 1 and 2 of R96 (R136): each of its contexts stops; its work will complete with the status and
AUX given. A frond already aborted, ended or unbound is left as it is (R143). -/
def State.abortFrond (s : State) (f : Nat) (why : Nat × Nat) : State :=
  let fr := s.frond f
  if !fr.bound || fr.ended || fr.abort.isSome then s
  else
    let s := (s.frondCtxs f).foldl (fun s ck =>
      ((s.stopCtx ck.1 ck.2).dropDeliveries ck.1 ck.2).updCore ck.1 (fun x =>
        { x with engine := x.engine.dropCalls ck.2, armedAt := none })) s
    -- a decrement in flight is dropped (R143); its home still counts it
    let s := { s with posted := s.posted.map (fun a : Access =>
      if a.frond = f ∧ a.done.isNone then (match a.act with | .dec _ _ => { a with act := .void } | _ => a) else a) }
    (s.updFrond f (fun fr => { fr with abort := some why, endedAt := s.now, pending := [], running := [] })).zeroBlocks fr.cores why |>.orphans f

/-- A slip (R96): the context stops, and the frond notes the core and the landing token; other cores of the frond issue what they
have scheduled for the same cycle. -/
def State.slip (s : State) (c k : Nat) : State :=
  let tok := (s.ctx c k).point.token &&& ~~~ 0xFFFF
  (s.updCore c (fun x => (x.updCtx k (fun t => { t with st := .trapped })).leave k s.now)).updFrond (s.ctx c k).frond
    (fun fr => { fr with slips := fr.slips ++ [(c, tok)] })
/-- The slips of a cycle (R96): the frond stops and its packet completes with SLIP (0x0F); the manager is told the lowest core, the
domain cycle, the landing token and how many others slipped. -/
def State.endSlip (s : State) (f : Nat) : State :=
  let l := (s.frond f).slips
  let t := s.updFrond f (fun fr => { fr with slips := [] })
  match l.find? (fun x => l.all (fun y => decide (x.1 ≤ y.1))) with
  | none => t
  | some x => (t.abortFrond f (0x0F, 0)).tell (.slip x.1 (s.dtime f) x.2 (l.length - 1))

/-- Every time of the units (R240). -/
def UnitTimes.map (t : UnitTimes) (f : Nat → Nat) : UnitTimes :=
  { last := f t.last, aFree := f t.aFree, bFree := f t.bFree, arrFree := f t.arrFree, drFree := f t.drFree,
    as0Ready := f t.as0Ready, as1Ready := f t.as1Ready, bs0Ready := f t.bs0Ready, bs1Ready := f t.bs1Ready,
    as0Read := f t.as0Read, as1Read := f t.as1Read, bs0Read := f t.bs0Read, bs1Read := f t.bs1Read,
    ac0Step := f t.ac0Step, ac1Step := f t.ac1Step, ac0Load := f t.ac0Load, ac1Load := f t.ac1Load,
    ac0Drain := f t.ac0Drain, ac1Drain := f t.ac1Drain, gone := f t.gone, landing := f t.landing, side := f t.side,
    any := t.any }

/-- The last write cycle of an `mprog` whose writes are still to come (R247). -/
def State.mprogLast (s : State) (c old : Nat) : Nat :=
  let l := s.calendar.filterMap (fun t => match t.act with | .mprog _ _ => if t.core = c then some t.due else none | _ => none)
  if l.isEmpty then old else l.foldl Max.max 0
/-- A freeze of a frond by 128 cycles (R36, R46, R143, R252, R272): every landing of its own moves with its domain time, the calls,
micro-ops and writes of its own in the engines of its cores too, and a second freeze follows directly. Nothing of another frond
moves. -/
def State.freeze (s : State) (f : Nat) : State :=
  let shift (n : Nat) : Nat := if s.now < n then n + freezeCycles else n
  -- what an entry of the engine's queue does first comes two cycles after its issue
  let issued (n : Nat) : Nat := if s.now < n + 2 then n + freezeCycles else n
  let s := s.updFrond f (fun fr =>
    { fr with frozen := fr.frozen + freezeCycles, freezeEnd := Max.max s.now fr.freezeEnd + freezeCycles,
              freezes := fr.freezes ++ [(Max.max s.now fr.freezeEnd, Max.max s.now fr.freezeEnd + freezeCycles)] })
  let s := { s with calendar := s.calendar.map (fun t : Timed => if t.frond = f then { t with due := shift t.due } else t) }
  (s.frond f).cores.foldl (fun s c =>
    s.updCore c (fun x =>
      { x with
        ctxs := x.ctxs.map (fun e : Nat × Ctx =>
          if s.keeps f c e.1 then
            (e.1, { e.2 with inflight := e.2.inflight.map (fun r => { r with due := shift r.due }),
                             record := e.2.record.map (fun r => { r with ready := shift r.ready }),
                             bank1 := { e.2.bank1 with clearing := e.2.bank1.clearing.map shift },
                             bank2 := { e.2.bank2 with clearing := e.2.bank2.clearing.map shift },
                             bank3 := { e.2.bank3 with clearing := e.2.bank3.clearing.map shift } })
          else e)
        landPort := x.landPort.map (fun h : Nat × Nat => if h.2 = f then (shift h.1, h.2) else h)
        readPort := x.readPort.map (fun h : Nat × Nat => if h.2 = f then (shift h.1, h.2) else h)
        nextIssue := if x.running.any (fun k => decide ((x.ctx k).frond = f)) then shift x.nextIssue else x.nextIssue
        engine := { x.engine with
          mprogEnd := s.mprogLast c x.engine.mprogEnd
          calls := x.engine.calls.map (fun e : CallEnt =>
            if e.frond = f then { e with issue := issued e.issue, due := e.due.map shift, base := shift e.base } else e)
          times := if x.engine.owner = f then x.engine.times.map shift else x.engine.times } })) s
/-- The position pn of field fn (R122): the widths of fields n to 5. -/
def fieldsFrom (widths : List Nat) (n : Nat) : Nat := (widths.drop n).foldl (· + ·) 0
/-- The widths in `wlay` (R126). -/
def wlayWidths (w : Word) : List Nat := (List.range 6).map (fun i => (w.toNat / 2 ^ (6 * i)) % 64)
/-- Two items agree above level n (R122). -/
def agree (widths : List Nat) (n x y : Nat) : Bool :=
  decide (n = 0) || decide (x / 2 ^ fieldsFrom widths n = y / 2 ^ fieldsFrom widths n)
/-- Key of an item's arrivals at a level. -/
def arriveKey (wid lev : Nat) : Nat := 8 * wid + lev
/-- A range of identifiers holds one that agrees with x above level n. -/
def rangeAgrees (widths : List Nat) (n x : Nat) (r : Nat × Nat) : Bool :=
  let u := 2 ^ fieldsFrom widths n
  decide (0 < r.2) && (decide (n = 0) || decide (r.1 / u ≤ x / u ∧ x / u ≤ (r.1 + r.2 - 1) / u))
/-- The barrier of level n opens for the k-th arrival of item x (R123): every item of its group has arrived k times at that
level or has ended; no item of the group is still to start. -/
def Frond.opens (fr : Frond) (n x k : Nat) : Bool :=
  let w := wlayWidths fr.wlay
  fr.running.all (fun y => !agree w n x y || decide (k ≤ SMap.get 0 fr.arrivals (arriveKey y n))) &&
  !fr.pending.any (rangeAgrees w n x)

end Sys2Proof.Machine
end

