-- ==== Sys2Proof/Machine/Commit.lean ====
section
/-! DEFINITION. What a bundle does besides its slots: quiet points (14 R308), fences (08 R176, R177), bank states (07 R159),
pending Y writes (09 R189), staged changes, the end of an item (17 R389), and the bundles that hold no slot or no legal
encoding. -/

namespace Sys2Proof.Machine

/-! ### Scopes of fences (R177) -/

/-- The byte's home lies in the scope of a fence of a core. -/
def inScope (sc : Scope) (c pa : Nat) : Bool :=
  match sc with
  | .c => match region pa with | .spad d _ => decide (d = c) | _ => false
  | .d =>
    match region pa with
    | .spad d _ => decide (coreDie d = coreDie c)
    | .layer d _ => decide (d = coreDie c)
    | _ => false
  | .col => decide (homeNode pa = coreNode c)
  | .pkg | .fab => true

/-- Addresses a timed access touches; deliveries and engine-store writes are no accesses, and the read of a copy chunk is part of
the access that its landing performs (R169). -/
def TAct.touches (core : Nat) : TAct → List Nat
  | .write _ cells => cells.map Prod.fst
  | .atom _ _ pa _ _ _ _ => [pa]
  | .sample pa _ _ => [pa]
  | .chunkRead _ _ => []
  | .chunkLand cells => cells.map Prod.fst
  | .mcast _ cells => cells.map Prod.fst
  | .drainCb cells => cells.map Prod.fst
  | .restore _ _ _ _ _ | .evict _ _ _ | .drainSb _ _ _ _ _ _ | .fold _ _ _ _ => [bufAddr core .sb 0]
  | .gsum _ _ _ _ => [bufAddr core .xb 0]
  | .deliver _ _ _ | .mprog _ _ => []

/-- A timed action touches an address in the scope of a fence of a core. -/
def Timed.inScope (t : Timed) (sc : Scope) (c : Nat) : Bool := (t.span ++ t.act.touches c).any (Sys2Proof.Machine.inScope sc c)
/-- An untimed access is in the scope of a fence, until its response has come, also where its home has refused it: a fabric
operation in `fab` alone, a page move in `pkg` and `fab` (log 71). -/
def Access.inScope (a : Access) (sc : Scope) : Bool :=
  if a.far then decide (sc = .fab)
  else
    match a.owed with
    | .mig _ => decide (sc = .pkg ∨ sc = .fab)
    | _ => (a.span ++ a.act.touches).any (Sys2Proof.Machine.inScope sc a.core)

/-- The accesses that a context has made for a frond, are not yet performed and lie in a scope (R176): by the numbers of their requests. A `mig`
is performed when its page has moved and its bit is set (R205); calls of a routine access the core's buffers, the other entries of the
engine's queue nothing (R169). -/
def State.unperformed (s : State) (c k fr : Nat) (sc : Scope) : List Nat :=
  let x := s.ctx c k
  ((s.calendar.filter (fun t => decide (t.core = c ∧ t.ctx = k ∧ t.frond = fr) && t.inScope sc c)).map Timed.ord) ++
  ((s.posted.filter (fun a => decide (a.core = c ∧ a.ctx = k) && a.inScope sc)).map Access.id) ++
  (x.heldev.filterMap (fun h => match h.ev with | .post a => if a.inScope sc then some a.id else none | _ => none)) ++
  (if sc = .pkg ∨ sc = .fab then (x.copies.filter (fun y => y.mig.isSome)).map CopySt.id else []) ++
  (((s.core c).engine.calls.filter (fun e => decide (e.ctx = k) && (match e.kind with | .call _ _ _ => true | _ => false))).map CallEnt.id)

/-- A request still has an access that is not performed, or an untimed copy a chunk that has not landed. -/
def State.pendingReq (s : State) (c k n : Nat) : Bool :=
  s.calendar.any (fun t => decide (t.ord = n) && !(t.span ++ t.act.touches c).isEmpty) ||
  s.posted.any (fun a => decide (a.id = n)) ||
  (s.ctx c k).heldev.any (fun h => decide (h.id = n)) || (s.ctx c k).copies.any (fun y => decide (y.id = n)) ||
  (s.core c).engine.calls.any (fun e => decide (e.id = n))

/-- The fences of the bundle are appended to the context's list (R176). -/
def State.addFences (s : State) : List Scope → State
  | [] => s
  | sc :: r =>
    ((s.updCur (fun c => { c with fences := c.fences ++
      [{ id := s.seqno, scope := sc, set := s.unperformed s.curCore s.curCtx s.cur.frond sc }] })).bump).addFences r

/-! ### Banks (R159) -/

/-- A result for the bank is in flight. -/
def Ctx.bankBusy (c : Ctx) (k : Nat) : Bool :=
  (c.inflight ++ c.record).any (fun r => decide (r.file = .v) && r.old.isNone && inBank k r.reg)
/-- A bank enters a state; OFF loses the contents. -/
def Ctx.enterBank (c : Ctx) (k : Nat) (w : Bank) : Ctx :=
  let c := c.setBank k { st := w, clearing := none, next := w }
  if w = .off then c.loseBank k else c
/-- A `vbank` field written by the bundle issued at cycle t (R159). Of a bank that is clearing, OFF ends the clearing, and RETAIN and ON change the
state it will enter and keep its first cycle; of one that is ON and still to leave, the new value replaces the old (log 73). -/
def Ctx.moveBank (c : Ctx) (k t : Nat) (w : Bank) : Ctx :=
  let b := c.bankOf k
  match b.st, w with
  | .on, .on => c.setBank k { b with next := .on }
  | .on, w => if c.bankBusy k then c.setBank k { b with next := w } else c.enterBank k w
  | .off, .off => c.setBank k {st := .off, next := .off }
  | .off, w => c.setBank k { b with next := w, clearing := some (b.clearing.getD (t + clearCycles + 1)) }
  | .retain, w => c.enterBank k w
/-- A bank whose last result has landed enters its pending state. -/
def Ctx.settleBank (c : Ctx) (k : Nat) : Ctx :=
  let b := c.bankOf k
  if b.st = .on ∧ b.next ≠ .on ∧ !c.bankBusy k then
    let x := c.enterBank k b.next
    x.setBank k { x.bankOf k with left := some (c.v.filter (fun e => inBank k e.1)) }
  else c
def Ctx.settleBanks (c : Ctx) : Ctx := ((c.settleBank 1).settleBank 2).settleBank 3
/-- Clearing ends (R159): the bank enters its new state reading zero. -/
def Ctx.wakeBank (c : Ctx) (k : Nat) : Ctx :=
  let b := c.bankOf k
  (c.loseBank k).setBank k { st := b.next, clearing := none, next := b.next }
/-- The state a `vbank` field names. -/
def bankCode (x : BitVec 2) : Bank := if x = 0 then .off else if x = 1 then .retain else .on
/-- A `vbank` value applied (R158, R159). -/
def Ctx.setVbank (c : Ctx) (t : Nat) (v : Word) : Ctx :=
  ((c.moveBank 1 t (bankCode (fld v 2 2))).moveBank 2 t (bankCode (fld v 4 2))).moveBank 3 t (bankCode (fld v 6 2))

/-! ### The end of a bundle -/

/-- One Y write applied to its record: the fields of its mask. -/
def Ctx.applyY (c : Ctx) (y : YWrite) : Ctx :=
  { c with y := SMap.put 0 c.y y.reg ((SMap.get 0 c.y y.reg &&& ~~~ y.mask) ||| (y.value &&& y.mask)) }
/-- A bundle passes (R189): a write issued in bundle n is in force for bundle n + 3. -/
def Ctx.passY (c : Ctx) : Ctx :=
  let l := c.ywrites.map (fun y => { y with left := y.left - 1 })
  (l.filter (fun y => decide (y.left = 0))).foldl Ctx.applyY { c with ywrites := l.filter (fun y => decide (y.left ≠ 0)) }

/-- Queue positions the bundle has taken are popped, and the head moves past them (R154, R292). -/
def Ctx.popQueues (c : Ctx) : Ctx :=
  { c with
    q := c.popped.foldl (fun m e => SMap.put [] m e.1 ((SMap.get [] m e.1).drop e.2)) c.q
    qhead := c.popped.foldl (fun m e => SMap.put 0 m e.1 ((SMap.get 0 m e.1 + e.2) % 8)) c.qhead }

/-- The point after a bundle that transfers nowhere. -/
def Point.after (p : Point) (len : Nat) : Point :=
  match p with
  | .inside pg b l o => .inside pg b l (o + len)
  | .entry pg i k => .entry pg i k

/-- Staged changes take effect (R166, R277, R278, R371), and the attempts of the bundle are over: the next `bar.l` makes an arrival of its
own and the next `sig.wait` a read of its own, also where the guard has become false since the first attempt (R376, R382). -/
def Ctx.commit (c : Ctx) (now len : Nat) : Ctx :=
  let g := c.staged
  let c := c.popQueues.passY
  let lp := match g.loop with
    | some l => l
    | none => if c.loop.active then { c.loop with pos := c.loop.pos + 1 } else c.loop
  let c := { c with
    ltrip := g.ltrip.getD c.ltrip
    lpass := g.lpass.getD c.lpass
    lrot := g.lrot.getD c.lrot
    p := match g.stagep with | some b => (c.p &&& 0xFF) ||| (b.setWidth 16 <<< 8) | none => c.p
    loop := lp
    xcause := g.xcause.getD c.xcause
    xval := g.xval.getD c.xval
    xtok := g.xtok.getD c.xtok
    xcnt := g.xcnt.getD c.xcnt
    point := g.next.getD (c.point.after len)
    hold := g.hold
    staged := {}
    popped := []
    asked := []
    wait := []
    sig := none
    arrived := false }
  match g.vbank with | some v => c.setVbank now v | none => c

/-- THE END OF AN ITEM (R389, R125): the context becomes IDLE and its frond counts the item as ended. -/
def State.endItem (s : State) (c k : Nat) : State :=
  match (s.ctx c k).item with
  | none => s.idle c k
  | some it =>
    (s.idle c k).updFrond it.frond (fun fr =>
      { fr with running := fr.running.erase it.wid.toNat
                halted := if fr.kind = .almanac then fr.halted ++ [c] else fr.halted })

/-- A BUNDLE COMMITS (R286): its pops, fences and staged changes; the core may issue again in the next cycle. -/
def State.finish (s : State) (len : Nat) : State :=
  let g := s.cur.staged
  let s := s.addFences g.fences
  let s := s.updCur (fun c => c.commit s.now len)
  let s := s.updCore s.curCore (fun x => { x with nextIssue := s.now + 1 })
  if g.halt then s.endItem s.curCore s.curCtx else s

/-! ### Quiet points, empty bundles and illegal encodings -/

/-- Results in flight at a quiet point (R308). -/
def Ctx.flying (c : Ctx) (now : Nat) : Nat :=
  (c.inflight.filter (fun r => decide (now < r.due))).length + c.record.length + c.ywrites.length

/-- A bundle without slots (R351): it only passes; with QT it is a quiet point. -/
def execEmptyBundle (_lnd qt : Bool) (s : State) : Out :=
  let n := s.cur.flying s.now
  if qt && decide (n ≠ 0) then .next (s.takeTrap s.curCore s.curCtx 0x07 (BitVec.ofNat 64 n) 0)
  else .next (s.finish 1)

/-- The illegal-encoding trap (R362, R363): `xval` holds the slot index, 15 for the header. -/
def execIllegalEncoding (slotIndex : Nat) (s : State) : Out :=
  .next (s.takeTrap s.curCore s.curCtx 0x01 (BitVec.ofNat 64 (slotIndex % 16)) 0)

end Sys2Proof.Machine
end

