-- ==== Sys2Proof/Machine/Errors.lean ====
section
/-! DEFINITION. Errors, containment and event reporting (06 R136 to R143, R461). -/

namespace Sys2Proof.Machine

/-! ### Zeroising, fencing and containment -/

/-- Fronds bound and not ended that hold the core. -/
def State.frondsOn (s : State) (c : Nat) : List Nat :=
  (s.fronds.filter (fun e => e.2.bound && !e.2.ended && e.2.abort.isNone && e.2.cores.contains c)).map Prod.fst

/-- The parts of a core that R164 zeroises with its scratchpad (R231, R261, R297), and its contexts. -/
def Core.zeroised (x : Core) : Core :=
  { x with
    ctxs := [], running := none, lastLeft := 3, nextIssue := 0, istore := [], dir := [], cursor := 0, retired := [], engine := {},
    landPort := [], readPort := [], inbound := [], saUndo := [], lastArrival := (0, 0), armedAt := none }
/-- A core is zeroised (R164): its scratchpad reads zero, and what its engines still had to do is discarded (R459). -/
def State.zeroiseCore (s : State) (c : Nat) : State :=
  (({ s with calendar := s.calendar.filter (fun t => decide (t.core ≠ c)) }).zeroise (spadBase c) 0x200000).updCore c
    Core.zeroised

/-- An address lies in the scratchpad of a core. -/
def inSpad (c pa : Nat) : Bool := match region pa with | .spad d _ => decide (d = c) | _ => false
/-- Its engines serve no request (R136): work that needs the core's scratchpad or queues is discarded. A write on its way to
memory, a multicast already sent, and the chunks already read that are bound for memory or another core have left the core
(R184). -/
def State.dropEngineWork (s : State) (c : Nat) : State :=
  { s with calendar := s.calendar.filter (fun t =>
      match t.act with
      | .write 0 _ | .mcast _ _ => true
      | .chunkLand cells => decide (t.core ≠ c) || (!cells.isEmpty && !cells.any (fun x => inSpad c x.1))
      | _ => decide (t.core ≠ c)) }

/-- A fault's containment for a frond (R136, R143): the frond is aborted, or in a freeze as the freeze ends. -/
def State.contain (s : State) (f code : Nat) : State :=
  if s.frozen f then
    s.updFrond f (fun fr => { fr with thawAbort := if fr.thawAbort.isSome then fr.thawAbort else some (abortStatus 0 code) })
  else s.abortFrond f (abortStatus 0 code)

/-- FENCING A CORE (R136): it issues nothing and serves no engine, and every frond with a context on it is aborted. -/
def State.fenceCore (s : State) (c code : Nat) : State :=
  ((s.frondsOn c).foldl (fun s f => s.contain f code) ((s.dropEngineWork c).updCore c (fun x => { x with fenced := true })))

/-- `SCRATCHPAD_CORRECTABLE_ERROR` (R136, R137, R46): logged, and the core, with its fronds, freezes for 128 cycles. -/
def execScratchpadCorrectableError (core : Nat) (addr : Word) (s : State) : Out :=
  let s := (s.logFault (coreDie core) (s.coreFault 0x01 core addr 0)).updCore core (fun x =>
    { x with stands := Max.max s.now x.stands + freezeCycles })
  .next (((s.frondsOn core).filter (fun f => (s.frond f).started)).foldl State.freeze s)

/-- `SCRATCHPAD_UNCORRECTABLE_ERROR` (R136). No context makes the error, so TOKEN is 0 (log 69), as in the entries of kinds 0x01 and 0x08. -/
def execScratchpadUncorrectableError (core : Nat) (addr : Word) (s : State) : Out :=
  .next ((s.logFault (coreDie core) (s.coreFault 0x02 core addr 0)).fenceCore core 0x02)

/-- `COPY_PARITY_ERROR` (R136). -/
def execCopyParityError (core : Nat) (addr : Word) (s : State) : Out :=
  .next ((s.logFault (coreDie core) (s.coreFault 0x08 core addr 0)).fenceCore core 0x08)

/-! ### Uncorrectable reads (R136, R138) -/

/-- The die that an address belongs to. -/
def addrDie (pa : Nat) : Nat :=
  match region pa with
  | .near k _ => 1 + k
  | .layer d _ => d
  | .spad c _ => coreDie c
  | .lpddr f _ | .cxl f _ => 5 + f
  | .unmapped => 0
/-- The code of an uncorrectable read (R136). -/
def readCode (pa : Nat) : Nat :=
  match region pa with
  | .near _ _ => 0x03
  | .layer _ _ => 0x04
  | .spad _ _ => 0x02
  | .lpddr _ _ | .cxl _ _ | .unmapped => 0x05
/-- The checked word of an address: 64 bits (R142). -/
def checkWord (pa : Nat) : Nat := 8 * (pa / 8)
/-- The address fails its check from now on (R138). -/
def State.spoil (s : State) (pa : Nat) : State :=
  if s.faulty.contains (checkWord pa) then s else { s with faulty := s.faulty ++ [checkWord pa] }
/-- The first of the addresses whose check fails. -/
def State.badRead (s : State) (l : List Nat) : Option Nat :=
  if s.faulty.isEmpty then none else l.find? (fun pa => s.faulty.contains (checkWord pa))

/-- A COPY or another packet needed the value: it will complete with ABORT (R136). -/
def State.failPacket (s : State) (id code : Nat) : State :=
  { s with packets := s.packets.map (fun p : Packet =>
      if p.id = id ∧ p.status = 0 then { p with status := 0x10, aux := code, err := true } else p) }

/-- The log entry of a read of a world whose check fails (R139): the source is a core, or H, which is no core and lies on die 0. -/
def State.readFault (s : State) (pa core world : Nat) (token : Word) : LogEnt :=
  if core < 512 then s.coreFault (readCode pa) core (BitVec.ofNat 64 pa) token
  else { kind := readCode pa, world := world, srccore := 0xFFFF, srcdie := 0, addr := BitVec.ofNat 64 pa, token := 0, tick := s.gtick }
/-- A read's check fails (R136, R138, R139): logged at the die of the address, and the frond that needed the value is aborted,
or the packet. `world` is the world of a request that H makes. -/
def State.uncorrectable (s : State) (pa : Nat) (req : Requester) (token : Word) (world : Nat) : State :=
  match req with
  | .ctx core _ frond => (s.logFault (addrDie pa) (s.readFault pa core world token)).contain frond (readCode pa)
  | .packet id => (s.logFault (addrDie pa) (s.readFault pa 512 world 0)).failPacket id (readCode pa)

/-- The access is the requester's, and reads the word. -/
def Access.readsFor (a : Access) (req : Requester) (pa : Nat) : Bool :=
  (match req, a.owed with
   | .packet id, .packet p => decide (p = id)
   | .packet _, _ => false
   | .ctx core ctx frond, _ => decide (a.core = core ∧ a.ctx = ctx ∧ a.frond = frond)) &&
  a.act.serves && a.done.isNone && a.act.touches.any (fun x => decide (checkWord x = checkWord pa))
/-- A timed action of the requester that reads the word. -/
def Timed.readsFor (t : Timed) (req : Requester) (pa : Nat) : Bool :=
  match req, t.act with
  | .ctx core ctx frond, .sample a n _ =>
    decide (t.core = core ∧ t.ctx = ctx ∧ t.frond = frond ∧ a < checkWord pa + 8 ∧ checkWord pa < a + n)
  | .ctx core ctx frond, .chunkRead moves _ =>
    decide (t.core = core ∧ t.ctx = ctx ∧ t.frond = frond) && moves.any (fun m => decide (checkWord m.src = checkWord pa))
  | _, _ => false
/-- A failed access has no effect; a home that counts it still does, and an error response is due (R138, R173). -/
def Access.failed (a : Access) : Access := { a with act := if a.act.writes then .void else .read [], err := true }

/-- The read of a requester fails: none of its bytes is delivered. -/
def State.failRead (s : State) (addr : Word) (req : Requester) : State :=
  let pa := addr.toNat
  let token := match s.posted.find? (fun a => a.readsFor req pa), s.calendar.find? (fun t => t.readsFor req pa), req with
    | some a, _, _ => a.token
    | none, some t, _ => t.token
    | none, none, .ctx core ctx _ => (s.ctx core ctx).pageToken
    | none, none, .packet _ => 0
  let world := match req with
    | .ctx _ _ _ => ((s.posted.find? (fun a => a.readsFor req pa)).map Access.world).getD 0
    | .packet id => ((s.packets.find? (fun p => decide (p.id = id))).map Packet.world).getD 0
  let s := s.spoil pa
  let s := { s with
    calendar := s.calendar.filter (fun t => !t.readsFor req pa)
    posted := s.posted.map (fun a : Access => if a.readsFor req pa then a.failed else a) }
  s.uncorrectable pa req token world

/-- `NEAR_TIER_UNCORRECTABLE` (R136). -/
def execNearTierUncorrectable (addr : Word) (req : Requester) (s : State) : Out := .next (s.failRead addr req)
/-- `LAYER_POOL_UNCORRECTABLE` (R136). -/
def execLayerPoolUncorrectable (addr : Word) (req : Requester) (s : State) : Out := .next (s.failRead addr req)
/-- `FAR_TIER_UNCORRECTABLE` (R136, R59): a poisoned CXL read as well. -/
def execFarTierUncorrectable (addr : Word) (req : Requester) (s : State) : Out := .next (s.failRead addr req)

/-- Whose frond a timed action's read belongs to. -/
def Timed.requester (t : Timed) : Requester := .ctx t.core t.ctx t.frond
/-- Who needs what an access reads. -/
def Access.requester (a : Access) : Requester :=
  match a.owed with
  | .packet id => .packet id
  | _ => .ctx a.core a.ctx a.frond

/-! ### Fault logs (R139, R140, R461) -/

/-- FLSTAT (R139). -/
def Die.flstat (d : Die) : Word := BitVec.ofNat 64 (d.log.length + 256 * d.oldest)
/-- Word w of the log entry at an index: 0 where none is held there. -/
def Die.logWord (d : Die) (i w : Nat) : Word :=
  match d.log[(i + 64 - d.oldest) % 64]? with
  | none => if w = 0 then 0xFFFF0000 else 0
  | some e =>
    if w = 0 then BitVec.ofNat 64 (e.kind + 0x100 * e.world + 0x10000 * e.srccore + 0x100000000 * e.srcdie)
    else if w = 1 then e.addr else if w = 2 then e.token else e.tick
/-- Entries of H's device event queue (R461). -/
def eventQueueSize : Nat := 4096
/-- An event that is an entry of that queue; the others are told to the manager at once. -/
def Event.isEntry : Event → Bool
  | .fault _ => true
  | _ => false
/-- One die's oldest entry goes to H while the queue has room; an empty log starts again at index 0 (R461). -/
def State.forwardDie (s : State) (d : Nat) : State :=
  match (s.die d).log with
  | [] => s
  | e :: r =>
    if (s.hub.queue.filter Event.isEntry).length < eventQueueSize then
      (s.updDie d (fun x => { x with log := r, oldest := if r.isEmpty then 0 else (x.oldest + 1) % 64 })).tell (.fault e)
    else s
/-- A FRAME TICK'S FORWARDING (R461): the device manager has reported and freed 64 entries or more, then H accepts at most one
entry from each die, its own first. -/
def State.forwardLogs (s : State) : State :=
  let n := s.choose (eventQueueSize - 63)
  let s := n.2.updHub (fun h => { h with queue := (h.queue.filter Event.isEntry).drop (64 + n.1) })
  (SMap.keys s.dies).foldl State.forwardDie s

/-- `LOSTEV_CLEAR` (R139): writing 1 to every bit of COUNT clears it. -/
def execLostevClear (die : Nat) (value : Word) (s : State) : Out :=
  .next (if fld value 0 32 = 0xFFFFFFFF#32 then s.updDie die (fun d => { d with lost := 0 }) else s)

/-- Configuration address of a die-local offset. -/
def cfgAddr (die off : Nat) : Word := BitVec.ofNat 64 (0x1000000 * die + off)
/-- A core may be released (R140). -/
def State.mayRelease (s : State) (c : Nat) : Bool :=
  (s.core c).fenced && !(s.die (coreDie c)).log.any (fun e => decide (e.srccore = c)) && decide ((s.die (coreDie c)).lost = 0)
/-- `CORE_RELEASE` (R140): the core is zeroised and returns to its world's grant with no context in use, or the release is
refused and logged. -/
def execCoreRelease (die c : Nat) (s : State) : Out :=
  let k := 16 * (die - 8) + c
  .next (if 8 ≤ die ∧ c < 16 ∧ s.mayRelease k then (s.zeroiseCore k).updCore k (fun x => { x with fenced := false })
    else s.cfgErrorH die (cfgAddr die (0x60 + 8 * c)))

end Sys2Proof.Machine
end

