-- ==== Sys2Proof/Machine/Versions.lean ====
section
/-! DEFINITION. Versions of code pages (14 R300 to R302), and what a version that Freino makes keeps of the loaded one (R310 to R315, 16 R370). -/

namespace Sys2Proof.Machine

/-! ### The header packet (R300 to R302) -/

/-- A landing table entry may be placed (R302). -/
def landingOk (len : Nat) (w : Syllable) : Bool :=
  decide (fld w 19 13 = 0#13) &&
  (if fld w 16 3 = 0#3 then decide (fld w 0 16 = 0#16)
   else decide (32 ≤ (fld w 0 16).toNat ∧ (fld w 0 16).toNat ≤ 32 * len - 1))
/-- Syllables 0 to 31 of a version pass R300 to R302; the continuation frames are judged apart. -/
def headerOk (h : Nat → Syllable) : Bool :=
  let len := (h 2).toNat % 256
  let ncont := (h 2).toNat / 256 % 4
  decide (h 0 = 0x4D464350#32) && decide (2 ≤ len ∧ len ≤ 128) && decide (ncont + 1 = (len + 31) / 32) &&
  decide (fld (h 2) 10 6 = 0#6) && decide (fld (h 2) 18 14 = 0#14) &&
  (List.range 3).all (fun i => if i < ncont then decide (fld (h (3 + i)) 6 26 = 0#26) else decide (h (3 + i) = 0#32)) &&
  decide (h 6 = 0#32) && decide (h 7 = 0#32) && (List.range 24).all (fun i => landingOk len (h (8 + i)))

/-! ### The fields of instructions -/

/-- The fields of a source, and of a load destination, as `instrFields` gives them. -/
def srcFields : Src → List (Nat × Nat)
  | .v r port => [(3, r.toNat), (18, port.toNat)]
  | .q r pk => [(19, 2 * r.toNat + pk.toNat)]
def dstFields : Dst → List (Nat × Nat)
  | .v r => [(11, r.toNat)]
  | .q r => [(17, r.toNat)]
/-- The fields of an instruction in order, each with its kind: a source register of file 0 to 5 (R281); a destination register, at 8 more; 16, NS or NB;
17, a queue that is filled; 19, a queue that is read: twice its number, and one more for a peek; 18, any other value. -/
def instrFields : Instr → List (Nat × Nat)
  | .br p l => [(2, p.toNat), (18, l.toNat)]
  | .brx p ga => [(2, p.toNat), (0, ga.toNat)]
  | .call p l r gd => [(2, p.toNat), (18, l.toNat), (18, r.toNat), (8, gd.toNat)]
  | .lsetup p ga ns nb => [(2, p.toNat), (0, ga.toNat), (16, ns.toNat), (16, nb.toNat)]
  | .lend p => [(2, p.toNat)]
  | .lquit p l => [(2, p.toNat), (18, l.toNat)]
  | .callx p ga r gd => [(2, p.toNat), (0, ga.toNat), (18, r.toNat), (8, gd.toNat)]
  | .ret p ga => [(2, p.toNat), (0, ga.toNat)]
  | .barL p lev => [(2, p.toNat), (18, lev.toNat)]
  | .tkalign p off => [(2, p.toNat), (18, off.toNat)]
  | .childLaunch p gd ga gb => [(2, p.toNat), (8, gd.toNat), (0, ga.toNat), (0, gb.toNat)]
  | .sigDec p ga off k => [(2, p.toNat), (0, ga.toNat), (18, off.toNat), (18, k.toNat)]
  | .sigWait p ga off thr => [(2, p.toNat), (0, ga.toNat), (18, off.toNat), (18, thr.toNat)]
  | .fence p scope => [(2, p.toNat), (18, scope.ctorIdx)]
  | .cwait p gm off => [(2, p.toNat), (0, gm.toNat), (18, off.toNat)]
  | .swait p gg off => [(2, p.toNat), (0, gg.toNat), (18, off.toNat)]
  | .softwareTrap p imm => [(2, p.toNat), (18, imm.toNat)]
  | .halt p => [(2, p.toNat)]
  | .rdsys p gd sys => [(2, p.toNat), (8, gd.toNat), (18, sys.ctorIdx)]
  | .wrsys p ga sys => [(2, p.toNat), (0, ga.toNat), (18, sys.ctorIdx)]
  | .wfe p => [(2, p.toNat)]
  | .saSealC p ga gb => [(2, p.toNat), (0, ga.toNat), (0, gb.toNat)]
  | .saSealG p ga gb => [(2, p.toNat), (0, ga.toNat), (0, gb.toNat)]
  | .saSealP p ga gb => [(2, p.toNat), (0, ga.toNat), (0, gb.toNat)]
  | .add p gd ga gb => [(2, p.toNat), (8, gd.toNat), (0, ga.toNat), (0, gb.toNat)]
  | .sub p gd ga gb => [(2, p.toNat), (8, gd.toNat), (0, ga.toNat), (0, gb.toNat)]
  | .adds p gd ga gb sg => [(2, p.toNat), (8, gd.toNat), (0, ga.toNat), (0, gb.toNat), (18, sg.toNat)]
  | .subs p gd ga gb sg => [(2, p.toNat), (8, gd.toNat), (0, ga.toNat), (0, gb.toNat), (18, sg.toNat)]
  | .mul p gd ga gb => [(2, p.toNat), (8, gd.toNat), (0, ga.toNat), (0, gb.toNat)]
  | .mulh p gd ga gb => [(2, p.toNat), (8, gd.toNat), (0, ga.toNat), (0, gb.toNat)]
  | .mulhn p gd ga gb => [(2, p.toNat), (8, gd.toNat), (0, ga.toNat), (0, gb.toNat)]
  | .div p gd ga gb sg => [(2, p.toNat), (8, gd.toNat), (0, ga.toNat), (0, gb.toNat), (18, sg.toNat)]
  | .rem p gd ga gb sg => [(2, p.toNat), (8, gd.toNat), (0, ga.toNat), (0, gb.toNat), (18, sg.toNat)]
  | .addi p gd ga imm => [(2, p.toNat), (8, gd.toNat), (0, ga.toNat), (18, imm.toNat)]
  | .xori p gd ga imm => [(2, p.toNat), (8, gd.toNat), (0, ga.toNat), (18, imm.toNat)]
  | .andi p gd ga imm => [(2, p.toNat), (8, gd.toNat), (0, ga.toNat), (18, imm.toNat)]
  | .ori p gd ga imm => [(2, p.toNat), (8, gd.toNat), (0, ga.toNat), (18, imm.toNat)]
  | .and p gd ga gb => [(2, p.toNat), (8, gd.toNat), (0, ga.toNat), (0, gb.toNat)]
  | .or p gd ga gb => [(2, p.toNat), (8, gd.toNat), (0, ga.toNat), (0, gb.toNat)]
  | .xor p gd ga gb => [(2, p.toNat), (8, gd.toNat), (0, ga.toNat), (0, gb.toNat)]
  | .shli p gd ga n => [(2, p.toNat), (8, gd.toNat), (0, ga.toNat), (18, n.toNat)]
  | .shri p gd ga n => [(2, p.toNat), (8, gd.toNat), (0, ga.toNat), (18, n.toNat)]
  | .srai p gd ga n => [(2, p.toNat), (8, gd.toNat), (0, ga.toNat), (18, n.toNat)]
  | .roti p gd ga n => [(2, p.toNat), (8, gd.toNat), (0, ga.toNat), (18, n.toNat)]
  | .shl p gd ga gb => [(2, p.toNat), (8, gd.toNat), (0, ga.toNat), (0, gb.toNat)]
  | .shr p gd ga gb => [(2, p.toNat), (8, gd.toNat), (0, ga.toNat), (0, gb.toNat)]
  | .sra p gd ga gb => [(2, p.toNat), (8, gd.toNat), (0, ga.toNat), (0, gb.toNat)]
  | .rot p gd ga gb => [(2, p.toNat), (8, gd.toNat), (0, ga.toNat), (0, gb.toNat)]
  | .bfx p gd ga gb => [(2, p.toNat), (8, gd.toNat), (0, ga.toNat), (0, gb.toNat)]
  | .bfxs p gd ga gb => [(2, p.toNat), (8, gd.toNat), (0, ga.toNat), (0, gb.toNat)]
  | .bfi p gd ga gb => [(2, p.toNat), (8, gd.toNat), (0, ga.toNat), (0, gb.toNat)]
  | .fsh p gd ga gb => [(2, p.toNat), (8, gd.toNat), (0, ga.toNat), (0, gb.toNat)]
  | .popc p gd ga => [(2, p.toNat), (8, gd.toNat), (0, ga.toNat)]
  | .clz p gd ga => [(2, p.toNat), (8, gd.toNat), (0, ga.toNat)]
  | .ctz p gd ga => [(2, p.toNat), (8, gd.toNat), (0, ga.toNat)]
  | .min p gd ga gb sg => [(2, p.toNat), (8, gd.toNat), (0, ga.toNat), (0, gb.toNat), (18, sg.toNat)]
  | .max p gd ga gb sg => [(2, p.toNat), (8, gd.toNat), (0, ga.toNat), (0, gb.toNat), (18, sg.toNat)]
  | .cmp p pd cnd ga gb => [(2, p.toNat), (10, pd.toNat), (18, cnd.ctorIdx), (0, ga.toNat), (0, gb.toNat)]
  | .cmpi p pd cnd ga imm => [(2, p.toNat), (10, pd.toNat), (18, cnd.ctorIdx), (0, ga.toNat), (18, imm.toNat)]
  | .sel p gd ga gb ps => [(2, p.toNat), (8, gd.toNat), (0, ga.toNat), (0, gb.toNat), (2, ps.toNat)]
  | .movi p gd imm => [(2, p.toNat), (8, gd.toNat), (18, imm.toNat)]
  | .andn p gd ga gb => [(2, p.toNat), (8, gd.toNat), (0, ga.toNat), (0, gb.toNat)]
  | .pand p pd pa pb => [(2, p.toNat), (10, pd.toNat), (2, pa.toNat), (2, pb.toNat)]
  | .por p pd pa pb => [(2, p.toNat), (10, pd.toNat), (2, pa.toNat), (2, pb.toNat)]
  | .pxor p pd pa pb => [(2, p.toNat), (10, pd.toNat), (2, pa.toNat), (2, pb.toNat)]
  | .pandn p pd pa pb => [(2, p.toNat), (10, pd.toNat), (2, pa.toNat), (2, pb.toNat)]
  | .lea p ad ga imm => [(2, p.toNat), (9, ad.toNat), (0, ga.toNat), (18, imm.toNat)]
  | .movm p md ga => [(2, p.toNat), (12, md.toNat), (0, ga.toNat)]
  | .movg p gd aa => [(2, p.toNat), (8, gd.toNat), (1, aa.toNat)]
  | .leaa p ad aa imm => [(2, p.toNat), (9, ad.toNat), (1, aa.toNat), (18, imm.toNat)]
  | .spStG p r off => [(2, p.toNat), (0, r.toNat), (18, off.toNat)]
  | .spStV p r off => [(2, p.toNat), (3, r.toNat), (18, off.toNat)]
  | .spLdG p r off => [(2, p.toNat), (8, r.toNat), (18, off.toNat)]
  | .spLdV p r off => [(2, p.toNat), (11, r.toNat), (18, off.toNat)]
  | .vadd p w fmt vd rm sa sb => [(2, p.toNat), (18, w.ctorIdx), (18, fmt.ctorIdx), (11, vd.toNat), (18, rm.ctorIdx)] ++ srcFields sa ++ srcFields sb
  | .vsub p w fmt vd rm sa sb => [(2, p.toNat), (18, w.ctorIdx), (18, fmt.ctorIdx), (11, vd.toNat), (18, rm.ctorIdx)] ++ srcFields sa ++ srcFields sb
  | .vmul p w fmt vd rm sa sb => [(2, p.toNat), (18, w.ctorIdx), (18, fmt.ctorIdx), (11, vd.toNat), (18, rm.ctorIdx)] ++ srcFields sa ++ srcFields sb
  | .vfma p w fmt vd rm sa sb sc => [(2, p.toNat), (18, w.ctorIdx), (18, fmt.ctorIdx), (11, vd.toNat), (18, rm.ctorIdx)] ++ srcFields sa ++ srcFields sb ++ srcFields sc
  | .vfnma p w fmt vd rm sa sb sc => [(2, p.toNat), (18, w.ctorIdx), (18, fmt.ctorIdx), (11, vd.toNat), (18, rm.ctorIdx)] ++ srcFields sa ++ srcFields sb ++ srcFields sc
  | .vadds p w fmt vd sa sb => [(2, p.toNat), (18, w.ctorIdx), (18, fmt.ctorIdx), (11, vd.toNat)] ++ srcFields sa ++ srcFields sb
  | .vsubs p w fmt vd sa sb => [(2, p.toNat), (18, w.ctorIdx), (18, fmt.ctorIdx), (11, vd.toNat)] ++ srcFields sa ++ srcFields sb
  | .vmin p w fmt vd sa sb => [(2, p.toNat), (18, w.ctorIdx), (18, fmt.ctorIdx), (11, vd.toNat)] ++ srcFields sa ++ srcFields sb
  | .vmax p w fmt vd sa sb => [(2, p.toNat), (18, w.ctorIdx), (18, fmt.ctorIdx), (11, vd.toNat)] ++ srcFields sa ++ srcFields sb
  | .vabs p w fmt vd sa => [(2, p.toNat), (18, w.ctorIdx), (18, fmt.ctorIdx), (11, vd.toNat)] ++ srcFields sa
  | .vneg p w fmt vd sa => [(2, p.toNat), (18, w.ctorIdx), (18, fmt.ctorIdx), (11, vd.toNat)] ++ srcFields sa
  | .vand p w vd sa sb => [(2, p.toNat), (18, w.ctorIdx), (11, vd.toNat)] ++ srcFields sa ++ srcFields sb
  | .vor p w vd sa sb => [(2, p.toNat), (18, w.ctorIdx), (11, vd.toNat)] ++ srcFields sa ++ srcFields sb
  | .vxor p w vd sa sb => [(2, p.toNat), (18, w.ctorIdx), (11, vd.toNat)] ++ srcFields sa ++ srcFields sb
  | .vandn p w vd sa sb => [(2, p.toNat), (18, w.ctorIdx), (11, vd.toNat)] ++ srcFields sa ++ srcFields sb
  | .vshl p w fmt vd sa sb => [(2, p.toNat), (18, w.ctorIdx), (18, fmt.ctorIdx), (11, vd.toNat)] ++ srcFields sa ++ srcFields sb
  | .vshr p w fmt vd sa sb => [(2, p.toNat), (18, w.ctorIdx), (18, fmt.ctorIdx), (11, vd.toNat)] ++ srcFields sa ++ srcFields sb
  | .vsra p w fmt vd sa sb => [(2, p.toNat), (18, w.ctorIdx), (18, fmt.ctorIdx), (11, vd.toNat)] ++ srcFields sa ++ srcFields sb
  | .vshli p w fmt vd n sa => [(2, p.toNat), (18, w.ctorIdx), (18, fmt.ctorIdx), (11, vd.toNat), (18, n.toNat)] ++ srcFields sa
  | .vshri p w fmt vd n sa => [(2, p.toNat), (18, w.ctorIdx), (18, fmt.ctorIdx), (11, vd.toNat), (18, n.toNat)] ++ srcFields sa
  | .vsrai p w fmt vd n sa => [(2, p.toNat), (18, w.ctorIdx), (18, fmt.ctorIdx), (11, vd.toNat), (18, n.toNat)] ++ srcFields sa
  | .vcmp p w fmt vd cnd sa sb => [(2, p.toNat), (18, w.ctorIdx), (18, fmt.ctorIdx), (11, vd.toNat), (18, cnd.ctorIdx)] ++ srcFields sa ++ srcFields sb
  | .vsel p w vd sa sb sc => [(2, p.toNat), (18, w.ctorIdx), (11, vd.toNat)] ++ srcFields sa ++ srcFields sb ++ srcFields sc
  | .vcvt p w fmt vd rm sat src sa => [(2, p.toNat), (18, w.ctorIdx), (18, fmt.ctorIdx), (11, vd.toNat), (18, rm.ctorIdx), (18, sat.toNat), (18, src.ctorIdx)] ++ srcFields sa
  | .vdup p w fmt vd ga => [(2, p.toNat), (18, w.ctorIdx), (18, fmt.ctorIdx), (11, vd.toNat), (0, ga.toNat)]
  | .vrsum p w fmt vd sa => [(2, p.toNat), (18, w.ctorIdx), (18, fmt.ctorIdx), (11, vd.toNat)] ++ srcFields sa
  | .vrmax p w fmt vd sa => [(2, p.toNat), (18, w.ctorIdx), (18, fmt.ctorIdx), (11, vd.toNat)] ++ srcFields sa
  | .vrmin p w fmt vd sa => [(2, p.toNat), (18, w.ctorIdx), (18, fmt.ctorIdx), (11, vd.toNat)] ++ srcFields sa
  | .saAdd p w fmt ga sa => [(2, p.toNat), (18, w.ctorIdx), (18, fmt.ctorIdx), (0, ga.toNat)] ++ srcFields sa
  | .expF p w vd sa => [(2, p.toNat), (18, w.ctorIdx), (11, vd.toNat)] ++ srcFields sa
  | .expR p w vd sa => [(2, p.toNat), (18, w.ctorIdx), (11, vd.toNat)] ++ srcFields sa
  | .exp2F p w vd sa => [(2, p.toNat), (18, w.ctorIdx), (11, vd.toNat)] ++ srcFields sa
  | .exp2R p w vd sa => [(2, p.toNat), (18, w.ctorIdx), (11, vd.toNat)] ++ srcFields sa
  | .log2F p w vd sa => [(2, p.toNat), (18, w.ctorIdx), (11, vd.toNat)] ++ srcFields sa
  | .log2R p w vd sa => [(2, p.toNat), (18, w.ctorIdx), (11, vd.toNat)] ++ srcFields sa
  | .rcpF p w vd sa => [(2, p.toNat), (18, w.ctorIdx), (11, vd.toNat)] ++ srcFields sa
  | .rcpR p w vd sa => [(2, p.toNat), (18, w.ctorIdx), (11, vd.toNat)] ++ srcFields sa
  | .rsqF p w vd sa => [(2, p.toNat), (18, w.ctorIdx), (11, vd.toNat)] ++ srcFields sa
  | .rsqR p w vd sa => [(2, p.toNat), (18, w.ctorIdx), (11, vd.toNat)] ++ srcFields sa
  | .sqrtF p w vd sa => [(2, p.toNat), (18, w.ctorIdx), (11, vd.toNat)] ++ srcFields sa
  | .sqrtR p w vd sa => [(2, p.toNat), (18, w.ctorIdx), (11, vd.toNat)] ++ srcFields sa
  | .tanhF p w vd sa => [(2, p.toNat), (18, w.ctorIdx), (11, vd.toNat)] ++ srcFields sa
  | .tanhR p w vd sa => [(2, p.toNat), (18, w.ctorIdx), (11, vd.toNat)] ++ srcFields sa
  | .sigmF p w vd sa => [(2, p.toNat), (18, w.ctorIdx), (11, vd.toNat)] ++ srcFields sa
  | .sigmR p w vd sa => [(2, p.toNat), (18, w.ctorIdx), (11, vd.toNat)] ++ srcFields sa
  | .sinF p w vd sa => [(2, p.toNat), (18, w.ctorIdx), (11, vd.toNat)] ++ srcFields sa
  | .sinR p w vd sa => [(2, p.toNat), (18, w.ctorIdx), (11, vd.toNat)] ++ srcFields sa
  | .cosF p w vd sa => [(2, p.toNat), (18, w.ctorIdx), (11, vd.toNat)] ++ srcFields sa
  | .cosR p w vd sa => [(2, p.toNat), (18, w.ctorIdx), (11, vd.toNat)] ++ srcFields sa
  | .xpack p w fmt vd src sa ga => [(2, p.toNat), (18, w.ctorIdx), (18, fmt.ctorIdx), (11, vd.toNat), (18, src.ctorIdx)] ++ srcFields sa ++ [(0, ga.toNat)]
  | .xunpack p w fmt vd src sa ga => [(2, p.toNat), (18, w.ctorIdx), (18, fmt.ctorIdx), (11, vd.toNat), (18, src.ctorIdx)] ++ srcFields sa ++ [(0, ga.toNat)]
  | .xscale p w fmt vd sa ga => [(2, p.toNat), (18, w.ctorIdx), (18, fmt.ctorIdx), (11, vd.toNat)] ++ srcFields sa ++ [(0, ga.toNat)]
  | .xmaxe p w fmt vd tgt sa sb => [(2, p.toNat), (18, w.ctorIdx), (18, fmt.ctorIdx), (11, vd.toNat), (18, tgt.ctorIdx)] ++ srcFields sa ++ srcFields sb
  | .xperm p w fmt vd sa sb => [(2, p.toNat), (18, w.ctorIdx), (18, fmt.ctorIdx), (11, vd.toNat)] ++ srcFields sa ++ srcFields sb
  | .xrot p w fmt vd sa ga => [(2, p.toNat), (18, w.ctorIdx), (18, fmt.ctorIdx), (11, vd.toNat)] ++ srcFields sa ++ [(0, ga.toNat)]
  | .xzip p w fmt vd hi sa sb => [(2, p.toNat), (18, w.ctorIdx), (18, fmt.ctorIdx), (11, vd.toNat), (18, hi.toNat)] ++ srcFields sa ++ srcFields sb
  | .xunzip p w fmt vd odd sa sb => [(2, p.toNat), (18, w.ctorIdx), (18, fmt.ctorIdx), (11, vd.toNat), (18, odd.toNat)] ++ srcFields sa ++ srcFields sb
  | .xtrans p w fmt vd lrows sa => [(2, p.toNat), (18, w.ctorIdx), (18, fmt.ctorIdx), (11, vd.toNat), (18, lrows.toNat)] ++ srcFields sa
  | .saNrd p w fmt vd sa ga => [(2, p.toNat), (18, w.ctorIdx), (18, fmt.ctorIdx), (11, vd.toNat)] ++ srcFields sa ++ [(0, ga.toNat)]
  | .saSax p ga => [(2, p.toNat), (0, ga.toNat)]
  | .mcall p rtn => [(2, p.toNat), (18, rtn.toNat)]
  | .mrep p n => [(2, p.toNat), (18, n.toNat)]
  | .mprog p ga dst nm1 => [(2, p.toNat), (0, ga.toNat), (18, dst.toNat), (18, nm1.toNat)]
  | .mprogT p ga dst nm1 => [(2, p.toNat), (0, ga.toNat), (18, dst.toNat), (18, nm1.toNat)]
  | .mwb p ga => [(2, p.toNat), (0, ga.toNat)]
  | .mstat p qd => [(2, p.toNat), (17, qd.toNat)]
  | .mdrain p qd => [(2, p.toNat), (17, qd.toNat)]
  | .ld p w buf d gb off => [(2, p.toNat), (18, w.ctorIdx), (18, buf.ctorIdx)] ++ dstFields d ++ [(0, gb.toNat), (18, off.toNat)]
  | .st p w buf vr port gb off => [(2, p.toNat), (18, w.ctorIdx), (18, buf.ctorIdx), (3, vr.toNat), (18, port.toNat), (0, gb.toNat), (18, off.toNat)]
  | .lds p sz buf gr sx gb off => [(2, p.toNat), (18, sz.ctorIdx), (18, buf.ctorIdx), (8, gr.toNat), (18, sx.toNat), (0, gb.toNat), (18, off.toNat)]
  | .sts p sz buf gr gb off => [(2, p.toNat), (18, sz.ctorIdx), (18, buf.ctorIdx), (0, gr.toNat), (0, gb.toNat), (18, off.toNat)]
  | .atom p sz buf gr aop gs gb off => [(2, p.toNat), (18, sz.ctorIdx), (18, buf.ctorIdx), (8, gr.toNat), (18, aop.ctorIdx), (0, gs.toNat), (0, gb.toNat), (18, off.toNat)]
  | .gld p w d gb off => [(2, p.toNat), (18, w.ctorIdx)] ++ dstFields d ++ [(0, gb.toNat), (18, off.toNat)]
  | .gst p w vr port gb off => [(2, p.toNat), (18, w.ctorIdx), (3, vr.toNat), (18, port.toNat), (0, gb.toNat), (18, off.toNat)]
  | .gatom p sz qd aop gs gb off => [(2, p.toNat), (18, sz.ctorIdx), (17, qd.toNat), (18, aop.ctorIdx), (0, gs.toNat), (0, gb.toNat), (18, off.toNat)]
  | .mcst p w vr port gm gb rank xoff => [(2, p.toNat), (18, w.ctorIdx), (3, vr.toNat), (18, port.toNat), (0, gm.toNat), (0, gb.toNat), (18, rank.toNat), (18, xoff.toNat)]
  | .cpyTl p yr ar dir buf soff gx => [(2, p.toNat), (5, yr.toNat), (1, ar.toNat), (18, dir.toNat), (18, buf.ctorIdx), (18, soff.toNat), (0, gx.toNat)]
  | .cpyUt p yr ar dir buf soff cbm gx => [(2, p.toNat), (5, yr.toNat), (1, ar.toNat), (18, dir.toNat), (18, buf.ctorIdx), (18, soff.toNat), (18, cbm.toNat), (0, gx.toNat)]
  | .cpyAdd p yr ar buf afmt soff cbm gx => [(2, p.toNat), (5, yr.toNat), (1, ar.toNat), (18, buf.ctorIdx), (18, afmt.ctorIdx), (18, soff.toNat), (18, cbm.toNat), (0, gx.toNat)]
  | .cpyBc p yr ar buf soff gx => [(2, p.toNat), (5, yr.toNat), (1, ar.toNat), (18, buf.ctorIdx), (18, soff.toNat), (0, gx.toNat)]
  | .cpyEv p yr ar sae32 buf soff => [(2, p.toNat), (5, yr.toNat), (1, ar.toNat), (18, sae32.toNat), (18, buf.ctorIdx), (18, soff.toNat)]
  | .cpyRs p yr ar sae32 buf soff => [(2, p.toNat), (5, yr.toNat), (1, ar.toNat), (18, sae32.toNat), (18, buf.ctorIdx), (18, soff.toNat)]
  | .cpyPut p yr ar buf soff cbm gx => [(2, p.toNat), (5, yr.toNat), (1, ar.toNat), (18, buf.ctorIdx), (18, soff.toNat), (18, cbm.toNat), (0, gx.toNat)]
  | .cpyGet p yr ar buf soff cbm gx => [(2, p.toNat), (5, yr.toNat), (1, ar.toNat), (18, buf.ctorIdx), (18, soff.toNat), (18, cbm.toNat), (0, gx.toNat)]
  | .coll p yr ar buf mode soff cbm gx => [(2, p.toNat), (5, yr.toNat), (1, ar.toNat), (18, buf.ctorIdx), (18, mode.code.toNat), (18, soff.toNat), (18, cbm.toNat), (0, gx.toNat)]
  | .mig p ar tier cbm => [(2, p.toNat), (1, ar.toNat), (18, tier.ctorIdx), (18, cbm.toNat)]
  | .yclr p yd => [(2, p.toNat), (13, yd.toNat)]
  | .ysetd p yd dim stl sth bx sz => [(2, p.toNat), (13, yd.toNat), (18, dim.toNat), (18, stl.toNat), (18, sth.toNat), (18, bx.toNat), (18, sz.toNat)]
  | .yseto p yd ga gb => [(2, p.toNat), (13, yd.toNat), (0, ga.toNat), (0, gb.toNat)]
  | .ysetf p yd esz ndm hi fill => [(2, p.toNat), (13, yd.toNat), (18, esz.toNat), (18, ndm.toNat), (18, hi.toNat), (18, fill.toNat)]
  | .ysetb p yd geo => [(2, p.toNat), (13, yd.toNat), (18, geo.toNat)]
  | .ycpy p yd ys => [(2, p.toNat), (13, yd.toNat), (5, ys.toNat)]
  | _ => []

/-! ### Freino's versions (R310 to R315) -/

/-- The tag of a version. -/
def versionTag (syl : List Syllable) : BitVec 32 := syl.getD 1 0
/-- Every difference of two tags falls in bits on which the page does not depend (R310, R314). -/
def tagOnly (syl : List Syllable) (tag : BitVec 32) : Bool :=
  pinnedOk (bit (syl.getD 2 0) 16) (bit (syl.getD 2 0) 17) (versionTag syl) tag
/-- The lowest landing of a version beyond an offset. -/
def nextLanding (syl : List Syllable) (o : Nat) : Option Nat :=
  (((List.range 24).map (fun i => (landingOf (syl.getD (8 + i) 0)).off)).filter (fun a => decide (o < a))).min?
/-- What fetch meets in a version from an offset on, entering at every landing (R304, R307): bundles, and the syllables at which it
raises the illegal-encoding trap with slot index 15, each with its offset and syllables. What stands behind padding in its packet, or
behind such a syllable, is reached through a landing alone. -/
def versionItems (syl : List Syllable) : Nat → Nat → List (Nat × List Syllable)
  | 0, _ => []
  | fuel + 1, o =>
    let h := syl.getD o 0
    if 32 * ((syl.getD 2 0).toNat % 256) ≤ o then []
    else if bit h 31 && decide (bundleLen h ≤ 32 - o % 32) then
      (o, (syl.drop o).take (bundleLen h)) :: versionItems syl fuel (o + bundleLen h)
    else if h = 0#32 then
      let p := 32 * (o / 32 + 1)
      versionItems syl fuel (((nextLanding syl o).map (Min.min p)).getD p)
    else (o, [h]) :: (match nextLanding syl o with | none => [] | some a => versionItems syl fuel a)
/-- An item is a syllable that fetch cannot take as a bundle. -/
def itemTraps (b : Nat × List Syllable) : Bool := !(bit (b.2.headD 0) 31) || decide (b.2.length < bundleLen (b.2.headD 0))
/-- The items that a version made by Freino has in the places of a loaded version's: a trapping syllable is 0x0000_0001 (R312). -/
def keptItems (l : List (Nat × List Syllable)) : List (Nat × List Syllable) := l.map (fun b => if itemTraps b then (b.1, [1#32]) else b)
/-- A bundle with QT, or with LND, set. -/
def bundleQt (b : Nat × List Syllable) : Bool := bit (b.2.headD 0) 31 && bit (b.2.headD 0) 18
def bundleLnd (b : Nat × List Syllable) : Bool := bit (b.2.headD 0) 19
/-- A list cut before each element that opens a part: what stands before the first of them, then each with what follows it. -/
def cutBefore {α : Type} (opens : α → Bool) (l : List α) : List (List α) :=
  let r := l.foldr (fun b (a : List α × List (List α)) => if opens b then ([], (b :: a.1) :: a.2) else (b :: a.1, a.2)) ([], [])
  r.1 :: r.2
/-- The instructions of an item with their slots; none where it is a trapping point. -/
def itemSlots (b : Nat × List Syllable) : Option (List (Slot × Instr)) :=
  if itemTraps b then none else (decodeBundle (b.2.headD 0) b.2.tail 32).toOption.map Bundle.slots
/-- An item is a trapping point: a syllable that fetch traps at, or a bundle that is an illegal encoding. -/
def fixedItem (b : Nat × List Syllable) : Bool := (itemSlots b).isNone
/-- An instruction whose issue order is kept (R312). -/
def ordered (i : Slot × Instr) : Bool :=
  (match i.1 with | .C | .M | .L | .S | .K | .Y => true | .IA | .IB | .VA | .VB | .X => false) || queueOperand i.2
/-- Two items in a row stay in two bundles. -/
def stillApart : List (Nat × Nat) → Bool
  | x :: y :: r => (decide (y.1 ≤ x.1) || decide (x.2 < y.2)) && stillApart (y :: r)
  | _ => true
/-- NS and NB of the counted loop that an instruction sets up, if it does (R277). -/
def lsetupOf : Instr → Option (Nat × Nat)
  | .lsetup _ _ ns nb => some (ns.toNat, nb.toNat)
  | _ => none
/-- For each item: NS and NB of the counted loop in whose body it stands (R277). -/
def loopsOf : List (Nat × List Syllable) → Option (Nat × Nat) → Nat → List (Option (Nat × Nat))
  | [], _, _ => []
  | b :: r, cur, left =>
    let set := ((itemSlots b).getD []).findSome? (fun i => lsetupOf i.2)
    (if left = 0 then none else cur) :: (match set with | some n => loopsOf r (some n) (n.2 + 1) | none => loopsOf r cur (left - 1))
/-- An item is part of a counted loop: its body, or the `lsetup` before it. -/
def loopItem (x : (Nat × List Syllable) × Option (Nat × Nat)) : Bool :=
  x.2.isSome || ((itemSlots x.1).getD []).any (fun i => (lsetupOf i.2).isSome)

/-! ### What of an instruction is kept (R312) -/

/-- A register of a rotating region, whose name may change in a loop's body (R153). -/
def looseField (f : Nat × Nat) : Nat × Nat := if (f.1 = 0 ∨ f.1 = 3 ∨ f.1 = 8 ∨ f.1 = 11) ∧ 32 ≤ f.2 then (f.1, 32) else f
/-- What of an instruction is kept: all of it but NS and NB of `lsetup`. -/
def keptKey (i : Instr) : Nat × List (Nat × Nat) := (i.ctorIdx, (instrFields i).filter (fun f => decide (f.1 ≠ 16)))
/-- What of an instruction in a loop's body is kept: the names of rotating registers may change. -/
def bodyKey (i : Instr) : Nat × List (Nat × Nat) := ((keptKey i).1, (keptKey i).2.map looseField)
/-- The instructions of items with the place of their item and whether they stand in a loop's body, in slot order. -/
def placedInstrs (l : List ((Nat × List Syllable) × Option (Nat × Nat))) : List (Nat × Bool × Slot × Instr) :=
  l.zipIdx.flatMap (fun b => ((itemSlots b.1.1).getD []).map (fun i => (b.2, b.1.2.isSome, i)))
/-- Two parts of a region between trapping points hold the same instructions, the ordered ones in one order: those of one bundle in
slot order, and those of two bundles in two. The first is the loaded version's. -/
def samePart (a b : List ((Nat × List Syllable) × Option (Nat × Nat))) : Bool :=
  let x := placedInstrs a
  let y := placedInstrs b
  let rest := (x.filter (fun i => !i.2.1)).foldl (fun l i => l.eraseP (fun k => decide (keptKey k.2.2.2 = keptKey i.2.2.2))) y
  let xo := x.filter (fun i => ordered i.2.2)
  let yo := y.filter (fun i => ordered i.2.2)
  decide (x.length = y.length) &&
  ((x.filter (fun i => i.2.1)).map (fun i => bodyKey i.2.2.2)).isPerm (rest.map (fun i => bodyKey i.2.2.2)) &&
  decide (xo.length = yo.length) &&
  (xo.zip yo).all (fun e => decide (e.1.2.2.1 = e.2.2.2.1) &&
    (if e.1.2.1 then decide (bodyKey e.1.2.2.2 = bodyKey e.2.2.2.2) else decide (keptKey e.1.2.2.2 = keptKey e.2.2.2.2))) &&
  stillApart ((xo.map (fun i => i.1)).zip (yo.map (fun i => i.1)))
/-- The pairs of instructions of a bundle that write one destination, each in both orders (R366): what is kept of them. -/
def pairsOf (body : Bool) (b : Nat × List Syllable) : List ((Nat × List (Nat × Nat)) × (Nat × List (Nat × Nat))) :=
  let l := (((itemSlots b).getD []).map Prod.snd).zipIdx
  let key := if body then bodyKey else keptKey
  l.flatMap (fun i => (l.filter (fun j => decide (i.2 ≠ j.2) && (destsOf i.1).any (destsOf j.1).contains)).map (fun j => (key i.1, key j.1)))
/-- Two regions have the same trapping points, the same parts between them, and the same guarded write pairs (R370). -/
def sameRegion (a b : List ((Nat × List Syllable) × Option (Nat × Nat))) : Bool :=
  let fixed (x : (Nat × List Syllable) × Option (Nat × Nat)) : Bool := fixedItem x.1
  let body := a.any loopItem
  decide ((a.filter fixed).map (fun x => x.1.2) = (b.filter fixed).map (fun x => x.1.2)) &&
  (a.flatMap (fun x => pairsOf body x.1)).isPerm (b.flatMap (fun x => pairsOf body x.1)) &&
  ((cutBefore fixed a).zip (cutBefore fixed b)).all (fun r => samePart r.1 r.2)

/-! ### Latencies, as far as syllables show them (R146, R189, R371, R401) -/

/-- Cycles from the issue of an instruction to the landing of its results: of a `gld`, in the near tier or in a layer pool; of a Y write, in
bundles. -/
def latOf (tag : BitVec 32) (near : Bool) (i : Instr) : Nat :=
  let t := isT16 (fld tag 24 8).toNat
  let cls := (fld tag 16 8).toNat
  match i with
  | .mul .. | .mulh .. | .mulhn .. => latMul t
  | .div .. | .rem .. => latDiv t
  | .bfx .. | .bfxs .. | .bfi .. | .fsh .. | .popc .. | .clz .. | .ctz .. => latBits t
  | .spLdG .. | .spLdV .. => latSp t
  | .vmul .. | .vfma .. | .vfnma .. => latFma t
  | .vrsum .. => latSum t
  | .vrmax .. | .vrmin .. => latRed t
  | .vadd .. | .vsub .. | .vadds .. | .vsubs .. | .vmin .. | .vmax .. | .vabs .. | .vneg .. | .vand .. | .vor .. | .vxor .. | .vandn ..
  | .vshl .. | .vshr .. | .vsra .. | .vshli .. | .vshri .. | .vsrai .. | .vcmp .. | .vsel .. | .vcvt .. | .vdup .. => latVec t
  | .expF .. | .exp2F .. | .log2F .. | .rcpF .. | .rsqF .. | .sqrtF .. | .tanhF .. | .sigmF .. | .sinF .. | .cosF .. => latFast t
  | .expR .. | .exp2R .. | .log2R .. | .rcpR .. | .rsqR .. | .sqrtR .. | .tanhR .. | .sigmR .. | .sinR .. | .cosR .. => latRepro t
  | .xpack .. | .xunpack .. | .xscale .. | .xmaxe .. | .xperm .. | .xrot .. | .xzip .. | .xunzip .. | .xtrans .. => latPack t
  | .saNrd .. => latNrd t
  | .ld .. | .lds .. | .atom .. => latLd t
  | .gld .. => if near then latNear t cls else latPool t cls
  | .childLaunch .. => 2 * latNear t cls + 16
  | .yclr .. | .ysetd .. | .yseto .. | .ysetf .. | .ysetb .. | .ycpy .. => 3
  | _ => latInt t
/-- The stage of an instruction of a loop's body: the stage predicate that guards it (R277). -/
def stageOf (i : Instr) : Option Nat := (guardOf i).bind (fun p => if 8 ≤ p.toNat then some (p.toNat - 8) else none)
/-- Bundles from the last issue of an instruction in a loop's body to the loop's end: an earlier stage ends with an earlier pass (R277). -/
def passesLeft (loop : Option (Nat × Nat)) (i : Instr) : Nat :=
  match loop, stageOf i with
  | some (ns, nb), some st => (ns - st) * (nb + 1)
  | _, _ => 0
/-- A transfer to a landing. -/
def transfers (b : Nat × List Syllable) : Bool :=
  ((itemSlots b).getD []).any (fun i => match i.2 with | .br .. | .brx .. | .call .. | .callx .. | .ret .. | .lquit .. => true | _ => false)
/-- Results with their items' places and landing cycles, along a region. -/
def landingsOf (tag : BitVec 32) (a : List ((Nat × List Syllable) × Option (Nat × Nat))) : List (Nat × Nat × Instr) :=
  a.zipIdx.flatMap (fun b => ((itemSlots b.1.1).getD []).flatMap (fun i =>
    ((destsOf i.2).filter (fun d => decide (d.1 ≤ 5))).map (fun _ => (b.2, b.2 + latOf tag false i.2 - passesLeft b.1.2 i.2, i.2))))
/-- Nothing is in flight at the quiet point that ends the region, nor, of what was issued before it, at one that a transfer outside a loop
enters (R308). -/
def quietEnd (tag : BitVec 32) (a : List ((Nat × List Syllable) × Option (Nat × Nat))) : Bool :=
  let l := landingsOf tag a
  (a.any (fun x => fixedItem x.1) || l.all (fun r => decide (r.2.1 ≤ a.length))) &&
  (a.any loopItem || a.zipIdx.all (fun b => !transfers b.1.1 || l.all (fun r => decide (b.2 ≤ r.1) || decide (r.2.1 ≤ b.2 + 1))))
/-- No bundle of the region has more than 256 results in flight (R289, R315). -/
def flightOk (tag : BitVec 32) (a : List ((Nat × List Syllable) × Option (Nat × Nat))) : Bool :=
  let l := (landingsOf tag a).filter (fun r => decide (resultsOf r.2.2 ≠ 0))
  (List.range a.length).all (fun t => decide ((l.filter (fun r => decide (r.1 ≤ t ∧ t < r.2.1))).length ≤ 256))

/-! ### Values along a region without a loop (R312, Values) -/

/-- What values are made of: an instruction, what of it is no register, and the values it reads. Two values are the same where these are. -/
abbrev Values := List (Nat × List (Nat × Nat) × List Nat)
/-- The number of a value. -/
def Values.number (t : Values) (e : Nat × List (Nat × Nat) × List Nat) : Nat × Values :=
  match t.idxOf? e with
  | some n => (n, t)
  | none => (t.length, t ++ [e])
/-- A register file: the registers that do not hold what they held at the region's beginning. -/
abbrev Regs := List ((Nat × Nat) × Nat)
/-- The same file. -/
def sameRegs (a b : Regs) : Bool := (a ++ b).all (fun e => decide (a.lookup e.1 = b.lookup e.1))
/-- How far the reference run of a region has come. -/
structure RefRun where
  table : Values
  regs : Regs := []
  /-- Results in flight: landing cycle, register, value, and whether they leave part of the register as it is. -/
  pend : List (Nat × (Nat × Nat) × Nat × Bool) := []
  /-- The ordered instructions issued, and the files at transfers. -/
  made : List Nat := []
  files : List Regs := []
  /-- Entries taken from each queue. -/
  pops : List (Nat × Nat) := []
  deriving DecidableEq, Repr

/-- The value of a register. -/
def RefRun.read (r : RefRun) (x : Nat × Nat) : Nat × RefRun :=
  match r.regs.lookup x with
  | some n => (n, r)
  | none => let e := r.table.number (1000, [x], []); (e.1, { r with table := e.2 })
/-- A landing. -/
def RefRun.write (r : RefRun) (x : Nat × Nat) (n : Nat) (part : Bool) : RefRun :=
  let put (r : RefRun) (n : Nat) : RefRun := { r with regs := (x, n) :: r.regs.filter (fun e => decide (e.1 ≠ x)) }
  if part then
    let o := r.read x
    let e := o.2.table.number (1001, [], [n, o.1])
    put { o.2 with table := e.2 } e.1
  else put r n
/-- What lands at a cycle. -/
def RefRun.land (r : RefRun) (t : Nat) : RefRun :=
  (r.pend.filter (fun e => decide (e.1 = t))).foldl (fun r e => r.write e.2.1 e.2.2.1 e.2.2.2)
    { r with pend := r.pend.filter (fun e => decide (e.1 ≠ t)) }
/-- What an instruction reads beyond its source fields. -/
def moreSources : Instr → List (Nat × Nat)
  | .mcall _ _ => (List.range 8).map (fun i => (4, i))
  | .bfi _ gd _ _ | .fsh _ gd _ _ => [(0, gd.toNat)]
  | .cpyBc _ _ _ _ _ gx => [(0, gx.toNat + 1)]
  | .rdsys _ _ sys => [(6, sys.code.toNat)]
  | _ => []
/-- The results of an instruction leave part of its destination as it is: guarded, narrow (R152), or to one field of a record (R189). -/
def leavesPart (i : Instr) : Bool :=
  decide (guardOf i ≠ some 0#4) || decide (groupsOf i = 1 ∨ groupsOf i = 2) ||
  (match i with
   | .ld _ w _ _ _ _ | .gld _ w _ _ _ => decide (w ≠ .w1024)
   | .ysetd .. | .yseto .. | .ysetf .. | .ysetb .. => true
   | _ => false)
/-- An instruction reads a source field. -/
def RefRun.source (a : List Nat × RefRun) (f : Nat × Nat) : List Nat × RefRun :=
  if f.1 = 19 then
    let q := f.2 / 2
    let n := (a.2.pops.lookup q).getD 0
    let e := a.2.table.number (1002, [(q, n)], [])
    (a.1 ++ [e.1], { a.2 with table := e.2, pops := if f.2 % 2 = 1 then a.2.pops else (q, n + 1) :: a.2.pops })
  else
    let e := a.2.read f
    (a.1 ++ [e.1], e.2)
/-- An instruction issues at a cycle. -/
def RefRun.issue (tag : BitVec 32) (near : Bool) (t : Nat) (r : RefRun) (i : Slot × Instr) : RefRun :=
  let f := instrFields i.2
  let x := ((f.filter (fun y => decide (y.1 ≤ 5 ∨ y.1 = 19))) ++ moreSources i.2).foldl RefRun.source ([], r)
  let fixed := f.filter (fun y => decide (16 ≤ y.1 ∧ y.1 ≠ 19))
  let e := x.2.table.number (i.2.ctorIdx, if ordered i then fixed ++ [(99, x.2.made.length)] else fixed, x.1)
  let r := { x.2 with table := e.2, made := if ordered i then x.2.made ++ [e.1] else x.2.made }
  (destsOf i.2).zipIdx.foldl (fun r d =>
    let n := if d.2 = 0 then (e.1, r.table) else r.table.number (1003, [(d.2, 0)], [e.1])
    { r with table := n.2, pend := r.pend ++ [(t + latOf tag near i.2, d.1, n.1, leavesPart i.2)] }) r
/-- THE REFERENCE RUN of a region: each bundle in the cycle after the one before it, with no block (R312). -/
def refRun (tag : BitVec 32) (near : Bool) (table : Values) (a : List (Nat × List Syllable)) : RefRun :=
  let r := a.zipIdx.foldl (fun (r : RefRun) b =>
    let r := ((itemSlots b.1).getD []).foldl (fun r i => r.issue tag near b.2 i) (r.land b.2)
    if transfers b.1 then { r with files := r.files ++ [(r.land (b.2 + 1)).regs] } else r) { table := table }
  r.land a.length
/-- In a region without a loop every register that is read, and every one that the quiet point finds, holds what it holds in the loaded version,
whose bundles up to a trapping point are `a`. What a `gld` takes is judged both ways, where the loaded version is then quiet. -/
def sameValues (old new : BitVec 32) (a b : List (Nat × List Syllable)) : Bool :=
  let upto (l : List (Nat × List Syllable)) : List (Nat × List Syllable) := l.takeWhile (fun x => !fixedItem x)
  [false, true].all (fun near =>
    let x := refRun old near [] (upto a)
    let y := refRun new near x.table (upto b)
    !x.pend.isEmpty ||
    (decide (x.made = y.made ∧ x.files.length = y.files.length) && (x.files.zip y.files).all (fun e => sameRegs e.1 e.2) &&
      (a.any fixedItem || sameRegs x.regs y.regs)))

/-- The layout of R313: each item stands at the first syllable after the one before it from which it does not cross a packet. -/
def packedItems : List (Nat × List Syllable) → Bool
  | x :: y :: r =>
    let e := x.1 + x.2.length
    decide (y.1 = if e % 32 + y.2.length ≤ 32 then e else 32 * (e / 32 + 1)) && packedItems (y :: r)
  | _ => true
/-- From a place on, what stands between items in their packets is zero (R313). -/
def gapsZero (syl : List Syllable) : Nat → List (Nat × List Syllable) → Bool
  | p, [] => (syl.drop p).all (fun w => decide (w = 0#32))
  | p, x :: r => ((syl.drop p).take (x.1 - p)).all (fun w => decide (w = 0#32)) && gapsZero syl (x.1 + x.2.length) r
/-- What a region of a version that Freino makes keeps of the loaded version's (R312, R315, R370). -/
def keptRegion (old new : BitVec 32) (a b : List ((Nat × List Syllable) × Option (Nat × Nat))) : Bool :=
  sameRegion a b && quietEnd new b && flightOk new b && (a.any loopItem || sameValues old new (a.map Prod.fst) (b.map Prod.fst))
/-- WHAT A VERSION THAT FREINO MAKES KEEPS (R312 to R315, R370), as far as its syllables show: the landing table's indices and flags, the
place of the first bundle, the quiet points with their landings, in each quiet region what `keptRegion` says; its layout; and zero for its
frames (R300). What R312 says of values in loops and of memory is left to `Config.freinoReschedule` (log 13). -/
def keptBy (old : List Syllable) (tag : Syllable) (new : List Syllable) : Bool :=
  let a := keptItems (versionItems old 4097 32)
  let b := versionItems new 4097 32
  let qa := a.filter bundleQt
  let qb := b.filter bundleQt
  let len := (new.getD 2 0).toNat % 256
  let cut (l : List (Nat × List Syllable)) := cutBefore (fun x : (Nat × List Syllable) × Option (Nat × Nat) => bundleQt x.1) (l.zip (loopsOf l none 0))
  decide (versionTag new = tag) && headerOk (fun i => new.getD i 0) && decide (new.length = 32 * len) &&
  (List.range 3).all (fun i => decide (new.getD (3 + i) 0 = 0#32)) &&
  decide (fld (new.getD 2 0) 16 2 = fld (old.getD 2 0) 16 2) &&
  (List.range 24).all (fun i => decide (fld (old.getD (8 + i) 0) 16 16 = fld (new.getD (8 + i) 0) 16 16)) &&
  decide ((a.head?).map Prod.fst = (b.head?).map Prod.fst) && decide (qa.map bundleLnd = qb.map bundleLnd) &&
  (List.range 24).all (fun i =>
    match (qa.map Prod.fst).idxOf? (landingOf (old.getD (8 + i) 0)).off with
    | none => true
    | some j => decide ((landingOf (old.getD (8 + i) 0)).off = 0) || decide ((qb[j]?).map Prod.fst = some (landingOf (new.getD (8 + i) 0)).off)) &&
  packedItems b && gapsZero new ((b.head?.map Prod.fst).getD 32) b && decide (b.getLast?.map (fun x => x.1 / 32 + 1) = some len) &&
  ((cut a).zip (cut b)).all (fun r => keptRegion (versionTag old) tag r.1 r.2)
/-- Reschedule (R312 to R315): only syllable 1 is rewritten where the page does not depend on the difference; the general
case is firmware's fixed function, which keeps what R312 says (log 13). -/
def reschedule (syl : List Syllable) (tag : BitVec 32) : Option (List Syllable) :=
  if tagOnly syl tag then some (syl.set 1 tag) else (Config.freinoReschedule syl tag).filter (keptBy syl tag)

end Sys2Proof.Machine
end

