-- ==== Sys2Proof/Machine/Pages.lean ====
section
/-! DEFINITION. Writes to the instruction store and the resident page directory (14 R297 to R303), placement and eviction
(R462), and Freino's service of an entry trap (R311 to R315). -/

namespace Sys2Proof.Machine

/-! ### Directory entries (R298, R299) -/

/-- The entry of a frame. -/
def Core.entryAt (x : Core) (f : Nat) : DirEnt := SMap.get {} x.dir f
/-- The frames of the version at a base frame. -/
def Core.framesOf (x : Core) (base : Nat) : List Nat :=
  base :: (List.range (x.pageNcont base)).map (fun i => (x.syl base (3 + i)).toNat % 64)
/-- Valid base frames, ascending. -/
def Core.bases (x : Core) : List Nat := (x.dir.filter (fun e => e.2.v && !e.2.cont)).map Prod.fst
/-- An entry as read: PINS stands in base frames (R298). -/
def Core.dirWord (x : Core) (f : Nat) : Word :=
  let e := x.entryAt f
  BitVec.ofNat 64 (e.page + 2 ^ 40 * e.v.toNat + 2 ^ 41 * e.cur.toNat + 2 ^ 42 * e.cont.toNat + 2 ^ 43 * e.cidx +
    2 ^ 45 * e.sealed.toNat + (if e.v && !e.cont then 2 ^ 46 * x.pins f else 0))
/-- The checks of a write to a directory entry (R299). -/
def Core.dirOk (x : Core) (f : Nat) (w : Word) : Bool :=
  let e := x.entryAt f
  let page := (fld w 0 40).toNat
  let cont := w.getLsbD 42
  let cidx := (fld w 43 2).toNat
  decide (f < 64) && !e.sealed && !(e.v && !e.cont && decide (x.pins f ≠ 0)) &&
  !(e.v && e.cont && x.bases.any (fun b => decide ((x.entryAt b).page = e.page) && (x.framesOf b).tail.contains f)) &&
  (!w.getLsbD 40 ||
    (if cont then decide (cidx ≠ 0)
     else
       headerOk (x.syl f) &&
       ((x.framesOf f).tail.zipIdx 1).all (fun c =>
         let y := x.entryAt c.1
         y.v && y.cont && decide (y.page = page) && decide (y.cidx = c.2)) &&
       (!w.getLsbD 41 || !x.bases.any (fun b => (x.entryAt b).sealed && decide ((x.entryAt b).page = page)))))
/-- A directory write: CUR of the page's other versions is cleared with it. -/
def Core.dirWrite (x : Core) (f : Nat) (w : Word) : Core :=
  let page := (fld w 0 40).toNat
  let cont := w.getLsbD 42
  let e : DirEnt := { page := page, v := w.getLsbD 40, cur := w.getLsbD 41, cont := cont,
                      cidx := if cont then (fld w 43 2).toNat else 0, sealed := false }
  let d := if e.v && e.cur && !cont then
      x.dir.map (fun y : Nat × DirEnt =>
        if y.2.v && !y.2.cont && decide (y.2.page = page) then (y.1, { y.2 with cur := false }) else y)
    else x.dir
  { x with dir := SMap.put {} d f e }

/-- The address of a directory entry (R298). -/
def dirAddr (core f : Nat) : Word := cfgAddr (coreDie core) (0x4000 + 0x200 * (core % 16) + 8 * f)
/-- `DIRECTORY_WRITE` (R299). -/
def execDirectoryWrite (core frame : Nat) (value : Word) (s : State) : Out :=
  .next (if (s.core core).dirOk frame value then s.updCore core (fun x => x.dirWrite frame value)
    else s.cfgError (coreDie core) (dirAddr core frame))

/-- A syllable of a frame is written. -/
def Core.setSyl (x : Core) (f o : Nat) (v : Syllable) : Core := { x with istore := SMap.put 0 x.istore (1024 * f + o) v }
/-- The address of a frame's word in the store window (R297). -/
def storeAddr (core f o : Nat) : Word := cfgAddr (coreDie core) (0x800000 + 0x40000 * (core % 16) + 0x1000 * f + 4 * o)
/-- The store window accepts a write to the frame. -/
def State.storeOk (s : State) (core f o : Nat) : Bool := decide (f < 64 ∧ o < 1024) && !((s.core core).entryAt f).v
/-- `INSTRUCTION_STORE_WRITE` (R297). -/
def execInstructionStoreWrite (core frame syllable : Nat) (value : Syllable) (s : State) : Out :=
  .next (if s.storeOk core frame syllable then s.updCore core (fun x => x.setSyl frame syllable value)
    else s.cfgError (coreDie core) (storeAddr core frame syllable))

/-! ### Placement and eviction (R462) -/

/-- Frames whose entry is not valid. -/
def Core.freeFrames (x : Core) : List Nat := (List.range 64).filter (fun f => !(x.entryAt f).v)
/-- A version's frames are freed. -/
def Core.freeVersion (x : Core) (base : Nat) : Core :=
  { x with dir := (x.framesOf base).foldl (fun d f => SMap.put {} d f {}) x.dir, retired := x.retired.filter (fun f => decide (f ≠ base)) }
/-- The version at a base frame may be freed: not sealed and not pinned. -/
def Core.loose (x : Core) (base : Nat) : Bool := !(x.entryAt base).sealed && decide (x.pins base = 0)
/-- Versions that were replaced while they were pinned are freed once no context pins them (R319). -/
def Core.freeRetired (x : Core) : Core :=
  (x.retired.filter (fun b => decide (x.pins b = 0))).foldl (fun y b =>
    if (y.entryAt b).v && !(y.entryAt b).cont && !(y.entryAt b).cur then y.freeVersion b
    else { y with retired := y.retired.filter (fun f => decide (f ≠ b)) }) x
/-- Evicting until n frames are free: versions that are not current first, then current ones of other pages. -/
def Core.evict (x : Core) (page n : Nat) : Core :=
  let l := x.bases.filter (fun b => x.loose b && decide ((x.entryAt b).page ≠ page))
  let order := l.filter (fun b => !(x.entryAt b).cur) ++ l.filter (fun b => (x.entryAt b).cur)
  order.foldl (fun y b => if n ≤ y.freeFrames.length then y else y.freeVersion b) x
/-- The first n free frames from the cursor upward, wrapping. -/
def Core.pickFrames (x : Core) (n : Nat) : List Nat :=
  (((List.range 64).map (fun i => (x.cursor + i) % 64)).filter (fun f => !(x.entryAt f).v)).take n
/-- The syllables of one frame of a version. -/
def Core.fillFrame (x : Core) (f : Nat) (l : List Syllable) : Core :=
  { x with istore := ((List.range 1024).map (fun o => (o, l.getD o 0))).foldl (fun m e => SMap.put 0 m (1024 * f + e.1) e.2) x.istore }
/-- Continuation frames a version needs. -/
def versionNcont (syl : List Syllable) : Nat := (syl.getD 2 0).toNat / 256 % 4
/-- A version with the numbers of its continuation frames in syllables 3 to 5 (R300). -/
def withFrames (syl : List Syllable) (conts : List Nat) : List Syllable :=
  syl.zipIdx.map (fun e => if 3 ≤ e.2 ∧ e.2 < 6 then BitVec.ofNat 32 (conts.getD (e.2 - 3) 0) else e.1)
/-- Placing a version in given frames: frames, then continuation entries, then the base with CUR. -/
def Core.placeIn (x : Core) (page : Nat) (sealed : Bool) (syl : List Syllable) : List Nat → Core
  | [] => x
  | base :: conts =>
    let body := withFrames syl conts
    let x := (base :: conts).zipIdx.foldl (fun y f => y.fillFrame f.1 (body.drop (1024 * f.2))) x
    let x := conts.zipIdx.foldl (fun y c =>
      { y with dir := SMap.put {} y.dir c.1 { page := page, v := true, cont := true, cidx := c.2 + 1, sealed := sealed } }) x
    let x := x.dirWrite base (BitVec.ofNat 64 (page + 2 ^ 40 + 2 ^ 41))
    { x with dir := SMap.upd {} x.dir base (fun e => { e with sealed := sealed }), cursor := ((base :: conts).getLastD 0 + 1) % 64 }
/-- Placing a version at the cursor, where frames are free. -/
def Core.place (x : Core) (page : Nat) (sealed : Bool) (syl : List Syllable) : Core :=
  x.placeIn page sealed syl (x.pickFrames (1 + versionNcont syl))

/-! ### Freino (R311 to R315) -/

/-- The place of image i of the code page tables, in the device manager's region behind the window tables: 16 KiB for each (log 10). -/
def State.imageAt (s : State) (i : Nat) : Nat := s.hub.manifest.regionBase + 0x200000 + 0x4000 * i
/-- The first place without an image. -/
def State.imagePlace (s : State) : Nat :=
  let l := s.worlds.flatMap (fun w => (w.2.cpt.filter (fun v => !v.sealed)).map Version.addr)
  s.imageAt (((List.range (l.length + 1)).find? (fun i => !l.contains (s.imageAt i))).getD l.length)
/-- The image of a version, as its place in the near tier holds it (R318). -/
def State.image (s : State) (v : Version) : List Syllable :=
  (List.range (32 * v.len)).map (fun i => BitVec.ofNat 32 (s.load (v.addr + 4 * i) 4))
/-- The table takes a version with its image, which is plaintext; of a sealed page it takes the entry alone (R318). -/
def State.cptAdd (s : State) (w page : Nat) (syl : List Syllable) (loaded sealed : Bool) : State :=
  let v : Version := { page := page, tag := versionTag syl, addr := if sealed then 0 else s.imagePlace,
                       len := if sealed then 0 else (syl.getD 2 0).toNat % 256, loaded := loaded, sealed := sealed }
  let s := if sealed then s else s.landAs 0 (syl.zipIdx.flatMap (fun e => cellsAt (v.addr + 4 * e.2) 4 e.1.toNat))
  s.updWorld w (fun x => { x with cpt := x.cpt ++ [v] })
/-- The version that Freino places: one the world's table holds for the tag, or one made from the loaded version. -/
def State.versionFor (s : State) (w page : Nat) (tag : BitVec 32) : Option (List Syllable) :=
  let t := (s.world w).cpt
  match t.find? (fun v => decide (v.page = page ∧ v.tag = tag)) with
  | some v => some (s.image v)
  | none => (t.find? (fun v => decide (v.page = page) && v.loaded)).bind (fun v => reschedule (s.image v) tag)
/-- The table takes a version it does not hold (R318). -/
def State.cptInsert (s : State) (w page : Nat) (tag : BitVec 32) (syl : List Syllable) : State :=
  if (s.world w).cpt.any (fun v => decide (v.page = page ∧ v.tag = tag)) then s else s.cptAdd w page syl false false

/-- A context trapped at an entry of a page (R311). -/
def Ctx.trappedAt (c : Ctx) (page : Nat) : Bool :=
  (match c.st with | .trapped => true | _ => false) &&
  (match c.point with
   | .entry p _ _ => decide (p = page) && (decide (c.xcause = 0x11) || decide (c.xcause = 0x12))
   | .inside _ _ _ _ => false)

/-- `FREINO_ENTRY_TRAP` (R311, R462) for a launch frond: the page's version for the core's tag is found or made, placed, and every context trapped
at an entry of the page resumes; or the frond is aborted. -/
def execFreinoEntryTrap (core ctx : Nat) (s : State) : Out :=
  let c := s.ctx core ctx
  let w := (s.core core).world
  let page := c.point.page
  if !c.trappedAt page || decide ((s.frond c.frond).kind = .almanac) then .next s
  else if (s.world w).cpt.any (fun v => decide (v.page = page) && v.sealed) then
    .next ((s.abortFrond c.frond (abortStatus 5 3)).tell (.sealstale w page))
  else
    match s.versionFor w page (s.tag core) with
    | none => .next ((s.abortFrond c.frond (abortStatus 5 2)).tell (.resched w page))
    | some syl =>
      let n := 1 + versionNcont syl
      let s := s.cptInsert w page (s.tag core) syl
      let x := s.core core
      let x := if x.freeFrames.length < n then x.evict page n else x
      if x.freeFrames.length < n then .next ((s.updCore core (fun _ => x)).abortFrond c.frond (abortStatus 5 1))
      else
        let x := x.place page false syl
        let old := x.bases.filter (fun b => decide ((x.entryAt b).page = page) && !(x.entryAt b).cur)
        let x := { x with retired := old.filter (fun b => decide (x.pins b ≠ 0)) ++ x.retired.filter (fun b => !old.contains b) }
        let x := (old.filter (fun b => decide (x.pins b = 0))).foldl Core.freeVersion x
        .next (((SMap.keys x.ctxs).filter (fun k => (x.ctx k).trappedAt page)).foldl (fun s k => s.resume core k)
          (s.updCore core (fun _ => x)))

end Sys2Proof.Machine
end

