-- ==== Sys2Proof/Machine/Control.lean ====
section
/-! DEFINITION. The C slot: transfers, counted loops, barriers, alignment, child launches, signals, waits, fences, system
registers, traps and halt (13 R277, R278; 17 R373 to R389; 08 R176). -/

namespace Sys2Proof.Machine

/-- A change that applies from the next bundle (R371). -/
def State.stage (s : State) (f : Staged → Staged) : State := s.updCur (fun c => { c with staged := f c.staged })

/-! ### Transfers (R373 to R375) -/

/-- The token of a landing of the issuing bundle's page. -/
def tokenHere (s : State) (i : BitVec 5) : Word := BitVec.ofNat 64 (s.cur.point.page * 0x1000000 + i.toNat * 0x10000)

/-- The kind of an entry made by a branch (R373). -/
def branchKind (s : State) (tok : Word) : Nat :=
  if tok.toNat / 0x1000000 = s.cur.point.page ∧ s.me.inCurrent s.cur.point then 2 else 1

/-- The next issue becomes an entry, and any active loop ends (R373). -/
def enterNext (s : State) (tok : Word) (kind : Nat) : State :=
  s.stage (fun g => { g with next := some (.entry (tok.toNat / 0x1000000) (tok.toNat / 0x10000 % 256) kind)
                             loop := some { s.cur.loop with active := false } })

/-- Checks of a token from a register (R373 check 1). -/
def tokenBad (tok : Word) : Bool := decide (tok.toNat % 65536 ≠ 0 ∨ 23 < tok.toNat / 0x10000 % 256)

/-- A transfer to a token (R373): the landing fault, or the entry. -/
def transfer (s : State) (tok : Word) (kind : Nat) : Eff :=
  if tokenBad tok then (s, some (.trap 0x14 tok)) else (enterNext s tok kind, none)

/-- A call: the return token's check, then the return token and the entry (R373 check 3, R374). -/
def callTo (s : State) (tok : Word) (r : BitVec 5) (gd : BitVec 6) : Eff :=
  if tokenBad tok then (s, some (.trap 0x14 tok))
  else if 23 < r.toNat then (s, some (.trap 0x14 (tokenHere s r)))
  else (enterNext (s.toG gd (latInt s.t16) (tokenHere s r)) tok 1, none)

/-- `br` (R374). -/
def execBr (p : BitVec 4) (l : BitVec 5) (s : State) : Out :=
  runSlot s (.br p l) p (fun s => transfer s (tokenHere s l) (branchKind s (tokenHere s l)))

/-- `lquit` (R374): with no loop active it has no effect, and it still makes check 2 of R373. -/
def execLquit (p : BitVec 4) (l : BitVec 5) (s : State) : Out :=
  runSlot s (.lquit p l) p (fun s =>
    if s.cur.loop.active then transfer s (tokenHere s l) (branchKind s (tokenHere s l))
    else if 23 < l.toNat then (s, some (.trap 0x14 (tokenHere s l)))
    else (s, none))

/-- `call` (R374). -/
def execCall (p : BitVec 4) (l r : BitVec 5) (gd : BitVec 6) (s : State) : Out :=
  runSlot s (.call p l r gd) p (fun s => callTo s (tokenHere s l) r gd)

/-- `brx` (R375). -/
def execBrx (p : BitVec 4) (ga : BitVec 6) (s : State) : Out :=
  runSlot s (.brx p ga) p (fun s => transfer s (s.cur.gr ga) (branchKind s (s.cur.gr ga)))

/-- `callx` (R375). -/
def execCallx (p : BitVec 4) (ga : BitVec 6) (r : BitVec 5) (gd : BitVec 6) (s : State) : Out :=
  runSlot s (.callx p ga r gd) p (fun s => callTo s (s.cur.gr ga) r gd)

/-- `ret` (R375). -/
def execRet (p : BitVec 4) (ga : BitVec 6) (s : State) : Out :=
  runSlot s (.ret p ga) p (fun s => transfer s (s.cur.gr ga) 3)

/-! ### Counted loops (R277, R278) -/

/-- `lsetup` (R277): the body is found as sequential fetch would; its passes and stage predicates start at pass 0. -/
def execLsetup (p : BitVec 4) (ga : BitVec 6) (ns : BitVec 3) (nb : BitVec 4) (s : State) : Out :=
  runSlot s (.lsetup p ga ns nb) p (fun s =>
    let n := s.cur.gr ga
    if 2 ^ 64 - 8 < n.toNat then (s, some (.trap 0x17 1))
    else
      let (base, nxt) := match s.cur.point with
        | .inside _ b _ o => (b, o + s.me.lenAt b o)
        | .entry _ _ _ => (0, 32)
      let w := s.me.walkBody base (nb.toNat + 1) nxt
      if w.1 || w.2 then (s, some (.trap 0x17 1))
      else
        (s.stage (fun g =>
          { g with ltrip := some n
                   lpass := some 0
                   lrot := some 0
                   stagep := some (stageBits (ns.toNat + 1) n.toNat 0)
                   loop := some { active := true, first := s.me.bodyFirst base nxt, len := nb.toNat + 1, pos := 0,
                                  stages := ns.toNat + 1 } }), none))

/-- `lend` (R278): a turnaround, or the end of the loop; a false guard ends the loop. -/
def execLend (p : BitVec 4) (s : State) : Out :=
  let off : State := s.stage (fun g => { g with loop := some { s.cur.loop with active := false } })
  if s.cur.pr p then
    runSlot s (.lend p) p (fun s =>
      let c := s.cur
      if !c.loop.active || decide (c.loop.pos + 1 ≠ c.loop.len) then (s, some (.trap 0x17 0))
      else
        let k := c.lpass.toNat + 1
        let again := decide (k < Max.max c.ltrip.toNat 1 + c.loop.stages - 1)
        (s.stage (fun g =>
          { g with lpass := some (BitVec.ofNat 64 k)
                   lrot := some (BitVec.ofNat 64 ((c.lrot.toNat + 1) % 32))
                   stagep := some (stageBits c.loop.stages c.ltrip.toNat k)
                   loop := some { c.loop with active := again, pos := 0 }
                   next := if again then
                       (match c.point with
                        | .inside pg b land _ => some (.inside pg b land c.loop.first)
                        | .entry _ _ _ => none)
                     else none }), none))
  else .next off

/-! ### Barriers, alignment, launches (R376 to R380) -/

/-- The arrival of a `bar.l` recorded in its frond (R123). -/
def State.arrive (s : State) (c k lev : Nat) : State :=
  match (s.ctx c k).item with
  | none => s
  | some it =>
    let n := SMap.get 0 it.arrivals lev + 1
    (s.updCtx c k (fun x => { x with item := some { it with arrivals := SMap.put 0 it.arrivals lev n } })).updFrond it.frond
      (fun fr => { fr with arrivals := SMap.put 0 fr.arrivals (arriveKey it.wid.toNat lev) n })

/-- The barrier that a context has arrived at is open (R123); in an almanac every item has identifier zero, and the group
is all the frond's cores (R376). -/
def State.barrierOpen (s : State) (c k lev : Nat) : Bool :=
  match (s.ctx c k).item with
  | none => true
  | some it =>
    let fr := s.frond it.frond
    let n := SMap.get 0 it.arrivals lev
    if fr.kind = .almanac then
      fr.cores.all (fun d =>
        match ((s.core d).ctx 0).item with
        | some j => decide (n ≤ SMap.get 0 j.arrivals lev)
        | none => true)
    else fr.opens lev it.wid.toNat n

/-- The two acts of a blocked bundle (R149): the arrival of a `bar.l` at its first attempt, and the read a `sig.wait` posts.
Both are ordered events (R178). -/
def announceBar (s : State) (lev : BitVec 3) : State :=
  let s := s.updCur (fun c => { c with arrived := true })
  if s.cur.holds then
    s.bump.updCur (fun x =>
      { x with heldev := x.heldev ++ [{ id := s.seqno, fences := s.cur.holding, ev := .arrive lev.toNat }] })
  else s.arrive s.curCore s.curCtx lev.toNat

/-- `bar.l` (R123, R376): the first attempt arrives and blocks; the attempt after the opening issues. A level below RLEV
aborts the frond with AUX 0x0201. -/
def execBarL (p : BitVec 4) (lev : BitVec 3) (s : State) : Out :=
  runSlot s (.barL p lev) p (fun s =>
    let fr := s.frond s.cur.frond
    if fr.kind ≠ .almanac ∧ lev.toNat < fr.rlev then (s.abortFrond s.cur.frond (abortStatus 2 1), none)
    else if !s.cur.arrived then (announceBar s lev, some (.block (.barrier lev.toNat)))
    else if s.cur.heldev.any (fun h => decide (h.ev = .arrive lev.toNat)) || !s.barrierOpen s.curCore s.curCtx lev.toNat then
      (s, some (.block (.barrier lev.toNat)))
    else (s.updCur (fun c => { c with arrived := false }), none))

/-- The global cycle of the first frame tick after a cycle (R35). -/
def nextTick (n : Nat) : Nat := (n / frameCycles + 1) * frameCycles

/-- `tkalign` (R377): no bundle of the context issues before the next frame tick plus the offset. -/
def execTkalign (p : BitVec 4) (off : BitVec 10) (s : State) : Out :=
  runSlot s (.tkalign p off) p (fun s => (s.stage (fun g => { g with hold := some (nextTick s.now + off.toNat) }), none))

/-- A landing cycle not yet known: the event is held (R380). -/
def unknownCycle : Nat := 2 ^ 80

/-- `launch` (R379, R380): an ordered event whose status lands 2L + 16 after its release; L is the near-tier latency. -/
def execChildLaunch (p : BitVec 4) (gd ga gb : BitVec 6) (s : State) : Out :=
  runSlot s (.childLaunch p gd ga gb) p (fun s =>
    let c := s.cur
    let rid := s.seqno
    let lat := 2 * latNear s.t16 (s.cls s.curCore) + 16
    let t : State :=
      if gd = 0 then s.bump
      else (s.updCur (fun x => { x with inflight := x.inflight ++
        [{ id := rid, due := if c.holds then unknownCycle else s.now + lat, file := .g,
           reg := physReg c.rot gd.toNat, width := 64, value := none }] })).bump
    let ev : OrdEv := .launch rid c.frond c.pageToken (c.gr ga) (c.gr gb) (c.gr (gb + 1))
    let rel := if c.holds then none else some s.now
    (t.bump.updCur (fun x =>
      { x with heldev := x.heldev ++ [{ id := t.seqno, fences := c.holding, rel := rel, ev := ev }] }), none))

/-! ### Signals and waits (R381 to R385) -/

/-- The address of a signal form. -/
def sigAddr (s : State) (ga : BitVec 6) (off : BitVec 9) : Word := s.cur.gr ga + BitVec.ofNat 64 (8 * off.toNat)

/-- `sig.dec` (R381): an untimed atomic decrement, an ordered event. -/
def execSigDec (p : BitVec 4) (ga : BitVec 6) (off : BitVec 9) (k : BitVec 6) (s : State) : Out :=
  runSlot s (.sigDec p ga off k) p (fun s =>
    let a := sigAddr s ga off
    match globalAddr s a 8 8 .atm false with
    | (_, some e) => (s, some e)
    | (pa, none) => (s.order (.dec pa (zx k)) (homeNode pa) (.store a), none))

/-- Posting the read of a `sig.wait` (R382). -/
def announceSig (s : State) (a : Word) (pa : Nat) (thr : Int) : State :=
  let id := s.seqno
  (s.order (.sigRead pa) (homeNode pa) (.sig thr a)).updCur (fun c => { c with sig := some (.posted id) })

/-- `sig.wait` (R382): it blocks until a served read meets the threshold; an error response was raised before (R283). -/
def execSigWait (p : BitVec 4) (ga : BitVec 6) (off : BitVec 9) (thr : BitVec 6) (s : State) : Out :=
  runSlot s (.sigWait p ga off thr) p (fun s =>
    let a := sigAddr s ga off
    match globalAddr s a 8 8 .rd false with
    | (_, some e) => (s, some e)
    | (pa, none) =>
      match s.cur.sig with
      | none => (announceSig s a pa thr.toInt, some (.block .sigWait))
      | some .satisfied => (s.updCur (fun c => { c with sig := none }), none)
      | some _ => (s, some (.block .sigWait)))

/-- The masked bits of an XB word are all set (R383). -/
def State.cwaitMet (s : State) (pa : Nat) (mask : Word) : Bool := decide (BitVec.ofNat 64 (s.load pa 8) &&& mask = mask)

/-- A sync word's generation has been reached (R384, R200). -/
def State.swaitMet (s : State) (pa : Nat) (g : BitVec 32) : Bool :=
  decide ((BitVec.ofNat 32 (s.load (pa + 8) 4) - g).toNat < 2 ^ 31)

/-- `cwait` (R383). -/
def execCwait (p : BitVec 4) (gm : BitVec 6) (off : BitVec 12) (s : State) : Out :=
  runSlot s (.cwait p gm off) p (fun s =>
    let pa := bufAddr s.curCore .xb (8 * off.toNat)
    if s.cwaitMet pa (s.cur.gr gm) then (s, none) else (s, some (.block (.cwait pa (s.cur.gr gm)))))

/-- `swait` (R384). -/
def execSwait (p : BitVec 4) (gg : BitVec 6) (off : BitVec 11) (s : State) : Out :=
  runSlot s (.swait p gg off) p (fun s =>
    let pa := bufAddr s.curCore .xb (16 * off.toNat)
    let g := (s.cur.gr gg).setWidth 32
    if s.swaitMet pa g then (s, none) else (s, some (.block (.swait pa g))))

/-- `wfe` (R385). -/
def execWfe (p : BitVec 4) (s : State) : Out :=
  runSlot s (.wfe p) p (fun s =>
    if s.cur.latch then (s.updCur (fun c => { c with latch := false }), none) else (s, some (.block .wfe)))

/-- A fence (R176): it is recorded with its bundle, so that it covers the bundle's own accesses and holds the ordered
events of later bundles. -/
def execFence (p : BitVec 4) (scope : Scope) (s : State) : Out :=
  runSlot s (.fence p scope) p (fun s => (s.stage (fun g => { g with fences := g.fences ++ [scope] }), none))

/-! ### System registers, traps and halt (R165, R387 to R389) -/

/-- `qst` (R155): COUNT and OWED of each queue. -/
def Ctx.qst (c : Ctx) : Word :=
  BitVec.ofNat 64 ((List.range 8).foldl (fun n j => n + (c.count j + 16 * c.owes j) * 2 ^ (8 * j)) 0)

/-- The code of a bank state (R158). -/
def Bank.code : Bank → Nat
  | .off => 0 | .retain => 1 | .on => 2

/-- `vbank` (R158): the banks' states as written, and WAKE. -/
def Ctx.vbank (c : Ctx) : Word :=
  BitVec.ofNat 64 (2 + c.bank1.next.code * 4 + c.bank2.next.code * 16 + c.bank3.next.code * 64
    + c.bank1.clearing.isSome.toNat * 256 + c.bank2.clearing.isSome.toNat * 512 + c.bank3.clearing.isSome.toNat * 1024)

/-- What a system register reads (R165, R387); bits 63:8 of `xcause` read zero, also where `wrsys` has written them (R281, log 83). -/
def State.readSys (s : State) (r : SysReg) : Word :=
  let c := s.cur
  match r with
  | .ltrip => c.ltrip
  | .lpass => c.lpass
  | .lrot => c.lrot
  | .ctxid => BitVec.ofNat 64 s.curCtx
  | .coreid => BitVec.ofNat 64 (s.curCore + 0x10000 * s.me.logical)
  | .dieid => BitVec.ofNat 64 (coreDie s.curCore)
  | .world => BitVec.ofNat 64 s.me.world
  | .prof => (s.tag s.curCore).setWidth 64
  | .wid => c.wid
  | .wlay => c.wlay
  | .tslc => c.tslc
  | .dtime => s.dtimeWord c.frond
  | .gtick => s.gtick
  | .qst => c.qst
  | .vbank => c.vbank
  | .xcause => c.xcause &&& 0xFF
  | .xval => c.xval
  | .xtok => c.xtok
  | .xcnt => c.xcnt

/-- `rdsys` (R387). -/
def execRdsys (p : BitVec 4) (gd : BitVec 6) (sys : SysReg) (s : State) : Out :=
  runScalar s p (countG gd) (fun s => s.toG gd (latInt s.t16) (s.readSys sys))

/-- A `vbank` value with 0b11 in a bank field (R158). -/
def vbankBad (v : Word) : Bool := decide (fld v 2 2 = 3#2) || decide (fld v 4 2 = 3#2) || decide (fld v 6 2 = 3#2)

/-- `wrsys` (R387): the value applies from the next bundle; a write to a read-only register is ignored. -/
def execWrsys (p : BitVec 4) (ga : BitVec 6) (sys : SysReg) (s : State) : Out :=
  runSlot s (.wrsys p ga sys) p (fun s =>
    let v := s.cur.gr ga
    match sys with
    | .ltrip => (s.stage (fun g => { g with ltrip := some v }), none)
    | .lpass => (s.stage (fun g => { g with lpass := some v }), none)
    | .lrot => (s.stage (fun g => { g with lrot := some (v &&& 31) }), none)
    | .vbank =>
      if vbankBad v then (s, some (.trap 0x08 0x0E)) else (s.stage (fun g => { g with vbank := some v }), none)
    | .xcause => (s.stage (fun g => { g with xcause := some v }), none)
    | .xval => (s.stage (fun g => { g with xval := some v }), none)
    | .xtok => (s.stage (fun g => { g with xtok := some v }), none)
    | .xcnt => (s.stage (fun g => { g with xcnt := some v }), none)
    | .ctxid | .coreid | .dieid | .world | .prof | .wid | .wlay | .tslc | .dtime | .gtick | .qst => (s, none))

/-- `trap` (R388): the software trap. -/
def execSoftwareTrap (p : BitVec 4) (imm : BitVec 16) (s : State) : Out :=
  runSlot s (.softwareTrap p imm) p (fun s => (s, some (.trap 0x13 (zx imm))))

/-- `halt` (R389): the item ends with the bundle. -/
def execHalt (p : BitVec 4) (s : State) : Out :=
  runSlot s (.halt p) p (fun s => (s.stage (fun g => { g with halt := true }), none))

end Sys2Proof.Machine
end

