-- ==== Sys2Proof/Machine/Contexts.lean ====
section
/-! DEFINITION. Context control (13 R274 to R276): pre-emption and resumption, the context area (R290, R292), saving (R291) and
restoring (R293). -/

namespace Sys2Proof.Machine

/-! ### The context area (R292) -/

/-- The fields of a layout record (R187), in the order of its table: low bit and width. Bit i of a field mask stands for field
i. -/
def recFields : List (Nat × Nat) :=
  [(0, 2), (2, 3), (5, 3), (8, 16), (24, 8), (32, 16), (48, 8), (56, 16)] ++
  (List.range 4).flatMap (fun d => [(72 + 46 * d, 12), (84 + 46 * d, 6), (90 + 46 * d, 13), (103 + 46 * d, 15)])
/-- The field mask of a mask of record bits. -/
def yFieldMask (m : Rec) : Nat :=
  (recFields.zipIdx.filter (fun x => m.getLsbD x.1.1)).foldl (fun a x => a + 2 ^ x.2) 0
/-- The mask of record bits of a field mask. -/
def yRecMask (n : Nat) : Rec :=
  (recFields.zipIdx.filter (fun x => decide (n / 2 ^ x.2 % 2 = 1))).foldl
    (fun a x => a ||| BitVec.ofNat 256 ((2 ^ x.1.2 - 1) * 2 ^ x.1.1)) 0

/-- The number of a register file (R281, R292). -/
def RFile.num : RFile → Nat
  | .g => 0 | .a => 1 | .p => 2 | .v => 3 | .m => 4
def rfileOf (n : Nat) : RFile := if n = 0 then .g else if n = 1 then .a else if n = 2 then .p else if n = 3 then .v else .m
/-- The width code of a pending-write entry: that of R157 for a vector result, else 0. -/
def widthCode (f : RFile) (w : Nat) : Nat := match f with | .v => if w = 1024 then 2 else if w = 512 then 1 else 0 | _ => 0
def widthOf (f : RFile) (code : Nat) : Nat :=
  match f with
  | .v => if code = 0 then 256 else if code = 1 then 512 else 1024
  | .p => 1
  | _ => 64

/-- A held record as two words (R292): valid in bit 63 and the count, then `xval`. -/
def heldWords (h : Option Held) : Nat × Nat :=
  match h with | some h => (2 ^ 63 + h.count, h.xval.toNat) | none => (0, 0)
/-- Entry kind of a resume point; 0 inside a page (R307). -/
def Point.kind : Point → Nat
  | .inside _ _ _ _ => 0
  | .entry _ _ k => k
/-- The tag of the version a point pins, or zero (R309). -/
def Core.pinnedTag (x : Core) : Point → Nat
  | .inside _ base _ _ => (x.pageTag base).toNat
  | .entry _ _ _ => 0
/-- The position of entry e of queue j (R292). -/
def Ctx.queuePos (c : Ctx) (j e : Nat) : Nat := (SMap.get 0 c.qhead j + e) % 8
/-- The positions that hold error entries, at 8 × queue + position (log 17). -/
def Ctx.errorPos (c : Ctx) : List Nat :=
  c.q.flatMap (fun e => e.2.zipIdx.filterMap (fun y => match y.1 with | .error _ => some (8 * e.1 + c.queuePos e.1 y.2) | .data _ => none))
/-- The value that a pending-write entry holds at a cycle: it enters when it would have landed (R287). -/
def Result.held (r : Result) (now : Nat) : Option Vec := if r.ready ≤ now then r.value else none
/-- A queue entry's bytes as a number. -/
def QEntry.bits : QEntry → Nat
  | .data v => v.toNat
  | .error va => va.toNat

/-- THE CONTEXT AREA (R292) of a context of a core at a cycle: offset, bytes and value of each field, but for its SPB quarter. -/
def Ctx.area (x : Core) (c : Ctx) (now : Nat) : List (Nat × Nat × Nat) :=
  [(0x0000, 8, c.point.token.toNat),
   (0x0008, 4, x.pinnedTag c.point),
   (0x000C, 4, (c.loop.len - 1) % 16 + 0x10 * (c.loop.pos % 16) + 0x100 * c.loop.active.toNat + 0x200 * (c.point.kind % 4) +
      0x800 * ((c.loop.stages - 1) % 8) + 0x10000 * (c.loop.first % 65536)),
   (0x0010, 8, c.ltrip.toNat), (0x0018, 8, c.lpass.toNat), (0x0020, 8, c.lrot.toNat), (0x0028, 8, c.vbank.toNat),
   (0x0030, 8, (c.xcause &&& 0xFF).toNat), (0x0038, 8, c.xval.toNat), (0x0040, 8, c.xtok.toNat), (0x0048, 8, c.xcnt.toNat),
   (0x0050, 8, c.wid.toNat), (0x0058, 8, c.wlay.toNat), (0x0060, 8, c.armed), (0x0068, 8, c.tslc.toNat),
   (0x0080, 8, (heldWords c.remote).1), (0x0088, 8, (heldWords c.remote).2),
   (0x0090, 8, (heldWords c.copyErr).1), (0x0098, 8, (heldWords c.copyErr).2),
   (0x00A0, 8, (heldWords c.overflow).1), (0x00A8, 8, (heldWords c.overflow).2),
   (0x0380, 8, c.p.toNat ||| 1)] ++
  c.g.map (fun e => (0x0100 + 8 * e.1, 8, e.2.toNat)) ++
  c.a.map (fun e => (0x0300 + 8 * e.1, 8, e.2.toNat)) ++
  c.m.map (fun e => (0x0388 + 8 * e.1, 8, e.2.toNat)) ++
  c.y.map (fun e => (0x0400 + 32 * e.1, 32, e.2.toNat)) ++
  (List.range 8).map (fun j => (0x0600 + 8 * j, 8, c.count j + 0x10 * SMap.get 0 c.qhead j)) ++
  (c.ywrites.zipIdx.flatMap (fun e =>
    [(0x0640 + 48 * e.2, 8, e.1.reg + 0x100 * e.1.left), (0x0648 + 48 * e.2, 8, yFieldMask e.1.mask),
     (0x0650 + 48 * e.2, 32, e.1.value.toNat)])) ++
  c.v.map (fun e => (0x0800 + 128 * e.1, 128, e.2.toNat)) ++
  (c.q.flatMap (fun e => e.2.zipIdx.map (fun y => (0x2800 + 1024 * e.1 + 128 * c.queuePos e.1 y.2, 128, y.1.bits)))) ++
  c.qspare.map (fun e => (0x2800 + 128 * e.1, 128, e.2.toNat)) ++
  [(0x6800, 8, c.record.length)] ++
  (c.record.zipIdx.flatMap (fun e =>
    [(0x6840 + 144 * e.2, 8, e.1.reg + 0x100 * e.1.file.num + 0x1000 * widthCode e.1.file e.1.width + 0x10000 * e.1.due),
     (0x6848 + 144 * e.2, 128, ((e.1.held now).getD 0).toNat)]))

/-- Reading a field of an area's bytes. -/
def areaNat (l : SMap Byte) (off n : Nat) : Nat := leNat ((List.range n).map (fun i => SMap.get 0 l (off + i)))
def areaWord (l : SMap Byte) (off : Nat) : Word := BitVec.ofNat 64 (areaNat l off 8)
/-- The bytes of an area. -/
def areaBytes (l : List (Nat × Nat × Nat)) : SMap Byte :=
  l.foldl (fun m f => (cellsAt f.1 f.2.1 f.2.2).foldl (fun m c => SMap.put 0 m c.1 c.2) m) []

/-- A held record as an area holds it; what raises it stays with the context. -/
def heldFrom (old : Option Held) (w : Nat) (xval : Word) : Option Held :=
  if 2 ^ 63 ≤ w then some { (old.getD { count := 0, xval := 0 }) with count := w % 2 ^ 32, xval := xval } else none
/-- A file of registers from an area. -/
def fileFrom {n : Nat} (l : SMap Byte) (off size count : Nat) : SMap (BitVec n) :=
  (List.range count).foldl (fun m i => SMap.put 0 m i (BitVec.ofNat n (areaNat l (off + size * i) size))) []

/-- The resume point an area names: in the version of its page with the pinned tag, of several the one pinned before, and where none is
resident in the current version (R293, R309, R310). -/
def Core.pointFrom (x : Core) (old : Point) (tag tok kind : Nat) : Point :=
  let page := tok / 0x1000000
  let land := tok / 0x10000 % 256
  if kind ≠ 0 then .entry page land kind
  else
    let l := (x.dir.filter (fun e => e.2.v && !e.2.cont && decide (e.2.page = page ∧ (x.pageTag e.1).toNat = tag))).map Prod.fst
    let first := match l with | b :: _ => some b | [] => x.current page
    let base := match old with
      | .inside _ b _ _ => if l.contains b then some b else first
      | .entry _ _ _ => first
    match base with
    | some b => .inside page b land (tok % 0x10000)
    | none => .entry page land 1

/-- A pending-write entry as an area holds it; where its value bytes stand as the context has them, its value stays what it is, which may still be
to come (R287). `n` is a fresh number. -/
def resultFrom (l : SMap Byte) (old : Option Result) (now n i : Nat) : Result :=
  let w := areaNat l (0x6840 + 144 * i) 8
  let f := rfileOf (w / 0x100 % 16)
  let r : Result :=
    { id := n, due := w / 0x10000 % 2 ^ 32, file := f, reg := w % 256, width := widthOf f (w / 0x1000 % 4),
      value := some (BitVec.ofNat 1024 (areaNat l (0x6848 + 144 * i) 128)) }
  match old with
  | some o =>
    if (o.held now).getD 0 = r.value.getD 0 then { o with due := r.due, file := r.file, reg := r.reg, width := r.width } else r
  | none => r
/-- A bank as an area holds it: one that is to go down after the results still pending for it is ON until they have landed
(R159). -/
def bankFrom (record : List Result) (k : Nat) (w : Bank) : BankSt :=
  if w ≠ .on ∧ record.any (fun r => decide (r.file = .v) && inBank k r.reg) then { st := .on, next := w } else { st := w, next := w }
/-- A bank that is OFF holds nothing (R159, R292). -/
def Ctx.loseOff (c : Ctx) : Ctx :=
  [1, 2, 3].foldl (fun c k => match (c.bankOf k).st with | .off => c.loseBank k | _ => c) c
/-- The context that an area holds (R293); its event latch is set (R385), and new pending writes take numbers from `n`. -/
def Ctx.fromArea (x : Core) (c : Ctx) (now n : Nat) (l : SMap Byte) : Ctx :=
  let lp := areaNat l 0x0C 4
  let vb := areaWord l 0x28
  let marks := match c.st with | .saved => c.qmark | _ => c.errorPos
  let record := (List.range (Min.min (areaNat l 0x6800 8) 256)).map (fun i => resultFrom l c.record[i]? now (n + i) i)
  let c := { c with
    point := x.pointFrom c.point (areaNat l 8 4) (areaNat l 0 8) (lp / 0x200 % 4)
    loop := { active := decide (lp / 0x100 % 2 = 1), first := lp / 0x10000, len := lp % 16 + 1, pos := lp / 16 % 16,
              stages := lp / 0x800 % 8 + 1 }
    ltrip := areaWord l 0x10, lpass := areaWord l 0x18, lrot := areaWord l 0x20 &&& 31
    bank1 := bankFrom record 1 (bankCode (fld vb 2 2))
    bank2 := bankFrom record 2 (bankCode (fld vb 4 2))
    bank3 := bankFrom record 3 (bankCode (fld vb 6 2))
    xcause := areaWord l 0x30, xval := areaWord l 0x38, xtok := areaWord l 0x40, xcnt := areaWord l 0x48
    wid := areaWord l 0x50, wlay := areaWord l 0x58, armed := areaNat l 0x60 8, tslc := areaWord l 0x68
    latch := true
    remote := heldFrom c.remote (areaNat l 0x80 8) (areaWord l 0x88)
    copyErr := heldFrom c.copyErr (areaNat l 0x90 8) (areaWord l 0x98)
    overflow := heldFrom c.overflow (areaNat l 0xA0 8) (areaWord l 0xA8) }
  Ctx.loseOff { c with
    g := SMap.put 0 (fileFrom l 0x100 8 64) 0 0
    a := fileFrom l 0x300 8 16
    p := BitVec.ofNat 16 (areaNat l 0x380 2) &&& 0xFFFE
    m := fileFrom l 0x388 8 8
    y := fileFrom l 0x400 32 16
    v := fileFrom l 0x800 128 64
    qhead := (List.range 8).foldl (fun m j => SMap.put 0 m j (areaNat l (0x600 + 8 * j) 8 / 16 % 8)) []
    q := (List.range 8).foldl (fun m j =>
      let w := areaNat l (0x600 + 8 * j) 8
      SMap.put [] m j ((List.range (w % 16)).map (fun e =>
        let p := 8 * j + (w / 16 % 8 + e) % 8
        let n := areaNat l (0x2800 + 128 * p) 128
        if marks.contains p then QEntry.error (BitVec.ofNat 64 n) else .data (BitVec.ofNat 1024 n)))) []
    qspare := (List.range 64).foldl (fun m p =>
      let w := areaNat l (0x600 + 8 * (p / 8)) 8
      let e := (p % 8 + 8 - w / 16 % 8) % 8
      if e < w % 16 then m else SMap.put 0 m p (BitVec.ofNat 1024 (areaNat l (0x2800 + 128 * p) 128))) []
    qmark := []
    ywrites := ((List.range 3).filter (fun i => decide (areaNat l (0x641 + 48 * i) 1 ≠ 0))).map (fun i =>
      { reg := areaNat l (0x640 + 48 * i) 1, left := areaNat l (0x641 + 48 * i) 1,
        mask := yRecMask (areaNat l (0x648 + 48 * i) 8), value := BitVec.ofNat 256 (areaNat l (0x650 + 48 * i) 32) })
    record := record }

/-- The SPB quarter of a context (R163). -/
def spbQuarter (c k : Nat) : Nat := bufAddr c .spb (0x2000 * k)
/-- All bytes of the area of a context, its SPB quarter among them. -/
def State.ctxArea (s : State) (c k : Nat) : SMap Byte :=
  let lo := spbQuarter c k
  (s.mem.filter (fun b => decide (lo ≤ b.1 ∧ b.1 < lo + 0x2000))).foldl (fun m b => SMap.put 0 m (0x4800 + (b.1 - lo)) b.2)
    (areaBytes (Ctx.area (s.core c) (s.ctx c k) s.now))
/-- A context takes what an area holds. -/
def State.ctxLoad (s : State) (c k : Nat) (l : SMap Byte) : State :=
  let s := (s.zeroise (spbQuarter c k) 0x2000).writeCells
    ((l.filter (fun b => decide (0x4800 ≤ b.1 ∧ b.1 < 0x6800))).map (fun b => (spbQuarter c k + (b.1 - 0x4800), b.2)))
  { s.updCtx c k (fun t => Ctx.fromArea (s.core c) t s.now s.seqno l) with seqno := s.seqno + 256 }

/-- Address of a context's area in the save block (R291). -/
def saveArea (base : Word) (k : Nat) : Nat := (fld base 22 26).toNat * 0x400000 + 0x10000 * k
/-- The area of a context in memory, under a world's key (R291). -/
def State.savedArea (s : State) (w : Nat) (base : Word) (k : Nat) : SMap Byte :=
  let lo := saveArea base k
  let s := s.seenBy w ((List.range 0x400).map (fun i => lo + 64 * i))
  (s.mem.filter (fun b => decide (lo ≤ b.1 ∧ b.1 < lo + 0x10000))).map (fun b => (b.1 - lo, b.2))

/-! ### The control register (R274) -/

/-- The state codes of R274. -/
def CtxState.code : CtxState → Nat
  | .idle => 0 | .ready => 1 | .running => 2 | .blocked => 3 | .trapped => 4 | .preempted => 5 | .saved => 6
/-- CTXCTL as read: ST and BSY. -/
def Core.ctxctl (x : Core) : Word :=
  BitVec.ofNat 64 ((List.range 4).foldl (fun a k =>
    a + (x.ctx k).st.code * 2 ^ (16 + 3 * k) + ((x.ctx k).saving || (x.ctx k).restoring).toNat * 2 ^ (28 + k)) 0)

/-- The core holds an almanac frond. -/
def State.almanacOn (s : State) (c : Nat) : Option Nat :=
  (s.fronds.find? (fun e => e.2.bound && !e.2.ended && decide (e.2.kind = .almanac) && e.2.cores.contains c)).map Prod.fst
/-- The context is suspended, or a pre-emption is latched: later bits and writes are judged against the state it leaves (R274). -/
def Ctx.suspended (x : Ctx) : Bool := (match x.st with | .trapped | .preempted => true | _ => false) || x.pre.isSome
/-- PRE is accepted (R275). -/
def State.preOk (s : State) (c k : Nat) : Bool :=
  (match (s.ctx c k).st with | .ready | .running | .blocked => true | _ => false) && (s.ctx c k).pre.isNone &&
  !(decide (k = 0) && (s.almanacOn c).isSome)
/-- SAV is accepted (R291): with the reserved bits of SAVEBASE zero, and not of a fenced core, whose registers nobody reads and whose engines serve
no request (R136). -/
def State.savOk (s : State) (c k : Nat) : Bool :=
  let x := s.ctx c k
  x.suspended && !x.preResume && !x.saving && !x.restoring && !(s.core c).fenced &&
  decide (fld (s.core c).savebase 0 22 = 0#22)
/-- RST is accepted (R293). -/
def State.rstOk (s : State) (c k : Nat) : Bool :=
  let x := s.ctx c k
  (match x.st with | .saved => true | _ => false) && !x.restoring && !(s.core c).fenced && decide (fld (s.core c).savebase 0 22 = 0#22) &&
  decide (x.savedAt = some (s.core c).savebase)
/-- RES is accepted (R276). -/
def State.resOk (s : State) (c k : Nat) : Bool :=
  let x := s.ctx c k
  x.suspended && !x.preResume && !x.saving && !x.restoring

/-- The offset of CTXCTL of a core. -/
def ctxctlAddr (c : Nat) : Word := cfgAddr (coreDie c) (0x200 + 8 * (c % 16))
/-- A bit that its context does not accept has no effect and is logged (R274). -/
def State.ctxRefused (s : State) (c : Nat) : State := s.cfgError (coreDie c) (ctxctlAddr c)

/-- `CONTEXT_PREEMPT` (R275): the request is latched. -/
def execContextPreempt (core ctx : Nat) (s : State) : Out :=
  .next (if s.preOk core ctx then s.updCtx core ctx (fun x => { x with pre := some (Max.max s.now (s.frond x.frond).freezeEnd) })
    else s.ctxRefused core)
/-- `CONTEXT_RESUME` (R276). -/
def execContextResume (core ctx : Nat) (s : State) : Out :=
  .next (if s.resOk core ctx then
      (if (s.ctx core ctx).pre.isSome then s.updCtx core ctx (fun x => { x with preResume := true }) else s.resume core ctx)
    else s.ctxRefused core)
/-- `CONTEXT_SAVE` (R291): the core begins to drain the context. -/
def execContextSave (core ctx : Nat) (s : State) : Out :=
  .next (if s.savOk core ctx then s.updCtx core ctx (fun x => { x with saving := true }) else s.ctxRefused core)
/-- `CONTEXT_RESTORE` (R293): the restore begins. -/
def execContextRestore (core ctx : Nat) (s : State) : Out :=
  .next (if s.rstOk core ctx then s.updCtx core ctx (fun x => { x with restoring := true }) else s.ctxRefused core)

/-- The context is drained (R291), and no bank of it is clearing (R159). -/
def State.drained (s : State) (c k : Nat) : Bool :=
  let x := s.ctx c k
  x.pre.isNone && x.owed.isEmpty && !(s.core c).engine.calls.any (fun e => decide (e.ctx = k)) && x.copies.isEmpty && x.fences.isEmpty &&
  x.heldev.isEmpty && x.record.all (fun r => (r.held s.now).isSome) &&
  x.bank1.clearing.isNone && x.bank2.clearing.isNone && x.bank3.clearing.isNone

/-- The register banks are zeroised (R291); what raises a held record, and the point pinned, stay. -/
def Ctx.bare (x : Ctx) : Ctx :=
  { x with st := .saved, saving := false, qmark := x.errorPos, g := [], a := [], p := 0, v := [], m := [], y := [], q := [],
           qhead := [], qspare := [], ltrip := 0, lpass := 0,
           lrot := 0, loop := {}, armed := 0, record := [], ywrites := [] }

/-- A context's area is written under the world key, all of it, and its registers are zeroised (R291). -/
def State.saveCtx (s : State) (c k : Nat) : State :=
  let base := (s.core c).savebase
  let area := s.ctxArea c k
  (s.writeRange (s.core c).world (saveArea base k) 0x10000 (area.map (fun b => (saveArea base k + b.1, b.2)))).updCtx c k (fun x =>
    { x.bare with savedAt := some base })
/-- `CONTEXT_SAVE_DONE` (R291, R292): never of a fenced core (R136). -/
def execContextSaveDone (core ctx : Nat) (s : State) : Out :=
  .next (if (s.ctx core ctx).saving && !(s.core core).fenced && s.drained core ctx then s.saveCtx core ctx else s)

/-- A saved context takes the area at a base and enters a state (R293). Of an area with a word that fails its check nothing is delivered, and the
frond that needed it is aborted (R138). -/
def State.loadSaved (s : State) (c k : Nat) (base : Word) (st : CtxState) : State :=
  match s.badRead ((List.range 0x2000).map (fun i => saveArea base k + 8 * i)) with
  | some b =>
    (s.updCtx c k (fun x => { x with restoring := false })).uncorrectable b (.ctx c k (s.ctx c k).frond) 0 (s.core c).world
  | none =>
    (s.ctxLoad c k (s.savedArea (s.core c).world base k)).updCtx c k (fun x => { x with st := st, restoring := false, savedAt := none })
/-- `CONTEXT_RESTORE_DONE` (R293): the context is PREEMPTED with its pending-write record in place. -/
def execContextRestoreDone (core ctx : Nat) (s : State) : Out :=
  .next (if (s.ctx core ctx).restoring && !(s.core core).fenced then s.loadSaved core ctx (s.core core).savebase .preempted else s)

/-- A write to CTXCTL (R274): PRE, SAV, RST, RES in this order, each judged against the state the bits before it leave; and whether
every bit was accepted. -/
def State.writeCtxctl (s : State) (c : Nat) (v : Word) : State × Bool :=
  let act (ok : State → Nat → Bool) (f : State → Nat → State) (sh : Nat) (a : State × Bool) : State × Bool :=
    (List.range 4).foldl (fun a k =>
      if v.getLsbD (sh + k) then (if ok a.1 k then (f a.1 k, a.2) else (a.1.ctxRefused c, false)) else a) a
  let next (o : Out) (s : State) : State := match o with | .next t => t | _ => s
  act (fun s k => s.resOk c k) (fun s k => next (execContextResume c k s) s) 4
    (act (fun s k => s.rstOk c k) (fun s k => next (execContextRestore c k s) s) 12
      (act (fun s k => s.savOk c k) (fun s k => next (execContextSave c k s) s) 8
        (act (fun s k => s.preOk c k) (fun s k => next (execContextPreempt c k s) s) 0 (s, true))))

/-! ### The window of the management core (R290) -/

/-- Core, context and offset of a window address. -/
def windowAt (die off : Nat) : Option (Nat × Nat × Nat) :=
  if 8 ≤ die ∧ die < 40 ∧ 0x100000 ≤ off ∧ off < 0x500000 then
    let o := off - 0x100000
    some (16 * (die - 8) + o / 0x40000, o / 0x10000 % 4, o % 0x10000)
  else none
/-- Writes are accepted while the context is TRAPPED or PREEMPTED. -/
def State.windowOk (s : State) (c k : Nat) : Bool := match (s.ctx c k).st with | .trapped | .preempted => true | _ => false
/-- A word read through the window; a fenced core is readable by no one (R136, log 56). -/
def State.windowRead (s : State) (c k off : Nat) : Word := if (s.core c).fenced then 0 else areaWord (s.ctxArea c k) off
/-- A word written through the window: the context takes the area with that word, and what the word does not hold stays as it
was. -/
def State.windowWrite (s : State) (c k off : Nat) (v : Word) : State :=
  let old := s.ctx c k
  (s.ctxLoad c k ((cellsAt off 8 v.toNat).foldl (fun m b => SMap.put 0 m b.1 b.2) (s.ctxArea c k))).updCtx c k (fun x =>
    { x with
      latch := old.latch
      point := if off = 0x00 ∨ off = 0x08 then x.point else old.point
      bank1 := if off = 0x28 then x.bank1 else old.bank1
      bank2 := if off = 0x28 then x.bank2 else old.bank2
      bank3 := if off = 0x28 then x.bank3 else old.bank3 })

end Sys2Proof.Machine
end

