-- ==== Sys2Proof/Machine/Float.lean ====
section
/-! DEFINITION. Number formats (10 R207 to R228): exact values, one rounding, integers, the tapered formats, scales, the K-step
cell and S48. Every function is pure: a result depends on the operand bits alone (R229). -/

namespace Sys2Proof.Machine

/-- An exact value: NaN, an infinity, or a finite value ± n / d. A zero keeps its sign (R210). -/
inductive Num
  | nan
  | inf (neg : Bool)
  | fin (neg : Bool) (n d : Nat)
  deriving DecidableEq, Repr

/-- Precision, least exponent, bits of +∞ and total bits of a binary format (R211). -/
structure FFmt where
  p : Nat
  emin : Int
  inf : Nat
  bits : Nat

def f32Fmt : FFmt := { p := 24, emin := -126, inf := 0x7F800000, bits := 32 }
def bf16Fmt : FFmt := { p := 8, emin := -126, inf := 0x7F80, bits := 16 }
def f16Fmt : FFmt := { p := 11, emin := -14, inf := 0x7C00, bits := 16 }

/-- The canonical quiet NaN (R210). -/
def FFmt.nan (f : FFmt) : Nat := f.inf + 2 ^ (f.p - 2)

/-- Parameters of a floating element format (R207). -/
def ffmt : Fmt → FFmt
  | .bf16 => bf16Fmt
  | .f16 => f16Fmt
  | _ => f32Fmt

/-- n × 2^e as a fraction. -/
def scaled (neg : Bool) (n : Nat) (e : Int) : Num :=
  if 0 ≤ e then .fin neg (n * 2 ^ e.toNat) 1 else .fin neg n (2 ^ (-e).toNat)

/-- The exact value of an encoding; subnormals are honoured (R211). -/
def decodeF (f : FFmt) (x : Nat) : Num :=
  let neg := decide (2 ^ (f.bits - 1) ≤ x % 2 ^ f.bits)
  let m := x % 2 ^ (f.bits - 1)
  let frac := m % 2 ^ (f.p - 1)
  let ex := m / 2 ^ (f.p - 1)
  if f.inf < m then .nan
  else if m = f.inf then .inf neg
  else if ex = 0 then scaled neg frac (f.emin - (f.p - 1))
  else scaled neg (frac + 2 ^ (f.p - 1)) (f.emin - (f.p - 1) + (ex - 1))

/-- Floor(Log2(n / d)) for n, d > 0. -/
def floorLog2 (n d : Nat) : Int :=
  let e : Int := (Nat.log2 n : Int) - Nat.log2 d
  let ge := if 0 ≤ e then decide (d * 2 ^ e.toNat ≤ n) else decide (d ≤ n * 2 ^ (-e).toNat)
  if ge then e else e - 1

/-- n / (d × 2^e) as a pair. -/
def overPow (n d : Nat) (e : Int) : Nat × Nat := if 0 ≤ e then (n, d * 2 ^ e.toNat) else (n * 2 ^ (-e).toNat, d)

/-- A fraction rounded to an integer magnitude under a mode (R209). -/
def roundMag (rm : Rm) (neg : Bool) (n d : Nat) : Nat :=
  let m := n / d
  let r := n % d
  let up :=
    match rm with
    | .rne => decide (d < 2 * r) || (decide (2 * r = d) && decide (m % 2 = 1))
    | .rtz => false
    | .rup => !neg && decide (r ≠ 0)
    | .rdn => neg && decide (r ≠ 0)
  if up then m + 1 else m

/-- The sign bit of a format. -/
def FFmt.sign (f : FFmt) (neg : Bool) : Nat := if neg then 2 ^ (f.bits - 1) else 0

/-- Overflow under a mode (R209): to infinity, or to the largest finite value. -/
def FFmt.over (f : FFmt) (rm : Rm) (neg : Bool) : Nat :=
  match rm, neg with
  | .rne, _ => f.inf
  | .rtz, _ => f.inf - 1
  | .rup, false => f.inf
  | .rup, true => f.inf - 1
  | .rdn, false => f.inf - 1
  | .rdn, true => f.inf

/-- Round(t, fmt, rm) (R211): the encoding of an exact value, rounded once. -/
def roundF (f : FFmt) (rm : Rm) : Num → Nat
  | .nan => f.nan
  | .inf neg => f.sign neg + f.inf
  | .fin neg n d =>
    if n = 0 then f.sign neg
    else
      let e := Max.max (floorLog2 n d) f.emin
      let q := overPow n d (e - (f.p - 1))
      let bits := (e - f.emin).toNat * 2 ^ (f.p - 1) + roundMag rm neg q.1 q.2
      if f.inf ≤ bits then f.sign neg + f.over rm neg else f.sign neg + bits

/-- RoundNE32 and RoundNEB (R211). -/
def roundNE32 (t : Num) : Nat := roundF f32Fmt .rne t
def roundNEB (t : Num) : Nat := roundF bf16Fmt .rne t

/-- Sign inversion. -/
def Num.neg : Num → Num
  | .nan => .nan
  | .inf s => .inf (!s)
  | .fin s n d => .fin (!s) n d

/-- The sum of two signed fractions with a common denominator, powers of two kept small. -/
def addFrac (n1 : Int) (d1 : Nat) (n2 : Int) (d2 : Nat) : Int × Nat :=
  if d1 = d2 then (n1 + n2, d1)
  else if d2 % d1 = 0 then (n1 * ((d2 / d1 : Nat) : Int) + n2, d2)
  else if d1 % d2 = 0 then (n1 + n2 * ((d1 / d2 : Nat) : Int), d1)
  else (n1 * (d2 : Int) + n2 * (d1 : Int), d1 * d2)

/-- A signed numerator. -/
def signedOf (neg : Bool) (n : Nat) : Int := if neg then -(n : Int) else n

/-- Exact addition with the zero sign of the mode (R210, R403). -/
def Num.add (rm : Rm) : Num → Num → Num
  | .nan, _ => .nan
  | _, .nan => .nan
  | .inf a, .inf b => if a = b then .inf a else .nan
  | .inf a, .fin _ _ _ => .inf a
  | .fin _ _ _, .inf b => .inf b
  | .fin s n d, .fin t m e =>
    let r := addFrac (signedOf s n) d (signedOf t m) e
    if r.1 = 0 then
      .fin (if n = 0 ∧ m = 0 ∧ s = t then s else decide (rm = .rdn)) 0 1
    else .fin (decide (r.1 < 0)) r.1.natAbs r.2

/-- Exact multiplication; 0 × ∞ is invalid (R403). -/
def Num.mul : Num → Num → Num
  | .nan, _ => .nan
  | _, .nan => .nan
  | .inf a, .inf b => .inf (a != b)
  | .inf a, .fin t m _ => if m = 0 then .nan else .inf (a != t)
  | .fin s n _, .inf b => if n = 0 then .nan else .inf (s != b)
  | .fin s n d, .fin t m e => .fin (s != t) (n * m) (d * e)

/-- Multiplication by 2^e. -/
def Num.shift (e : Int) : Num → Num
  | .nan => .nan
  | .inf s => .inf s
  | .fin s n d => if 0 ≤ e then .fin s (n * 2 ^ e.toNat) d else .fin s n (d * 2 ^ (-e).toNat)

/-- Numeric order of two values that are not NaN; −0 and +0 are equal. -/
def Num.lt : Num → Num → Bool
  | .nan, _ => false
  | _, .nan => false
  | .inf a, .inf b => a && !b
  | .inf a, .fin _ _ _ => a
  | .fin _ _ _, .inf b => !b
  | .fin s n d, .fin t m e => decide (signedOf s n * (e : Int) < signedOf t m * (d : Int))

def Num.isNan : Num → Bool
  | .nan => true
  | _ => false
def Num.isNeg : Num → Bool
  | .nan => false
  | .inf s => s
  | .fin s _ _ => s
def Num.isZero : Num → Bool
  | .fin _ n _ => decide (n = 0)
  | _ => false
/-- Numeric equality; NaN equals nothing. -/
def Num.eqv (a b : Num) : Bool := !a.isNan && !b.isNan && !a.lt b && !b.lt a

/-- An integer as a value. -/
def Num.ofInt (i : Int) : Num := .fin (decide (i < 0)) i.natAbs 1

/-- A value rounded to an integer under a mode, NaN to 0, and the saturation bound of an infinity left to the caller
(R212): `none` for an infinity. -/
def Num.toInt (rm : Rm) : Num → Option Int
  | .nan => some 0
  | .inf _ => none
  | .fin s n d => some (signedOf s (roundMag rm s n d))

/-! ### Integers (R212) -/

/-- The value of an integer element, signed for I, unsigned for N. -/
def intVal (f : Fmt) (x : Nat) : Int :=
  if f.isI && decide (2 ^ (f.bits - 1) ≤ x) then (x : Int) - 2 ^ f.bits else x
/-- Wrap to the bits of an element. -/
def wrapN (n : Nat) (x : Int) : Nat := (x % 2 ^ n).toNat
/-- SatS or SatU, as bits (R212). -/
def satInt (f : Fmt) (x : Int) : Nat :=
  wrapN f.bits (if f.isI then Max.max (-(2 ^ (f.bits - 1) : Int)) (Min.min x (2 ^ (f.bits - 1) - 1))
                else Max.max 0 (Min.min x (2 ^ f.bits - 1)))

/-! ### T8 and T6 (R213 to R216) -/

/-- Parameters of a tapered format: magnitude bits n, q, exponent bit, and the largest value. -/
structure TFmt where
  n : Nat
  q : Nat
  eb : Bool
  maxv : Nat

def t8Fmt : TFmt := { n := 7, q := 2, eb := true, maxv := 4096 }
def t6Fmt : TFmt := { n := 5, q := 1, eb := false, maxv := 16 }

/-- Leading bits of an n-bit magnitude equal to b. -/
def leadRun (b : Bool) (m : Nat) : Nat → Nat
  | 0 => 0
  | n + 1 => if m.testBit n = b then leadRun b m n + 1 else 0

/-- DecodeTap (R213). -/
def decodeTap (t : TFmt) (c : Nat) : Num :=
  let s := c.testBit t.n
  let m := c % 2 ^ t.n
  if m = 0 then (if s then .nan else .fin false 0 1)
  else
    let b := m.testBit (t.n - 1)
    let run := leadRun b m t.n
    let k : Int := if b then (run : Int) - 1 else -(run : Int)
    let left := t.n - run - 1
    let e := if t.eb && decide (1 ≤ left) then (m / 2 ^ (left - 1)) % 2 else 0
    let left := if t.eb && decide (1 ≤ left) then left - 1 else left
    let f := m % 2 ^ left
    (Num.fin s (2 ^ left + f) (2 ^ left)).shift ((t.q : Int) * k + e)

/-- EncodeTap (R216): rounding in the magnitude encoding. -/
def encodeTap (t : TFmt) : Num → Nat
  | .nan => 2 ^ t.n
  | .inf neg => (if neg then 2 ^ t.n else 0) + (2 ^ t.n - 1)
  | .fin neg n d =>
    let sgn := if neg then 2 ^ t.n else 0
    if n = 0 then 0
    else if t.maxv * d ≤ n then sgn + (2 ^ t.n - 1)
    else
      let l := floorLog2 n d
      let k := Int.fdiv l t.q
      let e : Int := if t.eb then l - t.q * k else 0
      -- reg: k + 1 ones and a zero, or −k zeros and a one
      let len := if 0 ≤ k then k.toNat + 2 else (-k).toNat + 1
      let reg := if 0 ≤ k then 2 ^ (k.toNat + 2) - 2 else 1
      let pre := if t.eb then 2 * reg + e.toNat else reg
      let plen := if t.eb then len + 1 else len
      -- f = a / 2^(q k + e) − 1
      let q := overPow n d (t.q * k + e)
      let x := pre * q.2 + (q.1 - q.2)
      let num := x * 2 ^ t.n
      let den := q.2 * 2 ^ plen
      let m := roundMag .rne false num den
      if m = 0 then 0 else sgn + m

/-- ScaleFor (R219). -/
def scaleFor (t8 : Bool) : Num → Nat
  | .nan => 0xFF
  | .inf _ => 0xFF
  | .fin _ n d =>
    if n = 0 then 127
    else (Max.max 0 (Min.min 254 (floorLog2 n d - (if t8 then 5 else 2) + 127))).toNat

/-! ### Any format -/

/-- The exact value of an element of a format (R228). -/
def decodeAny (f : Fmt) (x : Nat) : Num :=
  match f with
  | .f32 | .bf16 | .f16 => decodeF (ffmt f) x
  | .t8 => decodeTap t8Fmt x
  | .t6 => decodeTap t6Fmt x
  | .e8 => if x = 0xFF then .nan else (Num.fin false 1 1).shift ((x : Int) - 127)
  | _ => Num.ofInt (intVal f x)

/-- A value converted into an integer format: rounded, saturated, NaN to 0 (R212). -/
def numToInt (f : Fmt) (rm : Rm) (x : Num) : Nat :=
  match x with
  | .inf neg => satInt f (if neg then -(2 ^ 64) else 2 ^ 64)
  | x => satInt f ((x.toInt rm).getD 0)

/-- The single conversion of R228 and R414. -/
def convert (src dst : Fmt) (rm : Rm) (sat : Bool) (x : Nat) : Nat :=
  match dst with
  | .f32 | .bf16 | .f16 => roundF (ffmt dst) rm (decodeAny src x)
  | .t8 => encodeTap t8Fmt (decodeAny src x)
  | .t6 => encodeTap t6Fmt (decodeAny src x)
  | .e8 => x
  | _ =>
    if src.isIN then (if sat then satInt dst (intVal src x) else wrapN dst.bits (intVal src x))
    else numToInt dst rm (decodeAny src x)

/-! ### The K-step cell (R220, R221) -/

/-- One product of a cell: `none` marks NaN or an invalid product. -/
def kprod (a b : Num) (sa sb : Nat) : Num :=
  if sa = 0xFF ∨ sb = 0xFF then .nan else ((a.mul b).shift ((sa : Int) - 127)).shift ((sb : Int) - 127)

/-- The new C element: the exact sum of the products rounded once, then one binary32 addition. -/
def kcell (prods : List Num) (c : Nat) : Nat :=
  let t := prods.foldl (Num.add .rne) (.fin false 0 1)
  let d := match t with | .fin _ 0 _ => 0 | t => roundNE32 t
  roundNE32 ((decodeF f32Fmt c).add .rne (decodeF f32Fmt d))

/-! ### S48 (R225, R226) -/

def inS48 (x : Int) : Bool := decide (-(2 ^ 47) ≤ x ∧ x ≤ 2 ^ 47 - 1)
def satS48 (x : Int) : Int := Max.max (-(2 ^ 47)) (Min.min (2 ^ 47 - 1) x)
/-- ToS48: `none` for a NaN or infinite addend. -/
def toS48 (d : Num) (sc : Int) : Option Int :=
  match d with
  | .fin _ _ _ => (d.shift (-sc)).toInt .rne
  | _ => none
/-- FromS48. -/
def fromS48 (x sc : Int) : Nat := roundNE32 ((Num.ofInt x).shift sc)
/-- The 48-bit reading of an element. -/
def s48Val (x : Nat) : Int := if 2 ^ 47 ≤ x % 2 ^ 48 then ((x % 2 ^ 48 : Nat) : Int) - 2 ^ 48 else (x % 2 ^ 48 : Nat)
/-- SaAddElem (R226): `none` is OVERFLOW. -/
def saAddElem (x ss : Int) (d : Num) (sc : Int) : Option (Int × Int) :=
  match toS48 d sc with
  | none => none
  | some dd => if inS48 dd && inS48 (x + dd) then some (x + dd, ss + 2 * x * dd + dd * dd) else none

end Sys2Proof.Machine
end

