-- ==== Sys2Proof/Machine/Layout.lean ====
section
/-! DEFINITION. Layout records and tiles (09 R187 to R191), and the Y slot (19 R456, R457). -/

namespace Sys2Proof.Machine

/-! ### Records (R187) -/

/-- A field of a record. -/
def recField (r : Rec) (lo n : Nat) : Nat := r.toNat / 2 ^ lo % 2 ^ n
/-- First bit of SZd, BXd, OGd and STd with their widths; dimension 0 has no stride. -/
def szAt (d : Nat) : Nat × Nat := if d = 0 then (32, 16) else (72 + 46 * (d - 1), 12)
def bxAt (d : Nat) : Nat × Nat := if d = 0 then (48, 8) else (84 + 46 * (d - 1), 6)
def ogAt (d : Nat) : Nat × Nat := if d = 0 then (56, 16) else (90 + 46 * (d - 1), 13)
def stAt (d : Nat) : Nat × Nat := (103 + 46 * (d - 1), 15)

/-- A tile (R190): element size, dimensions in use, and for each of the five dimensions the box, size, origin and stride; the
block geometry; the fill pattern. -/
structure Tile where
  e : Nat
  n : Nat
  box : List Nat
  size : List Nat
  org : List Int
  stride : List Nat
  geo : Nat
  fill : Nat
  deriving DecidableEq, Repr

/-- The block b1 × b0 of a geometry code. -/
def geoBlock (geo : Nat) : Nat × Nat := (2 ^ (geo - 1), 32 / 2 ^ (geo - 1))

/-- The tile of a record; `none` is copy fault 0x01 (R187, R191). -/
def recTile (r : Rec) : Option Tile :=
  let esz := recField r 0 2
  let ndm := recField r 2 3
  let geo := recField r 5 3
  let get (d : Nat) (f : Nat → Nat × Nat) : Nat := recField r (f d).1 (f d).2
  let used (d : Nat) : Bool := decide (d ≤ ndm)
  let sx (v w : Nat) : Int := if 2 ^ (w - 1) ≤ v then (v : Int) - 2 ^ w else v
  let ds := List.range 5
  let t : Tile :=
    { e := 2 ^ esz
      n := ndm + 1
      box := ds.map (fun d => if used d then get d bxAt + 1 else 1)
      size := ds.map (fun d => if used d then get d szAt + 1 else 1)
      org := ds.map (fun d => if used d then sx (get d ogAt) (ogAt d).2 else 0)
      stride := ds.map (fun d => if d = 0 then 2 ^ esz else 64 * get d stAt)
      geo := geo
      fill := recField r 8 16 }
  let b := geoBlock geo
  if 4 < ndm ∨ geo = 7 ∨ recField r 24 8 ≠ 0 then none
  else if geo ≠ 0 ∧ (esz ≠ 0 ∨ t.box.getD 0 1 % b.2 ≠ 0 ∨ t.box.getD 1 1 % b.1 ≠ 0) then none
  else some t

/-! ### Elements (R190) -/

/-- Elements of the tile. -/
def Tile.count (t : Tile) : Nat := t.box.foldl (· * ·) 1
/-- T, the bytes of the tile. -/
def Tile.bytes (t : Tile) : Nat := t.e * t.count
/-- n, the chunks of the tile. -/
def Tile.chunks (t : Tile) : Nat := (t.bytes + 511) / 512

/-- The box indices of the element at place k of the tile. -/
def Tile.index (t : Tile) (k : Nat) : List Nat :=
  let b := fun d => t.box.getD d 1
  let q := k % (b 0 * b 1)
  let o := k / (b 0 * b 1)
  let blk := geoBlock t.geo
  let i0 := if t.geo = 0 then q % b 0 else q / 32 % (b 0 / blk.2) * blk.2 + q % 32 % blk.2
  let i1 := if t.geo = 0 then q / b 0 else q / 32 / (b 0 / blk.2) * blk.1 + q % 32 / blk.2
  [i0, i1, o % b 2, o / b 2 % b 3, o / b 2 / b 3]

/-- The offset from A of the element at place k; `none` where it is out of bounds. -/
def Tile.offset (t : Tile) (k : Nat) : Option Int :=
  let i := t.index k
  let c := (List.range 5).map (fun d => t.org.getD d 0 + (i.getD d 0 : Int))
  if (List.range t.n).all (fun d => decide (0 ≤ c.getD d 0 ∧ c.getD d 0 < (t.size.getD d 1 : Int))) then
    some ((List.range 5).foldl (fun a d => a + c.getD d 0 * (t.stride.getD d 0 : Int)) 0)
  else none

/-- The smallest and the largest offset of an in-bounds element (R191); `none` where there is none. -/
def Tile.range (t : Tile) : Option (Int × Int) :=
  (List.range t.n).foldl (fun acc d =>
    match acc with
    | none => none
    | some (lo, hi) =>
      let o := t.org.getD d 0
      let first := Max.max o 0
      let last := Min.min (o + (t.box.getD d 1 : Int) - 1) ((t.size.getD d 1 : Int) - 1)
      if last < first then none
      else some (lo + first * (t.stride.getD d 0 : Int), hi + last * (t.stride.getD d 0 : Int))) (some (0, 0))

/-- The in-bounds elements in rows along dimension 0 (R190): the offsets from A of each row's first and last byte. -/
def Tile.rows (t : Tile) : List (Int × Int) :=
  let o := t.org.getD 0 0
  let first := Max.max o 0
  let last := Min.min (o + (t.box.getD 0 1 : Int) - 1) ((t.size.getD 0 1 : Int) - 1)
  if last < first then []
  else
    let starts := [1, 2, 3, 4].foldl (fun (acc : List Int) d =>
      acc.flatMap (fun a => (List.range (t.box.getD d 1)).filterMap (fun (i : Nat) =>
        let c := t.org.getD d 0 + (i : Int)
        if 0 ≤ c ∧ c < (t.size.getD d 1 : Int) then some (a + c * (t.stride.getD d 0 : Int)) else none))) [0]
    starts.map (fun a => (a + first * (t.e : Int), a + (last + 1) * (t.e : Int) - 1))

/-- The fill element (R190). -/
def Tile.fillValue (t : Tile) : Nat :=
  if t.e = 1 then t.fill % 256 else if t.e = 2 then t.fill else if t.e = 4 then t.fill * 2 ^ 16 else t.fill * 2 ^ 48

/-- The places of chunk i. -/
def Tile.places (t : Tile) (i : Nat) : List Nat :=
  (List.range (512 / t.e)).filterMap (fun j => if 512 / t.e * i + j < t.count then some (512 / t.e * i + j) else none)

/-- In the load direction: the moves of chunk i into the tile image at `dst`, and the fill bytes. -/
def Tile.loadChunk (t : Tile) (i dst : Nat) (src : Int → Nat) : List Move × List Host.Cell :=
  (t.places i).foldr (fun k acc =>
    match t.offset k with
    | some g => ((List.range t.e).map (fun j => { dst := dst + t.e * k + j, src := src g + j }) ++ acc.1, acc.2)
    | none => (acc.1, cellsAt (dst + t.e * k) t.e t.fillValue ++ acc.2)) ([], [])

/-- In the store direction: the moves of chunk i out of the tile image at `src`. -/
def Tile.storeChunk (t : Tile) (i src : Nat) (dst : Int → Nat) : List Move :=
  (t.places i).flatMap (fun k =>
    match t.offset k with
    | some g => (List.range t.e).map (fun j => { dst := dst g + j, src := src + t.e * k + j })
    | none => [])

/-- A 64-byte line of a store would hold in-bounds and out-of-bounds elements (R191 cause 0x05): the bounds of dimension 0
cut a line. A store without an in-bounds element has no such line. -/
def Tile.mixed (t : Tile) : Bool :=
  let o := t.org.getD 0 0
  let first := Max.max o 0
  let last := Min.min (o + (t.box.getD 0 1 : Int) - 1) ((t.size.getD 0 1 : Int) - 1)
  t.range.isSome && decide (first ≤ last) &&
    ((decide (first > o) && decide (first * (t.e : Int) % 64 ≠ 0)) ||
     (decide (last < o + (t.box.getD 0 1 : Int) - 1) && decide ((last + 1) * (t.e : Int) % 64 ≠ 0)))

/-! ### The Y slot (R456, R457) -/

/-- The mask of a field. -/
def fieldMask (f : Nat × Nat) : Rec := BitVec.ofNat 256 ((2 ^ f.2 - 1) * 2 ^ f.1)
/-- A value placed in a field. -/
def fieldPut (f : Nat × Nat) (v : Nat) : Rec := BitVec.ofNat 256 (v % 2 ^ f.2 * 2 ^ f.1)

/-- A Y write: in force for the bundle three after its own (R189). -/
def writeY (s : State) (i : Instr) (p yd : BitVec 4) (f : State → Rec × Rec) : Out :=
  runSlot s i p (fun s =>
    (s.updCur (fun c => { c with ywrites := c.ywrites ++ [{ reg := yd.toNat, left := 3, mask := (f s).1, value := (f s).2 }] }),
     none))

/-- Fields written together. -/
def fieldsOf (l : List ((Nat × Nat) × Nat)) : Rec × Rec :=
  l.foldl (fun a x => (a.1 ||| fieldMask x.1, a.2 ||| fieldPut x.1 x.2)) (0, 0)

/-- `yclr`. -/
def execYclr (p yd : BitVec 4) (s : State) : Out := writeY s (.yclr p yd) p yd (fun _ => (BitVec.allOnes 256, 0))

/-- `ysetd`. -/
def execYsetd (p yd : BitVec 4) (dim : BitVec 3) (stl : BitVec 14) (sth : BitVec 1) (bx : BitVec 8) (sz : BitVec 16)
    (s : State) : Out :=
  writeY s (.ysetd p yd dim stl sth bx sz) p yd (fun _ =>
    let d := dim.toNat
    fieldsOf ([(szAt d, sz.toNat), (bxAt d, bx.toNat)] ++
      (if d = 0 then [] else [(stAt d, sth.toNat * 2 ^ 14 + stl.toNat)])))

/-- `yseto`. -/
def execYseto (p yd : BitVec 4) (ga gb : BitVec 6) (s : State) : Out :=
  writeY s (.yseto p yd ga gb) p yd (fun s =>
    let a := (s.cur.gr ga).toNat
    let b := (s.cur.gr gb).toNat
    fieldsOf [(ogAt 0, a), (ogAt 1, a / 2 ^ 16), (ogAt 2, a / 2 ^ 29), (ogAt 3, a / 2 ^ 42), (ogAt 4, b)])

/-- `ysetf`. -/
def execYsetf (p yd : BitVec 4) (esz : BitVec 2) (ndm : BitVec 3) (hi : BitVec 8) (fill : BitVec 16) (s : State) : Out :=
  writeY s (.ysetf p yd esz ndm hi fill) p yd (fun _ =>
    fieldsOf [((0, 2), esz.toNat), ((2, 3), ndm.toNat), ((8, 16), fill.toNat), ((24, 8), hi.toNat)])

/-- `ysetb`. -/
def execYsetb (p yd : BitVec 4) (geo : BitVec 3) (s : State) : Out :=
  writeY s (.ysetb p yd geo) p yd (fun _ => fieldsOf [((5, 3), geo.toNat)])

/-- `ycpy`. -/
def execYcpy (p yd ys : BitVec 4) (s : State) : Out :=
  writeY s (.ycpy p yd ys) p yd (fun s => (BitVec.allOnes 256, s.cur.yr ys))

end Sys2Proof.Machine
end

