-- ==== Sys2Proof/Machine/Region.lean ====
section
/-! DEFINITION. Regions of the stream accumulator (12 R254 to R261): descriptors and row headers, the checks of R257, applies,
the view of R258, and the inbound plane. Offsets are offsets in SB. -/

namespace Sys2Proof.Machine

/-! ### Bytes of SB -/

/-- A byte of SB as it stands. -/
def State.sb (s : State) (c : Nat) : Nat → Byte := fun o => s.byte (bufAddr c .sb o)
/-- n bytes of SB as a number. -/
def sbNat (rd : Nat → Byte) (off n : Nat) : Nat := leNat ((List.range n).map (fun i => rd (off + i)))
/-- n bytes of SB as cells. -/
def sbCells (c off n v : Nat) : List Host.Cell := cellsAt (bufAddr c .sb off) n v

/-- Cycles of a frond's freezes in (g, n]. -/
def frozenIn (l : List (Nat × Nat)) (g n : Nat) : Nat :=
  l.foldl (fun a f => a + (Min.min n f.2 - Max.max g f.1)) 0
/-- Domain cycles of a frond since global cycle g (R172). -/
def State.ageOf (s : State) (f g : Nat) : Nat := s.now - g - frozenIn (s.frond f).freezes g s.now

/-- SB as a reader of frond f sees it (R258): timed applies made less than A cycles ago are hidden. -/
def State.sbView (s : State) (c f : Nat) : Nat → Byte :=
  let hidden := ((s.core c).saUndo.filter (fun e => decide (s.ageOf f e.1 < latSaAdd s.t16))).flatMap Prod.snd
  fun o =>
    match hidden.reverse.find? (fun e => decide (e.1 = bufAddr c .sb o)) with
    | some e => e.2
    | none => s.sb c o

/-- A timed apply: the old bytes are kept for the view. -/
def State.saApply (s : State) (c : Nat) (cells : List Host.Cell) : State :=
  (s.updCore c (fun x => { x with saUndo := (s.now, cells.map (fun e => (e.1, s.byte e.1))) :: x.saUndo })).timedWrite cells
/-- A restore's bytes: no earlier apply hides them. -/
def State.saRestore (s : State) (c : Nat) (cells : List Host.Cell) : State :=
  (s.updCore c (fun x =>
    { x with saUndo := x.saUndo.map (fun u => (u.1, u.2.filter (fun e => !(cells.map Prod.fst).contains e.1))) })).timedWrite cells

/-! ### Descriptors (R254, R255) -/

/-- A region's descriptor and what follows from it; `ok` is its part of cause 0x01 (R257), and `fields` that part but for the region's end. -/
structure SaDesc where
  reg : Nat
  nel : Nat
  nrow : Nat
  scb : Nat
  sc : Int
  gsz : Nat
  grk : Nat
  gfr : Nat
  ibp : Bool
  vld : Bool
  islot : Nat
  eps : Nat
  xtab : Nat
  rstride : Nat
  nelp : Nat
  fields : Bool
  ok : Bool
  deriving DecidableEq, Repr

/-- Units of n that hold x, in bytes. -/
def roundUp (x n : Nat) : Nat := n * ((x + n - 1) / n)

/-- The descriptor at REG. -/
def descAt (rd : Nat → Byte) (reg : Nat) : SaDesc :=
  let w := sbNat rd reg 64
  let f (lo n : Nat) : Nat := w / 2 ^ lo % 2 ^ n
  let nel := f 0 13 + 1
  let nrow := f 13 13 + 1
  let sc : Int := if 128 ≤ f 26 8 then (f 26 8 : Int) - 256 else f 26 8
  let rs := roundUp (32 + 6 * nel) 64
  let nelp := roundUp nel 32
  let ibp := decide (f 51 1 = 1)
  let vld := decide (f 52 1 = 1)
  let size := 64 + nrow * rs + (if ibp then 6 * nelp * nrow else 0)
  let fields := vld && decide (f 55 9 = 0 ∧ w / 2 ^ 111 = 0 ∧ -96 ≤ sc ∧ sc ≤ 64 ∧ f 38 4 ≤ f 34 4 ∧ f 87 8 ≠ 255 ∧ f 95 1 = 0)
  { reg := reg, nel := nel, nrow := nrow, scb := f 26 8, sc := sc, gsz := f 34 4 + 1, grk := f 38 4, gfr := f 42 9,
    ibp := ibp, vld := vld, islot := f 53 2, eps := f 64 32, xtab := f 96 15, rstride := rs, nelp := nelp,
    fields := fields, ok := fields && decide (reg + size ≤ 262144) }

/-- Bytes of the region (R254), its plane among them. -/
def SaDesc.size (d : SaDesc) : Nat := 64 + d.nrow * d.rstride + (if d.ibp then 6 * d.nelp * d.nrow else 0)
/-- First byte of row r. -/
def SaDesc.row (d : SaDesc) (r : Nat) : Nat := d.reg + 64 + r * d.rstride
/-- Element e of row r. -/
def SaDesc.elem (d : SaDesc) (r e : Nat) : Nat := d.row r + 32 + 6 * e
/-- PB, the inbound plane. -/
def SaDesc.planeBase (d : SaDesc) : Nat := d.reg + 64 + d.nrow * d.rstride
/-- Plane delta (r, e). -/
def SaDesc.delta (d : SaDesc) (r e : Nat) : Nat := d.planeBase + 6 * (r * d.nelp + e)
/-- The exchange-table slot of a row (R262): an XB offset. -/
def SaDesc.slot (d : SaDesc) (r : Nat) : Nat := d.xtab + 16 * (d.gsz + 1) * (r % 16)

/-! ### SA pointers and the checks of R257 -/

/-- Fields of an SA pointer. -/
def saReg (p : Nat) : Nat := p % 2 ^ 18
def saRow (p : Nat) : Nat := p / 2 ^ 27 % 2 ^ 13
def saElem (p : Nat) : Nat := p / 2 ^ 40 % 2 ^ 13
/-- A pointer of its fields. -/
def saPtr (reg row el : Nat) : Word := BitVec.ofNat 64 (reg + row % 2 ^ 13 * 2 ^ 27 + el % 2 ^ 13 * 2 ^ 40)

/-- Who checks: an add or a drain, `sa.nrd`, `sa.sax`, a core or package seal, a group seal. -/
inductive SaUse | add | nrd | sax | seal_ | sealG
  deriving DecidableEq, Repr

/-- A row header fails cause 0x04. -/
def rowHeaderBad (rd : Nat → Byte) (d : SaDesc) (u : SaUse) (r : Nat) : Bool :=
  let h := sbNat rd (d.row r) 32
  let cnt := h / 2 ^ 128 % 2 ^ 16
  decide (h / 2 ^ 144 % 256 ≠ d.scb ∨ h / 2 ^ 155 ≠ 0) || (decide (u = .nrd) && decide (cnt = 0 ∨ 8192 < cnt))

/-- The first cause of R257, in the order 0x02, 0x01, 0x03, 0x04, 0x05, 0x06; 0 for none. -/
def saFault (rd : Nat → Byte) (p : Nat) (u : SaUse) (cnt rows ncore : Nat) : Nat :=
  let seal_ := decide (u = .seal_ ∨ u = .sealG)
  let d := descAt rd (saReg p)
  let r0 := saRow p
  let group := decide (u = .sax ∨ u = .sealG)
  if p / 2 ^ 18 % 2 ^ 9 ≠ 0 ∨ p / 2 ^ 53 ≠ 0 ∨ saReg p % 64 ≠ 0 then 2
  else if !d.ok then 1
  else if d.nrow ≤ r0 ∨ (seal_ = false ∧ (d.nrow < r0 + rows ∨ d.nel < saElem p + cnt)) then 3
  else if (List.range rows).any (fun i => decide (r0 + i < d.nrow) && rowHeaderBad rd d u (r0 + i)) then 4
  else if seal_ && (decide (rows = 0 ∨ d.nrow < r0 + rows) || (decide (u = .sealG) && decide (16 < rows))) then 5
  else if (group || (decide (u = .nrd) && decide (1 < d.gsz))) &&
      ((group && decide (d.gsz = 1)) || decide (ncore ≤ d.gfr + (d.gsz - 1) ∨ 32768 < d.xtab + 256 * (d.gsz + 1))) then 6
  else 0

/-! ### Adding (R226, R258 to R260) -/

/-- The new elements and SS of a row after addends to elements e0 onward, as cells; or the place of the addend that
overflows. -/
def addRow (rd : Nat → Byte) (c : Nat) (d : SaDesc) (r e0 : Nat) (vals : List Num) : Except Nat (List Host.Cell) :=
  let step (acc : Except Nat (Nat × Int × List Host.Cell)) (v : Num) : Except Nat (Nat × Int × List Host.Cell) :=
    match acc with
    | .error e => .error e
    | .ok (j, ss, cells) =>
      let o := d.elem r (e0 + j)
      match saAddElem (s48Val (sbNat rd o 6)) ss v d.sc with
      | none => .error j
      | some (x, ss') => .ok (j + 1, ss', cells ++ sbCells c o 6 (wrapN 48 x))
  match vals.foldl step (.ok (0, (sbNat rd (d.row r) 16 : Int), [])) with
  | .error e => .error e
  | .ok (_, ss, cells) => .ok (cells ++ sbCells c (d.row r) 16 (wrapN 128 ss))

/-- A held overflow record of a context (R284): a further one only counts. -/
def State.holdOverflow (s : State) (c k f : Nat) (xval : Word) (fold : Bool) : State :=
  s.updCtx c k (fun x =>
    if !s.keeps f c k then x
    else
      match x.overflow with
      | some h => { x with overflow := some { h with count := h.count + 1 } }
      | none => { x with overflow := some { count := 0, xval := xval, fold := fold } })

/-- The rows of a drain added to a region (R242, R260): all of them, or none. -/
def State.addRows (s : State) (c reg row sel : Nat) (rows : List (List (BitVec 32))) : Option State :=
  let rd := s.sb c
  let d := descAt rd reg
  if saFault rd (saPtr reg row sel).toNat .add ((rows.headD []).length) rows.length 1 ≠ 0 then none
  else
    let add (acc : Option (List Host.Cell × Nat)) (l : List (BitVec 32)) : Option (List Host.Cell × Nat) :=
      match acc with
      | none => none
      | some (cells, i) =>
        match addRow rd c d (row + i) sel (l.map (fun x => decodeF f32Fmt x.toNat)) with
        | .error _ => none
        | .ok l' => some (cells ++ l', i + 1)
    (rows.foldl add (some ([], 0))).map (fun r => s.saApply c r.1)

/-! ### The inbound plane (R261) -/

/-- The region of a directory entry, where it holds one that accepts untimed adds. -/
def State.inboundRegion (s : State) (c i : Nat) : Option SaDesc :=
  let reg := SMap.get 0x3FFFF (s.core c).inbound i
  if reg = 0x3FFFF then none
  else
    let d := descAt (s.sb c) reg
    if d.vld && d.ibp then some d else none

/-- The element that an aperture address names: region, row and element. -/
def State.aperture (s : State) (c a : Nat) : Option (SaDesc × Nat × Nat) :=
  (List.range 4).findSome? (fun i =>
    match s.inboundRegion c i with
    | none => none
    | some d =>
      let o := a - spadBase c - 0x180000
      let n := (o - d.planeBase) / 4
      if spadBase c + 0x180000 + d.planeBase ≤ a ∧ (o - d.planeBase) % 4 = 0 ∧ n / d.nelp < d.nrow ∧ n % d.nelp < d.nel
      then some (d, n / d.nelp, n % d.nelp) else none)

/-- Bytes taken four at a time as FP32 elements with their addresses. -/
def words4 : List Host.Cell → List (Nat × Nat)
  | a :: b :: c :: d :: r => (a.1, leNat [a.2, b.2, c.2, d.2]) :: words4 r
  | _ => []

/-- What became of an arrival. -/
inductive Arrival
  | miss
  | range (s : State)
  | ok (s : State)

/-- An arrival of FP32 addends at the aperture of a core (R261): a miss is an access error at the destination; an addend out
of range, each against the deltas as the arrival finds them, sets OVF and commits nothing; else every delta is added and UNS set. -/
def State.saArrive (s : State) (c : Nat) (cells : List Host.Cell) : Arrival :=
  let ws := words4 cells
  match ws.mapM (fun w => (s.aperture c w.1).map (fun x => (x, w.2))) with
  | none => .miss
  | some hits =>
    let heads := (hits.map (fun h => h.1.1.row h.1.2.1)).eraseDups
    let mark (t : State) (b : Nat) : State :=
      heads.foldl (fun t o =>
        let a := bufAddr c .sb (o + 19)
        t.setByte a (t.byte a ||| BitVec.twoPow 8 b)) t
    let plane (h : (SaDesc × Nat × Nat) × Nat) : Nat := h.1.1.delta h.1.2.1 h.1.2.2
    let fits (h : (SaDesc × Nat × Nat) × Nat) : Bool :=
      (toS48 (decodeF f32Fmt h.2) h.1.1.sc).any (fun dd => inS48 dd && inS48 (s48Val (sbNat (s.sb c) (plane h) 6) + dd))
    let add (t : State) (h : (SaDesc × Nat × Nat) × Nat) : State :=
      let x := s48Val (sbNat (t.sb c) (plane h) 6) + (toS48 (decodeF f32Fmt h.2) h.1.1.sc).getD 0
      t.writeCells (sbCells c (plane h) 6 (wrapN 48 x))
    if hits.all fits then .ok (mark (hits.foldl add s) 0) else .range (mark s 1)

end Sys2Proof.Machine
end

