-- ==== Sys2Proof/Machine/Causal.lean ====
section
/-! DEFINITION. Untimed accesses at their homes (08 R173, R174; 09 R192, R195 to R202; 06 R141): the causal conditions, serves,
applies, atomics, pushes, refusals and responses, and what each response settles at the issuer. -/

namespace Sys2Proof.Machine

/-! ### Conditions (R173, R174) -/

/-- Applied[h][k]. -/
def State.appliedAt (s : State) (h k : Nat) : Nat := SMap.get 0 s.applied (7 * h + k)
/-- CanApply of a write posted by node k. -/
def State.canApply (s : State) (a : Access) : Bool :=
  (List.range 7).all (fun j =>
    let t := SMap.get 0 a.tag (7 * j + a.home)
    if j = a.node then decide (t = s.appliedAt a.home j + 1) else decide (t ≤ s.appliedAt a.home j))
/-- CanServe: an atomic's own apply is counted by CanApply alone (R174). -/
def State.canServe (s : State) (a : Access) : Bool :=
  (List.range 7).all (fun j =>
    (a.act.writes && decide (j = a.node)) || decide (SMap.get 0 a.tag (7 * j + a.home) ≤ s.appliedAt a.home j))
/-- Its home may take the access. -/
def State.ready (s : State) (a : Access) : Bool :=
  (!a.act.writes || s.canApply a) && (!a.act.serves || s.canServe a)
/-- The core in whose scratchpad an access that writes arrives. -/
def Access.arrivesAt (a : Access) : Option Nat :=
  if a.act.writes then a.act.touches.head?.bind (fun pa => match region pa with | .spad c _ => some c | _ => none) else none
/-- The home counts an apply; an arrival in a scratchpad is noted, for the order of those of its cycle (R200). -/
def State.countApply (s : State) (a : Access) : State :=
  let t : State := { s with applied := SMap.put 0 s.applied (7 * a.home + a.node) (s.appliedAt a.home a.node + 1) }
  match a.arrivesAt with
  | some c => t.updCore c (fun x => { x with lastArrival := (s.now, a.core) })
  | none => t
/-- A serve merges the tag of a line into the reader's clock. -/
def State.mergeTag (s : State) (n pa : Nat) : State :=
  let t := SMap.get [] s.tags (lineOf pa)
  { s with clk := (List.range 49).foldl (fun m i =>
      SMap.put 0 m (49 * n + i) (Max.max (SMap.get 0 m (49 * n + i)) (SMap.get 0 t i))) s.clk }
/-- A serve of lines merges all their tags. -/
def State.mergeTags (s : State) (n : Nat) (l : List Nat) : State := l.foldl (fun s pa => s.mergeTag n pa) s

/-! ### What a home refuses (R18, R19, R59, R141, R192) -/

/-- Bytes of the range that a CXL port offers (R57): what its expander holds, at most 2 TB. -/
def State.cxlBytes (s : State) (p : Nat) : Nat := Min.min (SMap.get 0 s.hub.expanders p) 2000000000000
/-- The HDM decoder of a far die, F0 or F1, interleaves its two ports at 4 KiB (R57): bit 0 of its first decoder register (log 8). -/
def State.cxlInterleaved (s : State) (f : Nat) : Bool := (SMap.get 0 s.hub.cfg (0x1000000 * (5 + f) + 0x400)).getLsbD 0
/-- The CXL port an address belongs to, as 2 × far die + port. -/
def State.cxlPort (s : State) (pa : Nat) : Option Nat :=
  match region pa with
  | .cxl f off => some (2 * f + (if s.cxlInterleaved f then off / 4096 % 2 else off / 2 ^ 41))
  | _ => none
/-- Memory stands behind the address, and its unit is in service (R460). -/
def State.backed (s : State) (pa : Nat) : Bool :=
  match region pa with
  | .near _ off => decide (off < nearBytes)
  | .layer d off => decide (off < s.poolBytes d)
  | .spad _ _ => true
  | .lpddr _ off => decide (off < s.hub.lpddr)
  | .cxl f off =>
    !(s.cxlPort pa).any (SMap.get false s.hub.offline) &&
    (if s.cxlInterleaved f then decide (off < 2 * Min.min (s.cxlBytes (2 * f)) (s.cxlBytes (2 * f + 1)))
     else decide (off % 2 ^ 41 < s.cxlBytes (2 * f + off / 2 ^ 41)))
  | .unmapped => false

/-- A leaving layer still takes an access that was posted before its flush began (R28 step 2, R32). -/
def State.flushesFor (s : State) (die id : Nat) : Bool :=
  decide ((s.die die).st = .flushing) && s.hub.role.any (fun r => decide (id < r.flushFrom))
/-- A scratchpad window refuses an access (R192): its core is fenced, not in compute role or not granted to the world; SPB; a
write to SB that is no `sa` combine-add. -/
def State.windowRefuses (s : State) (id world c off : Nat) (sbWrite : Bool) : Bool :=
  let x := s.core c
  x.fenced || !(s.computes (coreDie c) || (s.flushesFor (coreDie c) id && decide ((s.die (coreDie c)).prior = .compute))) || !x.granted || decide (x.world ≠ world) || decide (bufAt off = .spb) ||
    (sbWrite && decide (bufAt off = .sb))
/-- One byte of an access is refused. -/
def State.refusesAt (s : State) (a : Access) (pa : Nat) : Bool :=
  match region pa with
  | .spad c off =>
    s.windowRefuses a.id a.world c off (a.act.writes && (match a.act with | .push (some .sa) _ _ _ => false | _ => true))
  | .layer d off =>
    if s.flushesFor d a.id then
      decide (rolePool (s.die d).prior ≤ off) || (decide ((s.die d).prior = .compute) && decide (a.node ≠ 1 + dieColumn d))
    else !s.backed pa || (s.computes d && decide (a.node ≠ 1 + dieColumn d))
  | _ => !s.backed pa
/-- The first address at which the home refuses an access; a combine-add in `sa` format needs a window (R261). -/
def State.refusal (s : State) (a : Access) : Option Nat :=
  match a.act with
  | .combine .sa pl => some ((pl.cells.head?.map Prod.fst).getD 0)
  | act => act.touches.find? (s.refusesAt a)

/-- Changing a posted access. -/
def State.updAccess (s : State) (id : Nat) (f : Access → Access) : State :=
  { s with posted := s.posted.map (fun a => if a.id = id then f a else a) }
/-- The access of a number. -/
def State.access (s : State) (id : Nat) : Option Access := s.posted.find? (fun a => decide (a.id = id))
/-- An access leaves. -/
def State.dropAccess (s : State) (id : Nat) : State := { s with posted := s.posted.filter (fun a => decide (a.id ≠ id)) }

/-- The destination die logs a refused access with code 0x09 (R141). -/
def State.logRefusal (s : State) (a : Access) (pa : Nat) : State :=
  s.logFault (addrDie pa)
    { kind := 0x09, world := a.world, srccore := if a.core < 512 then a.core else 0xFFFF,
      srcdie := if a.core < 512 then coreDie a.core else 0, addr := BitVec.ofNat 64 pa, token := a.token, tick := s.gtick }
/-- A home refuses an access (R141): it has no effect, the destination die logs it, and an error response leaves. -/
def State.refuse (s : State) (a : Access) (pa : Nat) : State :=
  let s := if a.act.writes then s.countApply a else s
  (s.updAccess a.id (fun a => { a with act := .read [], err := true })).logRefusal a pa

/-! ### Event latches (R385) -/

/-- An address lies in the XB of a core. -/
def xbCore (pa : Nat) : Option Nat :=
  match region pa with
  | .spad c off => if bufAt off = .xb then some c else none
  | _ => none
/-- Every context of a core has its latch set. -/
def State.latchCore (s : State) (c : Nat) : State :=
  (List.range 4).foldl (fun s k => s.updCtx c k (fun x => { x with latch := true })) s
/-- Untimed bytes that land in an XB set the latches of its core. -/
def State.latchFor (s : State) (l : List Nat) : State := ((l.filterMap xbCore).eraseDups).foldl State.latchCore s

/-! ### Values at the home -/

/-- Bytes in groups of n. -/
def groupsOf' (n : Nat) : Nat → List Host.Cell → List (List Host.Cell)
  | 0, _ => []
  | _, [] => []
  | k + 1, l => l.take n :: groupsOf' n k (l.drop n)

/-- The bytes of a payload as its home takes them: a source that has changed since issue gives each destination line its old
or its new value (R198). -/
def State.settlePayload (s : State) (pl : Payload) : State × List Host.Cell :=
  if pl.srcs.length ≠ pl.cells.length then (s, pl.cells)
  else
    let fresh := (pl.cells.zip pl.srcs).map (fun x => (x.1.1, s.byte x.2))
    let lines := (pl.cells.map (fun c => lineOf c.1)).eraseDups
    lines.foldl (fun a l =>
      let old := pl.cells.filter (fun c => decide (lineOf c.1 = l))
      let new := fresh.filter (fun c => decide (lineOf c.1 = l))
      if old = new then (a.1, a.2 ++ old)
      else
        let ch := a.1.choose 2
        (ch.2, a.2 ++ (if ch.1 = 0 then old else new))) (s, [])

/-- A combined element (R202). -/
def combineElem (f : Afmt) (x y : Nat) : Nat :=
  match f with
  | .f32 => roundNE32 ((decodeF f32Fmt x).add .rne (decodeF f32Fmt y))
  | .bf16 => roundNEB ((decodeF bf16Fmt x).add .rne (decodeF bf16Fmt y))
  | .i32 => (x + y) % 2 ^ 32
  | .i64 => (x + y) % 2 ^ 64
  | .sa => x
/-- Bytes of an element of a combine-add. -/
def afmtSize : Afmt → Nat
  | .bf16 => 2
  | .i64 => 8
  | _ => 4
/-- The bytes that a combine-add of a payload writes, element by element. -/
def State.combined (s : State) (f : Afmt) (cells : List Host.Cell) : State :=
  (groupsOf' (afmtSize f) cells.length cells).foldl (fun s g =>
    match g with
    | [] => s
    | (pa, _) :: _ => s.store pa (afmtSize f) (combineElem f (s.load pa (afmtSize f)) (leNat (g.map Prod.snd)))) s

/-- An arrival for a sync word (R200): its new bytes, and whether GEN advances. -/
def syncStep (total count gen b : Nat) : Nat × Nat × Bool :=
  let n := count + b
  if total ≠ 0 ∧ total ≤ n then ((n - total) % 2 ^ 32, (gen + 1) % 2 ^ 32, true) else (n % 2 ^ 32, gen, false)
/-- The sync word of an arrival is updated. Its bits 127:96, which the rule has no software write, stay as they stand (log 70). -/
def State.syncArrive (s : State) (c : Nat) (w : Option Nat) (b : Nat) : State :=
  match w with
  | none => s
  | some pa =>
    let r := syncStep (s.load pa 4) (s.load (pa + 4) 4) (s.load (pa + 8) 4) b
    let s := (s.store (pa + 4) 4 r.1).store (pa + 8) 4 r.2.1
    if r.2.2 then s.latchCore c else s

/-! ### What a response settles at the issuer -/

/-- A held remote-write record of a context (R141, R284). -/
def State.holdRemote (s : State) (c k f : Nat) (va : Word) : State :=
  s.updCtx c k (fun x =>
    if !s.keeps f c k then x
    else
      match x.remote with
      | some h => { x with remote := some { h with count := h.count + 1 } }
      | none => { x with remote := some { count := 0, xval := va } })
/-- A held copy-error record (R197): the first failed chunk, and the bits that raise it. -/
def State.holdCopy (s : State) (c k f chunk cbm : Nat) : State :=
  s.updCtx c k (fun x =>
    if !s.keeps f c k then x
    else
      let b := (cbm + chunk / 8, chunk % 8)
      match x.copyErr with
      | some h => { x with copyErr := some { h with count := h.count + 1, bits := h.bits ++ [b] } }
      | none => { x with copyErr := some { count := 0, xval := BitVec.ofNat 64 chunk, bits := [b] } })

/-- Changing a chunk of an outstanding copy. -/
def Ctx.updChunk (x : Ctx) (copy i : Nat) (f : Chunk → Chunk) : Ctx :=
  { x with copies := x.copies.map (fun c : CopySt =>
      if c.id = copy then { c with chunks := c.chunks.map (fun h : Chunk => if h.i = i then f h else h) } else c) }
/-- A chunk of an outstanding copy. -/
def Ctx.chunk (x : Ctx) (copy i : Nat) : Option Chunk :=
  (x.copies.find? (fun c => decide (c.id = copy))).bind (fun c => c.chunks.find? (fun h => decide (h.i = i)))

/-- The bytes an operation brought, in order. -/
def HostOp.bytes (o : HostOp) : List Byte := (List.range o.len).map (fun i => ((o.cells.find? (fun c => decide (c.1 = i))).map Prod.snd).getD 0)
/-- An operation from outside whose parts are all performed is answered (R54, R203); a put of a channel ends silently. -/
def State.finishOp (s : State) (op : Nat) : State :=
  match s.hub.ops.find? (fun e => decide (e.1 = op)) with
  | none => s
  | some (_, o) =>
    if o.waiting ≠ 0 then s
    else
      let s := s.updHub (fun h =>
        { h with ops := SMap.erase h.ops op
                 channels := h.channels.map (fun c : Nat × Channel =>
                   (c.1, { c.2 with busy := if c.2.busy = some op then none else c.2.busy })) })
      match o.peer with
      | some (m, n) => s.queueMsg m (.reply n o.world (!o.err) (if o.kind = .get ∧ !o.err then o.bytes else []))
      | none =>
        if o.silent then s
        else if o.err then s.answer .accessError
        else match o.kind with
          | .put => s.answer .done
          | .get => s.answer (.bytes o.bytes)
          | .word => s.answer (.word o.word)
/-- A part of an operation from outside is performed (R54). -/
def State.hostPart (s : State) (op i : Nat) (err : Bool) (cells : List Host.Cell) (w : Word) : State :=
  (s.updHub (fun h =>
    match h.ops.find? (fun e => decide (e.1 = op)) with
    | none => h
    | some (_, o) =>
      let o := { o with waiting := o.waiting - 1, err := o.err || err,
                        cells := o.cells ++ cells.map (fun c => (i + c.1, c.2)), word := if o.kind = .word then w else o.word }
      { h with ops := SMap.set h.ops op o })).finishOp op
/-- A part of a packet's work is performed. -/
def State.packetPart (s : State) (id : Nat) (err : Bool) : State :=
  { s with packets := s.packets.map (fun p : Packet =>
      if p.id = id then { p with waiting := p.waiting - 1, err := p.err || err } else p) }

/-- THE RESPONSE of a performed access reaches its issuer (R169, R195, R437). -/
def State.respond (s : State) (id : Nat) : State :=
  match s.access id with
  | none => s
  | some a =>
    match a.done with
    | none => s
    | some (cells, v) =>
      let s := s.dropAccess id
      match a.owed with
      | .none | .store _ | .sig _ _ | .mig _ => s
      | .queue q _ => if s.keeps a.frond a.core a.ctx then s.deliver a.core a.ctx q a.id (.data (v.setWidth 1024)) else s
      | .chunk copy i _ _ =>
        s.updCtx a.core a.ctx (fun x => x.updChunk copy i (fun h => { h with waiting := h.waiting - 1, cells := h.cells ++ cells }))
      | .host op i => s.hostPart op i false cells v
      | .packet p => s.packetPart p false

/-- A failed access settles what it owed (R141, R178, R197, R284, R382). -/
def State.settleFailure (s : State) (a : Access) : State :=
  match a.owed with
  | .none => s
  | .queue q va => if s.keeps a.frond a.core a.ctx then s.deliver a.core a.ctx q a.id (.error va) else s
  | .chunk copy i va st =>
    let first := ((s.ctx a.core a.ctx).chunk copy i).all (fun h => !h.failed)
    let s := s.updCtx a.core a.ctx (fun x => x.updChunk copy i (fun h => { h with waiting := h.waiting - 1, failed := true }))
    if st && first then s.holdRemote a.core a.ctx a.frond va else s
  | .store va => s.holdRemote a.core a.ctx a.frond va
  | .sig _ va =>
    s.updCtx a.core a.ctx (fun x => if x.sig = some (.posted a.id) then { x with sig := some (.error va) } else x)
  | .mig copy =>
    s.updCtx a.core a.ctx (fun x => x.updChunk copy 0 (fun h => { h with waiting := 0, failed := true }))
  | .host op i => s.hostPart op i true [] 0
  | .packet p => s.packetPart p true

/-! ### Events at a home -/

/-- `ERROR_RESPONSE_ARRIVAL` (R141): the failure is settled, and a fence whose set holds the access completes with it
(R178). -/
def execErrorResponseArrival (id : Nat) (s : State) : Out :=
  match s.access id with
  | none => .next s
  | some a =>
    if !a.err || a.act.writes then .next s
    else
      let s := (s.dropAccess id).settleFailure a
      .next (if a.core < 512 then
        s.updCtx a.core a.ctx (fun x =>
          { x with fences := x.fences.map (fun f : FenceSt =>
              if f.set.contains id then { f with set := [], err := true } else f) })
      else s)

/-- `UNTIMED_APPLY` (R173): a write, or a write without effect that is only counted. -/
def execUntimedApply (id : Nat) (s : State) : Out :=
  match s.access id with
  | none => .next s
  | some a =>
    if a.done.isSome || !s.canApply a then .next s
    else
      match a.act with
      | .void =>
        let s := s.countApply a
        .next (if a.err then s.updAccess id (fun a => { a with act := .read [] }) else s.dropAccess id)
      | .write pl =>
        match s.refusal a with
        | some pa => .next (s.refuse a pa)
        | none =>
          let r := s.settlePayload pl
          let s := (((r.1.claim a.world (r.2.map Prod.fst)).writeCells r.2).tagLines r.2 a.tag).latchFor (r.2.map Prod.fst)
          .next ((s.countApply a).updAccess id (fun a => { a with done := some ([], 0) }))
      | _ => .next s

/-- A served signal read (R174, R382): satisfied, or to be posted again at the next frame tick; a read of an earlier attempt is
ignored. -/
def State.sigServed (s : State) (a : Access) (thr v : Int) : State :=
  (s.dropAccess a.id).updCtx a.core a.ctx (fun x =>
    if x.sig = some (.posted a.id) then { x with sig := some (if v ≤ thr then .satisfied else .repost a) } else x)

/-- The entry maps the 2 MiB frame at an address, whatever its base and its size. -/
def Window.mapsFrame (w : Window) (frame : Nat) : Bool := w.v && decide (w.pbase ≤ frame ∧ frame + pageBytes ≤ w.pbase + w.bytes)
/-- The frame in which a page stands, by the table of the core that moves it. -/
def State.migFrame (s : State) (core va : Nat) : Option Nat :=
  ((s.core core).windows.map Prod.snd).findSome? (fun w => if w.v && decide (w.vbase = va) then some w.pbase else none)
/-- `UNTIMED_SERVE` (R173): a read; the first step of a page move is made by firmware (R205). -/
def execUntimedServe (id : Nat) (s : State) : Out :=
  match s.access id with
  | none => .next s
  | some a =>
    if a.done.isSome || a.err || !s.canServe a then .next s
    else
      match a.act with
      | .read moves =>
        match s.refusal a with
        | some pa => .next (s.refuse a pa)
        | none =>
          match s.badRead (moves.map Move.src) with
          | some pa => .next ((s.updAccess id Access.failed).uncorrectable pa a.requester a.token a.world)
          | none =>
          let seen := s.seenBy a.world (moves.map Move.src)
          let cells := moves.map (fun m => (m.dst, seen.byte m.src))
          .next ((s.mergeTags a.node (moves.map Move.src)).updAccess id (fun a => { a with done := some (cells, 0) }))
      | .sigRead pa =>
        match s.refusal a with
        | some pa => .next (s.refuse a pa)
        | none =>
          match s.badRead [pa] with
          | some pa => .next ((s.updAccess id Access.failed).uncorrectable pa a.requester a.token a.world)
          | none =>
          let v : Word := BitVec.ofNat 64 ((s.seenBy a.world [pa]).load pa 8)
          let s := s.mergeTag a.node pa
          match a.owed with
          | .sig thr _ => .next (s.sigServed a thr v.toInt)
          | _ => .next (s.updAccess id (fun a => { a with done := some (cellsAt pa 8 v.toNat, v) }))
      | .move va _ =>
        -- step 1: MIG in every translation entry of the page, and the writes posted before it
        let pb := s.migFrame a.core va.toNat
        let page (w : Window) : Bool := pb.any w.mapsFrame
        let inPage (pa : Nat) : Bool := pb.any (fun b => decide (b ≤ pa ∧ pa < b + pageBytes))
        let before := (s.posted.filter (fun b => b.act.writes && b.act.touches.any inPage)).map Access.id
        let s := { s with cores := s.cores.map (fun e : Nat × Core =>
          if e.2.world = a.world then
            (e.1, { e.2 with windows := e.2.windows.map (fun w : Nat × Window => if page w.2 then (w.1, { w.2 with mig := true }) else w) })
          else e) }
        let s := s.updWorld a.world (fun w =>
          { w with windows := w.windows.map (fun w : Nat × Window => if page w.2 then (w.1, { w.2 with mig := true }) else w) })
        let s := s.updAccess id (fun a => { a with done := some ([], 0) })
        match a.owed with
        | .mig copy =>
          .next (s.updCtx a.core a.ctx (fun x =>
            { x with copies := x.copies.map (fun c : CopySt =>
                if c.id = copy then { c with mig := c.mig.map (fun m => { m with marked := true, writes := before }) } else c) }))
        | _ => .next s
      | _ => .next s

/-- The new memory of an atomic at its home, and the old value. -/
def State.atomicAt (s : State) (a : Access) : State × Word :=
  match a.act with
  | .atomic pa n aop v cmp =>
    let old := s.load pa n
    let new := atomNew aop (8 * n) old (v.toNat % 2 ^ (8 * n)) (cmp.toNat % 2 ^ (8 * n))
    ((s.store pa n new).tagLines [(pa, 0)] a.tag, BitVec.ofNat 64 old)
  | .dec pa k =>
    let old := s.load pa 8
    ((s.store pa 8 (BitVec.ofNat 64 old - k).toNat).tagLines [(pa, 0)] a.tag, BitVec.ofNat 64 old)
  | .combine f pl =>
    let r := s.settlePayload pl
    ((r.1.combined f r.2).tagLines r.2 a.tag, 0)
  | _ => (s, 0)

/-- `UNTIMED_ATOMIC` (R174, R202): serve and apply in one step. -/
def execUntimedAtomic (id : Nat) (s : State) : Out :=
  match s.access id with
  | none => .next s
  | some a =>
    if a.done.isSome || !s.canApply a || !s.canServe a then .next s
    else
      match a.act with
      | .atomic _ _ _ _ _ | .dec _ _ | .combine _ _ =>
        match s.refusal a with
        | some pa => .next (s.refuse a pa)
        | none =>
          let l := a.act.touches
          match s.badRead l with
          | some pa => .next (((s.countApply a).updAccess id (fun a => { a with act := .read [], err := true })).uncorrectable pa
              a.requester a.token a.world)
          | none =>
          let r := ((s.mergeTags a.node l).claim a.world l).atomicAt a
          .next (((r.1.latchFor l).countApply a).updAccess id (fun a => { a with done := some ([], r.2) }))
      | _ => .next s

/-- The core whose window a push names. -/
def pushCore (w : Option Nat) (pl : Payload) : Nat :=
  match (pl.cells.map Prod.fst ++ w.toList).head? with
  | some pa => match region pa with | .spad c _ => c | _ => 0
  | none => 0

/-- `PUSH_ARRIVAL` (R167, R200): a chunk writes or combines its lines and updates its sync word in one step. A combine-add is a
serve as well (R174, R202): its lines' tags enter the issuer's clock. -/
def execPushArrival (id : Nat) (s : State) : Out :=
  match s.access id with
  | none => .next s
  | some a =>
    if a.done.isSome || !s.ready a then .next s
    else
      match a.act with
      | .push (some .sa) _ _ _ => .next s
      | .push add sync b pl =>
        match s.refusal a with
        | some pa => .next (s.refuse a pa)
        | none =>
          let r := (if add.isSome then s.mergeTags a.node (lineStarts (pl.cells.map Prod.fst)) else s).settlePayload pl
          let t := match add with
            | none => r.1.writeCells r.2
            | some f => r.1.combined f r.2
          let t := ((t.tagLines r.2 a.tag).latchFor (r.2.map Prod.fst)).syncArrive (pushCore sync pl) sync b
          .next ((t.countApply a).updAccess id (fun a => { a with done := some ([], 0) }))
      | _ => .next s

/-- `SA_PLANE_ARRIVAL` (R261): an `sa` combine-add reaches the plane, or sets OVF and is refused, with its sync word in one
step. -/
def execSaPlaneArrival (id : Nat) (s : State) : Out :=
  match s.access id with
  | none => .next s
  | some a =>
    if a.done.isSome || !s.ready a then .next s
    else
      match a.act with
      | .push (some .sa) sync b pl =>
        match s.refusal a with
        | some pa => .next (s.refuse a pa)
        | none =>
          let c := pushCore sync pl
          let r := (s.mergeTags a.node (lineStarts (pl.cells.map Prod.fst))).settlePayload pl
          match r.1.saArrive c r.2 with
          | .miss => .next (s.refuse a ((pl.cells.head?.map Prod.fst).getD 0))
          | .range t => .next ((t.countApply a).updAccess id (fun a => { a with act := .read [], err := true }))
          | .ok t =>
            let t := (t.latchCore c).syncArrive c sync b
            .next ((t.countApply a).updAccess id (fun a => { a with done := some ([], 0) }))
      | _ => .next s

/-! ### Completion bits (R195) -/

/-- A chunk none of whose accesses is still to be performed is complete (R195, R196, R197): a load's lines are written, the bit is set, a
failed load is recorded, and the copy leaves with its last bit. -/
def State.completeChunk (s : State) (core ctx copy chunk : Nat) : State :=
  let x := s.ctx core ctx
  match x.copies.find? (fun c => decide (c.id = copy)), x.chunk copy chunk with
  | some cp, some ch =>
    if ch.waiting ≠ 0 then s
    else
      let cells := if cp.store || ch.failed then [] else ch.cells
      let s := (s.timedWrite cells).latchFor (cells.map Prod.fst)
      let pa := bufAddr core .xb (cp.cbm + chunk / 8)
      let s := (s.setByte pa (s.byte pa ||| BitVec.twoPow 8 (chunk % 8))).latchCore core
      let s := if ch.failed && (!cp.store || cp.mig.isSome) then s.holdCopy core ctx cp.frond chunk cp.cbm else s
      let drop (c : CopySt) : CopySt :=
        if c.id = copy then { c with chunks := c.chunks.filter (fun h => decide (h.i ≠ chunk)) } else c
      s.updCtx core ctx (fun x => { x with copies := (x.copies.map drop).filter (fun c => !c.chunks.isEmpty) })
  | _, _ => s
/-- `UNTIMED_CHUNK_COMPLETE` (R195, R196, R197). -/
def execUntimedChunkComplete (core ctx copy chunk : Nat) (s : State) : Out := .next (s.completeChunk core ctx copy chunk)
/-- A frond on the core is frozen (R206). -/
def State.coreStands (s : State) (c : Nat) : Bool := (s.frondsOn c).any s.frozen
/-- An access that is discarded behind a fence settles what it owed (R178): with the last of a chunk's, the chunk's bit is set at once, unless the
core is frozen, and then as the freeze ends (R206). -/
def State.discard (s : State) (a : Access) : State :=
  let t := s.settleFailure a
  let chunk := match a.owed with | .chunk copy i _ _ => some (copy, i) | .mig copy => some (copy, 0) | _ => none
  match chunk with
  | some (copy, i) => if t.coreStands a.core then t else t.completeChunk a.core a.ctx copy i
  | none => t

/-! ### Migration (R205) -/

/-- Changing the move of an outstanding `mig`. -/
def State.updMig (s : State) (c k copy : Nat) (f : MigSt → MigSt) : State :=
  s.updCtx c k (fun x =>
    { x with copies := x.copies.map (fun y : CopySt => if y.id = copy then { y with mig := y.mig.map f } else y) })
/-- The move of an outstanding `mig`. -/
def State.migOf (s : State) (c k copy : Nat) : Option MigSt :=
  ((s.ctx c k).copies.find? (fun y => decide (y.id = copy))).bind CopySt.mig

/-- `MIGRATION_WRITES_APPLIED` (R205 step 2). -/
def execMigrationWritesApplied (core ctx copy : Nat) (s : State) : Out :=
  match s.migOf core ctx copy with
  | some m =>
    if m.marked && m.writes.all (fun i => !(s.posted.any (fun a => decide (a.id = i) && a.act.writes && a.done.isNone))) then
      .next (s.updMig core ctx copy (fun m => { m with applied := true }))
    else .next s
  | none => .next s

/-- Entries of a table that hold no valid window, lowest first. -/
def freeEntries (l : SMap Window) : List Nat := (List.range 256).filter (fun i => !(SMap.get {} l i).v)
/-- A table in which the frame `old` is moved to a new frame, with MIG clear (R205 step 4). An entry that maps more than the page is
split into what lies before the page, the page, and what lies after it, in the lowest free entries (log 58); none where they do
not suffice. -/
def moveWindow (old frame : Nat) (l : SMap Window) : Option (SMap Window) :=
  l.foldl (fun (t : Option (SMap Window)) e =>
    match t with
    | none => none
    | some t =>
      if !e.2.mapsFrame old then some t
      else
        let before := (old - e.2.pbase) / pageBytes
        let after := e.2.size - before
        let page := { e.2 with vbase := e.2.vbase + before * pageBytes, pbase := frame, size := 0, mig := false }
        let parts := (if before = 0 then [] else [{ e.2 with size := before - 1, mig := false }]) ++
          (if after = 0 then [] else [{ e.2 with vbase := page.vbase + pageBytes, pbase := old + pageBytes, size := after - 1, mig := false }])
        let room := freeEntries t
        if room.length < parts.length then none
        else some ((room.zip parts).foldl (fun m x => SMap.put {} m x.1 x.2) (SMap.put {} t e.1 page))) (some l)
/-- A table in which MIG of the entries that map a frame is clear. -/
def clearMig (old : Nat) (l : SMap Window) : SMap Window :=
  l.map (fun w : Nat × Window => if w.2.mapsFrame old then (w.1, { w.2 with mig := false }) else w)
/-- A read still to be served reads the page where it now stands (R206). -/
def Access.rebase (a : Access) (old frame : Nat) : Access :=
  let pa (x : Nat) : Nat := if old ≤ x ∧ x < old + pageBytes then frame + (x - old) else x
  if a.done.isSome then a
  else
    match a.act with
    | .read moves => { a with act := .read (moves.map (fun m => { m with src := pa m.src })), home := ((moves.head?.map (fun m => homeNode (pa m.src))).getD a.home) }
    | .sigRead x => { a with act := .sigRead (pa x), home := homeNode (pa x) }
    | _ => a

/-- A timed read of the page still to be sampled reads it there as well (R459). -/
def TAct.rebase (a : TAct) (old frame : Nat) : TAct :=
  let pa (x : Nat) : Nat := if old ≤ x ∧ x < old + pageBytes then frame + (x - old) else x
  match a with
  | .sample x n dst => .sample (pa x) n dst
  | .chunkRead moves land => .chunkRead (moves.map (fun m => { m with src := pa m.src })) land
  | a => a
/-- The reads held behind a context's fences, and the next read of a `sig.wait`, as well. -/
def Ctx.rebase (x : Ctx) (old frame : Nat) : Ctx :=
  { x with
    heldev := x.heldev.map (fun h : HeldEv => { h with ev := match h.ev with | .post a => .post (a.rebase old frame) | e => e })
    sig := x.sig.map (fun g => match g with | .repost a => .repost ({ a with done := none }.rebase old frame) | g => g) }
/-- Every read of the page that is still to be served or sampled. -/
def State.rebaseReads (s : State) (old frame : Nat) : State :=
  { s with
    posted := s.posted.map (fun a : Access => a.rebase old frame)
    calendar := s.calendar.map (fun t : Timed => { t with act := t.act.rebase old frame })
    cores := s.cores.map (fun e : Nat × Core => (e.1, { e.2 with ctxs := e.2.ctxs.map (fun k : Nat × Ctx => (k.1, k.2.rebase old frame)) })) }

/-- The end of a page move (R205): the bytes stand in the frame that firmware picked and the page is mapped there. Without a frame, where
a table of the world has no room for it, or where a word of the page fails its check (R138), the page stays, with a copy-error
record. -/
def State.endMigration (s : State) (core ctx copy : Nat) (frame : Option Nat) : State :=
  match s.migOf core ctx copy with
  | none => s
  | some m =>
    let w := (s.core core).world
    let old := (s.migFrame core m.va.toNat).getD 0
    let tables := (s.world w).windows :: (s.cores.filter (fun e => decide (e.2.world = w))).map (fun e => e.2.windows)
    let bad := s.badRead ((s.faulty.filter (fun a => decide (old ≤ a ∧ a < old + pageBytes))))
    let dest := frame.filter (fun pa => bad.isNone && tables.all (fun l => (moveWindow old pa l).isSome))
    let move (l : SMap Window) : SMap Window := (dest.bind (fun pa => moveWindow old pa l)).getD (clearMig old l)
    let t : State := match dest with
      | none => s
      | some pa =>
        let bytes : List Host.Cell := (s.mem.filter (fun c => decide (old ≤ c.1 ∧ c.1 < old + pageBytes))).map (fun c => (pa + (c.1 - old), c.2))
        let owners := (s.owner.filter (fun c => decide (old ≤ 64 * c.1 ∧ 64 * c.1 < old + pageBytes))).map (fun c => (pa / 64 + (c.1 - old / 64), c.2))
        let u : State := (s.zeroise pa pageBytes).writeCells bytes
        let u : State := { u with owner := owners.foldl (fun m c => SMap.put 0 m c.1 c.2) u.owner }
        u.rebaseReads old pa
    let t := { t with cores := t.cores.map (fun e : Nat × Core => if e.2.world = w then (e.1, { e.2 with windows := move e.2.windows }) else e) }
    let t := t.updWorld w (fun x => { x with windows := move x.windows })
    let t := t.updCtx core ctx (fun x => x.updChunk copy 0 (fun h => { h with waiting := 0, failed := dest.isNone }))
    match bad with
    | some b => t.uncorrectable b (.ctx core ctx (((s.ctx core ctx).copies.find? (fun y => decide (y.id = copy))).map CopySt.frond |>.getD 384)) m.token w
    | none => t

/-- The address lies in a tier. -/
def inTier (t : Tier) (pa : Nat) : Bool :=
  match t, region pa with
  | .near, .near _ _ | .lp, .lpddr _ _ | .cxl, .cxl _ _ => true
  | _, _ => false
/-- A frame of a tier to which a page may move (R205): 2 MiB aligned, backed from its first byte to its last, in the ranges of both ports where
they interleave, and on no link that is down (R59). -/
def State.frameOk (s : State) (t : Tier) (pa : Nat) : Bool :=
  decide (pa % pageBytes = 0) && inTier t pa && s.backed pa && s.backed (pa + 4096) && s.backed (pa + pageBytes - 1)
/-- `MIGRATION_COPY_DONE` (R205 steps 3 to 5): a move for which there is no such frame ends with error. -/
def execMigrationCopyDone (core ctx copy : Nat) (frame : Option Word) (s : State) : Out :=
  match s.migOf core ctx copy with
  | none => .next s
  | some m =>
    if !m.applied then .next s
    else
      .next (s.endMigration core ctx copy
        ((frame.map BitVec.toNat).filter (s.frameOk m.tier)))

/-! ### Fences (R176, R178) -/

/-- The event is a write, `sig.dec`, `gatom`, `mig` or launch. -/
def OrdEv.drops : OrdEv → Bool
  | .post a => match a.act with | .read _ | .sigRead _ => false | .fabric _ _ _ moves _ => moves.isEmpty | _ => true
  | .arrive _ => false
  | .launch _ _ _ _ _ _ => true

/-- The next fence of a context that is complete: one that an error completes, or the first whose set is performed. -/
def State.fenceReady (s : State) (c k : Nat) : Option FenceSt :=
  let x := s.ctx c k
  match x.fences.find? FenceSt.err with
  | some f => some f
  | none => x.fences.head?.filter (fun f => f.set.all (fun n => !s.pendingReq c k n))

/-- `FENCE_COMPLETE` (R176, R178): events it alone still held are released in the next cycle; with an error, the writes it held
are discarded. -/
def execFenceComplete (core ctx : Nat) (s : State) : Out :=
  match s.fenceReady core ctx with
  | none => .next s
  | some f =>
    .next (s.updCtx core ctx (fun x =>
      { x with
        fences := x.fences.filter (fun g => decide (g.id ≠ f.id))
        heldev := x.heldev.map (fun h : HeldEv =>
          if h.fences.contains f.id then
            let rest := h.fences.filter (fun n => decide (n ≠ f.id))
            if f.err && h.ev.drops then { h with fences := [], dropped := true, rel := some (s.now + 1) }
            else { h with fences := rest, rel := if rest.isEmpty then some (s.now + 1) else none }
          else h) }))

end Sys2Proof.Machine
end

