-- ==== Sys2Proof/Machine/Links.lean ====
section
/-! DEFINITION. Links and ports (02 R39 to R52, R59): skew registers, calibration, link statistics, flits, refused packets, and
a CXL link that goes down. -/

namespace Sys2Proof.Machine

/-! ### Endpoints (R40 to R43) -/

/-- The die has the endpoint (R43). -/
def hasEndpoint (die e : Nat) : Bool :=
  if die = 0 then decide (e < 4)
  else if die < 5 then decide (e < 4) || (decide (e < 8) && decide (e ≠ 4 + (die - 1)))
  else if die < 7 then decide (e < 4)
  else if die < 8 then false
  else if die < 40 then decide (e = 0) || (decide (e = 1) && decide (diePos die < 7))
  else false
/-- The endpoint carries the frame tick into its die (R43). -/
def carriesTick (die e : Nat) : Bool := if die = 0 then false else if die < 5 then decide (e = 1) else decide (e = 0)
/-- Nominal latency of the frame tick (R39); before a profile is in force, T12's (R35). -/
def State.tickLatency (s : State) : Nat := byProfile s.t16 64 80
/-- An endpoint of a die. -/
def Die.ep (d : Die) (e : Nat) : Endpoint := SMap.get {} d.eps e
/-- Changing an endpoint. -/
def State.updEp (s : State) (die e : Nat) (f : Endpoint → Endpoint) : State :=
  s.updDie die (fun d => { d with eps := SMap.upd {} d.eps e f })

/-- LSKEW is writable (R41): in BOOT, in CONFIG, and in step 4 of a role change. -/
def State.skewOpen (s : State) : Bool :=
  decide (s.hub.ifs = .boot ∨ s.hub.ifs = .config) ||
  (match s.hub.role with
   | some r => decide (r.step < 5) && (decide (r.step = 4) || s.dies.any (fun e => decide (e.2.st = .enumerating)))
   | none => false)

/-- LSKEW as read (R40). -/
def Endpoint.lskew (x : Endpoint) : Word :=
  BitVec.ofNat 64 (x.dly + 0x100 * x.raw + 0x20000 * x.ok.toNat + 0x40000 * x.marg)
/-- LSTAT as read (R44, R45). -/
def Endpoint.lstat (x : Endpoint) : Word := BitVec.ofNat 64 (x.corr + 0x100000000 * x.unc)

/-- `LSKEW_WRITE` (R40, R41, R43): DLY is set, and CAL starts a calibration; a write at another time, to an endpoint the die
does not have, or of a delay where no tick comes in, has no effect and is logged. -/
def execLskewWrite (die e : Nat) (value : Word) (s : State) : Out :=
  let dly := (fld value 0 6).toNat
  .next (if hasEndpoint die e && s.skewOpen && (carriesTick die e || decide (dly = 0)) then
      s.updEp die e (fun x => { x with dly := dly, busy := x.busy || value.getLsbD 16 })
    else s.cfgError die (cfgAddr die (0x800 + 16 * e)))

/-- `LINK_CALIBRATION` (R41): a write of CAL. -/
def execLinkCalibration (die e : Nat) (s : State) : Out :=
  .next (if hasEndpoint die e && s.skewOpen then s.updEp die e (fun x => { x with busy := true, ok := false })
    else s.cfgError die (cfgAddr die (0x800 + 16 * e)))

/-- A layer die enters FENCED (R33). -/
def State.fenceLayer (s : State) (die : Nat) : State := s.updDie die (fun d => { d with st := .fenced })
/-- The command in progress will complete with LAYERFAULT (R42). -/
def State.roleFault (s : State) : State := s.updHub (fun h => { h with role := h.role.map (fun r => { r with fault := true }) })
/-- The outcome of a failed calibration (R42). One of H in CONFIG, outside a role change, ends in FAULT as well: the manual names BOOT and
a role change alone (DESIGN CHOICE, log 62). An anchor that fails is marked FENCED, by which timed accesses to its near tier end. -/
def State.calibrationFailed (s : State) (die e : Nat) : State :=
  if die = 0 then s.updHub (fun h => { h with ifs := .fault, bst := 4 })
  else
    let s := if 8 ≤ die then s.fenceLayer die
      else if die < 5 then ((List.range 8).foldl (fun s j => s.fenceLayer (8 * die + j)) s).fenceLayer die
      else s
    (s.roleFault).tell (.linkcal die e)

/-- OK of a calibration (R40, R41): no data route is late, some slack is left, and RAW + DLY is the tick's nominal latency. -/
def calibrationOk (nominal : Nat) (tick late : Bool) (raw marg dly : Nat) : Bool :=
  !late && decide (1 ≤ marg) && (!tick || decide (raw + dly = nominal))
/-- `LINK_CALIBRATION_DONE` (R40 to R42): the measured flight time of the tick, the smallest slack, and whether some data route
came after its landing cycle. With the present DLY the tick may miss its nominal latency where another DLY would meet it; OK is 0 by R40,
and R42's outcome follows at once (DEDUCED, log 63). -/
def execLinkCalibrationDone (die e : Nat) (raw marg : BitVec 8) (late : Bool) (s : State) : Out :=
  let x := (s.die die).ep e
  if !hasEndpoint die e || !x.busy then .next s
  else
    let tick := carriesTick die e
    let ok := calibrationOk s.tickLatency tick late raw.toNat marg.toNat x.dly
    let s := s.updEp die e (fun x =>
      { x with busy := false, raw := if tick then raw.toNat else 0, marg := marg.toNat, ok := ok })
    .next (if ok then s else s.calibrationFailed die e)

/-- `LSTAT_CLEAR` (R44): writing 1 to every bit of a count clears it. -/
def execLstatClear (die e : Nat) (value : Word) (s : State) : Out :=
  .next (if hasEndpoint die e then
      s.updEp die e (fun x =>
        { x with corr := if fld value 0 32 = 0xFFFFFFFF#32 then 0 else x.corr,
                 unc := if fld value 32 16 = 0xFFFF#16 then 0 else x.unc })
    else s.cfgError die (cfgAddr die (0x808 + 16 * e)))

/-! ### Flits (R39, R44) -/

/-- A corrected flit is counted; a discarded one too. -/
def State.countFlit (s : State) (die e : Nat) (o : FlitOutcome) : State :=
  s.updEp die e (fun x =>
    match o with
    | .good => x
    | .corrected => { x with corr := Min.min (x.corr + 1) 0xFFFFFFFF }
    | .bad => { x with unc := Min.min (x.unc + 1) 0xFFFF })

/-- `TIMED_FLIT_ARRIVAL` (R39, R44): a flit is held against its landing cycle; one that cannot be corrected is discarded, logged,
and the frond that owns the reservation is aborted. -/
def execTimedFlitArrival (die e : Nat) (outcome : FlitOutcome) (frond id : Nat) (addr : Word) (s : State) : Out :=
  let u := s.countFlit die e outcome
  match outcome with
  | .good | .corrected => .next (u.updDie die (fun d => { d with flits := d.flits ++ [(id, ((s.timed id).map Timed.due).getD s.now)] }))
  | .bad =>
    let src := (s.timed id).map Timed.core
    let u := u.logFault die
      { kind := 0x06, world := (s.frond frond).world, srccore := src.getD 0xFFFF, srcdie := (src.map coreDie).getD 0,
        addr := addr, token := ((s.timed id).map Timed.token).getD 0,
        tick := s.gtick }
    .next ((u.unschedule id).contain frond 0x06)

/-- The landing cycle of a held flit has come; a delivery for a frozen frond moves with its domain time (R46). -/
def State.flitDue (s : State) (id : Nat) : Bool :=
  match s.timed id with
  | some t => decide (t.due ≤ s.now)
  | none => true
/-- `TIMED_FLIT_RELEASE` (R39): a held flit leaves its endpoint in its landing cycle; its effect is the landing's own event. -/
def execTimedFlitRelease (die id : Nat) (s : State) : Out :=
  .next (if s.flitDue id then s.updDie die (fun d => { d with flits := d.flits.filter (fun x => decide (x.1 ≠ id)) }) else s)

/-- `UNTIMED_FLIT_ARRIVAL` (R44): a flit that cannot be corrected is discarded and logged, and its transaction gets an error
response. -/
def execUntimedFlitArrival (die e : Nat) (outcome : FlitOutcome) (id : Nat) (s : State) : Out :=
  let u := s.countFlit die e outcome
  match outcome, s.access id with
  | .bad, some a =>
    let u := u.logFault die
      { kind := 0x07, world := a.world, srccore := if a.core < 512 then a.core else 0xFFFF,
        srcdie := if a.core < 512 then coreDie a.core else 0,
        addr := BitVec.ofNat 64 (a.act.touches.headD 0), token := a.token, tick := s.gtick }
    .next (u.updAccess id (fun a => if a.done.isSome then { a with act := .read [], err := true, done := none } else a.failed))
  | _, _ => .next u

/-! ### Ports (R52, R59) -/

/-- The device answers more than its status window (R62, R82). -/
def State.answersAll (s : State) : Bool := match s.hub.ifs with | .config | .locked | .run | .drain => true | _ => false
/-- Logical ports of a port by its split register (R51): one, two or four (log 8). -/
def State.lanes (s : State) (port : Nat) : Nat := 2 ^ ((SMap.get 0 s.hub.cfg (0x300 + 8 * port)).toNat % 4)
/-- `UE_PACKET_RECEIVE` (R51, R52, R54) on a logical port, 4 × port + lane: a packet that asks for UUD or RUDI is dropped and counted at its
port, and one that asks for another operation than those of R54 is answered with an unsupported-operation response; what others carry
are events of their own. A lane that the port's split does not have receives nothing. -/
def execUePacketReceive (port : Nat) (packet : UePacket) (s : State) : Out :=
  let p := port / 4
  if s.lanes p ≤ port % 4 || decide (s.hub.ifs = .reset) then .next s
  else if !s.answersAll && packet.other then .next s
  else
    match packet.mode with
    | .rud | .rod => .next (if packet.other then s.answer .unsupported else s)
    | .uud | .rudi => .next (s.updHub (fun h => { h with refused := SMap.put 0 h.refused p (SMap.get 0 h.refused p + 1) }))

/-- A page move from the range of a port: with interleave a page lies in the ranges of both (R57). -/
def State.migFrom (s : State) (c : Nat) (m : MigSt) (p : Nat) : Bool :=
  (s.migFrame c m.va.toNat).any (fun b => decide (s.cxlPort b = some p ∨ s.cxlPort (b + 4096) = some p))
/-- Outstanding page moves of all contexts: core, context, copy. -/
def State.migrations (s : State) : List (Nat × Nat × Nat × MigSt) :=
  s.cores.flatMap (fun c => c.2.ctxs.flatMap (fun k => k.2.copies.filterMap (fun y => y.mig.map (fun m => (c.1, k.1, y.id, m)))))

/-- `CXL_LINK_DOWN` (R59): accesses outstanding on the link end with error, the range is offline until reset, moves from it end
with error with their page in place, and the manager is told. -/
def execCxlLinkDown (die port : Nat) (s : State) : Out :=
  if ¬ (die = 5 ∨ die = 6) ∨ 2 ≤ port then .next s
  else
    let p := 2 * (die - 5) + port
    let hit (a : Access) : Bool := a.done.isNone && a.act.touches.any (fun pa => decide (s.cxlPort pa = some p))
    let s := { s with posted := s.posted.map (fun a : Access => if hit a then a.failed else a) }
    let s := s.updHub (fun h => { h with offline := SMap.put false h.offline p true })
    let s := (s.migrations.filter (fun x => s.migFrom x.1 x.2.2.2 p)).foldl
      (fun s x => (({ s with posted := s.posted.filter (fun a => decide (a.owed ≠ Owed.mig x.2.2.1)) }).endMigration x.1 x.2.1 x.2.2.1 none)) s
    .next (s.tell (.cxlDown die port))

end Sys2Proof.Machine
end

