-- ==== Sys2Proof/Machine/Packets.lean ====
section
/-! DEFINITION. Command queues and packets (04 R82 to R101, 05 R128, R129): consumption, the checks of a packet, starting,
completing; and the front end's own accesses to world memory. -/

namespace Sys2Proof.Machine

/-! ### Accesses of the front end (R87, R101) -/

/-- Translation of an address a packet names, under its world's windows. -/
def State.feAddr (s : State) (w : Nat) (va n : Nat) (p : Perm) : Option Nat := translate (s.world w).windows va n p
/-- The access of H that reads bytes, as it arrives at the arbitration points it crosses: those of its path, one after another in the
cycle in which all let it pass (log 64). -/
def State.feStub (s : State) (w pa n : Nat) (cls : Nat := 0) : Access :=
  { id := s.seqno, core := 512, ctx := 0, frond := 384, world := w, node := 0, home := homeNode pa, tag := s.clock 0,
    act := .read ((List.range n).map (fun i => { dst := i, src := pa + i })), owed := .none, cls := cls, hops := pathTo 0 pa,
    arr := some s.now }
/-- An access of H that is made in one step may cross its arbitration points now (R48, R50). -/
def State.crosses (s : State) (a : Access) : Bool := a.hops.all (s.passes a)
/-- What a read of the front end meets. -/
inductive FeRead
  /-- A write the reader has observed is still on its way to the home (R173), or a wheel on its way is taken (R50): the read waits. -/
  | wait
  /-- It fails translation, or draws an error response: the status it gives (R101), and the fault log's entry made (R136, R141). -/
  | fail (status : Nat) (s : State)
  | ok (bytes : List Byte) (s : State)
/-- A read of n bytes by the front end, in one step at the home. -/
def State.feRead (s : State) (w va n : Nat) (cls : Nat := 0) : FeRead :=
  match s.feAddr w va n .rd with
  | none => .fail 0x0D s
  | some pa =>
    let a := s.feStub w pa n cls
    if !s.crosses a then .wait
    else
    match s.refusal a, s.badRead a.act.touches with
    | some b, _ => .fail 0x0C (s.logRefusal a b)
    | none, some b => .fail 0x0C (s.logFault (addrDie b) (s.readFault b 512 w 0))
    | none, none =>
    if !s.canServe a then .wait
    else .ok ((s.seenBy w ((List.range n).map (fun i => pa + i))).bytes pa n) (s.mergeTags 0 ((List.range ((n + 127) / 64)).map (fun i => pa + 64 * i)))
/-- An access of H for a packet, or for nobody. -/
def State.hubPost (s : State) (w pa : Nat) (act : Act) (owed : Owed) (cls : Nat := 0) : State :=
  s.bump.post { id := s.seqno, core := 512, ctx := 0, frond := 384, world := w, node := 0, home := homeNode pa, act := act,
                owed := owed, cls := cls }
/-- A write of the front end that lands in the same step (R104); none while its home cannot take it yet, or a wheel on its way is taken. -/
def State.feWrite (s : State) (w pa : Nat) (cells : List Host.Cell) : Option State :=
  let t := s.hubPost w pa (.write { cells := cells }) .none
  match t.access s.seqno, execUntimedApply s.seqno t with
  | some a, .next u => if t.canApply a && s.crosses (s.feStub w pa 1) then some (u.dropAccess s.seqno) else none
  | _, _ => none
/-- Changing a packet. -/
def State.updPacket (s : State) (id : Nat) (f : Packet → Packet) : State :=
  { s with packets := s.packets.map (fun p => if p.id = id then f p else p) }
/-- The packet of a number. -/
def State.packet (s : State) (id : Nat) : Option Packet := s.packets.find? (fun p => decide (p.id = id))
/-- A packet's own access. -/
def State.packetPost (s : State) (id w pa : Nat) (act : Act) (cls : Nat := 0) : State :=
  (s.hubPost w pa act (.packet id) cls).updPacket id (fun p => { p with waiting := p.waiting + 1 })

/-! ### Fields (R88) -/

/-- n bytes from byte lo. -/
def pkField (b : BitVec 512) (lo n : Nat) : Nat := b.toNat / 2 ^ (8 * lo) % 2 ^ (8 * n)
/-- Bytes lo to hi are zero. -/
def pkZero (b : BitVec 512) (lo hi : Nat) : Bool := decide (pkField b lo (hi + 1 - lo) = 0)
def pkOpc (b : BitVec 512) : Nat := pkField b 0 1
def pkBar (b : BitVec 512) : Bool := b.getLsbD 8
def pkHalte (b : BitVec 512) : Bool := b.getLsbD 9
def pkTag (b : BitVec 512) : Nat := pkField b 4 4
def pkSig (b : BitVec 512) : Nat := pkField b 8 8
def pkStat (b : BitVec 512) : Nat := pkField b 16 8

/-- Two ranges of bytes meet. -/
def overlap (a b : Nat × Nat) : Bool := decide (0 < a.2 ∧ 0 < b.2 ∧ a.1 < b.1 + b.2 ∧ b.1 < a.1 + a.2)
/-- A queue's base and size are in range (R85). -/
def queueBaseOk (base log2n : Nat) : Bool :=
  decide (6 ≤ log2n ∧ log2n ≤ 16 ∧ base % 4096 = 0 ∧ base % (64 * 2 ^ log2n) = 0)

/-- The body of a packet breaks no rule of R90; each field by its row of R93 to R107. -/
def bodyOk (b : BitVec 512) : Bool :=
  let f := pkField b
  let z := pkZero b
  match pkOpc b with
  | 0x00 => z 24 63
  | 0x01 => decide (f 24 8 % 64 = 0 ∧ f 40 8 ≠ 0 ∧ 1 ≤ f 48 2 ∧ f 48 2 ≤ 384 ∧ f 50 1 ≤ 3) && z 51 63
  | 0x02 => decide (f 24 8 % 4096 = 0) && z 44 63
  | 0x03 => decide (f 24 8 % 8 = 0 ∧ f 48 1 ≤ 5 ∧ f 49 1 ≤ 15 ∧ f 50 1 ≤ 15) && z 51 63
  | 0x04 => decide (f 24 8 % 8 = 0) && z 40 63
  | 0x05 => decide (f 24 8 % 8 = 0) && z 44 63
  | 0x06 =>
    decide (f 24 8 % 64 = 0 ∧ f 32 8 % 64 = 0 ∧ f 40 8 ≠ 0 ∧ f 40 8 % 64 = 0 ∧ f 40 8 ≤ 2 ^ 40 ∧ f 48 1 ≤ 2 ∧ f 50 1 ≤ 3) &&
      z 51 63 && !overlap (f 24 8, f 40 8) (f 32 8, f 40 8)
  | 0x07 =>
    decide (f 24 1 < 16 ∧ f 25 1 ≠ 0 ∧ f 26 2 ≠ 0) && z 32 63 &&
      (List.range 4).all (fun k => decide ((f 24 1 / 2 ^ k % 2 = 1) ↔ (f (28 + k) 1 ≠ 0)))
  | 0x08 => decide (f 24 1 ≠ 0 ∧ f 25 1 < 2 ∧ f 26 2 ≠ 0 ∧ f 32 8 < 2 ^ 48) && z 28 31 && z 48 63
  | 0x09 =>
    z 25 31 &&
      (match f 24 1 with
       | 1 => true
       | 2 => z 32 63
       | 3 => z 42 63
       | 4 => z 32 39 && z 42 63
       | _ => false)
  | 0x0A => z 25 31 && z 40 63 && (decide (f 24 1 = 1) || (decide (f 24 1 = 2 ∨ f 24 1 = 3) && z 32 39))
  | 0x0B =>
    let n := f 24 1
    decide (1 ≤ n ∧ n ≤ 3) && z 25 27 && (decide (n = 3) || z (28 + 12 * n) 63)
  | 0x0C =>
    let n := f 24 1
    decide (1 ≤ n ∧ n ≤ 3 ∧ f 40 8 % 8 = 0) && z 25 27 && z 48 63 && (decide (n = 3) || z (28 + 4 * n) 39)
  | 0x0D =>
    match f 24 1 with
    | 1 => decide (f 26 1 < 2) && z 27 31 && z 41 47 && queueBaseOk (f 32 8) (f 40 1)
    | 2 => z 26 63
    | 3 => decide (f 27 1 ≤ 100) && z 26 26 && z 29 47
    | 4 => z 26 31 && z 40 63 && decide (f 32 8 % 64 = 0)
    | _ => false
  | 0x0E => decide (f 32 1 ≤ 31) && z 33 63
  | 0x0F =>
    decide (f 25 1 < 16) &&
      (match f 24 1 with
       | 1 => z 27 31 && z 40 63 && queueBaseOk (f 32 8) (f 26 1)
       | 2 => z 26 39 && z 44 63
       | 3 => z 26 63
       | _ => false)
  | _ => false
/-- The packet is not MALFORMED (R90). -/
def packetOk (b : BitVec 512) : Bool :=
  decide (pkField b 1 1 < 4) && pkZero b 2 3 && decide (pkSig b % 8 = 0 ∧ pkStat b % 8 = 0) && bodyOk b

/-- The world may issue the packet (R89, R104). -/
def State.privOk (s : State) (w : Nat) (b : BitVec 512) : Bool :=
  let opc := pkOpc b
  let sub := pkField b 24 1
  if opc = 0x0D then decide (w = 0 ∧ sub ≠ 3)
  else if opc = 0x09 then
    if sub = 1 then (s.world w).confidential && decide ((s.world w).st = .loading)
    else if sub = 2 then true
    else decide (w = 0)
  else if opc = 0x07 ∨ opc = 0x08 ∨ opc = 0x0A ∨ opc = 0x0B ∨ opc = 0x0C ∨ opc = 0x0E then decide (w = 0)
  else true
/-- The packet belongs to the world-0 set (R82). -/
def world0Set (w : Nat) (b : BitVec 512) : Bool :=
  decide (w = 0) && [0x00, 0x03, 0x04, 0x05, 0x07, 0x0A, 0x0B, 0x0C, 0x0E, 0x0F].contains (pkOpc b)
/-- The interface state accepts the packet (R82). -/
def State.stateOk (s : State) (w : Nat) (b : BitVec 512) : Bool :=
  let opc := pkOpc b
  match s.hub.ifs with
  | .config => world0Set w b
  | .locked => world0Set w b && decide (opc ≠ 0x07)
  | .run => true
  | .drain => !(decide (opc = 0x01 ∨ opc = 0x02) || (decide (opc = 0x0D) && decide (pkField b 24 1 = 1)))
  | .reset | .boot | .fault => false
/-- The status that refuses a packet before it runs: PRIV, then STATE (R82, R89). -/
def State.judge (s : State) (w : Nat) (b : BitVec 512) : Option Nat :=
  if !s.privOk w b then some 0x09 else if !s.stateOk w b then some 0x0A else none

/-! ### Queues (R85, R87) -/

/-- A queue of a world. -/
def State.queueAt (s : State) (w q : Nat) : Queue := SMap.get {} (s.world w).queues q
/-- Changing a queue. -/
def State.updQueue (s : State) (w q : Nat) (f : Queue → Queue) : State :=
  s.updWorld w (fun x => { x with queues := SMap.upd {} x.queues q f })
/-- A queue enters ERROR (R81, R87): an entry is counted. -/
def State.queueError (s : State) (w q : Nat) : State :=
  let x := s.queueAt w q
  if !x.present || x.error then s
  else (s.updQueue w q (fun x => { x with error := true })).updHub (fun h => { h with qerr := Min.min (h.qerr + 1) 0xFFFFFFFF })
/-- The address of packet i (R85). -/
def Queue.slotAddr (x : Queue) (i : Nat) : Nat := x.base.toNat + 64 * (i % 2 ^ x.log2n)
/-- Packets between HEAD and TAIL. -/
def Queue.count (x : Queue) : Nat := (x.tail - x.head).toNat
/-- An entry of the slot table is FREE (R114): the lowest number. -/
def State.freeSlot (s : State) : Option Nat := (List.range 256).find? (fun i => decide ((s.slot i).st = .free))

/-! ### Consumption (R87, R90, R97, R98, R114) -/

/-- The regions of a packet that stand in it (R128): those of a COPY. -/
def copyRegions (b : BitVec 512) : List (Nat × Nat) × List (Nat × Nat) :=
  if pkOpc b = 0x06 then ([(pkField b 24 8, pkField b 40 8)], [(pkField b 32 8, pkField b 40 8)]) else ([], [])
/-- Edges to a packet with these regions (R129), from the packets that stand before it in its linked set. -/
def edgesTo (before : List Packet) (world : Nat) (queues : List Nat) (rd wr : List (Nat × Nat)) : List Nat :=
  (before.filter (fun e =>
    decide (e.world = world) && queues.contains e.queue &&
    (e.wr.any (fun x => rd.any (overlap x)) || e.rd.any (fun x => wr.any (overlap x)) ||
     e.wr.any (fun x => wr.any (overlap x))))).map Packet.id
/-- What the front end does for the packet as it consumes it, before another: a launch or almanac enters the slot table (R95, R114, R120), IFST
LOCK and UNLOCK (R83), CFGWR and QUEUE DESTROY (R105), and WORLD GRANT (R106). -/
def actsAtConsumption (b : BitVec 512) : Bool :=
  let sub := pkField b 24 1
  match pkOpc b with
  | 0x01 | 0x02 | 0x0B => true
  | 0x0A => decide (sub = 1 ∨ sub = 2)
  | 0x0D => decide (sub = 4)
  | 0x0F => decide (sub = 3)
  | _ => false
/-- A packet as it is taken up. -/
def State.newPacket (s : State) (w q : Nat) (b : BitVec 512) (before : List Packet) : Packet :=
  let rg := copyRegions b
  { id := s.seqno, world := w, queue := q, bits := b, rd := rg.1, wr := rg.2, edges := edgesTo before w [q] rg.1 rg.2,
    st := if actsAtConsumption b then .fresh else .waiting }
/-- The packet completes with a status; `force` puts its queue in ERROR whatever HALTE. -/
def Packet.finish (p : Packet) (status : Nat) (aux : Nat := 0) (force : Bool := false) : Packet :=
  { p with st := .done, status := status, aux := aux, force := p.force || force }
/-- Bytes as a packet. -/
def packetBits (l : List Byte) : BitVec 512 := BitVec.ofNat 512 (leNat l)

/-- A queue may be consumed: no checkpoint holds it (R108 step 1), the interface is up, and the front end has done with the packet before. -/
def State.consumes (s : State) (w q : Nat) : Bool :=
  !s.packets.any (fun p => decide (p.st = .fresh)) &&
  (match s.hub.ifs with | .config | .locked | .run | .drain => true | .reset | .boot | .fault => false) &&
  (match s.hub.ckpt with
   | some c => decide (c.step = 0) || (s.packets.any (fun p => decide (p.id = c.packet ∧ p.world = w ∧ p.queue = q)))
   | none => true)

/-- KEY packets among the packets from HEAD on are overwritten with zero (R104). -/
def State.eraseKeys (s : State) (world : Nat) (x : Queue) (l : List (BitVec 512)) : Option State :=
  l.zipIdx.foldl (fun t e =>
    t.bind (fun t =>
      if pkOpc e.1 ≠ 0x09 then some t
      else
        match t.feAddr world (x.slotAddr (x.head.toNat + e.2)) 64 .rd with
        | some pa => t.feWrite world pa (cellsAt pa 64 0)
        | none => some t)) (some s)

/-- `PACKET_CONSUME` (R87): the packet at HEAD is read as one line and taken up, or refused. A launch with no FREE entry, and a
PRED without its arms, are not taken. A MALFORMED packet puts its queue in ERROR (R90), also a LAUNCH or ALMANAC packet while no entry is FREE
(log 82). -/
def execPacketConsume (world queue : Nat) (s : State) : Out :=
  let x := s.queueAt world queue
  if !x.present || x.error || decide (x.head = x.tail) || !s.consumes world queue then .next s
  else
    match s.feRead world (x.slotAddr x.head.toNat) 64 with
    | .wait => .next s
    | .fail _ t => .next ((t.queueError world queue).tell (.qxlate world queue))
    | .ok l t =>
      let b := packetBits l
      let opc := pkOpc b
      let good := packetOk b
      let span := if opc = 0x03 ∧ good then 1 + pkField b 49 1 + pkField b 50 1 else 1
      if good && decide (opc = 0x01 ∨ opc = 0x02) && t.freeSlot.isNone then .next s
      else if x.count < span then .next s
      else
        let arms := (List.range (span - 1)).map (fun i => t.feRead world (x.slotAddr (x.head.toNat + 1 + i)) 64)
        if arms.any (fun r => match r with | .wait => true | _ => false) then .next s
        else
          let armBits := arms.map (fun r => match r with | .ok l _ => packetBits l | _ => 0xFF)
          let good := good && armBits.all (fun a => packetOk a && decide (pkOpc a ≠ 0x03))
          match t.eraseKeys world x (b :: armBits) with
          | none => .next s
          | some t =>
            let t := t.updQueue world queue (fun x => { x with head := x.head + BitVec.ofNat 32 span })
            let t := if good then t else t.queueError world queue
            let p := { t.newPacket world queue b t.packets with arms := armBits }
            let p := if !good then p.finish 0x0B
              else match t.judge world b with
                | some st => p.finish st
                | none => p
            .next ({ t with packets := t.packets ++ [p] }).bump

/-! ### Starting (R87, R88, R97, R100, R129) -/

/-- The packets that stand before a packet. -/
def State.before (s : State) (id : Nat) : List Packet := s.packets.takeWhile (fun p => decide (p.id ≠ id))
/-- Earlier packets of its queue. -/
def State.earlier (s : State) (p : Packet) : List Packet :=
  (s.before p.id).filter (fun e => decide (e.world = p.world ∧ e.queue = p.queue) && (!e.orphan || p.orphan))
/-- A packet may start: the earlier packets of its queue have started, no PRED or SIGWAIT among them is incomplete, its edges
are gone, and with BAR, or for a PRED, none is incomplete. -/
def State.mayStart (s : State) (p : Packet) : Bool :=
  let l := s.earlier p
  decide (p.st = .waiting) &&
  l.all (fun e => decide (e.st ≠ .fresh ∧ e.st ≠ .waiting ∧ pkOpc e.bits ≠ 0x03 ∧ pkOpc e.bits ≠ 0x05)) &&
  (p.doomed || p.edges.isEmpty) && (!(pkBar p.bits || decide (pkOpc p.bits = 0x03)) || l.isEmpty)

/-- A packet of an arm whose turn has come is judged (R97, R98), and is then taken up as if it were consumed now in the PRED's place: what gives
it edges stands before it. A launch or almanac waits for a FREE entry. -/
def State.takeArm (s : State) (p : Packet) : State :=
  match s.judge p.world p.bits with
  | some st => s.updPacket p.id (fun q => q.finish st)
  | none =>
    if decide (pkOpc p.bits = 0x01 ∨ pkOpc p.bits = 0x02) && s.freeSlot.isNone then s
    else
      s.updPacket p.id (fun q =>
        { q with arm := false, edges := edgesTo (s.before p.id) p.world [p.queue] p.rd p.wr,
                 st := if actsAtConsumption p.bits then .fresh else .waiting })

/-- `PACKET_START` (R129): it starts, or completes with ABORT where a packet with an edge to it failed. What has had its effect at its
consumption completes. -/
def execPacketStart (id : Nat) (s : State) : Out :=
  match s.packet id with
  | none => .next s
  | some p =>
    if !s.mayStart p then .next s
    else if p.doomed then .next (s.updPacket id (fun p => p.finish 0x10 0x0100))
    else if p.arm then .next (s.takeArm p)
    else
      .next (s.updPacket id (fun p =>
        if p.acted && decide (pkOpc p.bits ≠ 0x01 ∧ pkOpc p.bits ≠ 0x02) then p.finish 0 else { p with st := .running }))

/-! ### Completing (R91, R92, R99, R101, R119) -/

/-- The status word (R91). -/
def statusWord (p : Packet) : Nat :=
  p.status + 0x100 * pkOpc p.bits + 0x10000 * (p.aux % 0x10000) + 0x100000000 * pkTag p.bits
/-- Everything a frond's work still has to do is done: its timed landings, its untimed accesses and copies, its held events and
its queued engine work (R96, R99). -/
def State.quiescent (s : State) (f : Nat) : Bool :=
  !s.calendar.any (fun t => decide (t.frond = f)) && !s.posted.any (fun a => decide (a.frond = f)) &&
  (s.frond f).cores.all (fun c =>
    let x := s.core c
    !x.engine.calls.any (fun e => decide (e.frond = f)) &&
    x.ctxs.all (fun e => !(s.frond f).ctxm.testBit e.1 || (e.2.heldev.isEmpty && !e.2.copies.any (fun y => decide (y.frond = f)))))
/-- The status and AUX with which a frond's work completes, once it does (R95, R96, R125). -/
def State.frondOutcome (s : State) (f : Nat) : Option (Nat × Nat) :=
  let fr := s.frond f
  if !(fr.bound || fr.released) || fr.ended || !s.quiescent f || s.packets.any (fun p => decide (p.parent = some f)) then none
  else
    match fr.abort with
    | some why => some why
    | none =>
      if fr.kind = .almanac then (if fr.started && fr.cores.all fr.halted.contains then some (0, 0) else none)
      else if fr.started && fr.pending.isEmpty && fr.running.isEmpty then some (0, 0) else none

/-- A packet that has completed leaves: edges from it end, its entry becomes FREE and its frond's work is complete (R114, R119,
R129). -/
def State.retire (s : State) (p : Packet) : State :=
  let s := { s with packets := (s.packets.filter (fun q => decide (q.id ≠ p.id))).map (fun q : Packet =>
    if q.edges.contains p.id then
      { q with edges := q.edges.filter (fun e => decide (e ≠ p.id)), doomed := q.doomed || decide (p.status ≠ 0) }
    else q) }
  match p.entry with
  | none => s
  | some e =>
    let en := s.slot e
    let s := if en.st ≠ .bound then s
      else if (s.frond en.frond).released then { s with fronds := SMap.erase s.fronds en.frond }
      else s.updFrond en.frond (fun f => { f with ended := true, endedAt := s.now })
    s.updSlot e Entry.freed
/-- The packet puts its queue in ERROR, if it still has one. -/
def Packet.stopQueue (p : Packet) (s : State) : State := if p.queue = 0xFFFF ∨ p.orphan then s else s.queueError p.world p.queue
/-- The manager is told of a lost status or signal, and the queue enters ERROR (R91, R101); for a child nothing else follows
(R131). -/
def State.lostWord (s : State) (p : Packet) (signal : Bool) : State :=
  let q := p.queue
  let tag := if p.queue = 0xFFFF then p.entry.getD 0xFFFF else pkTag p.bits
  let s := s.tell (if signal then .siglost p.world q tag else .statlost p.world q tag)
  p.stopQueue s

/-- The signal of a completed packet (R99, R101): only with OK. -/
def State.signalStep (s : State) (p : Packet) : State :=
  if p.status ≠ 0 ∨ pkSig p.bits = 0 then s.retire p
  else
    match s.feAddr p.world (pkSig p.bits) 8 .atm with
    | none => (s.lostWord p true).retire p
    | some pa => (s.updPacket p.id (fun p => { p with st := .sig, err := false })).packetPost p.id p.world pa (.dec pa 1)
/-- The status word of a completed packet (R91); then its signal. A packet that is MALFORMED for its STAT writes none (log 66). -/
def State.statusStep (s : State) (p : Packet) : State :=
  let s := if p.force ∨ p.status ≠ 0 ∧ pkHalte p.bits then p.stopQueue s else s
  if pkStat p.bits = 0 ∨ pkStat p.bits % 8 ≠ 0 then s.signalStep p
  else
    match s.feAddr p.world (pkStat p.bits) 8 .wr with
    | none => (s.lostWord p false).signalStep p
    | some pa =>
      (s.updPacket p.id (fun p => { p with st := .stat, err := false })).packetPost p.id p.world pa
        (.write { cells := cellsAt pa 8 (statusWord p) })

/-- `PACKET_COMPLETE` (R99): a packet whose work is done writes its status word, then decrements its signal, then leaves. -/
def execPacketComplete (id : Nat) (s : State) : Out :=
  match s.packet id with
  | none => .next s
  | some p =>
    match p.st with
    | .fresh | .waiting => .next s
    | .running =>
      match pkOpc p.bits with
      | 0x04 | 0x0C =>
        if p.acted && decide (p.waiting = 0) then .next (s.updPacket id (fun p => p.finish (if p.err then 0x0C else 0) 0))
        else .next s
      | 0x06 =>
        if decide (p.waiting = 0) && (decide (p.status ≠ 0) || p.err || decide (p.progress = pkField p.bits 40 8)) then
          .next (s.updPacket id (fun p =>
            if p.status ≠ 0 then p.finish p.status p.aux else p.finish (if p.err then 0x0C else 0)))
        else .next s
      | 0x01 | 0x02 =>
        match p.entry.bind (fun e => if (s.slot e).st = .bound then s.frondOutcome (s.slot e).frond else none) with
        | some (st, aux) => .next (s.updPacket id (fun p => p.finish st aux))
        | none => .next s
      | _ => .next s
    | .done => .next (s.statusStep p)
    | .stat =>
      if p.waiting ≠ 0 then .next s
      else .next ((if p.err then s.lostWord p false else s).signalStep p)
    | .sig =>
      if p.waiting ≠ 0 then .next s
      else .next ((if p.err then s.lostWord p true else s).retire p)

end Sys2Proof.Machine
end

