-- ==== Sys2Proof/Machine/Sched.lean ====
section
/-! DEFINITION. The scheduler (05): the lease, the slot table, bind records and their checks, fronds from start to end, items,
child launches, timeouts. -/

namespace Sys2Proof.Machine

/-! ### The lease (R110, R111) -/

def leaseAddr : Word := cfgAddr 0 0x100
/-- The lease goes to a die. -/
def State.leaseGrant (s : State) (d : Nat) : State :=
  let e := (s.hub.epoch + 1) % 2 ^ 32
  (s.updHub (fun h => { h with holder := d, epoch := e })).tell (.leader d e)
/-- Cycles of a microsecond (R3). -/
def State.microsecond (s : State) : Nat := if s.t16 then 1600 else 1200
/-- The rank of a die among the followers that the manifest lists (R111); a die it does not list comes after them. -/
def State.rank (s : State) (d : Nat) : Nat := s.hub.manifest.followers.findIdx (fun f => decide (f = d))
/-- A claim goes before the one that the lease was granted on: both arrived in one microsecond, and its die is of lower rank (R111, log 68). -/
def State.outranks (s : State) (d : Nat) : Bool :=
  s.hub.claims.any (fun c => decide (c.1 = s.hub.holder ∧ c.2 / s.microsecond = s.now / s.microsecond ∧ s.rank d < s.rank c.1))
/-- A claim of the lease by a die (R110, R111); none where it is refused. -/
def State.leaseClaim (s : State) (d : Nat) : Option State :=
  if d ≠ 0xFF ∧ (s.hub.holder = 0xFF ∨ s.outranks d) then
    some ((s.leaseGrant d).updHub (fun h => { h with claims := [(d, s.now)] }))
  else none
/-- `LEASE_CLAIM` (R110, R111): the source of a refused write is the die that makes it (R139). -/
def execLeaseClaim (die : BitVec 8) (s : State) : Out := .next ((s.leaseClaim die.toNat).getD (s.cfgErrorBy die.toNat 0 leaseAddr))
/-- `LEASE_RENEW` (R110): a write that names the epoch; with no lease held it is a claim. -/
def execLeaseRenew (die : BitVec 8) (epoch : BitVec 32) (s : State) : Out :=
  .next (if s.hub.holder = die.toNat ∧ die ≠ 0xFF ∧ s.hub.epoch = epoch.toNat then s
    else (s.leaseClaim die.toNat).getD (s.cfgErrorBy die.toNat 0 leaseAddr))
/-- `LEASE_EXPIRY` (R110). -/
def execLeaseExpiry (s : State) : Out := .next (s.updHub (fun h => { h with holder := 0xFF }))

/-! ### Entries (R114 to R116) -/

/-- The kind code of R115. -/
def WorkKind.code : WorkKind → Nat
  | .launch => 1 | .almanac => 2 | .child => 3
def SlotSt.code : SlotSt → Nat
  | .free => 0 | .pending => 1 | .bound => 2
/-- Word w of an entry view (R116). Of a FREE entry KIND and the other fields but PARENT read zero (log 81). -/
def Entry.view (e : Entry) (w : Nat) : Word :=
  if e.st = .free then (if w = 5 then 0xFFFF else 0)
  else if w = 0 then
    BitVec.ofNat 64 (e.st.code + 0x100 * e.kind.code + 0x10000 * e.world + 0x1000000 * e.cls + 0x100000000 * e.ncore)
  else if w = 1 then e.recAddr else if w = 2 then e.wbase else if w = 3 then e.wcnt else if w = 4 then e.start
  else if w = 5 then BitVec.ofNat 64 e.parent else 0
/-- Word w of the bind record. -/
def Entry.word (e : Entry) (w : Nat) : Word := SMap.get 0 e.bind w

/-- `BIND_RECORD_WRITE` (R116). -/
def execBindRecordWrite (entry word : Nat) (value : Word) (s : State) : Out :=
  .next (if entry < 256 ∧ word < 8 ∧ (s.slot entry).st = .pending then
      s.updSlot entry (fun e => { e with bind := SMap.put 0 e.bind word value })
    else s.cfgError 0 (cfgAddr 0 (0x10000 + 64 * entry + 8 * word)))

/-! ### The checks of a bind record (R117) -/

/-- A field of the bind record in bytes (R115). -/
def Entry.field (e : Entry) (lo n : Nat) : Nat := (e.word (lo / 8)).toNat / 2 ^ (8 * (lo % 8)) % 2 ^ (8 * n)
/-- The physical core of a logical number. -/
def State.physOf (s : State) (l : Nat) : Option Nat := (s.cores.find? (fun e => decide (e.2.logical = l))).map Prod.fst
/-- Ones among the four low bits. -/
def bits4 (m : Nat) : Nat := (List.range 4).foldl (fun a i => a + m / 2 ^ i % 2) 0
/-- Another bound frond holds a context of a core. -/
def State.ctxHeld (s : State) (c k : Nat) : Bool :=
  s.fronds.any (fun e => e.2.bound && e.2.cores.contains c && e.2.ctxm.testBit k)
/-- A bound almanac frond holds the core. -/
def State.almanacHeld (s : State) (c : Nat) : Bool :=
  s.fronds.any (fun e => e.2.bound && decide (e.2.kind = .almanac) && e.2.cores.contains c)
/-- The columns of cores. -/
def columnsOf (l : List Nat) : List Nat := (l.map coreColumn).eraseDups
/-- The link wheels of a frond with these cores (R47): of their columns, whose vertical links all have the same slots, and of the lateral links
between them. -/
def linkWheels (cores : List Nat) : List Nat :=
  let cols := columnsOf cores
  cols.map vertical ++ cols.flatMap (fun a => (cols.filter (fun b => decide (a < b))).map (lateral a))
/-- The slots of a wheel that are not given to a bound frond, lowest first: a link wheel has 48 to reserve (R49), a layer's set on its memory
path 8. -/
def State.slotsOpen (s : State) (held : Frond → List (Nat × Nat)) (n wheel : Nat) : List Nat :=
  (List.range n).filter (fun i => !s.fronds.any (fun e => e.2.bound && (held e.2).contains (wheel, i)))
/-- The lowest-numbered free slots on each wheel (R118); none where one has too few (R49). -/
def State.takeSlots (s : State) (held : Frond → List (Nat × Nat)) (n want : Nat) : List Nat → Option (List (Nat × Nat))
  | [] => some []
  | w :: r =>
    let l := s.slotsOpen held n w
    if l.length < want then none else (s.takeSlots held n want r).map (fun t => (l.take want).map (fun i => (w, i)) ++ t)
/-- The link slots and the memory slots that a frond with these cores is given (R47, R49, R118). -/
def State.linkSlotsFor (s : State) (cores : List Nat) (lslt : Nat) : Option (List (Nat × Nat)) :=
  s.takeSlots Frond.linkSlots 48 lslt (linkWheels cores)
def State.memSlotsFor (s : State) (cores : List Nat) (mslt : Nat) : Option (List (Nat × Nat)) :=
  s.takeSlots Frond.memSlots 8 mslt ((cores.map coreDie).eraseDups)
/-- Slots are free on every wheel of a frond with these cores (R47, R49). -/
def State.slotsFree (s : State) (cores : List Nat) (lslt mslt : Nat) : Bool :=
  (s.linkSlotsFor cores lslt).isSome && (s.memSlotsFor cores mslt).isSome

/-- The identifiers of a launch as ascending ranges, first and count (R125): they run modulo 2^64. -/
def idRanges (wbase wcnt : Nat) : List (Nat × Nat) :=
  if 2 ^ 64 < wbase + wcnt then [(0, wbase + wcnt - 2 ^ 64), (wbase, 2 ^ 64 - wbase)] else [(wbase, wcnt)]
/-- The largest set of identifiers of a range that agree above bit p. -/
def largestIn (p : Nat) (r : Nat × Nat) : Nat :=
  let u := 2 ^ p
  let lo := r.1 / u
  let hi := (r.1 + r.2 - 1) / u
  if lo = hi then r.2
  else Max.max (Max.max ((lo + 1) * u - r.1) (r.1 + r.2 - hi * u)) (if lo + 2 ≤ hi then u else 0)
/-- The largest resident group (R124). -/
def largestGroup (widths : List Nat) (rlev wbase wcnt : Nat) : Nat :=
  let l := idRanges wbase wcnt
  let total := wcnt
  if rlev = 0 then total
  else
    let p := fieldsFrom widths rlev
    let each := (l.map (largestIn p)).foldl Max.max 0
    match l with
    | [a, b] =>
      let u := 2 ^ p
      if (a.1 + a.2 - 1) / u = b.1 / u then
        Max.max each ((a.1 + a.2 - Max.max a.1 (b.1 / u * u)) + (Min.min (b.1 + b.2) ((b.1 / u + 1) * u) - b.1))
      else each
    | _ => each

/-- One entry of a translation window table (R133): the window, and whether it is in range with its reserved bits zero. -/
def windowOf (n : Nat) : Window × Bool :=
  let f (lo w : Nat) : Nat := n / 2 ^ lo % 2 ^ w
  ({ vbase := f 0 48, pbase := f 64 48, size := f 128 15, v := n.testBit 192, rd := n.testBit 193, wr := n.testBit 194,
     atm := n.testBit 195, mig := n.testBit 196 },
   decide (f 0 21 = 0 ∧ f 48 16 = 0 ∧ f 64 21 = 0 ∧ f 112 16 = 0 ∧ f 143 49 = 0 ∧ f 197 59 = 0))
/-- A table has a word that fails its check: it is not delivered (R138). -/
def State.tableBad (s : State) (pa : Nat) : Option Nat := s.badRead ((List.range 1024).map (fun i => pa + 8 * i))
/-- The 256 entries at an address, and whether the table is well formed (R134) and could be read. -/
def State.tableAt (s : State) (pa : Nat) : SMap Window × Bool :=
  let l := (List.range 256).map (fun i => (i, windowOf (s.load (pa + 32 * i) 32)))
  let t := l.foldl (fun m e => SMap.put {} m e.1 e.2.1) []
  let v := t.filter (fun e => e.2.v)
  (t, (s.tableBad pa).isNone && l.all (fun e => e.2.2) &&
    v.all (fun a => v.all (fun b => decide (a.1 = b.1) || !overlap (a.2.vbase, a.2.bytes) (b.2.vbase, b.2.bytes))))

/-- The physical cores a record names, where every logical number is assigned. -/
def State.recordCores (s : State) (e : Entry) : Option (List Nat) :=
  ((List.range (e.field 6 2)).map (fun i => s.physOf (e.field 4 2 + i))).foldr
    (fun c l => match c, l with | some c, some l => some (c :: l) | _, _ => none) (some [])

/-- Checks 1 to 7 of R117: the AUX of the first that fails, or the cores and the table. A logical number that no core carries fails check 2
(log 67). -/
def State.checkRecord (s : State) (e : Entry) : Except Nat (List Nat × SMap Window) :=
  let alm := decide (e.kind = .almanac)
  let n := e.field 6 2
  let ctxm := e.field 8 1
  let k := bits4 ctxm
  let f := e.field 2 2
  if !(decide (e.field 0 1 = e.kind.code ∧ e.field 1 1 = e.world ∧ f < 384 ∧ 1 ≤ n ∧ n ≤ 384 ∧ ctxm < 16 ∧ 1 ≤ k ∧
        e.field 9 1 ≤ 48 ∧ e.field 10 1 ≤ 8 ∧ e.field 11 5 = 0 ∧ e.field 24 8 % 8192 = 0 ∧ e.word 4 = 0 ∧ e.word 5 = 0 ∧
        e.word 6 = 0) && !(s.frond f).bound &&
      (if alm then decide (ctxm = 1 ∧ e.word 2 = 0 ∧ n = e.image.ncore) else decide (k ≤ e.launch.ctxn))) then .error 1
  else
    match s.recordCores e with
    | none => .error 2
    | some cores =>
      if !cores.all (fun c => s.computes (coreDie c) && !(s.core c).fenced && (s.core c).granted &&
          decide ((s.core c).world = e.world)) then .error 2
      else if !(if alm then cores.all (fun c => !s.almanacHeld c && !s.ctxHeld c 0)
          else cores.all (fun c => !(ctxm.testBit 0 && s.almanacHeld c) &&
            (List.range 4).all (fun k => !(ctxm.testBit k && s.ctxHeld c k)))) then .error 3
      else if !(columnsOf cores).all (fun a => decide (s.part a = s.part ((cores.map coreColumn).headD 0))) then .error 4
      else if !s.slotsFree cores (e.field 9 1) (e.field 10 1) then .error 5
      else if !alm && decide (n * k < largestGroup e.launch.widths e.launch.rlev e.wbase.toNat e.wcnt.toNat) then .error 6
      else
        let t := s.tableAt (e.word 3).toNat
        let other (c : Nat) : Bool := s.fronds.any (fun x => x.2.bound && x.2.cores.contains c)
        if t.2 && cores.all (fun c => !other c || decide ((s.core c).windows = t.1)) then .ok (cores, t.1) else .error 7

/-- The frame tick at or after a cycle. -/
def tickFrom (n : Nat) : Nat := (n + frameCycles - 1) / frameCycles

/-- `wlay` of a launch (R126). -/
def wlayOf (r : LaunchRec) : Word :=
  BitVec.ofNat 64 ((r.widths.zipIdx.foldl (fun a x => a + x.1 * 2 ^ (6 * x.2)) 0) + r.rlev * 2 ^ 36 +
    (if r.nl = 0 then 0 else 2 ^ 39))
/-- Tiles of a launch (R127). -/
def tilesOf (r : LaunchRec) : Nat :=
  if r.nl = 0 then 0 else (r.perm.take r.nl).foldl (fun a i => a * r.trips.getD i 1) 1
/-- The slice of rank i of n (R127). -/
def sliceOf (tiles n i : Nat) : Word :=
  let lo := i * tiles / n
  BitVec.ofNat 64 (lo + 2 ^ 32 * ((i + 1) * tiles / n - lo))

/-- ACCEPTING A BIND RECORD (R118): the frond is bound, the table stands in every core, the entry is BOUND. The world's table for
host and front-end accesses follows it (log 10). -/
def State.acceptRecord (s : State) (i : Nat) (cores : List Nat) (t : SMap Window) : State :=
  let e := s.slot i
  let f := e.field 2 2
  let alm := decide (e.kind = .almanac)
  let start := if alm then e.start.toNat else tickFrom (s.now + 4 * frameCycles)
  let fr : Frond :=
    { bound := true, kind := e.kind, world := e.world, entry := i, first := e.field 4 2, cores := cores, ctxm := e.field 8 1,
      base := (start * frameCycles : Int) - (e.word 2).toNat, start := start, wlay := wlayOf e.launch, rlev := e.launch.rlev,
      args := e.launch.args, tiles := tilesOf e.launch,
      pending := if alm then [] else idRanges e.wbase.toNat e.wcnt.toNat,
      limit := if e.limit = 0 then none else some (e.start.toNat + e.limit), depth := e.depth, lslt := e.field 9 1,
      mslt := e.field 10 1, linkSlots := (s.linkSlotsFor cores (e.field 9 1)).getD [],
      memSlots := (s.memSlotsFor cores (e.field 10 1)).getD [] }
  let s := { s with fronds := SMap.set s.fronds f fr }
  let s := cores.foldl (fun s c => s.updCore c (fun x => { x with windows := t })) s
  let s := s.updWorld e.world (fun w => { w with windows := t })
  let s := s.updSlot i (fun e => { e with st := .bound, frond := f, committed := false })
  if alm then
    -- context 0 of each core is preset; it issues at its armed cycle (R95, R150)
    cores.zipIdx.foldl (fun s c =>
      let r := e.image.starts.getD c.2 (0, 0)
      let tok := r.1.toNat
      (s.updCore c.1 (fun x => { x with armedAt := some r.2 })).updCtx c.1 0 (fun x =>
        { x with st := .ready, point := .entry (tok / 0x1000000) (tok / 0x10000 % 256) 1,
                 item := some { frond := f, wid := 0, depth := e.depth }, wid := 0, wlay := 0, tslc := 0, loop := {}, armed := 0,
                 arrived := false, wait := [], pre := none })) s
  else s

/-- A refused record (R117): the entry becomes FREE and its work completes with the status; a refused child signals nobody and
the manager is told. -/
def State.refuseRecord (s : State) (i status aux : Nat) : State :=
  let e := s.slot i
  let s := s.updSlot i Entry.freed
  let s := if e.kind = .child then s.tell (.launchf i aux) else s
  { s with packets := s.packets.map (fun p : Packet =>
      if p.entry = some i then { p.finish status aux with entry := none } else p) }

/-- A record that names a core of a column whose role change is in progress waits for it (R117). -/
def State.columnHeld (s : State) (e : Entry) : Bool :=
  match s.hub.role with
  | none => false
  | some r =>
    (List.range (e.field 6 2)).any (fun i =>
      (s.physOf (e.field 4 2 + i)).any (fun c => decide (r.mask / 2 ^ coreColumn c % 2 = 1)))
/-- The packet of the entry has started, or it is a child's. -/
def State.entryStarted (s : State) (i : Nat) : Bool :=
  s.packets.any (fun p => decide (p.entry = some i ∧ p.st = .running))
/-- A checkpoint holds dispatch (R108, R135). -/
def State.dispatchHeld (s : State) : Bool := s.hub.ckpt.any (fun c => decide (1 ≤ c.step))

/-- DISPATCH CHECKS A COMMITTED ENTRY (R117), unless something holds it; an almanac's image must carry the present tag of every
core (R317), and its tick S - 4 must not have passed (R95). The bytes that count are those the record holds at the check (log 67). -/
def State.dispatch (s : State) (i : Nat) : State :=
  let e := s.slot i
  if e.st ≠ .pending || !e.committed || s.columnHeld e || !s.entryStarted i || s.dispatchHeld then s
  else if e.kind = .almanac ∧ (e.start.toNat - 4) * frameCycles < s.now then s.refuseRecord i 0x0E 0
  else
    match s.checkRecord e with
    | .error aux =>
      let t := match (if aux = 7 then s.tableBad (e.word 3).toNat else none) with
        | some b => s.logFault (addrDie b) (s.readFault b 512 e.world 0)
        | none => s
      t.refuseRecord i 0x12 aux
    | .ok (cores, t) =>
      if e.kind = .almanac ∧ cores.any (fun c => decide (e.image.tag ≠ s.tag c)) then s.refuseRecord i 0x02 0
      else s.acceptRecord i cores t
/-- Committed entries that were held are checked. -/
def State.dispatchAll (s : State) : State := (SMap.keys s.hub.slots).foldl State.dispatch s

/-- `COMMIT` (R112, R116, R117). -/
def execCommit (entry : Nat) (value : Word) (s : State) : Out :=
  let e := s.slot entry
  if 256 ≤ entry ∨ value.getLsbD 0 = false ∨ fld value 1 31 ≠ 0#31 ∨ e.st ≠ .pending ∨ s.hub.holder = 0xFF ∨
      (fld value 32 32).toNat ≠ s.hub.epoch ∨ (e.word 7).toNat ≠ s.hub.epoch then
    .next (s.cfgError 0 (cfgAddr 0 (0x14000 + 8 * entry)))
  else .next ((s.updSlot entry (fun e => { e with committed := true })).dispatch entry)

/-- `ALMANAC_BIND_DEADLINE` (R95): tick S − 4 has passed and the record has not been accepted. -/
def execAlmanacBindDeadline (entry : Nat) (s : State) : Out :=
  let e := s.slot entry
  .next (if e.st = .pending ∧ e.kind = .almanac ∧ (e.start.toNat - 4) * frameCycles < s.now then s.refuseRecord entry 0x0E 0 else s)

/-! ### The launch record (R120, R121) -/

/-- Regions of a record from a byte offset. -/
def regionsAt (l : List Byte) (off n : Nat) : List (Nat × Nat) :=
  (List.range n).map (fun i => (leNat ((l.drop (off + 16 * i)).take 8), leNat ((l.drop (off + 16 * i + 8)).take 8)))
/-- Eight regions keep R128, and those beyond the count are zero. -/
def regionsOk (l : List Byte) (off n : Nat) : Bool :=
  (regionsAt l off 8).zipIdx.all (fun r =>
    decide (r.1.1 % 64 = 0 ∧ r.1.1 < 2 ^ 48 ∧ r.1.2 % 64 = 0) && (decide (r.2 < n) || decide (r.1 = (0, 0))))
/-- Bytes of a record as a number. -/
def recNat (l : List Byte) (off n : Nat) : Nat := leNat ((l.drop off).take n)
/-- The record's fields (R120). -/
def launchOf (l : List Byte) : LaunchRec :=
  { entry := BitVec.ofNat 64 (recNat l 0 8), widths := (List.range 6).map (fun i => recNat l (8 + i) 1), rlev := recNat l 14 1,
    ctxn := recNat l 15 1, lqm := recNat l 16 2, csig := BitVec.ofNat 64 (recNat l 24 8),
    args := (List.range 4).map (fun i => BitVec.ofNat 64 (recNat l (32 + 8 * i) 8)), nl := recNat l 64 1,
    perm := (List.range 6).map (fun i => recNat l (65 + i) 1), trips := (List.range 6).map (fun i => recNat l (72 + 4 * i) 4),
    rd := regionsAt l 128 (recNat l 18 1), wr := regionsAt l 256 (recNat l 19 1) }
/-- The record keeps its limits for these work items (R121). -/
def launchOk (l : List Byte) (wbase wcnt : Nat) (queued : Bool) : Bool :=
  let r := launchOf l
  let total := r.widths.foldl (· + ·) 0
  let nest := r.perm.take r.nl
  decide (recNat l 0 2 = 0) && r.widths.all (fun w => decide (w ≤ 32)) && decide (total ≤ 64) && decide (r.rlev ≤ 6) &&
  decide (1 ≤ r.ctxn ∧ r.ctxn ≤ 4) && decide (recNat l 18 1 ≤ 8 ∧ recNat l 19 1 ≤ 8) && decide (recNat l 20 4 = 0) &&
  decide (r.csig.toNat % 8 = 0) && (!queued || decide (r.csig = 0)) && decide (r.nl ≤ 6) && decide (recNat l 71 1 = 0) &&
  decide (recNat l 96 32 = 0) && (List.range r.nl).all nest.contains &&
  nest.all (fun i => decide (r.trips.getD i 0 ≠ 0)) && decide (tilesOf r ≤ 2 ^ 32 - 1) &&
  regionsOk l 128 (recNat l 18 1) && regionsOk l 256 (recNat l 19 1) && decide (wcnt ≠ 0) &&
  (decide (total = 64) || decide (wbase + wcnt ≤ 2 ^ total))

/-! ### Child launches (R130, R131, R379, R380) -/

/-- Requests of a context that a child's start waits for (R131): every one issued before its `launch` bundle, untimed copies among them. -/
def State.requestsOf (s : State) (c k f rid : Nat) : List Nat :=
  (s.unperformed c k f .fab ++ (s.ctx c k).copies.map CopySt.id).filter (fun n => decide (n < rid))
/-- The check of a `launch` of a frond at its release, which may come after the item that issued it has ended (R389): the status, and the state
with the PENDING child. A record with a word that fails its check is not
delivered, and the frond that needed it is aborted (R138). -/
def State.childLaunch (s : State) (c k rid f : Nat) (token va wbase wcnt : Word) : State × Nat :=
  let fr := s.frond f
  if 4 ≤ fr.depth then (s, 2)
  else
    match translate (s.core c).windows va.toNat 384 .rd with
    | none => (s, 3)
    | some pa =>
      let at_ := (List.range 384).map (fun i => pa + i)
      let l := (s.seenBy (s.core c).world at_).bytes pa 384
      match (if va.toNat % 64 = 0 then s.badRead at_ else none) with
      | some b => (s.uncorrectable b (.ctx c k f) token (s.core c).world, 3)
      | none =>
      if va.toNat % 64 ≠ 0 ∨ launchOk l wbase.toNat wcnt.toNat false = false then (s, 4)
      else
        match s.freeSlot with
        | none => (s, 1)
        | some i =>
          let r := launchOf l
          let parent := s.slot fr.entry
          let e : Entry :=
            { st := .pending, kind := .child, world := (s.core c).world, cls := parent.cls, ncore := fr.cores.length,
              recAddr := va, wbase := wbase, wcnt := wcnt, parent := fr.entry, launch := r, parentFrond := f,
              from_ := (c, k), after := s.requestsOf c k f rid, depth := fr.depth + 1 }
          let s := s.updSlot i (fun old => { e with bind := old.bind })
          let p : Packet :=
            { id := s.seqno, world := e.world, queue := 0xFFFF, bits := BitVec.ofNat 512 (0x01 + r.csig.toNat * 2 ^ 64),
              st := .running, entry := some i, parent := some f, launch := r, acted := true }
          ({ s with packets := s.packets ++ [p] }.bump, 0)
/-- The status of a `launch` released at the present cycle lands 2L + 16 later (R380); in a pending-write record it counts from
the suspension, and enters when it would have landed (R287). -/
def Ctx.launchStatus (x : Ctx) (rid now lat status : Nat) : Ctx :=
  let v : Vec := BitVec.ofNat 1024 status
  { x with
    inflight := x.inflight.map (fun r : Result => if r.id = rid then { r with due := now + lat, value := some v } else r)
    record := x.record.map (fun r : Result =>
      if r.id = rid then
        { r with due := if unknownCycle / 2 ≤ r.due then r.due + now + lat - unknownCycle else r.due, ready := now + lat, value := some v }
      else r) }

/-- The release of a held ordered event of a context (R178, R380): the first of its list, in its cycle. -/
def State.releaseEvent (s : State) (c k : Nat) (h : HeldEv) : State :=
  let s := s.updCtx c k (fun x => { x with heldev := x.heldev.filter (fun e => decide (e.id ≠ h.id)) })
  let lat := 2 * latNear s.t16 (s.cls c) + 16
  match h.ev, h.dropped with
  | .post a, false => s.post a
  | .post a, true => s.discard a
  | .arrive lev, _ => s.arrive c k lev
  | .launch rid f token va wb wc, false =>
    let r := s.childLaunch c k rid f token va wb wc
    r.1.updCtx c k (fun x => x.launchStatus rid s.now lat r.2)
  | .launch rid _ _ _ _ _, true => s.updCtx c k (fun x => x.launchStatus rid s.now lat 5)

/-! ### Fronds from start to end (R118, R119, R124, R125, R95) -/

/-- A child's start waits for the requests of its parent (R131). -/
def State.startReady (s : State) (f : Nat) : Bool :=
  let e := s.slot (s.frond f).entry
  e.after.all (fun n => !s.pendingReq e.from_.1 e.from_.2 n)
/-- A checkpoint has come past its barrier, and nothing starts before its end (R108). -/
def State.pastBarrier (s : State) : Bool := s.hub.ckpt.any (fun q => decide (3 ≤ q.step))
/-- A launch frond is due to start at this tick. -/
def State.startDue (s : State) (f : Nat) : Bool :=
  let fr := s.frond f
  fr.bound && !fr.ended && !fr.started && fr.abort.isNone && decide (fr.kind ≠ .almanac) && decide (s.now % frameCycles = 0) &&
  decide (fr.start * frameCycles ≤ s.now) && s.startReady f && !s.pastBarrier
/-- `FROND_START` (R118, R131): domain time takes DTIME0 at the tick of the start. -/
def execFrondStart (frond : Nat) (s : State) : Out :=
  .next (if s.startDue frond then
      s.updFrond frond (fun fr => { fr with started := true, base := (s.now : Int) - (fr.start * frameCycles - fr.base),
                                            start := s.now / frameCycles })
    else s)
/-- `ALMANAC_START` (R95): at tick S domain time becomes 0. -/
def execAlmanacStart (frond : Nat) (s : State) : Out :=
  let fr := s.frond frond
  .next (if fr.bound && !fr.started && decide (fr.kind = .almanac) && decide (fr.start * frameCycles ≤ s.now) then
      s.updFrond frond (fun fr => { fr with started := true, base := s.now })
    else s)

/-- A context that dispatch may give an item (R125, R389). -/
def Ctx.mayTake (x : Ctx) : Bool := decide (x.st = .idle) && x.inflight.all (fun r => r.old.isSome) && x.record.isEmpty && x.owed.isEmpty
/-- The core's column takes part in a role change (R28). -/
def State.changing (s : State) (c : Nat) : Bool := s.hub.role.any (fun r => decide (r.mask / 2 ^ coreColumn c % 2 = 1))
/-- Free contexts of a frond in the order of R125: rank, then context number. An idle context of a column in a role change stays idle
(R29). -/
def State.freeCtxs (s : State) (f : Nat) : List (Nat × Nat) :=
  let fr := s.frond f
  (fr.cores.filter (fun c => !s.changing c)).flatMap (fun c => ((List.range 4).filter (fun k => fr.ctxm.testBit k && (s.ctx c k).mayTake)).map (fun k => (c, k)))
/-- The next resident group: identifiers of the first pending range that agree with its first above level RLEV, and what is left.
A range that wraps to a lower one shares its group only at level 0. -/
def Frond.nextGroup (fr : Frond) : Option (List Nat × List (Nat × Nat)) :=
  let w := wlayWidths fr.wlay
  let p := fieldsFrom w fr.rlev
  let inGroup (x : Nat) (r : Nat × Nat) : Nat :=
    if fr.rlev = 0 then r.2 else if r.1 / 2 ^ p = x / 2 ^ p then Min.min r.2 ((r.1 / 2 ^ p + 1) * 2 ^ p - r.1) else 0
  match fr.pending with
  | [] => none
  | (x, _) :: _ =>
    some (fr.pending.flatMap (fun r => (List.range (inGroup x r)).map (fun i => r.1 + i)),
      (fr.pending.map (fun r => (r.1 + inGroup x r, r.2 - inGroup x r))).filter (fun r => decide (r.2 ≠ 0)))
/-- The size of the next group, without making it. -/
def Frond.groupSize (fr : Frond) : Nat :=
  let p := fieldsFrom (wlayWidths fr.wlay) fr.rlev
  match fr.pending with
  | [] => 0
  | (x, n) :: r =>
    if fr.rlev = 0 then ((x, n) :: r).foldl (fun a y => a + y.2) 0
    else Min.min n ((x / 2 ^ p + 1) * 2 ^ p - x) +
      (r.foldl (fun a y => a + (if y.1 / 2 ^ p = x / 2 ^ p then Min.min y.2 ((y.1 / 2 ^ p + 1) * 2 ^ p - y.1) else 0)) 0)
/-- A resident group may start at this tick. -/
def State.itemDue (s : State) (f : Nat) : Bool :=
  let fr := s.frond f
  fr.bound && fr.started && !fr.ended && fr.abort.isNone && !s.frozen f && !s.pastBarrier && decide (s.now % frameCycles = 0) &&
  !fr.pending.isEmpty && decide (fr.groupSize ≤ (s.freeCtxs f).length)
/-- STARTING AN ITEM on a context (R125): pc, `wid`, `wlay`, g1 to g4, `tslc`; every other register stays. -/
def State.startItem (s : State) (f c k wid : Nat) : State :=
  let fr := s.frond f
  let e := s.slot fr.entry
  let rank := fr.cores.findIdx (fun d => decide (d = c))
  let tok := e.launch.entry.toNat
  s.updCtx c k (fun x =>
    { x with
      st := .ready, point := .entry (tok / 0x1000000) (tok / 0x10000 % 256) 1,
      item := some { frond := f, wid := BitVec.ofNat 64 wid, depth := fr.depth }, wid := BitVec.ofNat 64 wid, wlay := fr.wlay,
      g := (List.range 4).foldl (fun g i => SMap.put 0 g (i + 1) (fr.args.getD i 0)) x.g,
      tslc := if fr.tiles = 0 then 0 else sliceOf fr.tiles fr.cores.length rank,
      loop := {}, armed := 0, arrived := false, wait := [], pre := none })
/-- `ITEM_START` (R124, R125): every item of the next resident group starts at one tick, ascending, on the free contexts in
order. -/
def execItemStart (frond : Nat) (s : State) : Out :=
  if !s.itemDue frond then .next s
  else
    match (s.frond frond).nextGroup with
    | none => .next s
    | some (ids, rest) =>
      let s' := ((s.freeCtxs frond).zip ids).foldl (fun s x => s.startItem frond x.1.1 x.1.2 x.2) s
      .next (s'.updFrond frond (fun fr => { fr with pending := rest, running := fr.running ++ ids }))

/-- A frond's resources may be freed: its work is complete, or it has been aborted or torn down, and the next frame tick has come (R119). -/
def State.endDue (s : State) (f : Nat) : Bool :=
  let fr := s.frond f
  fr.bound && (fr.ended || fr.abort.isSome) && decide (fr.endedAt < s.now) && decide (s.now % frameCycles = 0)
/-- What an aborted frond still has to complete goes on under a number that no frond can have, so that its own may be bound again. -/
def State.renumber (s : State) (f : Nat) : State :=
  let g := 1024 + s.seqno
  let r (n : Nat) : Nat := if n = f then g else n
  { s.bump with
    fronds := SMap.set (SMap.erase s.fronds f) g { s.frond f with bound := false, released := true }
    calendar := s.calendar.map (fun t : Timed => { t with frond := r t.frond })
    posted := s.posted.map (fun a : Access => { a with frond := r a.frond })
    packets := s.packets.map (fun p : Packet => { p with parent := p.parent.map r })
    hub := { s.hub with slots := s.hub.slots.map (fun e : Nat × Entry =>
      if e.2.st = .bound then (e.1, { e.2 with frond := r e.2.frond, parentFrond := r e.2.parentFrond }) else e) }
    cores := s.cores.map (fun e : Nat × Core =>
      (e.1, { e.2 with
        ctxs := e.2.ctxs.map (fun k : Nat × Ctx => (k.1, { k.2 with copies := k.2.copies.map (fun y : CopySt => { y with frond := r y.frond }) }))
        landPort := e.2.landPort.map (fun h : Nat × Nat => (h.1, r h.2))
        readPort := e.2.readPort.map (fun h : Nat × Nat => (h.1, r h.2))
        engine := { e.2.engine with
          owner := r e.2.engine.owner, calls := e.2.engine.calls.map (fun c : CallEnt => { c with frond := r c.frond }) } })) }
/-- `FROND_END` (R119): slots, contexts and number are free from this tick. -/
def execFrondEnd (frond : Nat) (s : State) : Out :=
  .next (if !s.endDue frond then s
    else if (s.frond frond).ended then { s with fronds := SMap.erase s.fronds frond }
    else s.renumber frond)

/-- `ALMANAC_LIMIT_EXPIRY` (R95). -/
def execAlmanacLimitExpiry (frond : Nat) (s : State) : Out :=
  let fr := s.frond frond
  .next (if fr.bound && fr.abort.isNone && !fr.ended && decide (fr.kind = .almanac) &&
      fr.limit.any (fun t => decide (t * frameCycles ≤ s.now)) && !fr.cores.all fr.halted.contains then
    s.abortFrond frond (0x11, 0) else s)

/-- `ARMED_START` (R150): at its armed domain cycle context 0 takes the issue position of its core; a free-mode context leaves it
before its next bundle and stays ready. -/
def execArmedStart (core : Nat) (s : State) : Out :=
  match (s.core core).armedAt with
  | none => .next s
  | some _ =>
    let s := s.updCore core (fun x =>
      { x with
        armedAt := none
        ctxs := x.ctxs.map (fun e : Nat × Ctx => if x.running = some e.1 then (e.1, { e.2 with st := .ready }) else e)
        running := none, nextIssue := s.now })
    .next (s.take core 0)

/-- The context has been blocked for 65,536 frames. -/
def State.waitedOut (s : State) (c k : Nat) : Bool :=
  (match (s.ctx c k).st with | .blocked | .trapped | .preempted => true | _ => false) && decide (timeoutFrames ≤ (s.gtick - (s.ctx c k).since).toNat)
/-- The wait is a barrier's. -/
def Ctx.atBarrier (x : Ctx) : Bool := x.wait.any (fun w => match w with | .barrier _ => true | _ => false)
/-- The wait is a `sig.wait`, `cwait`, `swait` or `wfe`. -/
def Ctx.atWait (x : Ctx) : Bool := x.wait.any (fun w => match w with | .barrier _ | .queues _ => false | _ => true)
/-- `BARRIER_TIMEOUT` (R123). -/
def execBarrierTimeout (core ctx : Nat) (s : State) : Out :=
  .next (if s.waitedOut core ctx && (s.ctx core ctx).atBarrier then s.abortFrond (s.ctx core ctx).frond (abortStatus 2 2) else s)
/-- `WAIT_TIMEOUT` (R386). -/
def execWaitTimeout (core ctx : Nat) (s : State) : Out :=
  .next (if s.waitedOut core ctx && (s.ctx core ctx).atWait then s.abortFrond (s.ctx core ctx).frond (abortStatus 3 0) else s)

end Sys2Proof.Machine
end

