-- ==== Sys2Proof/Machine/Cfg.lean ====
section
/-! DEFINITION. Configuration space (04 R83, R105, and the registers of 01, 02, 05, 06, 13, 14): the meaning of a read and of a
write of each address. The manual gives the port-split, CXL-decoder and statistics registers no address; theirs are the
model's (log 8). -/

namespace Sys2Proof.Machine

/-- A die identifier that names a die (R15). -/
def isDie (d : Nat) : Bool := decide (d < 40 ∧ d ≠ 7)
def isLayer (d : Nat) : Bool := decide (8 ≤ d ∧ d < 40)
/-- LYRCFG as read (R25). -/
def State.lyrcfg (s : State) (d : Nat) : Word :=
  let x := s.die d
  let code := match x.st with
    | .compute => 0 | .store => 1 | .draining => 2 | .flushing => 3 | .zeroing => 4 | .enumerating => 5 | .off => 6 | .fenced => 7
  BitVec.ofNat 64 (code + 0x100 * s.part (dieColumn d) + 0x10000 * (if s.part (dieColumn d) = 0 then 0 else s.hub.profile) +
    0x1000000 * diePos d + 0x8000000 * dieColumn d + 0x100000000 * x.chgn)
/-- LEASE as read (R110). -/
def Hub.lease (h : Hub) : Word := BitVec.ofNat 64 (h.holder + 0x100000000 * h.epoch)

/-- Registers with no layout (log 8): the port splits of H and the CXL decoders of F0 and F1 are locked, the statistics
registers of H are not. -/
def lockedReg (d off : Nat) : Bool :=
  (decide (d = 0 ∧ 0x300 ≤ off ∧ off < 0x340) || decide ((d = 5 ∨ d = 6) ∧ 0x400 ≤ off ∧ off < 0x440)) && decide (off % 8 = 0)
def freeReg (d off : Nat) : Bool := decide (d = 0 ∧ 0x500 ≤ off ∧ off < 0x600 ∧ off % 8 = 0)
/-- Locked registers are read only from CONFIG_LOCKED until the next entry to CONFIG (R83); firmware changes a port's split, and programs an
HDM decoder, in CONFIG alone (R51, R57). -/
def State.locked (s : State) : Bool := decide (s.hub.ifs ≠ .config)
/-- The register is the split of a port, and the value names none of the three splits (R51, log 8). -/
def badSplit (d off : Nat) (v : Word) : Bool := decide (d = 0 ∧ 0x300 ≤ off ∧ off < 0x340 ∧ 2 < v.toNat)

/-- The state an event leaves. -/
def stateOf (o : Out) (s : State) : State := match o with | .next t => t | _ => s

/-- What a configuration address names. -/
inductive CfgReg
  | lyrcfg (d : Nat)
  | lostev (d : Nat)
  | flstat (d : Nat)
  | log (d i w : Nat)
  | release (d c : Nat)
  | ctxctl (core : Nat)
  | savebase (core : Nat)
  | lskew (d e : Nat)
  | lstat (d e : Nat)
  | dir (core f : Nat)
  | window (core k off : Nat)
  | store (core f o : Nat)
  | lease
  | bindWord (i w : Nat)
  | commit (i : Nat)
  | view (i w : Nat)
  | plain (d off : Nat) (locked : Bool)
  | unmapped
  deriving DecidableEq, Repr

/-- The register at an address (R105): die in bits 31:24, die-local offset below; addresses are those of 8-byte words. -/
def cfgReg (addr : Nat) : CfgReg :=
  let d := addr / 0x1000000 % 256
  let off := addr % 0x1000000
  if !isDie d || decide (off % 8 ≠ 0) then .unmapped
  else if off = 0x48 then .lostev d
  else if off = 0x50 then .flstat d
  else if 0x800 ≤ off ∧ off < 0x900 then (if off % 16 = 0 then .lskew d ((off - 0x800) / 16) else .lstat d ((off - 0x800) / 16))
  else if 0x1000 ≤ off ∧ off < 0x1800 then .log d ((off - 0x1000) / 32) (off % 32 / 8)
  else if lockedReg d off then .plain d off true
  else if freeReg d off then .plain d off false
  else if isLayer d then
    let c := 16 * (d - 8)
    if off = 0x40 then .lyrcfg d
    else if 0x60 ≤ off ∧ off < 0xE0 then .release d ((off - 0x60) / 8)
    else if 0x200 ≤ off ∧ off < 0x280 then .ctxctl (c + (off - 0x200) / 8)
    else if 0x280 ≤ off ∧ off < 0x300 then .savebase (c + (off - 0x280) / 8)
    else if 0x4000 ≤ off ∧ off < 0x6000 then .dir (c + (off - 0x4000) / 0x200) (off % 0x200 / 8)
    else if 0x100000 ≤ off ∧ off < 0x500000 then
      .window (c + (off - 0x100000) / 0x40000) ((off - 0x100000) / 0x10000 % 4) (off % 0x10000)
    else if 0x800000 ≤ off ∧ off < 0xC00000 then .store (c + (off - 0x800000) / 0x40000) (off / 0x1000 % 64) (off % 0x1000 / 4)
    else .unmapped
  else if d = 0 then
    if off = 0x100 then .lease
    else if 0x10000 ≤ off ∧ off < 0x14000 then .bindWord ((off - 0x10000) / 64) (off % 64 / 8)
    else if 0x14000 ≤ off ∧ off < 0x14800 then .commit ((off - 0x14000) / 8)
    else if 0x18000 ≤ off ∧ off < 0x1C000 then .view ((off - 0x18000) / 64) (off % 64 / 8)
    else .unmapped
  else .unmapped

/-- A configuration write (R105): the state it leaves, or none where the register refuses it. A write to a read-only field is
ignored, and is no refusal. -/
def State.cfgTry (s : State) (addr : Nat) (v : Word) : Option State :=
  match cfgReg addr with
  | .lyrcfg _ | .view _ _ | .unmapped => none
  | .lostev d => some (stateOf (execLostevClear d v s) s)
  | .flstat _ | .log _ _ _ => some s
  | .release d c => if s.mayRelease (16 * (d - 8) + c) then some (stateOf (execCoreRelease d c s) s) else none
  | .ctxctl c =>
    let r := s.writeCtxctl c v
    if r.2 then some r.1 else none
  | .savebase c => some (s.updCore c (fun x => { x with savebase := v &&& 0xFFFFFFFFFFFF }))
  | .lskew d e =>
    if hasEndpoint d e && s.skewOpen && (carriesTick d e || decide (fld v 0 6 = 0#6)) then some (stateOf (execLskewWrite d e v s) s)
    else none
  | .lstat d e => if hasEndpoint d e then some (stateOf (execLstatClear d e v s) s) else none
  | .dir c f => if (s.core c).dirOk f v then some (stateOf (execDirectoryWrite c f v s) s) else none
  | .window c k off => if s.windowOk c k then some (s.windowWrite c k off v) else none
  | .store c f o =>
    if s.storeOk c f o then
      some (s.updCore c (fun x => (x.setSyl f o (v.setWidth 32)).setSyl f (o + 1) ((v >>> 32).setWidth 32)))
    else none
  | .lease =>
    if fld v 0 8 ≠ 0#8 then none
    else if s.hub.holder = 0 ∧ s.hub.epoch = (fld v 32 32).toNat then some s
    else s.leaseClaim 0
  | .bindWord i w =>
    if (s.slot i).st = .pending then some (stateOf (execBindRecordWrite i w v s) s) else none
  | .commit i =>
    let e := s.slot i
    if v.getLsbD 0 = false ∨ fld v 1 31 ≠ 0#31 ∨ e.st ≠ .pending ∨ s.hub.holder = 0xFF ∨
        (fld v 32 32).toNat ≠ s.hub.epoch ∨ (e.word 7).toNat ≠ s.hub.epoch then none
    else some (stateOf (execCommit i v s) s)
  | .plain d off l =>
    if l && (s.locked || badSplit d off v) then none else some (s.updHub (fun h => { h with cfg := SMap.put 0 h.cfg (0x1000000 * d + off) v }))
/-- The die whose fault log takes a refused access: the one named, or H (R105). -/
def cfgLogDie (addr : Nat) : Nat := if isDie (addr / 0x1000000 % 256) then addr / 0x1000000 % 256 else 0
/-- A refused write is logged with code 0x0A. -/
def State.cfgRefuse (s : State) (addr : Nat) : State := s.cfgError (cfgLogDie addr) (BitVec.ofNat 64 addr)

/-- A configuration write carried out (R105): of a CTXCTL write, the bits that are accepted take effect (R274). -/
def State.cfgWrite (s : State) (addr : Nat) (v : Word) : State :=
  match cfgReg addr with
  | .ctxctl c => (s.writeCtxctl c v).1
  | _ => (s.cfgTry addr v).getD (s.cfgRefuse addr)

/-- The entry of a core's translation window table, and its word, that management firmware names (R133); the manual gives the table no
address, and these are carriers of no register (log 55). -/
def tableEntry (addr : Nat) : Option (Nat × Nat × Nat) :=
  if 0x80000000 ≤ addr ∧ addr < 0x80400000 ∧ addr % 8 = 0 then
    some ((addr - 0x80000000) / 0x2000, (addr - 0x80000000) / 32 % 256, addr / 8 % 4)
  else none
/-- An entry of a translation window table as a number (R133). -/
def Window.bits (w : Window) : Nat :=
  w.vbase + 2 ^ 64 * w.pbase + 2 ^ 128 * w.size + 2 ^ 192 * w.v.toNat + 2 ^ 193 * w.rd.toNat + 2 ^ 194 * w.wr.toNat +
    2 ^ 195 * w.atm.toNat + 2 ^ 196 * w.mig.toNat
/-- Management firmware rewrites a word of an entry (R133). -/
def State.rewriteEntry (s : State) (c i w : Nat) (v : Word) : State :=
  s.updCore c (fun x =>
    let n := (SMap.get {} x.windows i).bits
    let e := (windowOf (n - n / 2 ^ (64 * w) % 2 ^ 64 * 2 ^ (64 * w) + v.toNat * 2 ^ (64 * w))).1
    { x with windows := SMap.put {} x.windows i e })
/-- `CONFIG_REGISTER_WRITE` (R105): a write by a management core. -/
def execConfigRegisterWrite (addr : BitVec 32) (value : Word) (s : State) : Out :=
  match tableEntry addr.toNat with
  | some (c, i, w) => .next (s.rewriteEntry c i w value)
  | none => .next (s.cfgWrite addr.toNat value)

/-- A configuration read; none where no register stands. -/
def State.cfgRead (s : State) (addr : Nat) : Option Word :=
  match cfgReg addr with
  | .unmapped => none
  | .lyrcfg d => some (s.lyrcfg d)
  | .lostev d => some (BitVec.ofNat 64 (s.die d).lost)
  | .flstat d => some (s.die d).flstat
  | .log d i w => some ((s.die d).logWord i w)
  | .release _ _ | .commit _ => some 0
  | .ctxctl c => some (s.core c).ctxctl
  | .savebase c => some (s.core c).savebase
  | .lskew d e => some (if hasEndpoint d e then ((s.die d).ep e).lskew else 0)
  | .lstat d e => some (if hasEndpoint d e then ((s.die d).ep e).lstat else 0)
  | .dir c f => some ((s.core c).dirWord f)
  | .window c k off => some (s.windowRead c k off)
  | .store c f o => some (((s.core c).syl f o).setWidth 64 ||| (((s.core c).syl f (o + 1)).setWidth 64 <<< 32))
  | .lease => some s.hub.lease
  | .bindWord i w => some ((s.slot i).word w)
  | .view i w => some ((s.slot i).view w)
  | .plain d off _ => some (SMap.get 0 s.hub.cfg (0x1000000 * d + off))

end Sys2Proof.Machine
end

