-- ==== Sys2Proof/Machine/Commands.lean ====
section
/-! DEFINITION. The command packets (04 R89 to R106): NOP, LAUNCH, ALMANAC, PRED, SIGDEC, SIGWAIT, COPY, KEY, IFST, CFGWR, CFGRD,
WORLD, MEASURE and QUEUE. -/

namespace Sys2Proof.Machine

/-- A started packet whose own effect is still to come. -/
def State.starting (s : State) (id opc : Nat) : Option Packet :=
  (s.packet id).filter (fun p => decide (p.st = .running ∧ pkOpc p.bits = opc) && !p.acted)
/-- A packet completes with a status. -/
def State.endPacket (s : State) (id status : Nat) (aux : Nat := 0) (force : Bool := false) : State :=
  s.updPacket id (fun p => p.finish status aux force)
/-- An immediate effect: the state it leaves and the status. -/
def State.command (s : State) (id opc : Nat) (sub : Option Nat) (f : Packet → State × Nat) : Out :=
  match s.starting id opc with
  | none => .next s
  | some p =>
    if sub.any (fun n => decide (pkField p.bits 24 1 ≠ n)) then .next s
    else
      let r := f p
      .next (r.1.endPacket id r.2)

/-- A packet whose act at consumption is due. -/
def State.freshOf (s : State) (id opc : Nat) : Option Packet :=
  (s.packet id).filter (fun p => decide (p.st = .fresh ∧ pkOpc p.bits = opc))
/-- The outcome of an act at consumption: refused, it completes at once; carried out, it completes in its turn in the queue. -/
def State.settle (s : State) (id status : Nat) : State :=
  if status = 0 then s.updPacket id (fun p => { p with st := .waiting, acted := true }) else s.endPacket id status
/-- An effect at consumption: the state it leaves and the status. -/
def State.atConsumption (s : State) (id opc : Nat) (sub : Option Nat) (f : Packet → State × Nat) : Out :=
  match s.freshOf id opc with
  | none => .next s
  | some p =>
    if sub.any (fun n => decide (pkField p.bits 24 1 ≠ n)) then .next s
    else
      let r := f p
      .next (r.1.settle id r.2)

/-- `NOP` (R89). -/
def execNop (id : Nat) (s : State) : Out := s.command id 0x00 none (fun _ => (s, 0))

/-! ### Launch and almanac (R93, R95, R114, R120, R128, R129) -/

/-- Its entry is PENDING, and its edges are drawn. -/
def State.placeEntry (s : State) (p : Packet) (i : Nat) (e : Entry) (queues : List Nat) (rd wr : List (Nat × Nat)) : State :=
  let edges := edgesTo (s.before p.id) p.world queues rd wr
  (s.updSlot i (fun old => { e with bind := old.bind })).updPacket p.id (fun q =>
    { q with st := .waiting, acted := true, entry := some i, rd := rd, wr := wr, edges := edges, launch := e.launch,
             image := e.image })

/-- `LAUNCH` (R93): its record is read once, and the entry is PENDING. -/
def execLaunch (id : Nat) (s : State) : Out :=
  match s.freshOf id 0x01 with
  | none => .next s
  | some p =>
    match s.freeSlot with
    | none => .next s
    | some i =>
      let wbase := pkField p.bits 32 8
      let wcnt := pkField p.bits 40 8
      match s.feRead p.world (pkField p.bits 24 8) 384 with
      | .wait => .next s
      | .fail st t => .next (t.endPacket id st)
      | .ok l t =>
        if launchOk l wbase wcnt true = false then .next (t.endPacket id 0x12 1)
        else
          let r := launchOf l
          let e : Entry :=
            { st := .pending, kind := .launch, world := p.world, cls := pkField p.bits 50 1, ncore := pkField p.bits 48 2,
              recAddr := BitVec.ofNat 64 (pkField p.bits 24 8), wbase := BitVec.ofNat 64 wbase, wcnt := BitVec.ofNat 64 wcnt,
              packet := id, launch := r }
          .next (t.placeEntry p i e (p.queue :: (List.range 16).filter (fun q => r.lqm.testBit q)) r.rd r.wr)

/-- An almanac image (R339) of n ranks: the fields used, and whether it keeps its limits. -/
def imageOf (l : List Byte) : AlmanacImg :=
  { tag := BitVec.ofNat 32 (recNat l 4 4), ncore := recNat l 8 2,
    starts := (List.range (recNat l 8 2)).map (fun k => (BitVec.ofNat 64 (recNat l (320 + 16 * k) 8), recNat l (328 + 16 * k) 8)),
    rd := regionsAt l 64 (recNat l 10 1), wr := regionsAt l 192 (recNat l 11 1) }
def imageOk (l : List Byte) : Bool :=
  decide (recNat l 0 4 = 0x4C41464D ∧ 1 ≤ recNat l 8 2 ∧ recNat l 8 2 ≤ 384 ∧ recNat l 10 1 ≤ 8 ∧ recNat l 11 1 ≤ 8 ∧
    recNat l 12 52 = 0) && regionsOk l 64 (recNat l 10 1) && regionsOk l 192 (recNat l 11 1)

/-- `ALMANAC` (R95): the start tick is set, or the packet is LATE; the image is read and the entry is PENDING. -/
def execAlmanac (id : Nat) (s : State) : Out :=
  match s.freshOf id 0x02 with
  | none => .next s
  | some p =>
    let start := if pkField p.bits 32 8 = 0 then s.gtick.toNat + 16 else pkField p.bits 32 8
    let img := pkField p.bits 24 8
      if start < s.gtick.toNat + 5 then .next (s.endPacket id 0x0E)
      else
        match s.freeSlot, s.feRead p.world img 320 with
        | none, _ | _, .wait => .next s
        | _, .fail st t => .next (t.endPacket id st)
        | some i, .ok head t =>
          if imageOk head = false then .next ((t.endPacket id 0x0B).queueError p.world p.queue)
          else
            match t.feRead p.world img (320 + 16 * recNat head 8 2) with
            | .wait => .next s
            | .fail st t => .next (t.endPacket id st)
            | .ok l t =>
              let m := imageOf l
              let e : Entry :=
                { st := .pending, kind := .almanac, world := p.world, ncore := m.ncore, recAddr := BitVec.ofNat 64 img,
                  start := BitVec.ofNat 64 start, packet := id, image := m, limit := pkField p.bits 40 4 }
              .next (t.placeEntry p i e [p.queue] m.rd m.wr)

/-! ### Predication and signals (R97 to R101) -/

/-- The comparison of a PRED (R97). -/
def predCmp (cmp : Nat) (x v : Word) : Bool :=
  match cmp with
  | 0 => decide (x = v) | 1 => decide (x ≠ v) | 2 => decide (x.toNat < v.toNat) | 3 => decide (v.toNat ≤ x.toNat)
  | 4 => decide (x.toInt < v.toInt) | _ => decide (v.toInt ≤ x.toInt)
/-- Packets put after a packet of the list. -/
def insertAfter (id : Nat) (l : List Packet) : List Packet → List Packet
  | [] => []
  | p :: r => if p.id = id then p :: (l ++ r) else p :: insertAfter id l r

/-- `PRED` (R97, R101): the word is read once; the taken arm's packets stand where the PRED stood, the others are discarded. A packet that was
consumed behind the PRED before it ran has got its edges at its own consumption, and gets none from these (log 77). -/
def execPred (id : Nat) (s : State) : Out :=
  match s.starting id 0x03 with
  | none => .next s
  | some p =>
    match s.feRead p.world (pkField p.bits 24 8) 8 with
    | .wait => .next s
    | .fail st t => .next (t.endPacket id st 0 true)
    | .ok l t =>
      let x : Word := BitVec.ofNat 64 (leNat l) &&& BitVec.ofNat 64 (pkField p.bits 32 8)
      let c := predCmp (pkField p.bits 48 1) x (BitVec.ofNat 64 (pkField p.bits 40 8))
      let nt := pkField p.bits 49 1
      let arm := if c then p.arms.take nt else p.arms.drop nt
      let r := arm.foldl (fun (a : State × List Packet) b =>
        let q := { a.1.newPacket p.world p.queue b [] with st := .waiting, arm := true, orphan := p.orphan }
        (a.1.bump, a.2 ++ [if p.orphan then q.finish 0x0A else q])) (t, [])
      .next ({ r.1 with packets := insertAfter id r.2 r.1.packets }.endPacket id 0 c.toNat)

/-- `SIGDEC` (R100, R101). -/
def execSigdec (id : Nat) (s : State) : Out :=
  match s.starting id 0x04 with
  | none => .next s
  | some p =>
    match s.feAddr p.world (pkField p.bits 24 8) 8 .atm with
    | none => .next (s.endPacket id 0x0D)
    | some pa =>
      .next ((s.updPacket id (fun p => { p with acted := true })).packetPost id p.world pa
        (.dec pa (BitVec.ofNat 64 (pkField p.bits 32 8))))

/-- One evaluation of a SIGWAIT (R99, R101). -/
def State.evalSigwait (s : State) (p : Packet) : State :=
  match s.feRead p.world (pkField p.bits 24 8) 8 with
  | .wait => s
  | .fail st t => t.endPacket p.id st 0 true
  | .ok l t =>
    let v : Word := BitVec.ofNat 64 (leNat l)
    let thr : Word := BitVec.ofNat 64 (pkField p.bits 32 8)
    if v.toInt ≤ thr.toInt then t.endPacket p.id 0 else t
/-- `SIGWAIT` (R100): its timeout runs from its start. -/
def execSigwait (id : Nat) (s : State) : Out :=
  match s.starting id 0x05 with
  | none => .next s
  | some p =>
    let tmo := pkField p.bits 40 4
    let s := s.updPacket id (fun p => { p with acted := true, until_ := if tmo = 0 then none else some (s.gtick.toNat + tmo) })
    .next (s.evalSigwait p)
/-- A SIGWAIT that waits. -/
def State.sigwaiting (s : State) (id : Nat) : Option Packet :=
  (s.packet id).filter (fun p => decide (p.st = .running ∧ pkOpc p.bits = 0x05) && p.acted)
/-- `SIGWAIT_REEVALUATE` (R99). -/
def execSigwaitReevaluate (id : Nat) (s : State) : Out :=
  match s.sigwaiting id with
  | none => .next s
  | some p => .next (s.evalSigwait p)
/-- `SIGWAIT_TIMEOUT` (R100). -/
def execSigwaitTimeout (id : Nat) (s : State) : Out :=
  match s.sigwaiting id with
  | none => .next s
  | some p => .next (if p.until_.any (fun t => decide (t ≤ s.gtick.toNat)) then s.endPacket id 0x11 0 true else s)

/-! ### COPY (R102) -/

/-- `COPY` (R102): the copy service takes up the next line: copied, filled, or combined as FP32; a failed translation ends it,
and lines already written keep their values. -/
def execCopy (id : Nat) (s : State) : Out :=
  match (s.packet id).filter (fun p => decide (p.st = .running ∧ pkOpc p.bits = 0x06 ∧ p.status = 0) && !p.err) with
  | none => .next s
  | some p =>
    let off := p.progress
    let mode := pkField p.bits 48 1
    if pkField p.bits 40 8 ≤ off then .next s
    else
      match s.feAddr p.world (pkField p.bits 32 8 + off) 64 (if mode = 2 then .atm else .wr) with
      | none => .next (s.updPacket id (fun p => { p with status := 0x0D }))
      | some dst =>
        let up (s : State) (l : List Byte) : State :=
          let cells := l.zipIdx.map (fun b => (dst + b.2, b.1))
          let act : Act := if mode = 2 then .combine .f32 { cells := cells } else .write { cells := cells }
          (s.updPacket id (fun p => { p with acted := true, progress := off + 64 })).packetPost id p.world dst act (pkField p.bits 50 1)
        if mode = 1 then .next (up s (List.replicate 64 (BitVec.ofNat 8 (pkField p.bits 49 1))))
        else
          let src := pkField p.bits 24 8 + off
          match s.feAddr p.world src 64 .rd with
          | none => .next (s.updPacket id (fun p => { p with status := 0x0D }))
          | some pa =>
            match s.badRead ((List.range 64).map (fun i => pa + i)) with
            | some b => .next (s.uncorrectable b (.packet id) 0 p.world)
            | none =>
              match s.feRead p.world src 64 (pkField p.bits 50 1) with
              | .wait => .next s
              | .fail st t => .next (t.updPacket id (fun p => { p with status := st }))
              | .ok l t => .next (up t l)

/-! ### KEY (R104) -/

/-- `LOADKEY` (R104): a second one completes with STATE, which is one that finds a key: after an ERASELOAD another is taken (log 78). -/
def execLoadkey (id : Nat) (s : State) : Out :=
  s.command id 0x09 (some 1) (fun p =>
    if (s.world p.world).loadkey.isSome then (s, 0x0A)
    else (s.updWorld p.world (fun w => { w with loadkey := some (BitVec.ofNat 256 (pkField p.bits 32 32)) }), 0))
/-- `ERASELOAD` (R104). -/
def execEraseload (id : Nat) (s : State) : Out :=
  s.command id 0x09 (some 2) (fun p => (s.updWorld p.world (fun w => { w with loadkey := none }), 0))

/-! ### IFST (R82, R83) -/

/-- A partition command has been consumed and has not completed. -/
def State.partitioning (s : State) : Bool :=
  s.hub.role.isSome || s.packets.any (fun p => decide (pkOpc p.bits = 0x07 ∧ (p.st = .waiting ∨ p.st = .running)) && !p.arm)
/-- `IFST_LOCK` (R83). -/
def execIfstLock (id : Nat) (s : State) : Out :=
  s.atConsumption id 0x0A (some 1) (fun p =>
    let g := pkField p.bits 32 8
    if s.hub.ifs ≠ .config ∨ s.partitioning ∨ (List.range 4).any (fun k => decide (s.part k = 0)) then (s, 0x0A)
    else if g < s.gtick.toNat + 2 then (s, 0x0E)
    else (s.updHub (fun h => { h with ifs := .locked, lockTick := some (BitVec.ofNat 64 g) }), 0))
/-- `IFST_UNLOCK` (R83). -/
def execIfstUnlock (id : Nat) (s : State) : Out :=
  s.atConsumption id 0x0A (some 2) (fun _ =>
    if s.hub.ifs = .locked then (s.updHub (fun h => { h with ifs := .config, lockTick := none }), 0) else (s, 0x0A))
/-- `IFST_RELEASE` (R82). -/
def execIfstRelease (id : Nat) (s : State) : Out :=
  s.command id 0x0A (some 3) (fun _ => if s.hub.ifs = .run then (s.updHub (fun h => { h with ifs := .drain }), 0) else (s, 0x0A))

/-! ### CFGWR and CFGRD (R83, R105) -/

/-- The entries of a CFGWR. -/
def cfgEntries (b : BitVec 512) : List (Nat × Word) :=
  (List.range (pkField b 24 1)).map (fun i => (pkField b (28 + 12 * i) 4, BitVec.ofNat 64 (pkField b (32 + 12 * i) 8)))
/-- `CFGWR` (R105): checked whole, then every entry is written in order; or none, and each refusing entry is logged. A locked
register is logged in H's fault log (R83). -/
def execCfgwr (id : Nat) (s : State) : Out :=
  s.atConsumption id 0x0B none (fun p =>
    let l := cfgEntries p.bits
    let bad := l.filter (fun e => (s.cfgTry e.1 e.2).isNone)
    if bad.isEmpty then (l.foldl (fun s e => s.cfgWrite e.1 e.2) s, 0)
    else
      (bad.foldl (fun s e => match cfgReg e.1 with
        | .plain _ _ _ => s.cfgErrorH 0 (BitVec.ofNat 64 e.1)
        | _ => s.cfgErrorH (cfgLogDie e.1) (BitVec.ofNat 64 e.1)) s, 0x0C))
/-- `CFGRD` (R105): the registers' values are written to world 0's memory before the status word (R99). -/
def execCfgrd (id : Nat) (s : State) : Out :=
  match s.starting id 0x0C with
  | none => .next s
  | some p =>
    let n := pkField p.bits 24 1
    let vals := (List.range n).map (fun i => s.cfgRead (pkField p.bits (28 + 4 * i) 4))
    if vals.any Option.isNone then .next (s.endPacket id 0x0C)
    else
      match s.feAddr p.world (pkField p.bits 40 8) (8 * n) .wr with
      | none => .next (s.endPacket id 0x0D)
      | some pa =>
        let cells := vals.zipIdx.flatMap (fun v => cellsAt (pa + 8 * v.2) 8 (v.1.getD 0).toNat)
        -- one write a line, in ascending order (R167)
        .next ((linesOf (cells.map Prod.fst)).foldl (fun s n =>
            let part := cells.filter (fun c => decide (lineOf c.1 = n))
            s.packetPost id p.world ((part.head?.map Prod.fst).getD pa) (.write { cells := part }))
          (s.updPacket id (fun p => { p with acted := true })))

/-! ### WORLD (R72, R73, R105, R106) -/

/-- The translation window table policy firmware keeps for a world: in the manager's region, 8 KiB for each world (log 10). -/
def State.worldTable (s : State) (w : Nat) : SMap Window :=
  let t := s.tableAt (s.hub.manifest.regionBase + 8192 * w)
  if t.2 then t.1 else []

/-- `WORLD_CREATE` (R72, R73, R85): the engine draws the world key; queue 0 exists, with HEAD and TAIL 0 (log 65); the world is LOADING. -/
def execWorldCreate (id : Nat) (key : BitVec 512) (s : State) : Out :=
  s.command id 0x0D (some 1) (fun p =>
    let w := pkField p.bits 25 1
    if w = 0 ∨ (s.world w).st ≠ .empty then (s, 0x0A)
    else
      let q : Queue := { present := true, base := BitVec.ofNat 64 (pkField p.bits 32 8), log2n := pkField p.bits 40 1 }
      (s.updWorld w (fun _ =>
        { st := .loading, confidential := decide (pkField p.bits 26 1 = 1), key := some key,
          cred := BitVec.ofNat 128 (pkField p.bits 48 16), queues := [(0, q)], windows := s.worldTable w }), 0))

/-- `WORLD_DRAIN` (R72, R135): its PENDING entries complete with STATE. -/
def execWorldDrain (id : Nat) (s : State) : Out :=
  s.command id 0x0D (some 2) (fun p =>
    let w := pkField p.bits 25 1
    if w = 0 ∨ (s.world w).st ≠ .ready then (s, 0x0A)
    else
      let l := (s.hub.slots.filter (fun e => decide (e.2.st = .pending ∧ e.2.world = w))).map Prod.fst
      let s := s.updWorld w (fun x => { x with st := .draining })
      (l.foldl (fun s i =>
        { s.updSlot i Entry.freed with
          packets := s.packets.map (fun p : Packet => if p.entry = some i then { p.finish 0x0A with entry := none } else p) }) s, 0))

/-- The cores granted to a world (R132). -/
def State.grantOf (s : State) (w : Nat) : List Nat :=
  (s.cores.filter (fun e => e.2.granted && decide (e.2.world = w))).map Prod.fst
/-- A world's cores are zeroised and leave its grant (R132, R164). -/
def State.ungrant (s : State) (w : Nat) : State :=
  (s.grantOf w).foldl (fun s c => (s.zeroiseCore c).updCore c (fun x => { x with granted := false, world := 0, windows := [] })) s
/-- What `owner` holds for a line of a world that is gone. -/
def noWorld : Nat := 257
/-- The world's key goes, and the lines it has written, its save areas among them, stand as the ciphertext they are (R71, R204, R295). -/
def State.forgetMemory (s : State) (w : Nat) : State :=
  (SMap.keys (s.owner.filter (fun e => decide (e.2 = w + 1)))).foldl (fun t n =>
    { t.writeCells (lineCells n (lineSeen (s.world w).key none n (s.lineBytes n))) with owner := SMap.put 0 t.owner n noWorld }) s
/-- A world is EMPTY: its cores are zeroised, its keys erased, its queues gone. -/
def State.eraseWorld (s : State) (w : Nat) : State := ((s.ungrant w).forgetMemory w).updWorld w (fun _ => {})
/-- No work of a world is left on its cores or in the slot table. -/
def State.worldIdle (s : State) (w : Nat) : Bool :=
  !s.fronds.any (fun e => e.2.bound && decide (e.2.world = w)) &&
  !s.hub.slots.any (fun e => decide (e.2.st ≠ .free ∧ e.2.world = w)) &&
  !s.posted.any (fun a => decide (a.world = w)) && !s.packets.any (fun p => decide (p.world = w)) &&
  (s.grantOf w).all (fun c => (s.core c).ctxs.all (fun e => decide (e.2.st = .idle) && e.2.heldev.isEmpty && e.2.copies.isEmpty))
/-- `WORLD_DRAIN_COMPLETE` (R72): every core of the world is drained and zeroised, and the world is EMPTY. -/
def execWorldDrainComplete (world : Nat) (s : State) : Out :=
  .next (if (s.world world).st = .draining ∧ s.worldIdle world then
      s.eraseWorld world
    else s)

/-- `WORLD_GRANT` (R106). -/
def execWorldGrant (id : Nat) (s : State) : Out :=
  match (s.freshOf id 0x0D).filter (fun p => decide (pkField p.bits 24 1 = 4)) with
  | none => .next s
  | some p =>
    let w := pkField p.bits 25 1
    if (s.world w).st ≠ .loading ∨ 8 ≤ (s.world w).step then .next (s.endPacket id 0x0A)
    else
      match s.feRead 0 (pkField p.bits 32 8) 64 with
      | .wait => .next s
      | .fail st t => .next (t.endPacket id st)
      | .ok l t =>
        let m := leNat l
        let cs := (List.range 512).filter (fun c => m.testBit c)
        if cs.any (fun c => !t.computes (coreDie c) || (t.core c).fenced || (t.core c).granted) then .next (t.endPacket id 0x04)
        else
          .next ((cs.foldl (fun s c => (s.zeroiseCore c).updCore c (fun x =>
            { x with granted := true, world := w, windows := [] })) t).settle id 0)

/-! ### MEASURE (R60) -/

/-- A digest's 48 bytes. -/
def digestBytes (d : BitVec 384) : List Byte := leBytes 48 d.toNat
/-- Extend(i, d) (R60). -/
def State.extend (s : State) (i : Nat) (d : List Byte) : State :=
  s.updHub (fun h => { h with msl := SMap.put 0 h.msl i (sha384 (digestBytes (SMap.get 0 h.msl i) ++ d)) })
/-- `MEASURE` (R60): a slot below 16 is refused with ACCESS. -/
def execMeasure (id : Nat) (s : State) : Out :=
  match s.starting id 0x0E with
  | none => .next s
  | some p =>
    let i := pkField p.bits 32 1
    if i < 16 then .next (s.endPacket id 0x0C)
    else
      match s.feRead p.world (pkField p.bits 24 8) 48 with
      | .wait => .next s
      | .fail st t => .next (t.endPacket id st)
      | .ok l t => .next ((t.extend i l).endPacket id 0)

/-! ### QUEUE (R87, R105) -/

/-- `QUEUE_CREATE` (R105): HEAD and TAIL of a new queue are 0 (log 65). -/
def execQueueCreate (id : Nat) (s : State) : Out :=
  s.command id 0x0F (some 1) (fun p =>
    let q := pkField p.bits 25 1
    if (s.queueAt p.world q).present then (s, 0x0A)
    else
      (s.updQueue p.world q (fun _ =>
        { present := true, base := BitVec.ofNat 64 (pkField p.bits 32 8), log2n := pkField p.bits 26 1 }), 0))
/-- `QUEUE_RESET` (R87). -/
def execQueueReset (id : Nat) (s : State) : Out :=
  s.command id 0x0F (some 2) (fun p =>
    let q := pkField p.bits 25 1
    let i := BitVec.ofNat 32 (pkField p.bits 40 4)
    if !(s.queueAt p.world q).present then (s, 0x0A)
    else (s.updQueue p.world q (fun x => { x with error := false, head := i, tail := i }), 0))
/-- `QUEUE_DESTROY` (R105): other consumed packets of the queue that have not started complete with STATE; the packets of a PRED's arms, which was
not run, go with it and write no state of their own (log 79). -/
def execQueueDestroy (id : Nat) (s : State) : Out :=
  s.atConsumption id 0x0F (some 3) (fun p =>
    let q := pkField p.bits 25 1
    if !(s.queueAt p.world q).present then (s, 0x0A)
    else
      let own (x : Packet) : Bool := decide (x.world = p.world ∧ x.queue = q)
      let hit (x : Packet) : Bool := own x && decide (x.id ≠ id ∧ x.st = .waiting)
      let slots := (s.packets.filter hit).filterMap Packet.entry
      let s := slots.foldl (fun s i => s.updSlot i Entry.freed) s
      let s := { s with packets := s.packets.map (fun x : Packet =>
        if hit x then { x.finish 0x0A with entry := none, orphan := true } else if own x then { x with orphan := true } else x) }
      (s.updWorld p.world (fun w => { w with queues := SMap.erase w.queues q }), 0))

end Sys2Proof.Machine
end

