-- ==== Sys2Proof/Machine/Role.lean ====
section
/-! DEFINITION. Role changes (01 R20 to R33): the partition command, its checks and its steps. -/

namespace Sys2Proof.Machine

/-- The role a partition gives a position (R20); none before a partition is in force. -/
def roleAt (part pos : Nat) : Option LayerSt :=
  if part = 0 then none else if computePos part pos then some .compute else some .store
/-- The role a die holds by the partition in force. -/
def State.roleOf (s : State) (d : Nat) : Option LayerSt := roleAt (s.part (dieColumn d)) (diePos d)
/-- The layer dies. -/
def layerDies : List Nat := (List.range 32).map (fun i => 8 + i)
/-- The partition of column k after the change. -/
def RoleChange.newPart (r : RoleChange) (old : Nat → Nat) (k : Nat) : Nat :=
  if r.mask / 2 ^ k % 2 = 1 then r.parts.getD k 0 else old k
/-- Column k is named. -/
def RoleChange.masks (r : RoleChange) (k : Nat) : Bool := decide (r.mask / 2 ^ k % 2 = 1)
/-- The die leaves its role (R27): its column is named and the new partition gives it another. -/
def State.leaves (s : State) (r : RoleChange) (d : Nat) : Bool :=
  r.masks (dieColumn d) && decide ((s.die d).st ≠ .fenced) &&
  decide (roleAt (r.newPart s.part (dieColumn d)) (diePos d) ≠ s.roleOf d)
/-- The die stays in compute role and takes the steps of the change with its column. -/
def State.stays (s : State) (r : RoleChange) (d : Nat) : Bool :=
  r.masks (dieColumn d) && decide ((s.die d).st ≠ .fenced) && !s.leaves r d && decide (s.roleOf d = some .compute)
/-- A partition is permitted under a profile (R20, R21, and the manifest). -/
def State.permits (s : State) (profile part : Nat) : Bool :=
  (if profile = 0x12 then [6, 4, 2].contains part else if profile = 0x16 then [4, 2].contains part else false) &&
  s.hub.manifest.partitions.contains part
/-- The five checks of R27, in order: the status of the first that fails. Under T16 no column may be left in P6 (R21). -/
def State.partitionRefused (s : State) (r : RoleChange) : Option Nat :=
  let bound := s.fronds.filter (fun e => e.2.bound)
  if !((List.range 4).all (fun k => !r.masks k || s.permits r.profile (r.parts.getD k 0)) && (r.profile = 0x12 || r.profile = 0x16) &&
      s.hub.manifest.profiles.contains r.profile && (decide (r.profile ≠ 0x16) || (List.range 4).all (fun k => decide (r.newPart s.part k ≠ 6)))) then
    some 0x02
  else if r.profile ≠ s.hub.profile ∧ r.mask ≠ 15 then some 0x03
  else if layerDies.any (fun d => s.leaves r d && decide (s.roleOf d = some .compute) &&
      (List.range 16).any (fun c => (s.core (16 * (d - 8) + c)).granted)) then some 0x04
  else if bound.any (fun e => !(columnsOf e.2.cores).all (fun a =>
      decide (r.newPart s.part a = r.newPart s.part ((columnsOf e.2.cores).headD 0)))) then some 0x05
  else if bound.any (fun e => decide (0 < e.2.lslt ∨ 0 < e.2.mslt) && (columnsOf e.2.cores).any r.masks &&
      (columnsOf e.2.cores).any (fun a => !r.masks a)) then some 0x06
  else none

/-- `PARTITION` (R26, R27, R28 steps 0 and 1, R349): refused, or the drain begins. -/
def execPartition (id : Nat) (s : State) : Out :=
  match s.starting id 0x07 with
  | none => .next s
  | some p =>
    let r : RoleChange :=
      { packet := id, mask := pkField p.bits 24 1, profile := pkField p.bits 25 1,
        parts := (List.range 4).map (fun k => pkField p.bits (28 + k) 1), deadline := pkField p.bits 26 2,
        accepted := s.gtick.toNat }
    if s.hub.role.isSome ∨ s.worlds.any (fun w => decide (w.2.st = .loading)) then .next (s.endPacket id 0x01)
    else
      match s.partitionRefused r with
      | some st => .next (s.endPacket id st)
      | none =>
        let s := (s.updPacket id (fun p => { p with acted := true })).updHub (fun h => { h with role := some r })
        .next (layerDies.foldl (fun s d =>
          if r.masks (dieColumn d) ∧ (s.die d).st = .compute then s.updDie d (fun x => { x with st := .draining, prior := .compute })
          else s) s)

/-! ### Rest (R29) -/

/-- Changing the role change in progress. -/
def State.updRole (s : State) (f : RoleChange → RoleChange) : State := s.updHub (fun h => { h with role := h.role.map f })
/-- The context is at rest (R29). -/
def State.atRest (s : State) (r : RoleChange) (c k : Nat) : Bool :=
  let x := s.ctx c k
  match x.st with
  | .idle => true
  | .trapped | .preempted | .saved =>
    (match x.point with
     | .entry _ _ _ => true
     | .inside _ base _ _ => !(s.core c).pageLcd base && decide (r.profile = s.hub.profile))
  | .ready | .running | .blocked => false
/-- A launch's context that has reached a landing in a column being drained, or under a checkpoint's barrier, stops there
before the entry is checked (R29, R108). -/
def State.mayStop (s : State) (c k : Nat) : Bool :=
  let x := s.ctx c k
  (match x.st with | .ready | .running | .blocked => true | _ => false) &&
  (match x.point with | .entry _ _ _ => true | .inside _ _ _ _ => false) &&
  decide ((s.frond x.frond).kind ≠ .almanac) && !s.frozen x.frond &&
  (s.hub.role.any (fun r => r.masks (coreColumn c)) ||
   s.hub.ckpt.any (fun q => decide (q.step = 2)))
/-- It stops: suspended, to be resumed when the change or the checkpoint ends. -/
def State.stopAtLanding (s : State) (c k : Nat) : State :=
  let s := s.preempt c k s.now
  if s.hub.role.any (fun r => r.masks (coreColumn c)) then s.updRole (fun r => { r with stopped := r.stopped ++ [(c, k)] })
  else s.updHub (fun h => { h with ckpt := h.ckpt.map (fun q => { q with stopped := q.stopped ++ [(c, k)] }) })
/-- Stopped contexts resume. -/
def State.resumeStopped (s : State) (l : List (Nat × Nat)) : State := l.foldl (fun s x => s.resume x.1 x.2) s

/-- What an engine or the stream accumulator still has to land (R242, R247, R265, R266). -/
def TAct.ofEngine : TAct → Bool
  | .drainCb _ | .drainSb _ _ _ _ _ _ | .fold _ _ _ _ | .gsum _ _ _ _ | .mprog _ _ | .deliver _ _ _ => true
  | _ => false
/-- The engine of a core has nothing queued or in progress, micro-ops of an aborted frond included, and no drain, fold, sum or delivery to a queue is to
come (R252, R272). -/
def State.engineIdle (s : State) (c : Nat) : Bool :=
  let e := (s.core c).engine
  e.calls.isEmpty && decide (e.times.idleAt ≤ s.now) && !s.calendar.any (fun t => decide (t.core = c) && t.act.ofEngine)
/-- Step 1 is done: every context of the named columns is at rest, their untimed copies and fences are complete, no event is held and no
`gatom` is on its way (R28, R184, R459), and their engines are idle (R252, R272). -/
def State.roleDrained (s : State) (r : RoleChange) : Bool :=
  !s.posted.any (fun a => decide (a.core < 512) && r.masks (coreColumn a.core) && (match a.owed with | .queue _ _ => true | _ => false)) &&
  s.cores.all (fun e => !r.masks (coreColumn e.1) ||
    (e.2.ctxs.all (fun k => s.atRest r e.1 k.1 && k.2.copies.isEmpty && k.2.fences.isEmpty && k.2.heldev.isEmpty) && s.engineIdle e.1))
/-- The compute cores in logical order (R17): ascending column, descending position, ascending index. -/
def State.logicalOrder (s : State) : List Nat :=
  (List.range 4).flatMap (fun k => (List.range 8).flatMap (fun j =>
    let d := 8 + 8 * k + (7 - j)
    if s.computes d then (List.range 16).map (fun c => 16 * (d - 8) + c) else []))
/-- Logical numbers are assigned, and compute cores are powered. -/
def State.assignLogical (s : State) : State :=
  let s := { s with cores := s.cores.map (fun e : Nat × Core => (e.1, { e.2 with logical := 0xFFFF })) }
  s.logicalOrder.zipIdx.foldl (fun s e => s.updCore e.1 (fun x => { x with logical := e.2, powered := true })) s
/-- Every die of the change has ended step 4 or is FENCED. -/
def State.roleSettled (s : State) (r : RoleChange) : Bool :=
  layerDies.all (fun d => !(s.leaves r d || s.stays r d) || (s.die d).enumerated)
/-- Step 4 is complete (R28, R31): logical numbers are assigned. -/
def State.roleSettle (s : State) : State :=
  match s.hub.role with
  | some r => if 2 ≤ r.step ∧ r.step < 5 ∧ s.roleSettled r then s.assignLogical.updRole (fun r => { r with step := 5 }) else s
  | none => s
/-- The staying compute dies of a column begin step 4 once its leaving dies have. -/
def State.enumerateStaying (s : State) (r : RoleChange) (k : Nat) : State :=
  let col := layerDies.filter (fun d => decide (dieColumn d = k))
  if col.all (fun d => !s.leaves r d || decide ((s.die d).st = .enumerating)) then
    (col.foldl (fun s d => if s.stays r d ∧ (s.die d).st = .draining then s.updDie d (fun x => { x with st := .enumerating }) else s) s).updRole
      (fun r => { r with step := Max.max r.step 4 })
  else s

/-- A named column whose leaving dies have all begun step 4 or are FENCED, and whose staying dies have not (R28, R31). -/
def State.readyColumn (s : State) (r : RoleChange) : Option Nat :=
  (List.range 4).find? (fun k =>
    let col := layerDies.filter (fun d => decide (dieColumn d = k))
    r.masks k && col.all (fun d => !s.leaves r d || decide ((s.die d).st = .enumerating)) &&
    col.any (fun d => s.stays r d && decide ((s.die d).st = .draining)))

/-- `ROLE_DRAIN_COMPLETE` (R28): leaving layers flush, and later accesses to them are refused. -/
def execRoleDrainComplete (s : State) : Out :=
  match s.hub.role with
  | none => .next s
  | some r =>
    if r.step ≠ 1 || !s.roleDrained r then .next s
    else
      let s := layerDies.foldl (fun s d =>
        if s.leaves r d then s.updDie d (fun x => { x with prior := if x.st = .draining then x.prior else x.st, st := .flushing }) else s) s
      let s := s.updRole (fun r => { r with step := 2, since := s.gtick.toNat, flushFrom := s.seqno })
      .next ((List.range 4).foldl (fun s k => if r.masks k then s.enumerateStaying r k else s) s).roleSettle

/-- An address in a layer's window or in a scratchpad of its cores. -/
def onLayer (d pa : Nat) : Bool :=
  match region pa with
  | .layer e _ => decide (e = d)
  | .spad c _ => decide (coreDie c = d)
  | _ => false
/-- Every access to a leaving layer has completed. -/
def State.flushed (s : State) (d : Nat) : Bool :=
  !s.posted.any (fun a => a.done.isNone && a.act.touches.any (onLayer d)) &&
  !s.calendar.any (fun t => (t.act.touches t.core).any (onLayer d))
/-- `FLUSH_COMPLETE` (R28): the die goes on to zeroise. -/
def execFlushComplete (die : Nat) (s : State) : Out :=
  .next (if (s.die die).st = .flushing ∧ s.flushed die then s.updDie die (fun d => { d with st := .zeroing }) else s)
/-- `ZEROISE_COMPLETE` (R28): pools and scratchpads read zero, the cores are off, and the die re-enumerates. -/
def execZeroiseComplete (die : Nat) (s : State) : Out :=
  match s.hub.role with
  | none => .next s
  | some r =>
    if (s.die die).st ≠ .zeroing then .next s
    else
      let s := s.zeroise (layerBase die) 0x8000000
      let s := (List.range 16).foldl (fun s c => (s.zeroiseCore (16 * (die - 8) + c)).updCore (16 * (die - 8) + c)
        (fun x => { x with powered := false })) s
      .next ((s.updDie die (fun d => { d with st := .enumerating, prior := .off })).enumerateStaying r (dieColumn die))
/-- The role that a change gives a die. -/
def State.newRole (s : State) (r : RoleChange) (d : Nat) : LayerSt := (roleAt (r.newPart s.part (dieColumn d)) (diePos d)).getD .off
/-- `REENUMERATE_COMPLETE` (R28): step 4 of the die is complete: its role is set, its pool backed and its compute cores powered. -/
def execReenumerateComplete (die : Nat) (s : State) : Out :=
  match s.hub.role with
  | none => .next s
  | some r =>
    .next (if (s.die die).st = .enumerating then
        let s := s.updDie die (fun d => { d with enumerated := true, prior := s.newRole r die })
        (if s.newRole r die = .compute then
          (List.range 16).foldl (fun s c => s.updCore (16 * (die - 8) + c) (fun x => { x with powered := true })) s else s).roleSettle
      else s)

/-- The record whose digest extends MSL4 at a commit (R60). -/
def State.commitRecord (s : State) : List Byte :=
  leBytes 1 s.hub.profile ++ (List.range 4).flatMap (fun k => leBytes 1 (s.part k)) ++ [0] ++
  leBytes 4 (layerDies.foldl (fun a d => a + (s.die d).chgn) 0 % 2 ^ 32)

/-- `ROLE_CHANGE_COMMIT` (R28 step 5, R24, R25, R60): at its frame tick. -/
def execRoleChangeCommit (s : State) : Out :=
  match s.hub.role with
  | none => .next s
  | some r =>
    if r.step ≠ 6 then .next s
    else
      let take := layerDies.filter (fun d => s.leaves r d)
      let keep := layerDies.filter (fun d => s.stays r d)
      let old := s.part
      let role := s.newRole r
      let s := take.foldl (fun s d => s.updDie d (fun x =>
        { x with st := role d, prior := role d, enumerated := false, chgn := (x.chgn + 1) % 2 ^ 32 })) s
      let s := keep.foldl (fun s d => s.updDie d (fun x => { x with st := .compute, prior := .compute, enumerated := false })) s
      let s := s.updHub (fun h =>
        { h with role := none, profile := r.profile,
                 partitions := (List.range 4).foldl (fun m k => SMap.put 0 m k (r.newPart old k)) h.partitions })
      let s := (s.extend 4 (digestBytes (sha384 s.commitRecord)))
      let s := (s.resumeStopped r.stopped).endPacket r.packet (if r.fault then 0x08 else 0)
      .next s.dispatchAll

/-- `DRAIN_DEADLINE_EXPIRY` (R30): the change is abandoned. -/
def execDrainDeadlineExpiry (s : State) : Out :=
  match s.hub.role with
  | none => .next s
  | some r =>
    if r.step ≠ 1 ∨ s.gtick.toNat < r.accepted + r.deadline then .next s
    else
      let s := layerDies.foldl (fun s d => if (s.die d).st = .draining then s.updDie d (fun x => { x with st := x.prior }) else s) s
      let s := s.updHub (fun h => { h with role := none })
      .next ((s.resumeStopped r.stopped).endPacket r.packet 0x07).dispatchAll

/-- `LAYER_FENCE` (R32, R136): an uncorrectable error on a leaving layer in steps 2 to 4. -/
def execLayerFence (die : Nat) (addr : Word) (s : State) : Out :=
  match s.hub.role with
  | none => .next s
  | some r =>
    .next (if 2 ≤ r.step ∧ r.step < 6 ∧ s.leaves r die then
        ((s.logFault die { kind := 0x0B, world := 0, srccore := 0xFFFF, srcdie := die, addr := addr, token := 0, tick := s.gtick }).fenceLayer
          die).roleFault.enumerateStaying r (dieColumn die)
      else s)

end Sys2Proof.Machine
end

