-- ==== Sys2Proof/Machine/Boot.lean ====
section
/-! DEFINITION. Reset, measured boot and the interface states (03 R60 to R62, 04 R81 to R83), and the frame tick (01 R35). -/

namespace Sys2Proof.Machine

/-! ### Boot (R60 to R62) -/

/-- An image is acceptable for a stage (R61): its stage and version are those that its signed header names. -/
def acceptable (floor stage : Nat) (i : Image) : Bool :=
  decide (Config.imageHead i.body = (i.stage, i.version)) && decide (i.stage = stage) && ecdsaVerify i.key (sha384 i.body) i.sig &&
  decide (sha384 i.key = Config.yelrathKeyDigest) && decide (floor ≤ i.version)
/-- The image of a stage: slot A's, else slot B's. -/
def loadImage (floor : Nat) (f : Flash) (stage : Nat) : Option Image :=
  match f.slotA.find? (acceptable floor stage) with
  | some i => some i
  | none => f.slotB.find? (acceptable floor stage)
/-- The manifest is acceptable (R62): what it says is what its signed body says (R2). -/
def manifestOk (floor : Nat) (m : Manifest) : Bool :=
  decide (m.body = Config.manifestBody { m with key := [], sig := [], body := [] }) && ecdsaVerify m.key (sha384 m.body) m.sig && decide (sha384 m.key = Config.yelrathKeyDigest) &&
  decide (floor ≤ m.version)
/-- The stages that stage 1 accepts in order: manager, policy firmware, Freino. -/
def stage2Images : List Nat := [1, 2, 3]
/-- The stage of the management-core firmware of a die. -/
def mgmtStage (die : Nat) : Nat := 8 + die
/-- The dies with a management core of their own, ascending (R61). -/
def mgmtDies : List Nat := ((List.range 40).drop 1).filter (fun d => decide (d ≠ 7))

/-- `DeriveScalar` (R61). -/
def deriveScalar (label : List Byte) (ctx : List Byte) : BitVec 384 :=
  reduceScalar (digestBytes (hmac384 Config.ssec (label ++ ctx ++ [1])) ++
    digestBytes (hmac384 Config.ssec (label ++ ctx ++ [2])))
/-- `DeriveKey256` (R61). -/
def deriveKey256 (label : List Byte) (ctx : List Byte) : BitVec 256 :=
  BitVec.ofNat 256 (leNat ((digestBytes (hmac384 Config.ssec (label ++ ctx))).take 32))
/-- The labels IDK, ALK and SLK. -/
def labelIdk : List Byte := [0x49, 0x44, 0x4B]
def labelAlk : List Byte := [0x41, 0x4C, 0x4B]
def labelSlk : List Byte := [0x53, 0x4C, 0x4B]
/-- MSL0 to MSL3, joined. -/
def Hub.mslBytes (h : Hub) (n : Nat) : List Byte := (List.range n).flatMap (fun i => digestBytes (SMap.get 0 h.msl i))

/-- The interface enters FAULT with a boot status (R62). -/
def State.enterFault (s : State) (bst : Nat) : State := s.updHub (fun h => { h with ifs := .fault, bst := bst })
/-- Images of some stages are accepted in order, each extending a slot; none where one is not acceptable. -/
def State.acceptImages (s : State) (floor : Nat) (f : Flash) (slot : Nat) : List Nat → Option (State × List Image)
  | [] => some (s, [])
  | k :: r =>
    match loadImage floor f k with
    | none => none
    | some i =>
      match (s.extend slot (digestBytes (sha384 i.body))).acceptImages floor f slot r with
      | none => none
      | some (s, l) => some (s, i :: l)

/-- What the calibration at boot finds at an endpoint: what flash lists, else a flight time that some DLY brings to its nominal latency
and some slack, free within these bounds (R40, R41). -/
def State.probe (s : State) (f : Flash) (d e : Nat) : Probe :=
  (f.probes.find? (fun p => decide (p.die = d ∧ p.e = e))).getD
    { die := d, e := e, late := false, raw := BitVec.ofNat 8 (s.tickLatency - (Config.freeWord (s.fresh + 16 * d + 2 * e)).toNat % 64),
      marg := BitVec.ofNat 8 (1 + (Config.freeWord (s.fresh + 16 * d + 2 * e + 1)).toNat % 255) }
/-- The endpoint after the calibration at boot: firmware has set the DLY that brings the tick to its nominal latency, where there is
one. -/
def State.booted (s : State) (f : Flash) (d e : Nat) : Endpoint :=
  let p := s.probe f d e
  let tick := carriesTick d e
  let raw := if tick then p.raw.toNat else 0
  let dly := if tick ∧ raw ≤ s.tickLatency ∧ s.tickLatency - raw < 64 then s.tickLatency - raw else 0
  { dly := dly, raw := raw, marg := p.marg.toNat, ok := calibrationOk s.tickLatency tick p.late raw p.marg.toNat dly }
/-- The endpoints of the package. -/
def endpoints : List (Nat × Nat) :=
  ((List.range 40).filter isDie).flatMap (fun d => ((List.range 8).filter (hasEndpoint d)).map (fun e => (d, e)))
/-- The links are calibrated (R41), and each endpoint that fails has its outcome (R42). -/
def State.calibrateAll (s : State) (f : Flash) : State :=
  let t := { endpoints.foldl (fun t x => t.updEp x.1 x.2 (fun _ => s.booted f x.1 x.2)) s with fresh := s.fresh + 640 }
  (endpoints.filter (fun x => !(s.booted f x.1 x.2).ok)).foldl (fun t x => t.calibrationFailed x.1 x.2) t
/-- The far tier that firmware finds, and the report where it is not the manifest's (R2, R57, R58). -/
def State.detectFarTier (s : State) (f : Flash) (m : Manifest) : State :=
  let s := s.updHub (fun h =>
    { h with lpddr := Min.min f.lpddr 0x10000000000, expanders := f.expanders.zipIdx.foldl (fun l x => SMap.put 0 l x.2 x.1) [] })
  if f.lpddr = m.farTier then s else s.tell (.farTier f.lpddr)

/-- The window through which world 0's packets are read: the first 64 GiB of the near tier, which holds the device manager's
region (log 10). -/
def managerWindow : Window := { vbase := 0, pbase := 0, size := 32767, v := true, rd := true, wr := true, atm := true }
/-- Stage 2 starts (R61, R72, R85, R111): H holds the lease with EPOCH 1, and no LEADER is told of it (log 80). -/
def State.startStage2 (s : State) : State :=
  let m := s.hub.manifest
  let q : Queue := { present := true, base := m.queueBase, log2n := m.queueLog2n }
  let w : World := { st := .ready, queues := [(0, q)], windows := [(0, managerWindow)] }
  { s with worlds := [(0, w)] }.updHub (fun h => { h with ifs := .config, booting := false, holder := 0, epoch := 1 })

/-- `RESET_RELEASE` (R61, R62): the slots read zero; stage 1 and the manifest are accepted and measured, the identity key is
checked, the other images are accepted and measured, the keys are derived, the secret is locked, the alias certificate is issued, and the
links are calibrated; the first failure ends in FAULT. The interface is in BOOT until stage 2 starts. -/
def execResetRelease (flash : Flash) (s : State) : Out :=
  if s.hub.ifs ≠ .reset then .next s
  else
    let floor := s.hub.floor
    let s := { s with now := 0, gtick := 0 }.updHub (fun h => { h with ifs := .boot, bst := 0, msl := [] })
    match loadImage floor flash 0 with
    | none => .next (s.enterFault 1)
    | some st1 =>
      let s := s.extend 0 (digestBytes (sha384 st1.body))
      let m := flash.manifest
      if !manifestOk floor m then .next (s.enterFault 2)
      else
        let s := s.extend 1 (digestBytes (sha384 m.body))
        let idk := deriveScalar labelIdk m.identityPolicy
        if publicKey idk ≠ flash.certKey ∨ Config.certifiedKey flash.cert ≠ flash.certKey then .next (s.enterFault 3)
        else
          match s.acceptImages floor flash 2 stage2Images with
          | none => .next (s.enterFault 1)
          | some (s, two) =>
            match s.acceptImages floor flash 3 (mgmtDies.map mgmtStage) with
            | none => .next (s.enterFault 1)
            | some (s, three) =>
              let low := ((two ++ three).map Image.version).min?.getD 0
              let ctx := s.hub.mslBytes 4
              let alk := deriveScalar labelAlk ctx
              let tbs := Config.aliasTbs (publicKey alk) ctx
              let alias_ := Config.aliasCert tbs (ecdsaSign idk (sha384 tbs))
              let s := s.updHub (fun h =>
                { h with floor := Max.max h.floor low, idk := idk, idkDigest := sha384 (publicKey idk),
                         alk := alk, slk := deriveKey256 labelSlk ctx, ssecLocked := true,
                         chain := Config.rootCert ++ flash.cert ++ alias_, manifest := m, booting := true })
              .next ((s.detectFarTier flash m).calibrateAll flash)

/-- `RESET` (R82): everything is as after reset, but for flash, which keeps the rollback floor, and what has left the device or is
still to come to it. -/
def execReset (s : State) : Out :=
  .next { State.reset with
    inbox := s.inbox, fresh := s.fresh, hub := { State.reset.hub with floor := s.hub.floor, sent := s.hub.sent } }

/-! ### The status window (R81) -/

/-- IFS codes. -/
def Ifs.code : Ifs → Nat
  | .reset => 0 | .boot => 1 | .config => 2 | .locked => 3 | .run => 4 | .drain => 5 | .fault => 6
/-- IFSTAT. -/
def Hub.ifstat (h : Hub) : Word := BitVec.ofNat 64 (h.ifs.code + 0x100 * h.bst + 0x10000 * h.profile + 0x100000000 * h.qerr)
/-- The words of the window: the digest reads zero in BOOT and FAULT. -/
def State.statusWords (s : State) : List Word :=
  let d := if s.hub.ifs = .boot ∨ s.hub.ifs = .fault then 0 else s.hub.idkDigest
  s.hub.ifstat :: s.gtick :: (List.range 6).map (fun i => d.extractLsb' (64 * i) 64)
/-- `STATUS_WINDOW_GET` (R81): answered in every state but RESET. -/
def execStatusWindowGet (s : State) : Out :=
  .next (if s.hub.ifs = .reset then s else s.answer (.statusWindow s.statusWords))

/-! ### Interface states and the frame tick (R35, R82, R83) -/

/-- `ENTER_RUN` (R83): at the commit tick. -/
def execEnterRun (s : State) : Out :=
  .next (if s.hub.ifs = .locked ∧ s.hub.lockTick = some s.gtick then s.updHub (fun h => { h with ifs := .run, lockTick := none })
    else s)
/-- Every world other than world 0 is EMPTY. -/
def State.worldsEmpty (s : State) : Bool := s.worlds.all (fun e => decide (e.1 = 0 ∨ e.2.st = .empty))
/-- `INTERFACE_DRAIN_COMPLETE` (R82). -/
def execInterfaceDrainComplete (s : State) : Out :=
  .next (if s.hub.ifs = .drain ∧ s.worldsEmpty then s.updHub (fun h => { h with ifs := .config }) else s)

/-- `FRAME_TICK` (R35): the frame count advances, each die's log forwards an entry (R461), and a role change whose step 4 is
complete comes to its commit (R28). None comes while the package is in RESET. -/
def execFrameTick (s : State) : Out :=
  if s.hub.ifs = .reset then .next s
  else
    let s := ({ s with gtick := s.gtick + 1 }).forwardLogs.roleSettle
    .next (s.updRole (fun r => if r.step = 5 then { r with step := 6 } else r))

end Sys2Proof.Machine
end

