-- ==== Sys2Proof/Machine/Domain.lean ====
section
/-! DEFINITION. Operations from outside on world memory (02 R54), encrypted runs (R55, R56), and trust domains (03 R76 to R80,
09 R203). -/

namespace Sys2Proof.Machine

/-! ### Parts of an operation (R54, R173) -/

/-- Cells in groups that lie in one line each, in order. -/
def lineGroups : List Host.Cell → List (List Host.Cell)
  | [] => []
  | c :: r =>
    match lineGroups r with
    | [] => [[c]]
    | g :: gs => if (g.head?.map (fun x => lineOf x.1)) = some (lineOf c.1) then (c :: g) :: gs else [c] :: g :: gs
/-- Posting the parts of an operation: each with the place of its first byte. -/
def State.postParts (s : State) (op w : Nat) (l : List (Nat × Nat × Act)) : State :=
  l.foldl (fun s x => s.hubPost w x.2.1 x.2.2 (.host op x.1)) s
/-- An operation begins: its parts are posted, and one with none, or refused whole, is answered at once. -/
def State.beginOp (s : State) (o : HostOp) (l : List (Nat × Nat × Act)) : State :=
  let op := s.seqno
  let s := s.bump.updHub (fun h => { h with ops := SMap.set h.ops op { o with waiting := l.length } })
  (s.postParts op o.world l).finishOp op
/-- A world accepts operations from outside: it is not EMPTY (R71). -/
def State.worldUp (s : State) (w : Nat) : Bool := decide ((s.world w).st ≠ .empty)
/-- World virtual addresses translated one by one; none where one fails. -/
def State.translateAll (s : State) (w : Nat) (p : Perm) (l : List Nat) : Option (List Nat) :=
  l.foldr (fun a r => match s.feAddr w a 1 p, r with | some pa, some r => some (pa :: r) | _, _ => none) (some [])

/-- The write parts of bytes for package physical addresses. -/
def writeParts (cells : List Host.Cell) : List (Nat × Nat × Act) :=
  (lineGroups cells).map (fun g => (0, (g.head?.map Prod.fst).getD 0, Act.write { cells := g }))
/-- The read parts of package physical addresses, numbered by place. -/
def readParts (addrs : List Nat) : List (Nat × Nat × Act) :=
  (lineGroups (addrs.map (fun a => (a, (0 : Byte))))).foldl (fun (a : List (Nat × Nat × Act) × Nat) g =>
    (a.1 ++ [(a.2, (g.head?.map Prod.fst).getD 0, Act.read (g.zipIdx.map (fun x => { dst := x.2, src := x.1.1 })))], a.2 + g.length))
    ([], 0) |>.1

/-! ### Semantic operations (R54, R81) -/

/-- The interface answers operations on worlds. -/
def State.serves (s : State) : Bool := s.answersAll
/-- Bytes of a semantic message (R54). -/
def messageBytes : Nat := 65536
/-- World numbers of the manual are 0 to 255; another number stands for the device's own addresses, where only the status
window is (log 10). -/
def deviceWorld (w : Nat) : Bool := decide (256 ≤ w)

/-- The device answers nothing: in RESET, and to operations on worlds while it answers the status window alone (R62, R82). -/
def State.silentTo (s : State) (world : Nat) : Bool := decide (s.hub.ifs = .reset) || (!deviceWorld world && !s.serves)
/-- Bytes of a packet's payload (R54). -/
def packetBytes : Nat := 4096

/-- `PUT` (R54): bytes to world memory, a command queue in it, or a scratchpad window, in packets of at most 4,096; the status
window refuses it (R81). -/
def execPut (world : Nat) (va : Word) (packets : List (List Byte)) (s : State) : Out :=
  let bytes := packets.flatten
  if s.silentTo world then .next s
  else if deviceWorld world then .next (s.answer .accessError)
  else if messageBytes < bytes.length || packets.any (fun p => decide (packetBytes < p.length)) then .next (s.answer .unsupported)
  else
    let l := (List.range bytes.length).map (fun i => va.toNat + i)
    match (if s.worldUp world then s.translateAll world .wr l else none) with
    | none => .next (s.answer .accessError)
    | some pas => .next (s.beginOp { kind := .put, world := world } (writeParts (pas.zip bytes)))
/-- `GET` (R54, R81). -/
def execGet (world : Nat) (va : Word) (len : Nat) (s : State) : Out :=
  if s.silentTo world then .next s
  else if deviceWorld world then
    .next (if va.toNat + len ≤ 64 then
      s.answer (.bytes (((s.statusWords.flatMap (fun w => leBytes 8 w.toNat)).drop va.toNat).take len)) else s.answer .accessError)
  else if messageBytes < len then .next (s.answer .unsupported)
  else
    let l := (List.range len).map (fun i => va.toNat + i)
    match (if s.worldUp world then s.translateAll world .rd l else none) with
    | none => .next (s.answer .accessError)
    | some pas => .next (s.beginOp { kind := .get, world := world, len := len } (readParts pas))
/-- An atomic on one aligned 64-bit word (R54). A misaligned one is answered with an access error: the manual does not say what
becomes of it (DESIGN CHOICE, log 61). -/
def State.hostAtomic (s : State) (world : Nat) (va : Word) (aop : Aop) (x new : Word) : State :=
  if s.silentTo world then s
  else if deviceWorld world || decide (va.toNat % 8 ≠ 0) then s.answer .accessError
  else
    match (if s.worldUp world then s.feAddr world va.toNat 8 .atm else none) with
    | none => s.answer .accessError
    | some pa => s.beginOp { kind := .word, world := world } [(0, pa, .atomic pa 8 aop x new)]
/-- `FETCH_AND_ADD` (R54): wraps modulo 2^64. -/
def execFetchAndAdd (world : Nat) (va x : Word) (s : State) : Out := .next (s.hostAtomic world va .add x 0)
/-- `COMPARE_AND_SWAP` (R54). -/
def execCompareAndSwap (world : Nat) (va cmp x : Word) (s : State) : Out := .next (s.hostAtomic world va .cas cmp x)
/-- `SWAP` (R54). -/
def execSwap (world : Nat) (va x : Word) (s : State) : Out := .next (s.hostAtomic world va .swap x 0)

/-! ### Requests and responses of members (R203) -/

/-- The core whose scratchpad window an address lies in. -/
def spadCore (pa : Nat) : Option Nat := match region pa with | .spad c _ => some c | _ => none
/-- The parts of a store of a member: a push at a scratchpad window, which alone may raise a sync word; a write or a combine-add a
line elsewhere. A chunk without a byte in bounds raises the sync word of the core whose window its base address `dest` lies in
(R200). -/
def storeParts (add : Option Afmt) (sync : Option Nat) (dest : Option Nat) (cells : List Host.Cell) :
    Option (List (Nat × Nat × Act)) :=
  match cells with
  | [] =>
    match sync with
    | none => some []
    | some o =>
      (dest.bind spadCore).map (fun d => [(0, bufAddr d .xb o, .push add (some (bufAddr d .xb o)) 0 { cells := [] })])
  | c :: _ =>
    match spadCore c.1, sync with
    | some d, _ => some [(0, c.1, .push add (sync.map (bufAddr d .xb)) cells.length { cells := cells })]
    | none, some _ => none
    | none, none =>
      some ((lineGroups cells).map (fun g =>
        (0, (g.head?.map Prod.fst).getD 0,
          match add with | none => Act.write { cells := g } | some f => Act.combine f { cells := g })))
/-- A request of a member is translated under the paired world and carried out, or answered with an error. -/
def State.memberRequest (s : State) (m : Nat) (msg : RunMsg) : State :=
  let pair (w : Nat) : Nat := Config.pairedWorld s.hub.domain.number m w
  match msg with
  | .reply _ _ _ _ => s
  | .put op w add sync base cells =>
    let w := pair w
    let perm : Perm := if add.isSome then .atm else .wr
    let dest := if cells.isEmpty then s.feAddr w base 1 perm else none
    match (if s.worldUp w then s.translateAll w perm (cells.map Prod.fst) else none).bind (fun pas =>
      storeParts add sync dest (pas.zip (cells.map Prod.snd))) with
    | none => s.queueMsg m (.reply op w false [])
    | some l => s.beginOp { kind := .put, world := w, peer := some (m, op) } l
  | .get op w addrs =>
    let w := pair w
    match (if s.worldUp w then s.translateAll w .rd addrs else none) with
    | none => s.queueMsg m (.reply op w false [])
    | some pas => s.beginOp { kind := .get, world := w, len := addrs.length, peer := some (m, op) } (readParts pas)
/-- A response to an operation of this package: the bytes of a load in the order asked for; or the operation failed. A response to
an operation that is no longer outstanding is discarded (R71). -/
def State.memberReply (s : State) (m op : Nat) (ok : Bool) (bytes : List Byte) : State :=
  match s.access op with
  | none => s
  | some a =>
    match a.act with
    | .fabric n _ _ moves _ =>
      if n ≠ m ∨ a.done.isSome then s
      else if ok then s.updAccess op (fun a => { a with done := some ((moves.map Move.dst).zip bytes, 0) })
      else s.updAccess op (fun a => { a with act := .read [], err := true })
    | _ => s
/-- What a run carried is released in order (R56). -/
def State.release (s : State) (m : Nat) (l : List RunMsg) : State :=
  l.foldl (fun s x => match x with | .reply op _ ok b => s.memberReply m op ok b | r => s.memberRequest m r) s

/-! ### Runs (R55, R56, R77) -/

/-- The key for traffic from member a to member b (R77). The members stand as one byte each in the text, and the secret keys the HMAC
as its 32 bytes, the lowest first (DESIGN CHOICE, log 60). -/
def Domain.runKey (d : Domain) (a b : Nat) : BitVec 256 :=
  BitVec.ofNat 256 (leNat ((digestBytes (hmac384 (leBytes 32 d.secret.toNat)
    ([0x72, 0x75, 0x6E] ++ leBytes 1 a ++ leBytes 1 b))).take 32))
/-- The IV: KGEN above SEQ. -/
def runIv (kgen seq : Nat) : BitVec 96 := BitVec.ofNat 96 (kgen * 2 ^ 64 + seq)
/-- The header of a run. -/
def runHead (seq kgen nfl flg rsv : Nat) : List Byte := leBytes 8 seq ++ leBytes 4 kgen ++ leBytes 1 nfl ++ leBytes 1 flg ++ leBytes 2 rsv

/-- Flits of 64 bytes that carry an operation or a response: at least one, the last filled up with zeros. -/
def flitsOf (m : RunMsg) : List (List Byte) :=
  let b := Config.runFlits m
  (List.range (Max.max 1 ((b.length + 63) / 64))).map (fun i =>
    let f := (b.drop (64 * i)).take 64
    f ++ List.replicate (64 - f.length) 0)
/-- The number of the operation that a message requests. -/
def runOp : RunMsg → Option Nat
  | .put op _ _ _ _ _ | .get op _ _ => some op
  | .reply _ _ _ _ => none
/-- A store's bytes are read as its first flit leaves (R198): a source that has changed since issue gives old or new lines. -/
def State.settleMsg (s : State) : RunMsg → State × RunMsg
  | .put op w add sync base cells =>
    match (s.access op).map Access.act with
    | some (.fabric _ _ _ _ pl) =>
      let r := s.settlePayload pl
      (r.1, .put op w add sync base r.2)
    | _ => (s, .put op w add sync base cells)
  | m => (s, m)
/-- What a run takes up of the messages queued. -/
structure RunFill where
  s : State
  flits : List (List Byte) := []
  ops : List Nat := []
  /-- What stays queued, and the flits of its first message that have left. -/
  rest : List RunMsg := []
  cut : Nat := 0
/-- The copy that an operation is a chunk of. -/
def State.copyOf (s : State) (op : Nat) : Option Nat :=
  (s.access op).bind (fun a => match a.owed with | .chunk copy _ _ _ => some copy | _ => none)
/-- A push that raises a sync word waits while a run that carries an earlier chunk of its copy is not acknowledged, so that its chunks are
applied in ascending order (R203). -/
def State.queuesUp (s : State) (m : Nat) : RunMsg → Bool
  | .put op _ _ (some _) _ _ =>
    (SMap.get {} s.hub.domain.peers m).runs.any (fun r => r.ops.any (fun o => (s.copyOf o).isSome && decide (s.copyOf o = s.copyOf op)))
  | _ => false
/-- Up to n flits of the messages queued for a member are taken up, in order; `cut` flits of the first have left before (R55). -/
def State.fillRun (s : State) (m n : Nat) : List RunMsg → Nat → RunFill
  | [], _ => { s := s }
  | x :: r, cut =>
    if n = 0 || (decide (cut = 0) && s.queuesUp m x) then { s := s, rest := x :: r, cut := cut }
    else
      let x := if cut = 0 then s.settleMsg x else (s, x)
      let f := (flitsOf x.2).drop cut
      if f.length ≤ n then
        let y := x.1.fillRun m (n - f.length) r 0
        { y with flits := f ++ y.flits, ops := (runOp x.2).toList ++ y.ops }
      else { s := x.1, flits := f.take n, ops := (runOp x.2).toList, rest := x.2 :: r, cut := cut + n }
/-- A run is sealed and sent (R55), and kept until it is acknowledged (R56). -/
def State.sendRun (s : State) (m flg : Nat) (flits : List Byte) (ops : List Nat) : State :=
  let d := s.hub.domain
  let p := SMap.get {} d.peers m
  let n := (flits.length + 63) / 64
  let c := gcmSeal (d.runKey d.self m) (runIv d.kgen p.sendSeq) (runHead p.sendSeq d.kgen n flg 0) flits
  let run : SentRun := { seq := p.sendSeq, kgen := d.kgen, flg := flg, flits := c.1, tag := c.2, ops := ops }
  (s.updPeer m (fun p => { p with sendSeq := p.sendSeq + 1, runs := p.runs ++ [run] })).answer (.run m p.sendSeq d.kgen flg c.1 c.2)
/-- A run that is not acknowledged is sent again with the same SEQ (R56). -/
def State.resend (s : State) (m seq : Nat) : State :=
  match (SMap.get {} s.hub.domain.peers m).runs.find? (fun r => decide (r.seq = seq)) with
  | some r => if s.serves then s.answer (.run m r.seq r.kgen r.flg r.flits r.tag) else s
  | none => s
/-- A member's next sequence number is the last. It is left for the barrier run of the re-key, so that no SEQ reaches 2^64 (R55, R78;
DEDUCED, log 59). -/
def Peer.spent (p : Peer) : Bool := p.rekeyAsked || decide (2 ^ 64 ≤ p.sendSeq + 1)
/-- A run for a member may be closed: the device answers more than its status window (R62), and something may leave. -/
def State.mayClose (s : State) (m : Nat) : Bool :=
  let p := SMap.get {} s.hub.domain.peers m
  s.serves && s.hub.domain.has m && (match p.queued with | [] => false | x :: _ => decide (p.cut ≠ 0) || !s.queuesUp m x)
/-- The open run for a member holds RUNLEN flits (R55). -/
def State.runFull (s : State) (m : Nat) : Bool :=
  let p := SMap.get {} s.hub.domain.peers m
  decide (s.hub.domain.runlen ≤ ((p.queued.map (fun x => (flitsOf x).length)).foldl (· + ·) 0) - p.cut)
/-- Changing the domain. -/
def State.updDomain (s : State) (f : Domain → Domain) : State := s.updHub (fun h => { h with domain := f h.domain })
/-- Members other than this package. -/
def Domain.others (d : Domain) : List Nat := (d.peers.filter (fun e => e.2.present && decide (e.1 ≠ d.self))).map Prod.fst
/-- A control message to every other member (R76). -/
def State.controlAll (s : State) (c : Control) : State := 
  s.hub.domain.others.foldl (fun s m => s.answer (.control m (SMap.get {} s.hub.domain.peers m).session c)) s
/-- A control message to the coordinator. -/
def State.controlHome (s : State) (c : Control) : State :=
  let d := s.hub.domain
  if d.coordinator = d.self then s else s.answer (.control d.coordinator (SMap.get {} d.peers d.coordinator).session c)
/-- A RE-KEY BEGINS, or begins again towards the same generation, at Quiesce (R78, R79). What waits for a peer whose sequence numbers
are used up is held until Resume. -/
def State.quiesce (s : State) : State :=
  let d := s.hub.domain
  let wait := d.peers.flatMap (fun e => if e.2.spent then e.2.queued.map (fun m => (e.1, m)) else [])
  let s := s.updDomain (fun d =>
    { d with
      phase := .quiesce, target := if d.phase = .idle then d.kgen + 1 else d.target, next := none, held := wait ++ d.held
      peers := d.peers.map (fun e : Nat × Peer =>
        (e.1, { e.2 with barrierSeen := false, drained := false, switched := false
                         queued := if e.2.spent then [] else e.2.queued, cut := if e.2.spent then 0 else e.2.cut })) })
  if d.coordinator = d.self then s.controlAll (.quiesce d.kgen d.timeout) else s
/-- `RUN_IDLE_CLOSE` (R55): the open run is closed and sent, with at most RUNLEN flits; what this package sends itself needs no run. A
sender whose SEQ would reach 2^64 asks for a re-key and sends nothing. -/
def execRunIdleClose (peer : Nat) (s : State) : Out :=
  let d := s.hub.domain
  let p := SMap.get {} d.peers peer
  if !s.mayClose peer then .next s
  else if peer = d.self then
    let r := p.queued.foldl (fun (a : State × List RunMsg) m => let x := a.1.settleMsg m; (x.1, a.2 ++ [x.2])) (s, [])
    .next ((r.1.updPeer peer (fun p => { p with queued := [] })).release peer r.2)
  else if p.spent then
    let s := s.updPeer peer (fun p => { p with rekeyAsked := true })
    .next (if d.coordinator = d.self then (if d.phase = .idle then s.quiesce else s) else s.controlHome .rekeyAsk)
  else
    let r := s.fillRun peer (Max.max 1 (Min.min d.runlen 64)) p.queued p.cut
    .next ((r.s.updPeer peer (fun p => { p with queued := r.rest, cut := r.cut })).sendRun peer 0 r.flits.flatten r.ops)

/-- The replay window takes a number: the 256 highest are kept. -/
def takeSeq (seen : List Nat) (n : Nat) : List Nat :=
  let up := seen.filter (fun x => decide (n < x))
  let down := seen.filter (fun x => decide (x < n))
  (up ++ n :: down).take 256
/-- A number has been seen, or lies below the window (R56). -/
def seqOld (seen : List Nat) (n : Nat) : Bool := seen.contains n || (decide (256 ≤ seen.length) && seen.all (fun x => decide (n < x)))

/-- A run arrives (R56): a stale key, a bad tag, a number already seen, or a run whose flits are released in order. A barrier run
carries no operation (R78). -/
def State.takeRun (s : State) (peer : Nat) (run : Run) : Out :=
  let d := s.hub.domain
  let p := SMap.get {} d.peers peer
  if !d.formed || !p.present then .next s
  else if run.kgen.toNat ≠ d.kgen then .next (s.updPeer peer (fun p => { p with stale := p.stale + 1 }))
  else
    let n := run.nfl.toNat
    let head := runHead run.seq.toNat run.kgen.toNat n run.flg.toNat run.rsv.toNat
    match (if 1 ≤ n ∧ n ≤ 64 ∧ run.flits.length = 64 * n ∧ run.flg.toNat < 2 ∧ run.rsv = 0 then
        gcmOpen (d.runKey peer d.self) (runIv d.kgen run.seq.toNat) head run.flits run.tag else none) with
    | none => .next s
    | some plain =>
      let s := s.answer (.runAck peer run.seq.toNat)
      if seqOld p.seen run.seq.toNat then .next (s.updPeer peer (fun p => { p with replays := p.replays + 1 }))
      else
        let s := s.updPeer peer (fun p => { p with seen := takeSeq p.seen run.seq.toNat })
        if run.flg.getLsbD 0 then .next (s.updPeer peer (fun p => { p with barrierSeen := true }))
        else .next (s.release peer (Config.runMessages plain))

/-- `RUN_RECEIVE` (R56): a run of a member, or the acknowledgement of one of this package's runs; none is taken while the device answers
its status window alone (R62). -/
def execRunReceive (peer : Nat) (arrival : RunArrival) (s : State) : Out :=
  if !s.serves then .next s
  else
  match arrival with
  | .run r => s.takeRun peer r
  | .ack seq => .next (s.updPeer peer (fun p => { p with runs := p.runs.filter (fun r => decide (r.seq ≠ seq.toNat)) }))

/-- Fabric operations of this package complete with error at their sources (R56, R79). -/
def State.failOps (s : State) (hit : Access → Bool) : State :=
  { s with posted := s.posted.map (fun a : Access =>
      match a.act with
      | .fabric _ _ _ _ _ => if hit a && a.done.isNone then { a with act := .read [], err := true } else a
      | _ => a) }
/-- Operations to a member complete with error at their sources (R79). -/
def State.failMember (s : State) (m : Nat) : State :=
  ((s.failOps (fun a => match a.act with | .fabric n _ _ _ _ => decide (n = m) | _ => false)).updPeer m (fun p =>
    { p with queued := [], cut := 0, runs := [] })).updHub (fun h =>
    { h with domain := { h.domain with held := h.domain.held.filter (fun x => decide (x.1 ≠ m)) } })
/-- `RUN_RETRY_EXHAUSTED` (R56): the operations carried in the run fail, and the peer is unreachable. -/
def execRunRetryExhausted (run : RunName) (s : State) : Out :=
  match (SMap.get {} s.hub.domain.peers run.peer).runs.find? (fun r => decide (r.seq = run.seq)) with
  | none => .next s
  | some r =>
    .next (((s.failOps (fun a => r.ops.contains a.id)).updPeer run.peer (fun p =>
      { p with runs := p.runs.filter (fun r => decide (r.seq ≠ run.seq)) })).tell (.peerUnreachable run.peer))

/-! ### Forming a domain and re-keys (R76 to R80) -/

/-- A 256-bit secret that the coordinator draws (R77). -/
def drawSecret (n : Nat) : BitVec 256 :=
  BitVec.ofNat 256 ((List.range 4).foldl (fun a i => a + (Config.freeWord (n + i)).toNat * 2 ^ (64 * i)) 0)
/-- Measurement block k (R64): a slot as a raw digest, in the block form of DSP0274 (PRESUMED, log 5). -/
def rawBlock (k : Nat) (v : BitVec 384) : List Byte :=
  leBytes 1 k ++ [0x01] ++ leBytes 2 51 ++ [Config.rawDigestType] ++ leBytes 2 48 ++ digestBytes v
/-- The bytes of a GET_MEASUREMENTS and its response in a transcript (log 5). -/
def measureExchange (slot index : Nat) (signed : Bool) (nonce : Word) (body : List Byte) : List Byte :=
  [0xE0] ++ leBytes 1 slot ++ leBytes 1 index ++ leBytes 1 signed.toNat ++ leBytes 8 nonce.toNat ++ [0x60] ++ body
/-- What a member shows fits the policy (R76): its certificate chain from the Yelrath root to its alias key, its identity key's digest, the
MSL values listed, and the signature over all its measurements under the nonce that H sent it. -/
def admits (nonce : Word) (e : PolicyEnt) (p : MemberProof) : Bool :=
  decide (p.member = e.member ∧ 0 < p.member ∧ p.member < 64 ∧ p.msl.length = 32) &&
  Config.certOk Config.rootCert p.cert && decide (Config.certifiedKey p.cert = p.idkKey) && decide (sha384 p.idkKey = e.idkDigest) &&
  ecdsaVerify p.idkKey (sha384 (Config.aliasTbs p.aliasKey ((p.msl.take 4).flatMap digestBytes))) p.aliasSig &&
  e.msl.all (fun x => decide (p.msl[x.1]? = some x.2)) &&
  ecdsaVerify p.aliasKey
    (sha384 (measureExchange 0 0xFF true nonce (p.msl.zipIdx.flatMap (fun x => rawBlock (x.2 + 1) x.1)))) p.sig
/-- The policy at an address is read whole (R76). -/
def State.readPolicy (s : State) (w va : Nat) : FeRead :=
  match s.feRead w va 64 with
  | .ok l t => t.feRead w va (Max.max 64 (Min.min (Config.policyLength l) 65536))
  | r => r
/-- `DOMFORM` (R76, R77, R104). First H reads the policy and asks each listed member for its certificates and measurements; then the
members whose identity and measurements fit are admitted with a session each, the manager is told of the others, and the secret of
generation 1 goes to every member. -/
def execDomform (id : Nat) (proofs : List MemberProof) (s : State) : Out :=
  match (s.packet id).filter (fun p => decide (p.st = .running ∧ pkOpc p.bits = 0x09 ∧ pkField p.bits 24 1 = 3)) with
  | none => .next s
  | some p =>
    if s.hub.domain.formed then .next (s.endPacket id 0x0A)
    else if !p.acted then
      match s.readPolicy p.world (pkField p.bits 32 8) with
      | .wait => .next s
      | .fail st t => .next (t.endPacket id st)
      | .ok l t =>
        let ents := (Config.policyMembers l).filter (fun e => decide (0 < e.member ∧ e.member < 64))
        let nonces : SMap Word := ents.zipIdx.foldl (fun m e => SMap.set m e.1.member (Config.freeWord (t.fresh + e.2))) []
        .next (ents.foldl (fun s e => s.answer (.control e.member 0 (.attest (SMap.get 0 nonces e.member))))
          (({ t with fresh := t.fresh + ents.length }.updDomain (fun _ => { policy := ents, nonces := nonces })).updPacket id
            (fun p => { p with acted := true })))
    else
      let ents := s.hub.domain.policy
      let fit (e : PolicyEnt) : Option MemberProof := proofs.find? (admits (SMap.get 0 s.hub.domain.nonces e.member) e)
      let t := (ents.filter (fun e => (fit e).isNone)).foldl (fun s e => s.tell (.notAdmitted e.member)) s
      let n := pkField p.bits 40 2
      let t := { t with fresh := t.fresh + 4 }.updDomain (fun _ =>
        { formed := true, number := n, kgen := 1, secret := drawSecret t.fresh, runlen := Max.max 1 (Min.min (Config.runLen n) 64)
          timeout := ((Config.barrierTimeout n).map (fun t => Max.max 1 (Min.min t 1000))).getD 100
          peers := ents.foldl (fun m e => match fit e with
            | some q => SMap.set m e.member { present := true, session := q.session }
            | none => m) [] })
      .next (((t.controlAll (.members t.hub.domain.others)).controlAll (.secret 1 t.hub.domain.secret)).endPacket id 0)

/-- `DOMREKEY` (R78, R104). -/
def execDomrekey (id : Nat) (s : State) : Out :=
  s.command id 0x09 (some 4) (fun p =>
    let d := s.hub.domain
    if !d.formed || decide (pkField p.bits 40 2 ≠ d.number) || decide (d.phase ≠ .idle) then (s, 0x0A) else (s.quiesce, 0))
/-- The secret of the re-key in progress has been sent (R78). -/
def Domain.secretSent (d : Domain) : Bool := decide (d.phase = .switching ∨ d.phase = .switched)
/-- A member is in the domain no longer (R79): what is addressed to it fails, and the others are told. One that already holds the secret of
the re-key in progress makes another follow it, before anything leaves under the new key. -/
def State.removeMember (s : State) (m : Nat) : State :=
  let s := ((s.failMember m).updPeer m (fun p => { p with present := false })).updDomain (fun d => { d with again := d.again || d.secretSent })
  if s.hub.domain.coordinator = s.hub.domain.self then s.controlAll (.members s.hub.domain.others) else s
/-- The coordinator of another package admits this one to its domain (R76, R77). -/
def State.enrol (s : State) (peer number self kgen timeout : Nat) (secret : BitVec 256) (session : BitVec 384) (members : List Nat) : State :=
  s.updDomain (fun _ =>
    { formed := true, number := number, self := self, coordinator := peer, kgen := kgen, secret := secret,
      runlen := Max.max 1 (Min.min (Config.runLen number) 64), timeout := timeout
      peers := (peer :: members.filter (fun m => decide (m ≠ self ∧ m ≠ peer))).foldl (fun l m =>
        SMap.set l m { present := true, session := if m = peer then session else 0 }) [] })
/-- `REKEY_REQUEST` (R55, R76, R78, R79): a control message of a member. One that asks for a re-key, or leaves, is answered by the coordinator
with a re-key, over one in progress where the member leaves; what the coordinator says, its members do. -/
def execRekeyRequest (ask : RekeyAsk) (s : State) : Out :=
  let d := s.hub.domain
  let heard := d.formed && (SMap.get {} d.peers ask.peer).present && decide (ask.peer ≠ d.self)
  let lead := decide (d.coordinator = d.self)
  .next (
    match ask.kind with
    | .ask => if heard && lead && decide (d.phase = .idle) then s.quiesce else s
    | .leave =>
      if !(heard && lead) then s
      else if d.phase = .idle then (s.removeMember ask.peer).quiesce
      else s.removeMember ask.peer
    | .quiesce t => if heard && decide (ask.peer = d.coordinator) then (s.updDomain (fun d => { d with timeout := t })).quiesce else s
    | .members l =>
      if heard && decide (ask.peer = d.coordinator) then
        (d.others.filter (fun m => decide (m ≠ d.coordinator) && !l.contains m)).foldl State.removeMember s
      else s
    | .enrol number self kgen timeout secret session members =>
      if !s.serves || d.formed || decide (self = ask.peer) then s else s.enrol ask.peer number self kgen timeout secret session members)

/-- Every operation this package originated has been answered, and nothing waits to leave (R78). -/
def State.domainDrained (s : State) : Bool :=
  s.posted.all (fun a => match a.request with | some x => a.done.isSome || s.hub.domain.held.any (fun h => decide (runOp h.2 = runOp x.2)) | none => true) &&
  s.hub.domain.peers.all (fun e => e.2.queued.isEmpty)
/-- The event names this package's domain. -/
def State.inDomain (s : State) (n : Nat) (ph : Phase) : Bool :=
  s.hub.domain.formed && decide (s.hub.domain.number = n) && decide (s.hub.domain.phase = ph)
/-- This package coordinates a domain in which a re-key is in progress. -/
def State.leads (s : State) (n : Nat) : Bool :=
  let d := s.hub.domain
  d.formed && decide (d.number = n) && decide (d.coordinator = d.self) && decide (d.phase ≠ .idle)
/-- `REKEY_DRAINED` (R78): this package is drained and reports it; or a member's report reaches the coordinator. -/
def execRekeyDrained (report : RekeyReport) (s : State) : Out :=
  .next (
    if report.member ≠ s.hub.domain.self then
      (if s.leads report.domain && (SMap.get {} s.hub.domain.peers report.member).present then
        s.updPeer report.member (fun p => { p with drained := true }) else s)
    else if s.inDomain report.domain .quiesce && s.domainDrained then
      (s.updDomain (fun d => { d with phase := .drained })).controlHome (.drained s.hub.domain.kgen)
    else s)
/-- Every other member has reported to the coordinator. -/
def Domain.reported (d : Domain) (f : Peer → Bool) : Bool :=
  decide (d.coordinator ≠ d.self) || d.others.all (fun m => f (SMap.get {} d.peers m))
/-- `REKEY_SWITCH` (R77, R78): with every member DRAINED, the coordinator draws the new secret and sends it with SWITCH; a run of one
zero flit with FLG bit 0 goes to each peer under the old key. -/
def execRekeySwitch (domain : Nat) (s : State) : Out :=
  let d := s.hub.domain
  .next (
    if !s.inDomain domain .drained || !d.reported Peer.drained then s
    else
      let lead := decide (d.coordinator = d.self)
      let key := if lead then some (drawSecret s.fresh) else none
      let s := { s with fresh := if lead then s.fresh + 4 else s.fresh }.updDomain (fun d => { d with phase := .switching, next := key })
      let s := match key with
        | some k => (s.controlAll (.secret d.target k)).controlAll (.switch d.target)
        | none => s
      d.others.foldl (fun s m => s.sendRun m 1 (List.replicate 64 0) []) s)
/-- A domain is dissolved (R77): what was outstanding fails. -/
def State.dissolve (s : State) : State :=
  let n := s.hub.domain.number
  ((SMap.keys s.hub.domain.peers).foldl State.failMember s |>.updDomain (fun _ => {})).tell (.domainDissolved n)
/-- The Switch phase ends at this package (R78): all its runs are acknowledged, and every peer's barrier run has come. -/
def State.switchDone (s : State) (domain : Nat) : Bool :=
  let d := s.hub.domain
  s.inDomain domain .switching &&
  d.others.all (fun m => (SMap.get {} d.peers m).barrierSeen && (SMap.get {} d.peers m).runs.isEmpty)
/-- `REKEY_SWITCHED` (R77, R78): this package installs the new generation, with the secret that the coordinator has sent it or drawn:
every SEQ is 0, and the old keys are gone. Or a member's report reaches the coordinator. -/
def execRekeySwitched (report : RekeyReport) (secret : BitVec 256) (s : State) : Out :=
  let d := s.hub.domain
  if report.member ≠ d.self then
    .next (if s.leads report.domain && (SMap.get {} d.peers report.member).present then s.updPeer report.member (fun p => { p with switched := true }) else s)
  else if !s.switchDone report.domain then .next s
  else if 2 ^ 32 ≤ d.target then .next s.dissolve
  else
    .next ((s.updDomain (fun d =>
      { d with phase := .switched, kgen := d.target, secret := d.next.getD secret, next := none,
               peers := d.peers.map (fun e : Nat × Peer =>
                 (e.1, { e.2 with sendSeq := 0, seen := [], barrierSeen := false, rekeyAsked := false })) })).controlHome
      (.switched d.target))
/-- `REKEY_RESUME` (R78, R80): with every member SWITCHED, held operations leave in the order they were issued; where a member has gone
that holds the new secret, the coordinator begins the next re-key instead, and they stay held. -/
def execRekeyResume (domain : Nat) (s : State) : Out :=
  let d := s.hub.domain
  if !s.inDomain domain .switched || !d.reported Peer.switched then .next s
  else
    if d.again && decide (d.coordinator = d.self) then
      .next (s.updDomain (fun d => { d with phase := .idle, again := false })).quiesce
    else
    let s := if d.coordinator = d.self then s.controlAll (.resume d.kgen) else s
    .next (d.held.foldl (fun s x => s.queueMsg x.1 x.2) (s.updDomain (fun d => { d with phase := .idle, held := [] })))
/-- `REKEY_PHASE_TIMEOUT` (R79): the late member is removed and its operations fail; for a late coordinator, the member of lowest
index takes the role and Quiesce begins again towards the same generation. Removed itself, this package is in no domain. -/
def execRekeyPhaseTimeout (domain peer : Nat) (s : State) : Out :=
  let d := s.hub.domain
  if !d.formed || decide (d.number ≠ domain) || decide (d.phase = .idle) then .next s
  else if peer = d.self then .next s.dissolve
  else if !(SMap.get {} d.peers peer).present then .next s
  else
    let s := s.removeMember peer
    if peer ≠ d.coordinator then .next s
    else
      .next (s.updDomain (fun d => { d with coordinator := d.others.foldl Min.min d.self })).quiesce

end Sys2Proof.Machine
end

