-- ==== Sys2Proof/Machine/Spdm.lean ====
section
/-! DEFINITION. The SPDM responder (03 R63 to R66). Transcripts are the bytes of the messages exchanged, each with its code of
DSP0274 first (log 5). -/

namespace Sys2Proof.Machine

/-- A connection. -/
def State.conn (s : State) (c : Nat) : Conn := SMap.get {} s.hub.conns c
def State.updConn (s : State) (c : Nat) (f : Conn → Conn) : State := s.updHub (fun h => { h with conns := SMap.upd {} h.conns c f })
/-- A session. -/
def State.session (s : State) (n : Nat) : Session := SMap.get {} s.hub.sessions n
def State.updSession (s : State) (n : Nat) (f : Session → Session) : State :=
  s.updHub (fun h => { h with sessions := SMap.upd {} h.sessions n f })
/-- The responder runs (R61), and H keeps up to 16 connections (R63). -/
def State.responds (s : State) (c : Nat) : Bool := s.serves && decide (c < 16)
/-- An ERROR is answered: the state and the transcripts stay as they are (R66). -/
def State.spdmFails (s : State) (c : Nat) (e : SpdmErr) : Out := .next (if s.responds c then s.answer (.spdmError c e) else s)
/-- The security engine serves another connection's signature (R66). -/
def State.signsFor (s : State) (c : Nat) : Bool := s.hub.signing.any (fun d => decide (d ≠ c))
/-- A request is judged: an ERROR, Busy the last of them (R66), or what it does. -/
def State.spdm (s : State) (c : Nat) (checks : List (Bool × SpdmErr)) (f : Unit → State) : Out :=
  if !s.responds c then .next s
  else match (checks ++ [(!s.signsFor c, SpdmErr.busy)]).find? (fun x => !x.1) with
    | some (_, e) => s.spdmFails c e
    | none => .next (f ())
/-- The security engine takes up a signature for a connection; the time it takes is free (R66). -/
def State.sign (s : State) (c : Nat) : State := s.updHub (fun h => { h with signing := some c })
/-- Ending sessions closes their channels (R67). -/
def State.endSessions (s : State) (hit : Nat → Session → Bool) : State :=
  s.updHub (fun h =>
    { h with sessions := h.sessions.filter (fun e => !hit e.1 e.2)
             channels := closeChannels h.channels (fun e => h.sessions.any (fun x => hit x.1 x.2 && decide (x.1 = e.2.session))) })
/-- The slot-0 chain (R64): the root certificate, the device certificate and the alias certificate. -/
def State.chain (s : State) : List Byte := s.hub.chain
/-- A signature with ALK over a transcript (R64). -/
def State.signed (s : State) (l : List Byte) : List Byte := ecdsaSign s.hub.alk (sha384 l)

/-- The bytes of the version exchange, with which message A begins (R66). -/
def versionExchange : List Byte := [0x84, 0x04, 0x12]
/-- The capabilities that the responder advertises (R63), at their places in DSP0274: CERT, CHAL, MEAS with signatures, ENCRYPT, MAC,
KEY_EX (PRESUMED, log 5). -/
def spdmCaps : List Byte := leBytes 4 0x2D6
/-- The algorithms in the model's numbering (log 5). -/
def SpdmAlg.code : SpdmAlg → Byte
  | .sha384 => 1 | .brainpoolP384 => 2 | .p384 => 3 | .aes256Gcm => 4 | .spdmSchedule => 5
/-- The algorithms that negotiation can select (R63). -/
def spdmAlgs : List SpdmAlg := [.sha384, .brainpoolP384, .p384, .aes256Gcm, .spdmSchedule]
/-- The request stands outside a session, as R65 asks of all but GET_MEASUREMENTS, FINISH and END_SESSION. -/
def outside (session : Option Nat) : Bool × SpdmErr := (session.isNone, .unexpectedRequest)

/-- `GET_VERSION` (R65): outside a session it begins the connection anew. -/
def execGetVersion (conn : Nat) (inSession : Bool) (s : State) : Out :=
  s.spdm conn [(!inSession, .unexpectedRequest)] (fun _ =>
    ((s.endSessions (fun _ x => x.live && decide (x.conn = conn))).updConn conn (fun _ =>
      { st := .afterVersion, a := versionExchange })).answer (.spdm conn .version [0x12]))
/-- `GET_CAPABILITIES` (R63, R65): message A goes on from the version exchange. -/
def execGetCapabilities (asker : Asker) (s : State) : Out :=
  s.spdm asker.conn [outside asker.session, (decide ((s.conn asker.conn).st = .afterVersion), .unexpectedRequest)] (fun _ =>
    (s.updConn asker.conn (fun c => { c with st := .afterCaps, a := versionExchange ++ [0xE1, 0x61] ++ spdmCaps })).answer
      (.spdm asker.conn .capabilities spdmCaps))
/-- `NEGOTIATE_ALGORITHMS` (R63, R65): what the requester offers of the device's algorithms is selected; where it offers none of them the
connection goes back to AFTER_VERSION. -/
def execNegotiateAlgorithms (asker : Asker) (offered : List SpdmAlg) (s : State) : Out :=
  s.spdm asker.conn [outside asker.session, (decide ((s.conn asker.conn).st = .afterCaps), .unexpectedRequest)] (fun _ =>
    let body := (spdmAlgs.filter offered.contains).map SpdmAlg.code
    if body.isEmpty then (s.updConn asker.conn (fun c => { c with st := .afterVersion })).answer (.spdmError asker.conn .negotiationFail)
    else
      (s.updConn asker.conn (fun c => { c with st := .negotiated, a := c.a ++ [0xE3] ++ offered.map SpdmAlg.code ++ [0x63] ++ body })).answer
        (.spdm asker.conn .algorithms body))
/-- The connection is NEGOTIATED. -/
def State.negotiated (s : State) (c : Nat) : Bool := decide ((s.conn c).st = .negotiated)
/-- `GET_DIGESTS` (R65). -/
def execGetDigests (asker : Asker) (s : State) : Out :=
  s.spdm asker.conn [outside asker.session, (s.negotiated asker.conn, .unexpectedRequest)] (fun _ =>
    let body := digestBytes (sha384 s.chain)
    (s.updConn asker.conn (fun c => { c with digests := true, b := c.b ++ [0x81, 0x01] ++ body })).answer (.spdm asker.conn .digests body))
/-- `GET_CERTIFICATE` (R64): at most 1,024 bytes of the slot-0 chain. -/
def execGetCertificate (asker : Asker) (slot offset len : Nat) (s : State) : Out :=
  s.spdm asker.conn [outside asker.session, (s.negotiated asker.conn, .unexpectedRequest), (decide (slot = 0), .invalidRequest)] (fun _ =>
    let body := (s.chain.drop offset).take (Min.min len 1024)
    (s.updConn asker.conn (fun c =>
      { c with b := c.b ++ [0x82] ++ leBytes 1 slot ++ leBytes 2 offset ++ leBytes 2 len ++ [0x02] ++ body })).answer
      (.spdm asker.conn .certificate body))
/-- `CHALLENGE` (R64, R66), with whether the engine serves a signature that is not the responder's: M1 hashes A, B and C, which holds the request and the response but for its signature; B and C are cleared
after it. The responder's nonce is free. -/
def execChallenge (asker : Asker) (slot : Nat) (nonce : Word) (busy : Bool) (s : State) : Out :=
  s.spdm asker.conn [outside asker.session, (s.negotiated asker.conn, .unexpectedRequest), (decide (slot = 0), .invalidRequest), (!busy, .busy)] (fun _ =>
    let x := s.conn asker.conn
    let body := digestBytes (sha384 s.chain) ++ leBytes 8 (Config.freeWord s.fresh).toNat
    let c := x.c ++ [0x83] ++ leBytes 1 slot ++ leBytes 8 nonce.toNat ++ [0x03] ++ body
    (({ s with fresh := s.fresh + 1 }.sign asker.conn).updConn asker.conn (fun x => { x with b := [], c := [] })).answer
      (.spdm asker.conn .challengeAuth (body ++ s.signed (x.a ++ x.b ++ c))))
/-- Measurement block k (R64): MSL(k − 1). -/
def State.measurementBlock (s : State) (k : Nat) : List Byte := rawBlock k (SMap.get 0 s.hub.msl (k - 1))
/-- The measurement blocks that an index asks for (R64): none for an index out of range. -/
def State.measurements (s : State) (index : Nat) : Option (List Byte) :=
  if index = 0 then some [32]
  else if index ≤ 32 then some (s.measurementBlock index)
  else if index = 0xFF then some ((List.range 32).flatMap (fun i => s.measurementBlock (i + 1)))
  else none
/-- A live session of the connection. -/
def State.inSession (s : State) (c n : Nat) (established : Bool) : Bool :=
  let x := s.session n
  x.live && decide (x.conn = c) && decide (x.established = established)
/-- `GET_MEASUREMENTS` (R64, R65, R66): outside a session or in an established one; a signed one closes L1. -/
def execGetMeasurements (conn : Nat) (session : Option Nat) (slot index : Nat) (signed : Bool) (nonce : Word) (busy : Bool)
    (s : State) : Out :=
  s.spdm conn
    [(match session with | none => s.negotiated conn | some n => s.inSession conn n true, .unexpectedRequest),
     (decide (slot = 0) && (s.measurements index).isSome, .invalidRequest), (!busy, .busy)] (fun _ =>
    let body := (s.measurements index).getD []
    let l1 := (s.conn conn).l1 ++ measureExchange slot index signed nonce body
    if signed then ((s.sign conn).updConn conn (fun c => { c with l1 := [] })).answer (.spdm conn .measurements (body ++ s.signed l1))
    else (s.updConn conn (fun c => { c with l1 := l1 })).answer (.spdm conn .measurements body))
/-- The lowest free session number of 64 (R63). -/
def State.freeSession (s : State) : Option Nat := (List.range 64).find? (fun n => !(s.session n).live)
/-- `KEY_EXCHANGE` (R65, R66): after a GET_DIGESTS, a new session in HANDSHAKE; TH takes the request and the response. -/
def execKeyExchange (asker : Asker) (slot : Nat) (exchange : List Byte) (busy : Bool) (s : State) : Out :=
  s.spdm asker.conn
    [outside asker.session, (s.negotiated asker.conn && (s.conn asker.conn).digests, .unexpectedRequest), (decide (slot = 0), .invalidRequest),
     (s.freeSession.isSome, .sessionLimitExceeded), (!busy, .busy)] (fun _ =>
    let n := s.freeSession.getD 0
    let rsp := leBytes 2 n ++ Config.spdmPublic s.fresh
    let th := (s.conn asker.conn).a ++ digestBytes (sha384 s.chain) ++ [0xE4] ++ leBytes 1 slot ++ exchange ++ [0x64] ++ rsp
    let sig := s.signed th
    let secret := Config.spdmSecret s.fresh exchange
    (({ s with fresh := s.fresh + 1 }.sign asker.conn).updSession n (fun _ => { live := true, conn := asker.conn, secret := secret, th := th ++ sig })).answer
      (.spdm asker.conn .keyExchangeRsp (rsp ++ sig)))
/-- `FINISH` (R65): the requester's MAC over TH verifies. -/
def execFinish (conn session : Nat) (mac : BitVec 384) (s : State) : Out :=
  let x := s.session session
  s.spdm conn
    [(s.inSession conn session false, .unexpectedRequest),
     (decide (mac = hmac384 (digestBytes x.secret) x.th), .decryptError)] (fun _ =>
    (s.updSession session (fun x => { x with established := true, th := x.th ++ [0xE5, 0x65] ++ digestBytes mac })).answer
      (.spdm conn .finishRsp []))
/-- `END_SESSION` (R65, R67). -/
def execEndSession (conn session : Nat) (s : State) : Out :=
  s.spdm conn [(s.inSession conn session true, .unexpectedRequest)] (fun _ =>
    (s.endSessions (fun n _ => decide (n = session))).answer (.spdm conn .endSessionAck []))
/-- `SPDM_UNSUPPORTED_REQUEST` (R65). -/
def execSpdmUnsupportedRequest (conn : Nat) (code : BitVec 8) (s : State) : Out :=
  let _ := code
  s.spdmFails conn .unsupportedRequest

end Sys2Proof.Machine
end

