-- ==== Sys2Proof/Machine/Channels.lean ====
section
/-! DEFINITION. Host channels, heartbeats and teardown (03 R67 to R71), and the messages of a channel (04 R84, R86). -/

namespace Sys2Proof.Machine

/-- A channel. -/
def State.channel (s : State) (c : Nat) : Channel := SMap.get {} s.hub.channels c
def State.updChannel (s : State) (c : Nat) (f : Channel → Channel) : State :=
  s.updHub (fun h => { h with channels := SMap.upd {} h.channels c f })

/-! ### Opening (R67, R70, R105) -/

/-- A channel's key and salt (R67). -/
def channelKey (secret : BitVec 384) (ch : Nat) : BitVec 256 :=
  BitVec.ofNat 256 (leNat ((digestBytes (hmac384 (digestBytes secret)
    ([0x63, 0x68, 0x61, 0x6E, 0x20, 0x6B, 0x65, 0x79] ++ leBytes 1 ch))).take 32))
def channelSalt (secret : BitVec 384) (ch : Nat) : BitVec 64 :=
  BitVec.ofNat 64 (leNat ((digestBytes (hmac384 (digestBytes secret)
    ([0x63, 0x68, 0x61, 0x6E, 0x20, 0x73, 0x61, 0x6C, 0x74] ++ leBytes 1 ch))).take 8))
/-- `WORLD_OPEN` (R67, R70, R71, R105): the packet's 64 bytes over an established session; the owner credential is the world's, and
a world whose keys are held is claimed. -/
def execWorldOpen (session : Nat) (body : List Byte) (s : State) : Out :=
  let b := packetBits body
  let w := pkField b 25 1
  let ch := pkField b 28 1
  let x := s.session session
  if !s.serves || !x.live || !x.established then .next s
  else if body.length ≠ 64 || !packetOk b || decide (pkOpc b ≠ 0x0D) || decide (pkField b 24 1 ≠ 3) || !s.worldUp w ||
      decide (pkField b 48 16 ≠ (s.world w).cred.toNat) || (s.channel ch).live then .next (s.answer .accessError)
  else
    let period := if pkField b 27 1 = 0 then 10 else pkField b 27 1
    let s := s.updChannel ch (fun _ =>
      { live := true, session := session, world := w, key := channelKey x.secret ch, salt := channelSalt x.secret ch })
    .next (((s.updSession session (fun x => { x with period := period })).updWorld w (fun x => { x with hold := false })).answer
      .done)

/-! ### Accepting a message (R68, R69) -/

/-- The header as associated data. -/
def msgHead (m : ChMsg) : List Byte :=
  leBytes 4 m.ctr.toNat ++ [m.chid, m.world, m.kind, m.rsv0] ++ leBytes 4 m.len.toNat ++ leBytes 4 m.rsv1.toNat
/-- The header is accepted by its channel: reserved fields zero, LEN that of the payload, CTR in the host's half and above the last
accepted one, CHID and WORLD those of an open channel that is not DEAD. -/
def State.headOk (s : State) (m : ChMsg) : Bool :=
  let c := s.channel m.chid.toNat
  c.live && !c.dead && !c.closing && decide (c.world = m.world.toNat) && decide (m.rsv0 = 0 ∧ m.rsv1 = 0) &&
  decide (m.len.toNat = m.body.length ∧ m.body.length ≤ 65536) && decide (m.ctr.toNat < 0x80000000) &&
  (match c.last with | none => true | some l => decide (l.toNat < m.ctr.toNat))
/-- A refused message raises the channel's refusal count. -/
def State.refuseMsg (s : State) (m : ChMsg) : State :=
  if (s.channel m.chid.toNat).live then s.updChannel m.chid.toNat (fun c => { c with refused := c.refused + 1 }) else s
/-- ACCEPTING A CHANNEL MESSAGE (R68, R69) of a kind: the payload, and the state with its CTR used; or the state after a refusal. -/
def State.accept (s : State) (m : ChMsg) (kind : Byte) : Except State (State × List Byte) :=
  if !s.serves || decide (m.kind ≠ kind ∧ 1 ≤ m.kind.toNat ∧ m.kind.toNat ≤ 6) then .error s
  else if m.kind ≠ kind || !s.headOk m then .error (s.refuseMsg m)
  else
    let ch := m.chid.toNat
    let c := s.channel ch
    match gcmOpen c.key (BitVec.ofNat 96 (c.salt.toNat * 2 ^ 32 + m.ctr.toNat)) (msgHead m) m.body m.tag with
    | none =>
      let t := (s.refuseMsg m).updChannel ch (fun c => { c with fails := c.fails + 1, dead := c.dead || decide (3 ≤ c.fails + 1) })
      .error (if c.fails + 1 = 3 then t.tell (.channelDead ch) else t)
    | some plain =>
      .ok (s.updChannel ch (fun c => { c with last := some m.ctr, dead := decide (m.ctr.toNat = 0x7FFFFFFF) }), plain)

/-! ### What the messages of a channel do, in CTR order (R84, R86) -/

/-- A tail write (R86). -/
def State.writeTail (s : State) (w q : Nat) (t : BitVec 32) : State :=
  let x := s.queueAt w q
  if q ≥ 16 || !x.present then s.tell (.qnone w q)
  else
    let d := (t - x.head).toNat
    let e := (x.tail - x.head).toNat
    if 2 ^ x.log2n < d then (s.queueError w q).tell (.qover w q)
    else if d < e then s.tell (.qback w q)
    else s.updQueue w q (fun x => { x with tail := t })
/-- A put of a channel: the bytes that translate are written. -/
def State.channelWrite (s : State) (ch w : Nat) (cells : List (Nat × Byte)) : State :=
  let phys := cells.filterMap (fun c => (s.feAddr w c.1 1 .wr).map (fun pa => (pa, c.2)))
  let op := s.seqno
  (s.updChannel ch (fun c => { c with busy := some op })).beginOp { kind := .put, world := w, silent := true } (writeParts phys)
/-- The first job of a channel is carried out, once the put before it has landed. -/
def State.channelStep (s : State) (ch : Nat) : State :=
  let c := s.channel ch
  match c.busy, c.jobs with
  | none, j :: r =>
    let s := s.updChannel ch (fun c => { c with jobs := r })
    match j with
    | .put va l => s.channelWrite ch c.world (l.zipIdx.map (fun b => (va.toNat + b.2, b.1)))
    | .packets q l =>
      let x := s.queueAt c.world q
      if q ≥ 16 || !x.present then s.tell (.qnone c.world q)
      else
        let n := l.length / 64
        let s := s.updChannel ch (fun c => { c with jobs := .tail q (x.tail + BitVec.ofNat 32 n) :: c.jobs })
        s.channelWrite ch c.world (l.zipIdx.map (fun b => (x.slotAddr (x.tail.toNat + b.2 / 64) + b.2 % 64, b.1)))
    | .tail q t => s.writeTail c.world q t
    | .close => s.updHub (fun h => { h with channels := SMap.erase h.channels ch })
  | _, _ => s
/-- An accepted message's job stands behind the earlier ones of its channel. -/
def State.channelJob (s : State) (ch : Nat) (j : ChJob) : State :=
  (s.updChannel ch (fun c => { c with jobs := c.jobs ++ [j] })).channelStep ch

/-- A MESSAGE OF THE DEVICE on a channel (R68, R69): sealed under its next CTR. The channel is DEAD once the last has been used, and a DEAD
one sends nothing. -/
def State.deviceMessage (s : State) (ch : Nat) (kind : Byte) (plain : List Byte) : State :=
  let c := s.channel ch
  if !c.live || c.dead then s
  else
    let m : ChMsg :=
      { ctr := c.devCtr, chid := BitVec.ofNat 8 ch, world := BitVec.ofNat 8 c.world, kind := kind, rsv0 := 0,
        len := BitVec.ofNat 32 plain.length, rsv1 := 0, body := [], tag := 0 }
    let x := gcmSeal c.key (BitVec.ofNat 96 (c.salt.toNat * 2 ^ 32 + c.devCtr.toNat)) (msgHead m) plain
    (s.updChannel ch (fun c => { c with devCtr := c.devCtr + 1, dead := decide (c.devCtr = 0xFFFFFFFF#32) })).answer
      (.channel { m with body := x.1, tag := x.2 })
/-- The status reply (R74): WMR, the digest of the alias certificate's chain, and their signature with ALK. -/
def State.statusReply (s : State) (ch : Nat) : State :=
  let plain := digestBytes (s.world (s.channel ch).world).wmr ++ digestBytes (sha384 s.chain)
  s.deviceMessage ch 5 (plain ++ s.signed plain)

/-- `CHANNEL_PUT` (R84): the payload's first eight bytes are the world virtual address (log 10). A message of KIND 0x05 from the host asks
for the status reply (R74; DESIGN CHOICE, log 43). -/
def execChannelPut (msg : ChMsg) (s : State) : Out :=
  if msg.kind = 5 then
    match s.accept msg 5 with
    | .error t => .next t
    | .ok (t, _) => .next (t.statusReply msg.chid.toNat)
  else
  match s.accept msg 1 with
  | .error t => .next t
  | .ok (t, l) => .next (t.channelJob msg.chid.toNat (.put (BitVec.ofNat 64 (leNat (l.take 8))) (l.drop 8)))
/-- `COMMAND_PACKET_MESSAGE` (R84): the queue's number, six zero bytes, and 1 to 1,023 packets; another payload has no effect. -/
def execCommandPacketMessage (msg : ChMsg) (s : State) : Out :=
  match s.accept msg 2 with
  | .error t => .next t
  | .ok (t, l) =>
    let n := (l.length - 8) / 64
    .next (if l.length = 8 + 64 * n ∧ 1 ≤ n ∧ n ≤ 1023 ∧ leNat ((l.drop 2).take 6) = 0 then
      t.channelJob msg.chid.toNat (.packets (leNat (l.take 2)) (l.drop 8)) else t)
/-- `TAIL_WRITE` (R84, R86): the queue's number, two zero bytes, and the new tail; another payload has no effect. -/
def execTailWrite (msg : ChMsg) (s : State) : Out :=
  match s.accept msg 3 with
  | .error t => .next t
  | .ok (t, l) =>
    .next (if l.length = 8 ∧ leNat ((l.drop 2).take 2) = 0 then
      t.channelJob msg.chid.toNat (.tail (leNat (l.take 2)) (BitVec.ofNat 32 (leNat (l.drop 4)))) else t)
/-- `HEARTBEAT` (R70): the deadline moves. -/
def execHeartbeat (msg : ChMsg) (s : State) : Out :=
  match s.accept msg 4 with
  | .error t => .next t
  | .ok (t, _) => .next (t.updSession (t.channel msg.chid.toNat).session (fun x => { x with beat := true }))
/-- `CHANNEL_CLOSE` (R68): what the channel has accepted before is still carried out (R84). -/
def execChannelClose (msg : ChMsg) (s : State) : Out :=
  match s.accept msg 6 with
  | .error t => .next t
  | .ok (t, _) => .next (t.updHub (fun h => { h with channels := closeChannels h.channels (fun e => decide (e.1 = msg.chid.toNat)) }))

/-! ### Heartbeat timeouts and teardown (R70, R71, R79) -/

/-- A core of the world holds work. -/
def State.holdsWork (s : State) (w : Nat) : Bool :=
  s.fronds.any (fun e => e.2.bound && decide (e.2.world = w)) ||
  (s.grantOf w).any (fun c => (s.core c).ctxs.any (fun e => decide (e.2.st ≠ .idle)))
/-- A message for a member that a world's operation originates, or that answers an operation on the world. -/
def ofWorld (w : Nat) : RunMsg → Bool
  | .put _ x _ _ _ _ | .get _ x _ | .reply _ x _ _ => decide (x = w)
/-- Operations from outside on a world end with an access error. -/
def State.dropOps (s : State) (w : Nat) : State :=
  let l := s.hub.ops.filter (fun e => decide (e.2.world = w))
  let s := s.updHub (fun h => { h with ops := h.ops.filter (fun e => decide (e.2.world ≠ w)) })
  l.foldl (fun s e => match e.2.peer with
    | some (m, n) => s.queueMsg m (.reply n w false [])
    | none => if e.2.silent then s else s.answer .accessError) s
/-- Steps 1 to 4 of a teardown (R71): nothing of the world runs, lands, leaves or decrements any more; a home still counts the
writes posted to it. -/
def State.dropWork (s : State) (w : Nat) : State :=
  let mine (f : Nat) : Bool := decide ((s.frond f).bound = true ∧ (s.frond f).world = w)
  let cores := s.grantOf w
  let s := { s with
    calendar := s.calendar.filter (fun t => !mine t.frond && !cores.contains t.core)
    posted := s.posted.filterMap (fun a : Access =>
      if a.world ≠ w then some a
      else if a.act.writes && a.done.isNone then some { a with act := .void, owed := .none, err := false }
      else none)
    packets := s.packets.filter (fun p => decide (p.world ≠ w))
    fronds := s.fronds.map (fun e : Nat × Frond =>
      if e.2.world = w then (e.1, { e.2 with ended := true, endedAt := s.now, pending := [], running := [], thawAbort := none, slips := [] }) else e) }
  let s := s.updHub (fun h =>
    { h with
      slots := h.slots.map (fun e : Nat × Entry => if e.2.world = w then (e.1, e.2.freed) else e)
      channels := h.channels.filter (fun e => decide (e.2.world ≠ w))
      domain := { h.domain with
        held := h.domain.held.filter (fun x => !ofWorld w x.2)
        peers := h.domain.peers.map (fun e : Nat × Peer => (e.1, { e.2 with queued := e.2.queued.filter (fun x => !ofWorld w x), cut := if e.2.queued.head?.any (ofWorld w) then 0 else e.2.cut })) } })
  s.dropOps w
/-- TEARDOWN of a world (R71): step 5 and step 6 follow. -/
def State.teardown (s : State) (w : Nat) : State := ((s.dropWork w).eraseWorld w).tell (.worldlost w)

/-- The worlds with a channel in a session. -/
def State.sessionWorlds (s : State) (n : Nat) : List Nat :=
  ((s.hub.channels.filter (fun e => e.2.live && !e.2.closing && decide (e.2.session = n))).map (fun e => e.2.world)).eraseDups
/-- A heartbeat's outcome for one world. World 0 never leaves READY (R72). -/
def State.lapse (s : State) (w : Nat) : State :=
  if w ≠ 0 ∧ s.holdsWork w then s.teardown w
  else
    (s.updHub (fun h => { h with channels := closeChannels h.channels (fun e => decide (e.2.world = w)) })).updWorld w
      (fun x => { x with hold := decide (w ≠ 0) })
/-- `HEARTBEAT_TIMEOUT` (R70, R71): at a frame tick, on H's own clock; a heartbeat accepted since the deadline was set has moved
it. -/
def execHeartbeatTimeout (session : Nat) (s : State) : Out :=
  let x := s.session session
  if !x.live || decide (s.now % frameCycles ≠ 0) || (s.sessionWorlds session).isEmpty then .next s
  else if x.beat then .next (s.updSession session (fun x => { x with beat := false }))
  else .next ((s.sessionWorlds session).foldl State.lapse s)
/-- `KEY_HOLD_EXPIRY` (R71): nobody has claimed the world. -/
def execKeyHoldExpiry (world : Nat) (s : State) : Out := .next (if (s.world world).hold then s.teardown world else s)

end Sys2Proof.Machine
end

