-- ==== Sys2Proof/Machine/Loader.lean ====
section
/-! DEFINITION. The measured loader (15 R333 to R349, 03 R74). -/

namespace Sys2Proof.Machine

/-! ### The container (R333, R334) -/

/-- A section of the file: its type, its records' count, its offset and its body. -/
structure Section where
  ty : Nat
  count : Nat
  off : Nat
  body : List Byte
  deriving DecidableEq, Repr

/-- Bytes lo to lo + n − 1. -/
def slice (l : List Byte) (lo n : Nat) : List Byte := (l.drop lo).take n
/-- The body of a section, or nothing. -/
def bodyOf (l : List Section) (ty : Nat) : List Byte := ((l.find? (fun x => decide (x.ty = ty))).map Section.body).getD []
/-- Records of n bytes. -/
def records (n : Nat) (l : List Byte) : List (List Byte) := (List.range (l.length / n)).map (fun i => slice l (n * i) n)

/-- Records with a head of h bytes whose size the head gives (R335, R339, R341, R343): none where they do not fill the body. -/
def headed (h : Nat) (size : List Byte → Nat) : Nat → List Byte → Option (List (List Byte × List Byte))
  | 0, _ => none
  | fuel + 1, l =>
    if l.isEmpty then some []
    else
      let n := size (l.take h)
      if l.length < h + n then none
      else (headed h size fuel (l.drop (h + n))).map (fun r => (l.take h, slice l h n) :: r)
/-- The size that an ALM or DATA head gives. -/
def sizeAt8 (h : List Byte) : Nat := recNat h 8 8
/-- The size that a CODE head gives. -/
def codeSize (h : List Byte) : Nat := 128 * recNat h 8 4
/-- Records with heads of 16 bytes of a body. -/
def headedOf (size : List Byte → Nat) (l : List Byte) : Option (List (List Byte × List Byte)) := headed 16 size (l.length + 1) l
/-- Sealed items of a body: their heads of 32 bytes, and their ciphertext with its tag (R343). -/
def sealedOf (l : List Byte) : Option (List (List Byte × List Byte)) := headed 32 (fun h => recNat h 24 8 + 16) (l.length + 1) l

/-! ### Kernels and buffers (R337) -/

/-- A buffer record. -/
structure BufRec where
  kernel : Nat
  buf : Nat
  sym : Nat
  off : Nat
  size : Nat
  proc : Nat
  deriving DecidableEq, Repr
/-- A kernel record. -/
structure KernelRec where
  group : Nat
  fixed : Bool
  nbuf : Nat
  spill : Nat
  deriving DecidableEq, Repr

def kernelRec (l : List Byte) : KernelRec :=
  { group := recNat l 4 2, fixed := decide (recNat l 6 1 % 2 = 1), nbuf := recNat l 8 4, spill := recNat l 12 4 }
def bufRec (l : List Byte) : BufRec :=
  { kernel := recNat l 0 2, buf := recNat l 2 1, sym := recNat l 4 4, off := recNat l 8 4, size := recNat l 12 4, proc := recNat l 24 4 }
/-- Kernels stand first, then the buffers of each in the kernels' order, and what is to be zero is (R337): COUNT is the number of both together; a
sealed section has no COUNT, and there the number of kernels is the least that its size fits (log 46). -/
def planOf (count : Option Nat) (l : List Byte) : Option (List KernelRec × List BufRec) :=
  let kernels (k : Nat) : List (List Byte) := records 16 (l.take (16 * k))
  let bufs (k : Nat) : List (List Byte) := records 32 (l.drop (16 * k))
  ((List.range (l.length / 16 + 1)).find? (fun k =>
    let ks := (kernels k).map kernelRec
    let b := ks.foldl (fun a x => a + x.nbuf) 0
    decide (16 * k + 32 * b = l.length) && count.all (fun n => decide (k + b = n)) &&
    (kernels k).all (fun r => decide (recNat r 7 1 = 0)) && (bufs k).all (fun r => decide (recNat r 3 1 = 0 ∧ recNat r 28 4 = 0)) &&
    decide ((bufs k).map (fun r => recNat r 0 2) = ks.zipIdx.flatMap (fun x => List.replicate x.1.nbuf x.2)))).map (fun k =>
      ((kernels k).map kernelRec, (bufs k).map bufRec))

/-- The body of a section of a type holds whole records, COUNT of them where a COUNT is given (R333, R335 to R343): names each with its zero byte;
MPRG and SIG are one record each (log 46). -/
def countOk (ty : Nat) (count : Option Nat) (body : List Byte) : Bool :=
  let is (n : Nat) : Bool := count.all (fun c => decide (c = n))
  let each (n : Nat) : Bool := decide (body.length % n = 0) && is (body.length / n)
  let heads (l : Option (List (List Byte × List Byte))) : Bool := l.any (fun r => is r.length)
  if ty = 0x01 then heads (headedOf codeSize body)
  else if ty = 0x02 then each 16
  else if ty = 0x03 then (planOf count body).isSome
  else if ty = 0x05 ∨ ty = 0x07 then heads (headedOf sizeAt8 body)
  else if ty = 0x08 then decide (body.getLast?.getD 0 = 0) && is (body.filter (fun b => decide (b = 0))).length
  else if ty = 0x04 ∨ ty = 0x09 then each 24
  else if ty = 0x0A then each 32
  else if ty = 0x0B then heads (sealedOf body)
  else is 1
/-- The sections of a file; none where the header or the table breaks R333 or R334. -/
def sectionsOf (f : List Byte) : Option (List Section) :=
  let n := recNat f 8 4
  let tab := recNat f 16 8
  if !(decide (64 ≤ f.length ∧ recNat f 0 4 = 0x064F464D ∧ recNat f 4 2 = 1 ∧ recNat f 6 2 < 4 ∧ 1 ≤ n ∧ n ≤ 16 ∧ recNat f 12 4 = 0 ∧
      tab % 64 = 0 ∧ tab + 32 * n ≤ f.length ∧ recNat f 24 40 = 0)) then none
  else
    let raw := (List.range n).map (fun i =>
      let e := slice f (tab + 32 * i) 32
      (recNat e 0 4, recNat e 4 4, recNat e 8 8, recNat e 16 8, recNat e 24 8))
    let ok := raw.all (fun e =>
      decide (1 ≤ e.1 ∧ e.1 ≤ 0x0C ∧ e.2.2.1 % 64 = 0 ∧ e.2.2.1 + e.2.2.2.1 ≤ f.length ∧ e.2.2.2.2 = 0) &&
      raw.all (fun d => decide (d = e) || (decide (d.1 ≠ e.1) && !overlap (d.2.2.1, d.2.2.2.1) (e.2.2.1, e.2.2.2.1)))) &&
      decide ((raw.map (fun e => e.1)).Nodup) &&
      raw.any (fun e => decide (e.1 = 0x0C) && raw.all (fun d => decide (d.2.2.1 ≤ e.2.2.1)))
    let secs := raw.map (fun e => ({ ty := e.1, count := e.2.1, off := e.2.2.1, body := slice f e.2.2.1 e.2.2.2.1 } : Section))
    if ok && secs.all (fun x => countOk x.ty (some x.count) x.body) then some secs else none

/-! ### Sealed items (R343) -/

/-- A sealed item opened: its kind and plaintext. -/
structure Opened where
  kind : Nat
  page : Nat
  plain : List Byte
  deriving DecidableEq, Repr

/-- The items of a SEALED section, opened with the load key; none where a tag fails. -/
def openSealed (key : BitVec 256) (l : List Byte) : Option (List Opened) :=
  ((sealedOf l).getD []).foldr (fun r a =>
    let n := recNat r.1 24 8
    match gcmOpen key (BitVec.ofNat 96 (recNat r.1 4 12)) r.1 (r.2.take n) (BitVec.ofNat 128 (recNat r.2 n 16)), a with
    | some p, some l => some ({ kind := recNat r.1 0 4, page := recNat r.1 16 8, plain := p } :: l)
    | _, _ => none) (some [])
/-- Sealed items are as R343 says: a code page is one CODE record of the page that its head names; another stands for a section of a type of its own
that is not in the file, names no page, and holds whole records. -/
def sealedOk (secs : List Section) (items : List Opened) : Bool :=
  items.all (fun o =>
    if o.kind = 1 then (headedOf codeSize o.plain).any (fun l => decide (l.map (fun r => recNat r.1 0 8) = [o.page]))
    else
      decide (2 ≤ o.kind ∧ o.kind ≤ 0x0A ∧ o.page = 0) && !secs.any (fun x => decide (x.ty = o.kind)) && countOk o.kind none o.plain) &&
  decide (((items.filter (fun o => decide (o.kind ≠ 1))).map Opened.kind).Nodup)

/-! ### Bank shifts (R346, R348) -/

/-- Banks of a buffer (R160). -/
def bufBanks (buf : Nat) : Nat :=
  if buf = 0 then 192 else if buf = 1 then 128 else if buf = 2 then 64 else if buf = 3 then 64 else if buf = 4 then 48
  else if buf = 6 then 8 else 0
/-- A kernel's extent in a buffer. -/
def extent (bufs : List BufRec) (k buf : Nat) : Nat :=
  ((bufs.filter (fun b => decide (b.kernel = k ∧ b.buf = buf))).foldl (fun a b => Max.max a (b.off + b.size)) 0 + 4095) / 4096
/-- The units in PLAN order, a kernel of group 0 or all the kernels of one group, and whether a kernel of the unit is FIXED: the unit then keeps
shift 0, which all its kernels take. -/
def units (ks : List KernelRec) : List (List Nat × Bool) :=
  let l := ks.zipIdx.map (fun e => (e.1.group, e.2))
  (l.filterMap (fun e =>
    if e.1 = 0 then some [e.2]
    else if (l.take e.2).any (fun y => decide (y.1 = e.1)) then none
    else some ((l.filter (fun y => decide (y.1 = e.1))).map Prod.snd))).map (fun u => (u, u.any (fun k => ks[k]?.any KernelRec.fixed)))
/-- The shifts in one buffer: kernel and bank; none where they do not fit, or where two FIXED kernels, or two units that keep shift 0, would share
banks. -/
def shiftsIn (ks : List KernelRec) (bufs : List BufRec) (buf : Nat) : Option (List (Nat × Nat)) :=
  let ext (u : List Nat) : Nat := u.foldl (fun m k => Max.max m (extent bufs k buf)) 0
  let fixed := ((units ks).filter Prod.snd).map Prod.fst
  let start := fixed.foldl (fun a u => Max.max a (ext u)) 0
  if 1 < (ks.zipIdx.filter (fun e => e.1.fixed && decide (0 < extent bufs e.2 buf))).length ∨
      1 < (fixed.filter (fun u => decide (0 < ext u))).length ∨ bufBanks buf < start then none
  else
    (((units ks).filter (fun u => !u.2)).foldl (fun (a : Option (Nat × List (Nat × Nat))) u =>
      a.bind (fun x =>
        let n := ext u.1
        if n = 0 then some (x.1, x.2 ++ u.1.map (fun k => (k, x.1)))
        else if bufBanks buf < x.1 + n then none
        else some (x.1 + n, x.2 ++ u.1.map (fun k => (k, x.1)))))
      (some (start, fixed.flatMap (fun u => u.map (fun k => (k, 0)))))).map Prod.snd
/-- The shifts of all buffers: buffer, kernel, bank; none for PLANFULL. -/
def shiftsOf (ks : List KernelRec) (bufs : List BufRec) : Option (List (Nat × Nat × Nat)) :=
  if ks.any (fun k => decide (8192 < k.spill)) then none
  else
    [0, 1, 2, 3, 4, 6].foldl (fun (a : Option (List (Nat × Nat × Nat))) b =>
      match a, shiftsIn ks bufs b with
      | some l, some m => some (l ++ m.map (fun e => (b, e.1, e.2)))
      | _, _ => none) (some [])

/-! ### Relocations (R342) -/

/-- A word of 8 bytes with a field replaced. -/
def patchWord (l : List Byte) (off pos width v : Nat) : List Byte :=
  let w := recNat l off 8
  let old := w / 2 ^ pos % 2 ^ width
  l.take off ++ leBytes 8 (w - old * 2 ^ pos + v * 2 ^ pos) ++ l.drop (off + 8)
/-- One SPOFF relocation, of the section that it names; none where it is out of range, or names no section (log 46). -/
def relocate (syms : List Byte) (bufs : List BufRec) (shifts : List (Nat × Nat × Nat)) (secs : List Section) (r : List Byte) :
    Option (List Section) :=
  if recNat r 2 1 ≠ 4 then some secs
  else
    let sym := recNat r 12 4
    let rec_ := slice syms (24 * sym) 24
    let kernel := recNat rec_ 16 8
    let buf := ((bufs.find? (fun b => decide (b.sym = sym ∧ b.kernel = kernel))).map BufRec.buf).getD 5
    let bank := ((shifts.find? (fun s => decide (s.1 = buf ∧ s.2.1 = kernel))).map (fun s => s.2.2)).getD 0
    let v : Int := recNat rec_ 8 8 + 4096 * bank + (BitVec.ofNat 64 (recNat r 24 8)).toInt
    let pos := recNat r 3 1
    let width := recNat r 16 1
    let sh := recNat r 17 1
    let off := recNat r 4 8
    (secs[recNat r 0 2]?).bind (fun x =>
      if v < 0 ∨ v.toNat % 2 ^ sh ≠ 0 ∨ 2 ^ width ≤ v.toNat / 2 ^ sh ∨ 64 < pos + width ∨ x.body.length < off + 8 then none
      else some (secs.set (recNat r 0 2) { x with body := patchWord x.body off pos width (v.toNat / 2 ^ sh) }))

/-! ### Code pages (R74, R300 to R302, R335, R336) -/

/-- The syllables of an image. -/
def syllablesOf (l : List Byte) : List Syllable := (List.range (l.length / 4)).map (fun i => BitVec.ofNat 32 (recNat l (4 * i) 4))
/-- A CODE record as a page. -/
def codePage (sealed : Bool) (r : List Byte × List Byte) : LoadPage :=
  { page := recNat r.1 0 8, sealed := sealed, proc := recNat r.1 12 4, image := r.2 }
/-- The landings of a page as its LAND records give them: the token's bits 23:0, flags, offset. -/
def landings (land : List Byte) (page : Nat) : List (Nat × Nat × Nat) :=
  ((records 16 land).filter (fun r => decide (recNat r 0 8 / 0x1000000 = page))).map (fun r =>
    (recNat r 0 8 % 0x1000000, recNat r 8 2, recNat r 10 2))
/-- The used landing table entries of a version, in the same form. -/
def usedLandings (syl : List Syllable) : List (Nat × Nat × Nat) :=
  ((List.range 24).map (fun i => (0x10000 * i, (syl.getD (8 + i) 0).toNat / 0x10000 % 8, (syl.getD (8 + i) 0).toNat % 0x10000))).filter
    (fun e => decide (e.2.1 ≠ 0))
/-- A page passes R300 to R302 and fits its LAND records. -/
def pageOk (land : List Byte) (p : LoadPage) : Bool :=
  let syl := syllablesOf p.image
  let used := usedLandings syl
  let told := landings land p.page
  decide (p.page < 2 ^ 40) && headerOk (fun i => syl.getD i 0) && decide (p.image.length = 128 * ((syl.getD 2 0).toNat % 256)) &&
  decide (syl.getD 3 0 = 0 ∧ syl.getD 4 0 = 0 ∧ syl.getD 5 0 = 0) && used.all told.contains && told.all used.contains &&
  decide (told.length = used.length)

/-! ### Footprints (R338) -/

/-- FOOT records are as R338 says, of K kernels. -/
def footOk (k : Nat) (foot : List Byte) : Bool :=
  (records 24 foot).all (fun r => decide (recNat r 0 4 < k ∧ recNat r 4 1 ≤ 1 ∧ recNat r 5 1 ≤ 7 ∧ recNat r 6 2 = 0))
/-- The kernels that a page's procedure belongs to, by the buffers that name the procedure; where none does, the kernels without buffers
(log 19). -/
def kernelsOf (ks : List KernelRec) (bufs : List BufRec) (pages : List LoadPage) (page : Nat) : List Nat :=
  (pages.filter (fun p => decide (p.page = page))).flatMap (fun p =>
    match (bufs.filter (fun b => decide (b.proc = p.proc))).map BufRec.kernel with
    | [] => (ks.zipIdx.filter (fun e => decide (e.1.nbuf = 0))).map Prod.snd
    | l => l)
/-- Bytes replaced at an offset. -/
def patch (l : List Byte) (off : Nat) (b : List Byte) : List Byte := l.take off ++ b ++ l.drop (off + b.length)
/-- The regions of a kernel written into a record: places of the read and write regions and of their counts. -/
def writeRegions (foot : List Byte) (kernels : List Nat) (rd wr nrd nwr : Nat) (img : List Byte) : List Byte :=
  ((records 24 foot).filter (fun r => kernels.contains (recNat r 0 4))).foldl (fun l r =>
    let w := recNat r 4 1
    let n := recNat r 5 1
    let l := patch l ((if w = 0 then rd else wr) + 16 * n) (slice r 8 16)
    let c := if w = 0 then nrd else nwr
    patch l c (leBytes 1 (Max.max (recNat l c 1) (n + 1)))) img

/-! ### Steps of a load (R345) -/

/-- A failed load (R74): what it touched is zeroised, the keys are erased, the world is EMPTY, and the manager is told. -/
def State.failLoad (s : State) (w code : Nat) : State := (s.eraseWorld w).tell (.loadfail w code)
/-- Extend(WMR, d). -/
def State.extendWmr (s : State) (w : Nat) (d : BitVec 384) : State :=
  s.updWorld w (fun x => { x with wmr := sha384 (digestBytes x.wmr ++ digestBytes d) })
/-- The signature block is valid for the bytes before it (R344): the signer's key, if so. Its numbers r and s stand with their lowest byte
first (R7). -/
def sigOk (f : List Byte) (g : Section) : Option (List Byte) :=
  let key := g.body.take 97
  let sig := (slice g.body 100 48).reverse ++ (slice g.body 148 48).reverse
  if 196 ≤ g.body.length ∧ recNat g.body 97 3 = 0 ∧ (g.body.drop 196).all (fun b => decide (b = 0)) ∧
      ecdsaVerify key (sha384 (f.take g.off)) sig = true then some key
  else none
/-- The routine table of MPRG and its words; none for MPRGBAD (R340, R345). -/
def mprgOf (l : List Byte) : Option (List (Nat × BitVec 16) × List (Nat × Word)) :=
  let w := recNat l 128 4
  let tab := (List.range 64).map (fun i => (i, BitVec.ofNat 16 (recNat l (2 * i) 2)))
  if l.length = 136 + 8 * w ∧ 1 ≤ w ∧ w ≤ 1024 ∧ recNat l 132 4 = 0 ∧
      tab.all (fun e => decide (fld e.2 10 5 = 0#5 ∧ (fld e.2 0 10).toNat < w)) = true then
    some (tab, (List.range w).map (fun i => (i, BitVec.ofNat 64 (recNat l (136 + 8 * i) 8))))
  else none
/-- Bytes written through a world's translation; none for XLATE. -/
def State.loadBytes (s : State) (w : Nat) (va : Nat) (l : List Byte) : Option State :=
  (s.translateAll w .wr ((List.range l.length).map (fun i => va + i))).map (fun pas => s.landAs w (pas.zip l))
/-- Records written to world memory, up to the first whose addresses do not translate; whether none did. -/
def State.loadRecords (s : State) (w : Nat) (l : List (Nat × List Byte)) : State × Bool :=
  l.foldl (fun a r => if a.2 then (match a.1.loadBytes w r.1 r.2 with | some s => (s, true) | none => (a.1, false)) else a) (s, true)
/-- Pages placed in one core where they fit, the sealed ones first (R347); none where a sealed page does not. -/
def Core.placePages (x : Core) (pages : List LoadPage) : Option Core :=
  (pages.filter LoadPage.sealed ++ pages.filter (fun p => !p.sealed)).foldl (fun a p => a.bind (fun x =>
    let syl := syllablesOf p.image
    if x.freeFrames.length < 1 + versionNcont syl then (if p.sealed then none else some x)
    else some (x.place p.page p.sealed syl))) (some x)
/-- Fenced cores leave the grant (R349). -/
def State.dropFenced (s : State) (w : Nat) : State :=
  ((s.grantOf w).filter (fun c => (s.core c).fenced)).foldl (fun s c => s.updCore c (fun x => { x with granted := false, world := 0 })) s
/-- Step 8 (R345): the microprograms are written into every granted core, and the images and the data into memory. -/
def State.loadStore (s : State) (w : Nat) (l : Loading) : State :=
  match (match l.mprg with | none => some ([], []) | some b => mprgOf b) with
  | none => s.failLoad w 0x09
  | some (tab, words) =>
    let cores := s.grantOf w
    let s := cores.foldl (fun s c => s.updCore c (fun x =>
      { x with engine := { x.engine with
          table := tab.foldl (fun m e => SMap.put 0 m e.1 e.2) x.engine.table
          store := words.foldl (fun m e => SMap.put 0 m e.1 e.2) x.engine.store } })) s
    let r := s.loadRecords w l.recs
    if !r.2 then r.1.failLoad w 0x08
    else if cores.isEmpty && l.pages.any LoadPage.sealed then r.1.failLoad w 0x0A
    else r.1.updWorld w (fun x => { x with step := 8, load := some { l with cores := some cores } })
/-- THE NEXT STEP OF A LOAD in progress (R345, R347, R349): step 8, then the placement in one core after the other, and the world is READY. A core
that has been fenced leaves the grant, or fails the load where it holds a sealed page. -/
def State.loadNext (s : State) (w : Nat) : State :=
  match (s.world w).load with
  | none => s
  | some l =>
    if (s.grantOf w).any (fun c => (s.core c).fenced && (s.core c).dir.any (fun e => e.2.sealed)) then s.failLoad w 0x0A
    else
      let s := s.dropFenced w
      match l.cores with
      | none => s.loadStore w l
      | some [] => s.updWorld w (fun x => { x with st := .ready, step := 9, load := none })
      | some (c :: r) =>
        let go (s : State) : State := s.updWorld w (fun x => { x with load := some { l with cores := some r } })
        if !(s.grantOf w).contains c then go s
        else
          match (s.core c).placePages l.pages with
          | none => s.failLoad w 0x0A
          | some x => go (s.updCore c (fun _ => x))
/-- A load in progress may go on: placement in a core waits for the end of a freeze (R349). -/
def State.loadReady (s : State) (w : Nat) : Bool :=
  match (s.world w).load with
  | none => false
  | some l =>
    match l.cores with
    | some (c :: _) => !s.coreStands c && decide ((s.core c).stands ≤ s.now)
    | _ => true

/-- Step 6 (R345, R74): the pages in ascending number are checked, measured and entered in the table; or the failure's code. -/
def State.loadPages (s : State) (w : Nat) (land : List Byte) (pages : List LoadPage) : Except Nat State :=
  pages.foldl (fun a p =>
    match a with
    | .error e => .error e
    | .ok s =>
      let syl := syllablesOf p.image
      if p.sealed && (s.grantOf w).any (fun c => decide (versionTag syl ≠ s.tag c)) then .error 0x05
      else if !pageOk land p then .error 0x04
      else
        .ok ((s.extendWmr w (sha384 p.image)).cptAdd w p.page syl true p.sealed)) (.ok s)
/-- Pages in ascending number; none where two have one number. -/
def sortPages (l : List LoadPage) : Option (List LoadPage) :=
  let r := l.mergeSort (fun a b => decide (a.page ≤ b.page))
  if decide ((l.map LoadPage.page).Nodup) then some r else none

/-- Steps 4 to 7 for the opened items: what is left for steps 8 and 9 stands in the world's entry. -/
def State.loadOpened (s : State) (w : Nat) (secs : List Section) (items : List Opened) : State :=
  -- a sealed section stands for a plain one of its type
  let more : List Section := (items.filter (fun o => decide (o.kind ≠ 1))).map (fun o => { ty := o.kind, count := 0, off := 0, body := o.plain })
  let foot := bodyOf (secs ++ more) 4
  match planOf ((secs.find? (fun x => decide (x.ty = 3))).map Section.count) (bodyOf (secs ++ more) 3) with
  | none => s.failLoad w 0x01
  | some (ks, bufs) =>
    if !footOk ks.length foot then s.failLoad w 0x01
    else
    match shiftsOf ks bufs with
    | none => s.failLoad w 0x06
    | some shifts =>
      match (records 32 (bodyOf (secs ++ more) 0x0A)).foldl (fun a r =>
          a.bind (fun c => relocate (bodyOf (secs ++ more) 9) bufs shifts c r)) (some secs) with
      | none => s.failLoad w 0x07
      | some secs =>
        let bodies := secs ++ more
        let has (ty : Nat) : Bool := bodies.any (fun x => decide (x.ty = ty))
        let sealedPages := (items.filter (fun o => decide (o.kind = 1))).map (fun o => headedOf codeSize o.plain)
        match headedOf codeSize (bodyOf secs 1), headedOf sizeAt8 (bodyOf bodies 5), headedOf sizeAt8 (bodyOf bodies 7),
            sealedPages.foldr (fun a r => match a, r with | some x, some y => some (x ++ y) | _, _ => none) (some []) with
        | some opens, some alms, some datas, some seals =>
          match sortPages (opens.map (codePage false) ++ seals.map (codePage true)) with
          | none => s.failLoad w 0x04
          | some pages =>
            match s.loadPages w (bodyOf bodies 2) pages with
            | .error e => s.failLoad w e
            | .ok s =>
              let alms := alms.map (fun r =>
                (r.1, writeRegions foot (kernelsOf ks bufs pages (recNat r.2 320 8 / 0x1000000)) 64 192 10 11 r.2))
              let alm := alms.flatMap (fun r => r.1 ++ r.2)
              let s := [(3, bodyOf bodies 3), (4, foot), (5, alm), (6, bodyOf bodies 6), (7, bodyOf bodies 7)].foldl
                (fun s e => if has e.1 then s.extendWmr w (sha384 e.2) else s) s
              let datas := datas.map (fun r =>
                if r.2.length = 384 then
                  (r.1, writeRegions foot (kernelsOf ks bufs pages (recNat r.2 0 8 / 0x1000000)) 128 256 18 19 r.2)
                else r)
              s.updWorld w (fun x => { x with
                step := 7
                load := some { mprg := if has 6 then some (bodyOf bodies 6) else none
                               recs := (alms ++ datas).map (fun r => (recNat r.1 0 8, r.2)), pages := pages } })
        | _, _, _, _ => s.failLoad w 0x01

/-- A file that says it is linked holds a relocation that only the linker resolves (R342). -/
def unlinked (file rel : List Byte) : Bool := decide (recNat file 6 2 / 2 = 1) && (records 32 rel).any (fun r => decide (recNat r 2 1 ≠ 4))
/-- `MEASURED_LOAD` (R345, R74): the load of a LOADING world's program goes through steps 1 to 7. -/
def execMeasuredLoad (world : Nat) (file : List Byte) (s : State) : Out :=
  if (s.world world).st ≠ .loading ∨ (s.world world).load.isSome then .next s
  else
    match sectionsOf file with
    | none => .next (s.failLoad world 0x01)
    | some secs =>
      if unlinked file (bodyOf secs 0x0A) then .next (s.failLoad world 0x01)
      else
        match (secs.find? (fun x => decide (x.ty = 0x0C))).bind (sigOk file) with
        | none => .next (s.failLoad world 0x02)
        | some key =>
          let s := s.extendWmr world (sha384 key)
          if decide (recNat file 6 2 % 2 = 1) ≠ (s.world world).confidential then .next (s.failLoad world 0x03)
          else
            match (match bodyOf secs 0x0B, (s.world world).loadkey with
                | [], _ => some []
                | _, none => none
                | l, some k => openSealed k l) with
            | none => .next (s.failLoad world 0x05)
            | some items =>
              if !sealedOk secs items || (items.filter (fun o => decide (o.kind = 0x0A))).any (fun o => unlinked file o.plain) then
                .next (s.failLoad world 0x01)
              else .next (s.loadOpened world secs items)

end Sys2Proof.Machine
end

