-- ==== Sys2Proof/Machine/Ckpt.lean ====
section
/-! DEFINITION. Checkpoints (04 R107 to R109, 13 R294) and their restore (03 R75). -/

namespace Sys2Proof.Machine

/-- Changing the checkpoint in progress. -/
def State.updCkpt (s : State) (f : Checkpoint → Checkpoint) : State := s.updHub (fun h => { h with ckpt := h.ckpt.map f })
/-- A change of roles or a re-key holds a checkpoint back (R109). -/
def State.ckptHeld (s : State) : Bool := s.hub.role.isSome || decide (s.hub.domain.phase ≠ .idle)
/-- A checkpoint that was held back begins: the hold, then the barrier (R108 steps 1 and 2). -/
def State.ckptBegin (s : State) : State :=
  if s.ckptHeld then s else s.updCkpt (fun q => if q.step = 0 then { q with step := 2, began := s.gtick.toNat } else q)
/-- `CHECKPOINT` (R107 to R109): a second one is BUSY. -/
def execCheckpoint (id : Nat) (s : State) : Out :=
  match s.starting id 0x08 with
  | none => .next s
  | some p =>
    if s.hub.ckpt.isSome then .next (s.endPacket id 0x01)
    else
      .next ((s.updPacket id (fun p => { p with acted := true })).updHub (fun h =>
        { h with ckpt := some { packet := id, budget := pkField p.bits 26 2, began := s.gtick.toNat, step := 0,
                                incx := decide (pkField p.bits 25 1 = 1), pmask := pkField p.bits 24 1, peer := pkField p.bits 32 6,
                                sbase := BitVec.ofNat 64 (pkField p.bits 40 8) } })).ckptBegin
/-- A checkpoint ends: what it stopped resumes, what it held is taken up, and the packet completes. -/
def State.ckptEnd (s : State) (q : Checkpoint) (status : Nat) : State :=
  (((s.updHub (fun h => { h with ckpt := none })).resumeStopped q.stopped).endPacket q.packet status).dispatchAll

/-! ### The barrier (R108 step 2) -/

/-- A context is quiet: at rest, with no fence, held event or copy of its own. -/
def Ctx.quiet (x : Ctx) : Bool :=
  (match x.st with | .idle | .trapped | .preempted | .saved => true | _ => false) && x.fences.isEmpty && x.heldev.isEmpty &&
  x.copies.isEmpty && !x.saving && !x.restoring
/-- An access of a core, or of a packet. -/
def Access.ofWork (a : Access) : Bool := decide (a.core < 512) || (match a.owed with | .packet _ => true | _ => false)
/-- Every context has stopped, almanacs have ended, and nothing untimed of a core or a packet, no COPY, no landing and no engine work is
left. -/
def State.ckptQuiet (s : State) : Bool :=
  s.cores.all (fun e => e.2.ctxs.all (fun k => k.2.quiet) && s.engineIdle e.1) &&
  !s.fronds.any (fun e => e.2.bound && !e.2.ended && e.2.abort.isNone && decide (e.2.kind = .almanac)) &&
  !s.packets.any (fun p => decide (p.st = .running ∧ pkOpc p.bits = 0x06)) &&
  !s.posted.any Access.ofWork && s.calendar.isEmpty
/-- The barrier tick has come. -/
def State.barrierDue (s : State) : Bool :=
  s.hub.ckpt.any (fun q => decide (q.step = 2)) && decide (s.now % frameCycles = 0) && s.ckptQuiet
/-- Contexts to be saved, with their states (R294); of a fenced core none (R136). -/
def State.toSave (s : State) : List (Nat × Nat × CtxState) :=
  (s.cores.filter (fun e => !e.2.fenced)).flatMap (fun e => (e.2.ctxs.filter (fun k => decide (k.2.st = .trapped ∨ k.2.st = .preempted))).map
    (fun k => (e.1, k.1, k.2.st)))
/-- `CHECKPOINT_BARRIER` (R108): at the barrier tick the save begins. -/
def execCheckpointBarrier (s : State) : Out :=
  .next (if s.barrierDue then s.updCkpt (fun q => { q with step := 3, kept := s.toSave }) else s)
/-- `CHECKPOINT_BUDGET_EXPIRY` (R108): all activity resumes, and the packet completes with DRAINTIME. -/
def execCheckpointBudgetExpiry (s : State) : Out :=
  match s.hub.ckpt with
  | none => .next s
  | some q => .next (if q.step = 2 ∧ q.began + q.budget ≤ s.gtick.toNat then s.ckptEnd q 0x07 else s)

/-! ### The save block (R292, R294) -/

/-- Element x of a staging buffer in the block, by the model's key: A by line, B by K-element. -/
def panelKey (b : Bool) (x : Nat) : Nat := if b then 32 * (x % 64) + x / 64 else x
/-- A staging buffer's bytes. -/
def panelCells (base : Nat) (b : Bool) (p : Panel) : List Host.Cell :=
  (List.range 2048).flatMap (fun x =>
    cellsAt (base + 2 * x) 2 (SMap.get 0 p.codes (panelKey b x)) ++ cellsAt (base + 0x1000 + x) 1 (SMap.get 0x7F p.scales (panelKey b x))) ++
  cellsAt (base + 0x1800) 1 (p.fmt.code).toNat
/-- The rest of a core's save block: engine, decompressor cursor and inbound directory, of which an entry is its region's offset, and 0x3FFFF where
it is empty (log 74). -/
def Core.blockCells (x : Core) (base : Nat) : List Host.Cell :=
  let e := x.engine
  e.ac0.flatMap (fun a => cellsAt (base + 0x300000 + 4 * a.1) 4 a.2.toNat) ++
  e.ac1.flatMap (fun a => cellsAt (base + 0x304000 + 4 * a.1) 4 a.2.toNat) ++
  panelCells (base + 0x308000) false e.as0 ++ panelCells (base + 0x30A000) false e.as1 ++
  panelCells (base + 0x30C000) true e.bs0 ++ panelCells (base + 0x30E000) true e.bs1 ++
  e.store.flatMap (fun a => cellsAt (base + 0x310000 + 8 * a.1) 8 a.2.toNat) ++
  e.table.flatMap (fun a => cellsAt (base + 0x312000 + 2 * a.1) 2 a.2.toNat) ++
  cellsAt (base + 0x312080) 8 e.cursor ++
  (List.range 4).flatMap (fun i => cellsAt (base + 0x312088 + 8 * i) 8 (SMap.get 0x3FFFF x.inbound i))
/-- Base of a core's save block. -/
def State.blockBase (s : State) (c : Nat) : Nat := saveArea (s.core c).savebase 0
/-- A core's block but for its context areas: the scratchpad and the rest, which nobody reads of a fenced core (R136); the areas of IDLE
contexts are zero. -/
def State.saveBlock (s : State) (c : Nat) : State :=
  let base := s.blockBase c
  let spad := (s.mem.filter (fun b => decide (spadBase c ≤ b.1 ∧ b.1 < spadBase c + 0x200000))).map
    (fun b => (base + 0x100000 + (b.1 - spadBase c), b.2))
  let rest := (s.core c).blockCells base
  let idle := (List.range 4).filter (fun k => decide ((s.ctx c k).st = .idle))
  let s := idle.foldl (fun s k => s.writeRange (s.core c).world (saveArea (s.core c).savebase k) 0x10000 []) s
  s.writeRange (s.core c).world (base + 0x100000) 0x300000 (if (s.core c).fenced then [] else spad ++ rest)
/-- The contexts that step 3 still has to save: those that are as the barrier found them, on cores that are not fenced. -/
def State.keptLive (s : State) (q : Checkpoint) : List (Nat × Nat × CtxState) :=
  q.kept.filter (fun e => decide ((s.ctx e.1 e.2.1).st = e.2.2) && !(s.core e.1).fenced)
/-- They have drained (R291): each pending write holds its value. -/
def State.ckptDrained (s : State) : Bool :=
  s.hub.ckpt.any (fun q => decide (q.step = 3) && (s.keptLive q).all (fun e => s.drained e.1 e.2.1))
/-- `CHECKPOINT_SAVE_DONE` (R108 step 3, R291, R294): contexts and blocks are written, and streaming begins. -/
def execCheckpointSaveDone (s : State) : Out :=
  match s.hub.ckpt with
  | none => .next s
  | some q =>
    if !s.ckptDrained then .next s
    else
      let live := s.keptLive q
      let s := live.foldl (fun s e => s.saveCtx e.1 e.2.1) s
      let s := ((s.cores.filter (fun e => e.2.granted)).map Prod.fst).foldl State.saveBlock s
      .next (s.updCkpt (fun q => { q with step := 4, kept := live }))
/-! ### The stream and the blob (R108 steps 4 and 5, R109) -/

/-- The ranges that are sent, in ascending order: base and bytes. The save blocks lie in the near tier (R291). -/
def State.streamRanges (s : State) (incx : Bool) : List (Nat × Nat) :=
  (List.range 4).map (fun k => (0x3000000000 * k, nearBytes)) ++ layerDies.map (fun d => (layerBase d, s.poolBytes d)) ++
  (List.range 2).map (fun f => (0x10000000000 * (1 + f), s.hub.lpddr)) ++
  (if incx then
    (List.range 2).flatMap (fun f =>
      let base := 0x40000000000 * (1 + f)
      let n (p : Nat) : Nat := s.cxlBytes (2 * f + p)
      if s.cxlInterleaved f then [(base, 2 * Min.min (n 0) (n 1))] else [(base, n 0), (base + 2 ^ 41, n 1)])
  else [])
/-- A line holds a word that fails its check (R138). -/
def State.badLine (s : State) (n : Nat) : Bool := s.faulty.any (fun a => decide (lineOf a = n))
/-- Words of some ranges that fail their check, logged as reads that H has made for a world (R139). -/
def State.logBad (s : State) (w : Nat) (ranges : List (Nat × Nat)) : State :=
  (s.faulty.filter (fun a => ranges.any (fun r => decide (r.1 ≤ a ∧ a < r.1 + r.2)))).foldl (fun s a =>
    s.logFault (addrDie a) (s.readFault a 512 w 0)) s
/-- The place of an address in the stream. -/
def streamPlace (pa : Nat) : List (Nat × Nat) → Option Nat
  | [] => none
  | (base, n) :: r => if base ≤ pa ∧ pa < base + n then some (pa - base) else (streamPlace pa r).map (n + ·)
/-- An address lies in the save block of one of the cores. -/
def State.inBlock (s : State) (l : List Nat) (pa : Nat) : Bool :=
  l.any (fun c => decide (s.blockBase c ≤ pa ∧ pa < s.blockBase c + 0x400000))
/-- The bytes that are not zero, as they leave: ciphertext under the key of the line's world, also of a line of zeros; world 0 has no key
(log 20). A line that no world owns, the blocks of aborted fronds, the range of a link that is down, and a line with a word that fails its check
(R138, log 75) are sent as zero. -/
def State.streamCells (s : State) (q : Checkpoint) : List Host.Cell :=
  ((SMap.keys s.owner).filter (fun n =>
      decide (SMap.get 0 s.owner n ≠ 0 ∧ SMap.get 0 s.owner n ≠ noWorld) && !s.inBlock q.zeroed (64 * n) &&
      !(s.cxlPort (64 * n)).any q.cxlOff.contains && !s.badLine n)).flatMap (fun n =>
    (lineCells n (lineSeen (s.world (SMap.get 0 s.owner n - 1)).key none n (s.lineBytes n))).filter (fun c => decide (c.2 ≠ 0)))
/-- Bytes of a message of the stream. -/
def streamMessage : Nat := 65536
/-- The messages of the stream that hold a byte other than zero: RUD puts to SBASE onward, round robin over the ports of PMASK. -/
def State.streamed (s : State) (q : Checkpoint) : List Reply :=
  let ranges := s.streamRanges q.incx
  let ports := (List.range 8).filter q.pmask.testBit
  let cells := (s.streamCells q).filterMap (fun c => (streamPlace c.1 ranges).map (fun p => (p, c.2)))
  ((cells.foldl (fun m c => SMap.set m (c.1 / streamMessage) ()) []).map Prod.fst).map (fun m =>
    .stream (ports.getD (m % ports.length) 0) q.peer (q.sbase + BitVec.ofNat 64 (streamMessage * m))
      ((cells.filter (fun c => decide (c.1 / streamMessage = m))).map (fun c => (c.1 % streamMessage, c.2))))

/-- World states as the blob codes them. -/
def WorldSt.code : WorldSt → Nat
  | .empty => 0 | .loading => 1 | .ready => 2 | .draining => 3
/-- An entry of the world table, with its key wrapped under SLK and its queue descriptors. -/
def State.blobWorld (s : State) (e : Nat × World) : BlobWorld :=
  { world := e.1, confidential := e.2.confidential, wrapped := (e.2.key.map (keyWrap s.hub.slk)).getD [], cred := e.2.cred, wmr := e.2.wmr,
    grant := s.grantOf e.1
    queues := (e.2.queues.filter (fun q => q.2.present)).map (fun q =>
      { number := q.1, base := q.2.base, log2n := q.2.log2n, head := q.2.head, tail := q.2.tail, error := q.2.error })
    pages := e.2.cpt.map (fun v => { page := v.page, tag := v.tag, addr := v.addr, len := v.len, loaded := v.loaded, sealed := v.sealed })
    st := e.2.st.code, step := e.2.step }
/-- The device-state blob. -/
def State.blob (s : State) (q : Checkpoint) : Blob :=
  { gtick := s.gtick, profile := s.hub.profile, partition := (List.range 4).map s.part
    worlds := (s.worlds.filter (fun e => decide (e.2.st ≠ .empty))).map s.blobWorld
    msl := (List.range 32).map (SMap.get 0 s.hub.msl), mem := [], cxlOff := q.cxlOff }
/-- The bytes that are signed (log 20). -/
def worldBytes (w : BlobWorld) : List Byte :=
  leBytes 1 w.world ++ leBytes 1 w.st ++ leBytes 1 w.step ++ leBytes 1 w.confidential.toNat ++ leBytes 16 w.cred.toNat ++ digestBytes w.wmr ++
  leBytes 64 (w.grant.foldl (fun a c => a + 2 ^ c) 0) ++ leBytes 2 w.wrapped.length ++ w.wrapped ++ leBytes 1 w.queues.length ++
  w.queues.flatMap (fun q => leBytes 1 q.number ++ leBytes 8 q.base.toNat ++ leBytes 1 q.log2n ++ leBytes 4 q.head.toNat ++
    leBytes 4 q.tail.toNat ++ leBytes 1 q.error.toNat)
def blobBytes (b : Blob) : List Byte :=
  leBytes 8 b.gtick.toNat ++ leBytes 1 b.profile ++ b.partition.flatMap (leBytes 1) ++
  leBytes 1 (b.cxlOff.foldl (fun a p => a + 2 ^ p) 0) ++ b.msl.flatMap digestBytes ++ leBytes 1 b.worlds.length ++
  b.worlds.flatMap worldBytes
/-- `CHECKPOINT_STREAM_DONE` (R108 steps 4 and 5, R109): the stream has been sent, then the signed blob, unless the sink cannot be
reached. -/
def execCheckpointStreamDone (sinkOk : Bool) (s : State) : Out :=
  match s.hub.ckpt with
  | none => .next s
  | some q =>
    if q.step ≠ 4 then .next s
    else
      let q := { q with step := 5, sinkOk := sinkOk, cxlOff := if q.incx then (List.range 4).filter (SMap.get false s.hub.offline) else [] }
      let s := s.updCkpt (fun _ => q)
      let b := s.blob q
      .next (if sinkOk then
          (((s.streamed q).foldl State.answer s).answer (.blob b (s.signed (blobBytes b)))).logBad 0 (s.streamRanges q.incx)
        else s)
/-- A saved context is restored (R293), into the state it had before the hold (R294). -/
def State.unsave (s : State) (e : Nat × Nat × CtxState) : State :=
  match (s.ctx e.1 e.2.1).st, (s.ctx e.1 e.2.1).savedAt with
  | .saved, some base => s.loadSaved e.1 e.2.1 base e.2.2
  | _, _ => s
/-- The status of a checkpoint (R108, R109). -/
def State.ckptStatus (s : State) (q : Checkpoint) : Nat :=
  if !q.sinkOk then 0x13 else if !q.cxlOff.isEmpty || (q.incx && s.hub.offline.any (fun e => e.2)) then 0x14 else 0
/-- `CHECKPOINT_BLOB_DONE` (R108 step 6). -/
def execCheckpointBlobDone (s : State) : Out :=
  match s.hub.ckpt with
  | none => .next s
  | some q => .next (if q.step ≠ 5 then s else (q.kept.foldl State.unsave s).ckptEnd q (s.ckptStatus q))

/-! ### Restore (R75, R293, R294, R318) -/

/-- A number of n bytes in memory. -/
def panelFrom (s : State) (base : Nat) (b : Bool) : Panel :=
  { codes := (List.range 2048).foldl (fun m x => SMap.put 0 m (panelKey b x) (s.load (base + 2 * x) 2)) []
    scales := (List.range 2048).foldl (fun m x => SMap.put 0x7F m (panelKey b x) (s.load (base + 0x1000 + x) 1)) []
    fmt := (MFmt.ofCode (BitVec.ofNat 3 (s.load (base + 0x1800) 1))).getD .t8 }
/-- The engine that a save block holds. -/
def engineFrom (s : State) (base : Nat) : Engine :=
  { as0 := panelFrom s (base + 0x308000) false, as1 := panelFrom s (base + 0x30A000) false,
    bs0 := panelFrom s (base + 0x30C000) true, bs1 := panelFrom s (base + 0x30E000) true,
    ac0 := (List.range 4096).foldl (fun m i => SMap.put 0 m i (BitVec.ofNat 32 (s.load (base + 0x300000 + 4 * i) 4))) [],
    ac1 := (List.range 4096).foldl (fun m i => SMap.put 0 m i (BitVec.ofNat 32 (s.load (base + 0x304000 + 4 * i) 4))) [],
    store := (List.range 1024).foldl (fun m i => SMap.put 0 m i (BitVec.ofNat 64 (s.load (base + 0x310000 + 8 * i) 8))) [],
    table := (List.range 64).foldl (fun m i => SMap.put 0 m i (BitVec.ofNat 16 (s.load (base + 0x312000 + 2 * i) 2))) [],
    cursor := s.load (base + 0x312080) 8 }
/-- The version that an area pins is placed where it is not resident (R293, R309, R318); a sealed page, of which the table holds no image, is
placed by the measured loader alone (R316). -/
def State.placePinned (s : State) (w c : Nat) (area : SMap Byte) : State :=
  let page := areaNat area 0 8 / 0x1000000
  let tag := BitVec.ofNat 32 (areaNat area 8 4)
  if areaNat area 0x0C 4 / 0x200 % 4 ≠ 0 then s
  else
    match (s.world w).cpt.find? (fun v => decide (v.page = page ∧ v.tag = tag)) with
    | none => s
    | some v =>
      let syl := s.image v
      s.updCore c (fun x =>
        if v.sealed || x.bases.any (fun b => decide ((x.entryAt b).page = page ∧ x.pageTag b = tag)) then x
        else if x.freeFrames.length < 1 + versionNcont syl then x
        else x.place page false syl)
/-- Memory in which what a word that fails its check holds is not delivered (R138). -/
def State.sound (s : State) : State :=
  if s.faulty.isEmpty then s else { s with mem := s.mem.filter (fun b => !s.faulty.contains (checkWord b.1)) }
/-- A core of a restored world takes what its save block holds: its contexts are PREEMPTED. What a word that fails its check holds is not
delivered: it reads zero, and of a context's area with such a word nothing is taken (R138, log 75). -/
def State.restoreCore (s : State) (w c : Nat) : State :=
  let base := s.blockBase c
  let good := s.sound
  let spad := (good.mem.filter (fun b => decide (base + 0x100000 ≤ b.1 ∧ b.1 < base + 0x300000))).map
    (fun b => (spadBase c + (b.1 - (base + 0x100000)), b.2))
  let s := ((s.zeroiseCore c).writeCells spad).logBad w [(base, 0x400000)]
  let eng := engineFrom good base
  let inb := (List.range 4).foldl (fun m i => SMap.put 0x3FFFF m i (good.load (base + 0x312088 + 8 * i) 8)) []
  let s := s.updCore c (fun x => { x with granted := true, world := w, windows := (s.world w).windows, engine := eng, inbound := inb })
  (List.range 4).foldl (fun s k =>
    let area := s.savedArea w (s.core c).savebase k
    if area.isEmpty || (s.badRead ((List.range 0x2000).map (fun i => saveArea (s.core c).savebase k + 8 * i))).isSome then s
    else ((s.placePinned w c area).ctxLoad c k area).updCtx c k (fun x => { x with st := .preempted })) s
/-- A world state of the blob. -/
def WorldSt.ofCode (n : Nat) : WorldSt := if n = 1 then .loading else if n = 3 then .draining else .ready
/-- A world of a blob whose key unwraps is there again, and its lines of the image are its own, decrypted under the key; another stays EMPTY
(R75). -/
def State.restoreWorld (s : State) (b : BlobWorld) : State :=
  match (if b.world = 0 ∨ (s.world b.world).st ≠ .empty then none else keyUnwrap s.hub.slk b.wrapped) with
  | none => s
  | some key =>
    let s := s.updWorld b.world (fun _ =>
      { st := .ofCode b.st, confidential := b.confidential, key := some key, wmr := b.wmr, cred := b.cred, step := b.step,
        queues := b.queues.foldl (fun m q => SMap.set m q.number
          { present := true, base := q.base, log2n := q.log2n, head := q.head, tail := q.tail, error := q.error }) [],
        cpt := b.pages.map (fun p => { page := p.page, tag := p.tag, addr := p.addr, len := p.len, loaded := p.loaded, sealed := p.sealed }),
        windows := s.worldTable b.world })
    let cores := b.grant.filter (fun c => s.computes (coreDie c) && !(s.core c).fenced && !(s.core c).granted)
    let own (pa : Nat) : Bool := encrypted pa && ((s.world b.world).windows.any (fun v => v.2.v && decide (v.2.pbase ≤ pa ∧ pa < v.2.pbase + v.2.bytes)) ||
      cores.any (fun c => decide (s.blockBase c ≤ pa ∧ pa < s.blockBase c + 0x400000)))
    let s := ((linesOf (s.mem.map Prod.fst)).filter (fun n => decide (SMap.get 0 s.owner n = 0) && own (64 * n))).foldl (fun s n =>
      { s.writeCells (lineCells n (lineSeen none (some key) n (s.lineBytes n))) with owner := SMap.put 0 s.owner n (b.world + 1) }) s
    cores.foldl (fun s c => s.restoreCore b.world c) s
/-- `CHECKPOINT_RESTORE` (R75): under the profile and partition of the checkpoint, memory takes the streamed image and each world
whose key unwraps under SLK is restored (log 20). -/
def execCheckpointRestore (blob : Blob) (s : State) : Out :=
  if !s.serves || s.hub.ckpt.isSome || decide (blob.profile ≠ s.hub.profile) ||
      decide (blob.partition ≠ (List.range 4).map s.part) then .next s
  else
    .next (blob.worlds.foldl State.restoreWorld
      { s.writeCells blob.mem with owner := blob.mem.foldl (fun m c => SMap.put 0 m (lineOf c.1) 0) s.owner })

end Sys2Proof.Machine
end

