-- ==== Sys2Proof/Machine/Memory.lean ====
section
/-! DEFINITION. The L slot and the S slot (19 R429 to R440): scratchpad loads, stores and atomics, timed global accesses, the
untimed atomic and multicast stores, and spills. -/

namespace Sys2Proof.Machine

/-- Bytes of a scalar size. -/
def szBytes : Sz → Nat
  | .b8 => 1 | .b16 => 2 | .b32 => 4 | .b64 => 8
/-- Bytes of a width. -/
def widthBytes (w : Width) : Nat := w.bits / 8

/-- The exact scratchpad address (R431 check 1). -/
def spadSum (s : State) (gb : BitVec 6) (off : Nat) : Nat := (s.cur.gr gb).toNat + off
/-- The wrapped global address (R431 check 2). -/
def globalSum (s : State) (gb : BitVec 6) (off : BitVec 25) : Word := s.cur.gr gb + zx off

/-- A value loaded for a vector destination: a register result, or one queue entry with zero above (R432, R436). -/
def loadTo (s : State) (d : Dst) (w : Width) (lat : Nat) (v : Vec) : Eff :=
  match d with
  | .v r => (s.toV r w.bits lat v, none)
  | .q q =>
    let a := askQueue s q.toNat 1
    match a.2 with
    | some e => (s, some e)
    | none => (a.1.schedule (s.now + lat) s.curCore (.deliver s.curCtx q.toNat (.data v)), none)

/-- `ld` (R432): samples at issue. -/
def execLd (p : BitVec 4) (w : Width) (buf : Buf) (d : Dst) (gb : BitVec 6) (off : BitVec 25) (s : State) : Out :=
  runSlot s (.ld p w buf d gb off) p (fun s =>
    match spadAddr s buf (spadSum s gb off.toNat) 4 (widthBytes w) with
    | (_, some e) => (s, some e)
    | (pa, none) => loadTo s d w (latLd s.t16) (BitVec.ofNat 1024 (s.load pa (widthBytes w))))

/-- `st` (R432): lands in the next cycle. -/
def execSt (p : BitVec 4) (w : Width) (buf : Buf) (vr : BitVec 6) (port : BitVec 3) (gb : BitVec 6) (off : BitVec 25)
    (s : State) : Out :=
  runSlot s (.st p w buf vr port gb off) p (fun s =>
    match spadAddr s buf (spadSum s gb off.toNat) 4 (widthBytes w) with
    | (_, some e) => (s, some e)
    | (pa, none) =>
      (s.schedule (s.now + 1) s.curCore (.write 1 (cellsAt pa (widthBytes w) (s.cur.vr vr).toNat)), none))

/-- The value of n loaded bytes in a general register (R433). -/
def extend (n v : Nat) (signed : Bool) : Word :=
  if signed && decide (2 ^ (8 * n - 1) ≤ v) then BitVec.ofInt 64 ((v : Int) - 2 ^ (8 * n)) else BitVec.ofNat 64 v

/-- `lds` (R433). -/
def execLds (p : BitVec 4) (sz : Sz) (buf : Buf) (gr : BitVec 6) (sx : Bool) (gb : BitVec 6) (off : BitVec 25) (s : State) : Out :=
  runSlot s (.lds p sz buf gr sx gb off) p (fun s =>
    match spadAddr s buf (spadSum s gb off.toNat) (szBytes sz) (szBytes sz) with
    | (_, some e) => (s, some e)
    | (pa, none) => (s.toG gr (latLd s.t16) (extend (szBytes sz) (s.load pa (szBytes sz)) sx), none))

/-- `sts` (R433). -/
def execSts (p : BitVec 4) (sz : Sz) (buf : Buf) (gr gb : BitVec 6) (off : BitVec 25) (s : State) : Out :=
  runSlot s (.sts p sz buf gr gb off) p (fun s =>
    match spadAddr s buf (spadSum s gb off.toNat) (szBytes sz) (szBytes sz) with
    | (_, some e) => (s, some e)
    | (pa, none) => (s.schedule (s.now + 1) s.curCore (.write 1 (cellsAt pa (szBytes sz) (s.cur.gr gr).toNat)), none))

/-- The operands of an atomic (R434): g[GS], and g[GS + 1] for `cas`. -/
def atomOperands (s : State) (aop : Aop) (gs : BitVec 6) : Word × Word :=
  (s.cur.gr gs, if aop = .cas then s.cur.gr (gs + 1) else 0)

/-- `atom` (R434, R435): one step in the next cycle; the old value lands with the latency of a load. -/
def execAtom (p : BitVec 4) (sz : Sz) (buf : Buf) (gr : BitVec 6) (aop : Aop) (gs gb : BitVec 6) (off : BitVec 25)
    (s : State) : Out :=
  runSlot s (.atom p sz buf gr aop gs gb off) p (fun s =>
    match spadAddr s buf (spadSum s gb off.toNat) (szBytes sz) (szBytes sz) with
    | (_, some e) => (s, some e)
    | (pa, none) =>
      let v := atomOperands s aop gs
      let rid := if gr = 0 then 0 else s.seqno
      let s' := if gr = 0 then s else s.result .g (physReg s.cur.rot gr.toNat) 64 (latLd s.t16) none
      (s'.schedule (s.now + 1) s.curCore (.atom s.curCtx rid pa (szBytes sz) aop v.1 v.2), none))

/-- A timed read of n bytes for a destination (R170, R436): sampled at t + L/2, delivered at t + L. -/
def timedRead (s : State) (d : Dst) (w : Width) (pa n lat : Nat) : Eff :=
  match d with
  | .v r =>
    let rid := s.seqno
    ((s.result .v (physReg s.cur.rot r.toNat) w.bits lat none).schedule (s.now + lat / 2) s.curCore
      (.sample pa n (.result s.curCtx rid)), none)
  | .q q =>
    let a := askQueue s q.toNat 1
    match a.2 with
    | some e => (s, some e)
    | none =>
      let s' := a.1.schedule (s.now + lat) s.curCore (.deliver s.curCtx q.toNat (.data 0))
      (s'.schedule (s.now + lat / 2) s.curCore (.sample pa n (.entry a.1.seqno)), none)

/-- `gld` (R436). -/
def execGld (p : BitVec 4) (w : Width) (d : Dst) (gb : BitVec 6) (off : BitVec 25) (s : State) : Out :=
  runSlot s (.gld p w d gb off) p (fun s =>
    match globalAddr s (globalSum s gb off) (widthBytes w) (widthBytes w) .rd true with
    | (_, some e) => (s, some e)
    | (pa, none) => timedRead s d w pa (widthBytes w) (s.padded s.curCore pa))

/-- `gst` (R436): its bytes are written at t + L. -/
def execGst (p : BitVec 4) (w : Width) (vr : BitVec 6) (port : BitVec 3) (gb : BitVec 6) (off : BitVec 25) (s : State) : Out :=
  runSlot s (.gst p w vr port gb off) p (fun s =>
    match globalAddr s (globalSum s gb off) (widthBytes w) (widthBytes w) .wr true with
    | (_, some e) => (s, some e)
    | (pa, none) =>
      (s.schedule (s.now + s.padded s.curCore pa) s.curCore (.write 0 (cellsAt pa (widthBytes w) (s.cur.vr vr).toNat)), none))

/-- `gatom` (R437): the untimed atomic, an ordered event; its delivery is owed from issue. -/
def execGatom (p : BitVec 4) (sz : Sz) (qd : BitVec 3) (aop : Aop) (gs gb : BitVec 6) (off : BitVec 25) (s : State) : Out :=
  runSlot s (.gatom p sz qd aop gs gb off) p (fun s =>
    let a := globalSum s gb off
    match globalAddr s a (szBytes sz) (szBytes sz) .atm false with
    | (_, some e) => (s, some e)
    | (pa, none) =>
      let q := askQueue s qd.toNat 1
      match q.2 with
      | some e => (s, some e)
      | none =>
        let v := atomOperands s aop gs
        (q.1.order (.atomic pa (szBytes sz) aop v.1 v.2) (homeNode pa) (.queue qd.toNat a), none))

/-- The cores a mask names (R438, R449): ranks FR + k of the frond for the set bits k; `none` where a rank lies beyond it. -/
def targetCores (cores : List Nat) (mask : Word) (fr : Nat) : Option (List Nat) :=
  ((List.range 64).filter (fun k => mask.getLsbD k)).mapM (fun k => cores[fr + k]?)

/-- Every target lies in the issuer's column. -/
def sameColumn (c : Nat) (targets : List Nat) : Bool := targets.all (fun d => decide (coreColumn d = coreColumn c))

/-- `mcst` (R438): the bytes land in the XB of every target in one cycle. -/
def execMcst (p : BitVec 4) (w : Width) (vr : BitVec 6) (port : BitVec 3) (gm gb : BitVec 6) (rank : BitVec 9) (xoff : BitVec 15)
    (s : State) : Out :=
  runSlot s (.mcst p w vr port gm gb rank xoff) p (fun s =>
    match spadAddr s .xb (spadSum s gb xoff.toNat) (widthBytes w) (widthBytes w) with
    | (_, some e) => (s, some e)
    | (_, none) =>
      let a := spadSum s gb xoff.toNat
      match targetCores (s.frond s.cur.frond).cores (s.cur.gr gm) rank.toNat with
      | none => (s, some (.trap 0x09 (BitVec.ofNat 64 (6 * 0x100000000 + a % 0x100000000))))
      | some [] => (s, none)
      | some targets =>
        let cells := targets.flatMap (fun d => cellsAt (bufAddr d .xb a) (widthBytes w) (s.cur.vr vr).toNat)
        (s.schedule (s.now + latMcast s.t16 (sameColumn s.curCore targets)) s.curCore (.mcast targets cells), none))

/-! ### The S slot (R440) -/

/-- A byte of the context's SPB quarter (R163). -/
def spillAddr (s : State) (off : Nat) : Nat := bufAddr s.curCore .spb (8192 * s.curCtx + off)

/-- `sp.st.g`. -/
def execSpStG (p : BitVec 4) (r : BitVec 6) (off : BitVec 10) (s : State) : Out :=
  runSlot s (.spStG p r off) p (fun s =>
    (s.schedule (s.now + 1) s.curCore (.write 2 (cellsAt (spillAddr s (8 * off.toNat)) 8 (s.cur.gr r).toNat)), none))

/-- `sp.st.v`. -/
def execSpStV (p : BitVec 4) (r off : BitVec 6) (s : State) : Out :=
  runSlot s (.spStV p r off) p (fun s =>
    (s.schedule (s.now + 1) s.curCore (.write 2 (cellsAt (spillAddr s (128 * off.toNat)) 128 (s.cur.vr r).toNat)), none))

/-- `sp.ld.g`. -/
def execSpLdG (p : BitVec 4) (r : BitVec 6) (off : BitVec 10) (s : State) : Out :=
  runSlot s (.spLdG p r off) p (fun s =>
    (s.toG r (latSp s.t16) (BitVec.ofNat 64 (s.load (spillAddr s (8 * off.toNat)) 8)), none))

/-- `sp.ld.v`. -/
def execSpLdV (p : BitVec 4) (r off : BitVec 6) (s : State) : Out :=
  runSlot s (.spLdV p r off) p (fun s =>
    (s.toV r 1024 (latSp s.t16) (BitVec.ofNat 1024 (s.load (spillAddr s (128 * off.toNat)) 128)), none))

end Sys2Proof.Machine
end

