-- ==== Sys2Proof/Machine/Copy.lean ====
section
/-! DEFINITION. The K slot (19 R443 to R455; 09 R186 to R205), but for the stream accumulator's images: the checks of R446 in
their order, the timed schedules of R193, and the untimed forms as ordered events. -/

namespace Sys2Proof.Machine

/-- A copy fault (R191): its code in `xval`. -/
def copyFault (code : Nat) : Stop := .trap 0x0B (BitVec.ofNat 64 code)

/-- A check of a list: the reason where it fails. -/
def check (bad : Bool) (why : Stop) : Option Stop := if bad then some why else none
/-- The first failed check. -/
def firstFault : List (Option Stop) → Option Stop
  | [] => none
  | some e :: _ => some e
  | none :: r => firstFault r

/-- Buffers a load may write and a store may read (R444). -/
def loadBuf : Buf → Bool
  | .wb | .ab | .cb | .lb | .xb => true
  | _ => false
def storeBuf : Buf → Bool
  | .ab | .cb | .lb | .xb => true
  | _ => false

/-- The record's tile, or a tile that no check passes. -/
def tileOf (s : State) (yr : BitVec 4) : Option Tile := recTile (s.cur.yr yr)

/-- g[GX] of a K form, g0 to g31. -/
def gxr (s : State) (gx : BitVec 5) : Word := s.cur.gr (gx.setWidth 6)

/-! ### Checks 5 to 8 and 10 of R446 -/

/-- Check 5: SOFF is a multiple of 64 by its encoding; the tile within 262,144 bytes and within the buffer. -/
def spanBad (t : Tile) (buf : Buf) (soff : Nat) : Bool := decide (262144 < t.bytes ∨ bufSize buf < soff + t.bytes)
/-- Check 6: A a multiple of E, and every in-bounds gaddr at least 0 and below 2^48. -/
def gaddrBad (t : Tile) (a : Int) : Bool :=
  decide (a % (t.e : Int) ≠ 0) ||
    (match t.range with | none => false | some (lo, hi) => decide (a + lo < 0 ∨ 2 ^ 48 ≤ a + hi))
/-- Check 7: the alignments of a timed form. -/
def alignBad (t : Tile) (a : Int) (store : Bool) : Bool :=
  decide ((t.e * t.box.getD 0 1) % 64 ≠ 0 ∨ ((t.e : Int) * t.org.getD 0 0) % 64 ≠ 0 ∨ a % 64 ≠ 0) || (store && t.mixed)

/-- The window that holds the smallest in-bounds gaddr. -/
def sideWindow (s : State) (t : Tile) (a : Int) : Option (Window × Int × Int) :=
  match t.range with
  | none => none
  | some (lo, hi) => (findWindow s.me.windows (a + lo).toNat 1).map (fun w => (w, a + lo, a + hi + t.e))

/-- Physical address of a gaddr in a window. -/
def Window.phys (w : Window) (g : Int) : Nat := w.pbase + (g - w.vbase).toNat

/-- The core does not reach a gaddr that translates. -/
def outOfReach (s : State) (g : Int) : Bool :=
  decide (0 ≤ g) && (findWindow s.me.windows g.toNat 1).any (fun w => !s.timedReach s.curCore (w.phys g) 1)
/-- Check 8 for a timed form: of what translates of the memory side, the core reaches all. -/
def sideBad (s : State) (t : Tile) (a : Int) : Bool := t.rows.any (fun r => outOfReach s (a + r.1) || outOfReach s (a + r.2))

/-- Check 10: both bounds in one valid entry with the permission; the trap names the smallest gaddr. -/
def translateBad (s : State) (t : Tile) (a : Int) (p : Perm) : Option Stop :=
  match t.range with
  | none => none
  | some (lo, hi) =>
    match translate s.me.windows (a + lo).toNat (hi - lo + t.e).toNat p with
    | some _ => none
    | none => some (.trap 0x0A (BitVec.ofInt 64 (a + lo)))

/-- The physical address of a gaddr of a translated copy. -/
def sidePhys (s : State) (t : Tile) (a : Int) (g : Int) : Nat :=
  match sideWindow s t a with
  | some (w, _, _) => w.phys (a + g)
  | none => 0

/-- L of a timed copy (R193): with no in-bounds element it is the near-tier figure. -/
def copyLat (s : State) (t : Tile) (a : Int) : Nat :=
  match sideWindow s t a with
  | some (w, lo, _) => s.padded s.curCore (w.phys lo)
  | none => latNear s.t16 (s.cls s.curCore)

/-! ### Ports (R194) and timed schedules (R193) -/

/-- A chunk at a cycle and the next meets a holding. -/
def portHeld (l : List (Nat × Nat)) (c : Nat) : Bool := l.any (fun h => decide (h.1 ≤ c + 1 ∧ c ≤ h.1 + 1))
/-- A landing port (true) or read port of a core, and the cycle of chunk 0. -/
abbrev Claim := Nat × Bool × Nat
/-- Check 11: a claim of n chunks collides. -/
def claimBad (s : State) (n : Nat) (k : Claim) : Bool :=
  (List.range n).any (fun i => portHeld (if k.2.1 then (s.core k.1).landPort else (s.core k.1).readPort) (k.2.2 + 2 * i))
/-- The holdings of n chunks; holdings that have passed are dropped. -/
def holdPort (s : State) (n : Nat) (k : Claim) : State :=
  let f := s.cur.frond
  let add (l : List (Nat × Nat)) : List (Nat × Nat) :=
    l.filter (fun h => decide (s.now ≤ h.1 + 1)) ++ (List.range n).map (fun i => (k.2.2 + 2 * i, f))
  s.updCore k.1 (fun x => if k.2.1 then { x with landPort := add x.landPort } else { x with readPort := add x.readPort })

/-- Chunks i, i + 1, … of a timed copy: each is sampled and lands at its cycles. -/
def timedChunks (s : State) (readAt landAt : Nat) (chunk : Nat → List Move × List Host.Cell) : List Nat → State
  | [] => s
  | i :: r =>
    let c := chunk i
    let a := s.scheduleSpan (landAt + 2 * i) s.curCore
      (lineStarts (c.1.map Move.src ++ c.1.map Move.dst ++ c.2.map Prod.fst)) (.chunkLand c.2)
    timedChunks (a.schedule (readAt + 2 * i) s.curCore (.chunkRead c.1 s.seqno)) readAt landAt chunk r

/-- Check 11 and the schedule of a timed form (R447). -/
def timedCopy (s : State) (n : Nat) (claims : List Claim) (readAt landAt : Nat)
    (chunk : Nat → List Move × List Host.Cell) : Eff :=
  if claims.any (claimBad s n) then (s, some (copyFault 0x07))
  else (timedChunks (claims.foldl (fun s k => holdPort s n k) s) readAt landAt chunk (List.range n), none)

/-- The checks of a form, then its effect on the tile. -/
def withChecks (s : State) (t : Option Tile) (pre : List (Option Stop)) (post : Tile → List (Option Stop)) (go : Tile → Eff) : Eff :=
  match firstFault pre with
  | some e => (s, some e)
  | none =>
    match t with
    | none => (s, some (copyFault 0x01))
    | some t =>
      match firstFault (post t) with
      | some e => (s, some e)
      | none => go t

/-! ### Timed forms (R448, R449) -/

/-- A buffer of a 3-bit code. -/
def bufOfNat (n : Nat) : Option Buf := Buf.ofCode (BitVec.ofNat 3 n)

/-- The buffer descriptor (R445). -/
structure BufDesc where
  ooff : Nat
  obuf : Option Buf
  rank : Nat
  peer : Bool
  bad : Bool

def bufDesc (w : Word) : BufDesc :=
  { ooff := (fld w 0 19).toNat, obuf := bufOfNat (fld w 20 3).toNat, rank := (fld w 32 9).toNat, peer := bit w 63,
    bad := decide (fld w 19 1 ≠ 0#1 ∨ fld w 23 9 ≠ 0#9 ∨ fld w 41 22 ≠ 0#22) }

/-- `cpy.tl` between a buffer and memory. -/
def tlMemory (s : State) (yr ar : BitVec 4) (store : Bool) (buf : Buf) (soff : Nat) : Eff :=
  let a := (s.cur.ar ar).toInt
  withChecks s (tileOf s yr) []
    (fun t =>
      [check (!(if store then storeBuf buf else loadBuf buf)) (copyFault 0x02), check (spanBad t buf soff) (copyFault 0x03),
       check (gaddrBad t a) (copyFault 0x04), check (alignBad t a store) (copyFault 0x05), check (sideBad s t a) (copyFault 0x06),
       translateBad s t a (if store then .wr else .rd)])
    (fun t =>
      let l := copyLat s t a
      let img := bufAddr s.curCore buf soff
      if store then
        timedCopy s t.chunks [(s.curCore, false, s.now)] s.now (s.now + l)
          (fun i => (t.storeChunk i img (sidePhys s t a), []))
      else
        timedCopy s t.chunks [(s.curCore, true, s.now + l)] (s.now + l / 2) (s.now + l)
          (fun i => t.loadChunk i img (sidePhys s t a)))

/-- `cpy.tl` between a buffer and another buffer of this core or of a core of the frond. -/
def tlBuffer (s : State) (yr : BitVec 4) (store : Bool) (buf : Buf) (soff : Nat) (w : Word) : Eff :=
  let d := bufDesc w
  let cores := (s.frond s.cur.frond).cores
  let ob := d.obuf.getD .spb
  let oc := if d.peer then cores.getD d.rank 0 else s.curCore
  let a : Int := d.ooff
  withChecks s (tileOf s yr) []
    (fun t =>
      [check (!(if store then storeBuf buf else loadBuf buf) || d.bad || !(if store then loadBuf ob else storeBuf ob)
          || (!d.peer && decide (d.rank ≠ 0)) || (d.peer && decide (cores.length ≤ d.rank))) (copyFault 0x02),
       check (spanBad t buf soff ||
          (match t.range with | none => false | some (_, hi) => decide ((bufSize ob : Int) < a + hi + t.e))) (copyFault 0x03),
       check (gaddrBad t a) (copyFault 0x04), check (alignBad t a store) (copyFault 0x05)])
    (fun t =>
      let lat := if d.peer then latMcast s.t16 (decide (coreColumn oc = coreColumn s.curCore)) else latLocal s.t16
      let img := bufAddr s.curCore buf soff
      let other (g : Int) : Nat := bufAddr oc ob (a + g).toNat
      if store then
        timedCopy s t.chunks [(s.curCore, false, s.now), (oc, true, s.now + lat)] s.now (s.now + lat)
          (fun i => (t.storeChunk i img other, []))
      else
        timedCopy s t.chunks [(oc, false, s.now), (s.curCore, true, s.now + lat)] s.now (s.now + lat)
          (fun i => t.loadChunk i img other))

/-- `cpy.tl` (R448): `dir` is 0 for a load, 1 for a store. -/
def execCpyTl (p yr ar : BitVec 4) (dir : Bool) (buf : Buf) (soff : BitVec 14) (gx : BitVec 5) (s : State) : Out :=
  runSlot s (.cpyTl p yr ar dir buf soff gx) p (fun s =>
    if gx = 0 then tlMemory s yr ar dir buf (64 * soff.toNat) else tlBuffer s yr dir buf (64 * soff.toNat) (gxr s gx))

/-- `cpy.bc` (R201, R449): the tile is read once and lands in every target. -/
def execCpyBc (p yr ar : BitVec 4) (buf : Buf) (soff : BitVec 14) (gx : BitVec 5) (s : State) : Out :=
  runSlot s (.cpyBc p yr ar buf soff gx) p (fun s =>
    let a := (s.cur.ar ar).toInt
    let hi := s.cur.gr (gx.setWidth 6 + 1)
    let mask := gxr s gx
    let targets := targetCores (s.frond s.cur.frond).cores mask (hi.toNat % 512)
    let so := 64 * soff.toNat
    withChecks s (tileOf s yr) []
      (fun t =>
        [check (!loadBuf buf || decide (512 ≤ hi.toNat) || decide (mask = 0) || targets.isNone) (copyFault 0x02),
         check (spanBad t buf so) (copyFault 0x03), check (gaddrBad t a) (copyFault 0x04),
         check (alignBad t a false) (copyFault 0x05), check (sideBad s t a) (copyFault 0x06), translateBad s t a .rd])
      (fun t =>
        let ds := targets.getD []
        let l := copyLat s t a
        let landAt := s.now + l + (if sameColumn s.curCore ds then 0 else latBcAcross s.t16)
        timedCopy s t.chunks (ds.map (fun d => (d, true, landAt))) (s.now + l / 2) landAt
          (fun i =>
            let parts := ds.map (fun d => t.loadChunk i (bufAddr d buf so) (sidePhys s t a))
            (parts.flatMap Prod.fst, parts.flatMap Prod.snd))))

/-! ### Untimed forms (R195 to R203, R451 to R454) -/

/-- Check 1 (R196). -/
def tooMany (s : State) : Option Stop := check (decide (16 ≤ s.cur.copies.length)) (copyFault 0x08)
/-- The bitmap of n chunks passes the end of XB (R195). -/
def bitmapBad (cbm n : Nat) : Bool := decide (32768 < cbm + (n + 7) / 8)

/-- Bits 0 to n − 1 of a bitmap cleared (R195). -/
def clearBits (s : State) (cbm n : Nat) : State :=
  (List.range ((n + 7) / 8)).foldl (fun s j =>
    let pa := bufAddr s.curCore .xb (cbm + j)
    s.setByte pa (s.byte pa &&& BitVec.ofNat 8 (255 - (2 ^ Min.min 8 (n - 8 * j) - 1)))) s

/-- Moves by the line at home, one group a line, in ascending order of the lines (R167). -/
def splitLines (home : Move → Nat) (l : List Move) : List (List Move) :=
  (linesOf (l.map home)).map (fun n => l.filter (fun m => decide (lineOf (home m) = n)))

/-- The bytes of moves as they stand, with their sources. -/
def payload (s : State) (l : List Move) : Payload :=
  { cells := l.map (fun m => (m.dst, s.byte m.src)), srcs := l.map Move.src }

/-- The accesses of one chunk, posted in order. -/
def postAll (s : State) (l : List (Act × Nat × Owed)) : State := l.foldl (fun s x => s.order x.1 x.2.1 x.2.2) s

/-- An untimed copy is counted, its bits are cleared, and its chunks' accesses are posted (R447). `chunk i` gives the accesses
of chunk i with their homes and world addresses, and the bytes a load writes by itself (fill). -/
def untimedCopy (s : State) (cbm n : Nat) (store : Bool) (va : Word) (chunk : Nat → List (Act × Nat × Word) × List Host.Cell) : State :=
  let id := s.seqno
  let s := (clearBits s cbm n).bump
  let parts := (List.range n).map (fun i => (i, chunk i))
  let cp : CopySt :=
    { id := id, cbm := cbm, store := store, va := va, frond := s.cur.frond
      chunks := parts.map (fun x => { i := x.1, waiting := x.2.1.length, cells := x.2.2 }) }
  let s := s.updCur (fun c => { c with copies := c.copies ++ [cp] })
  parts.foldl (fun s x => postAll s (x.2.1.map (fun y => (y.1, y.2.1, Owed.chunk id x.1 y.2.2 store)))) s

/-- The sync reference of `cpy.ut` and `cpy.add` (R445). -/
def syncRef (w : Word) : Nat × Bool := ((fld w 0 15).toNat, bit w 63)
def syncRefBad (w : Word) : Bool := decide (fld w 15 48 ≠ 0#48)

/-- The tile's destination is a scratchpad window: the core of its first in-bounds byte, or of the base address where no element is
in bounds (log 53). -/
def windowCore (s : State) (t : Tile) (a : Int) : Option Nat :=
  let core (w : Window) (g : Int) : Option Nat := match region (w.phys g) with | .spad c _ => some c | _ => none
  match sideWindow s t a with
  | some (w, lo, _) => core w lo
  | none => if t.range.isNone && decide (0 ≤ a) then (findWindow s.me.windows a.toNat 1).bind (fun w => core w a) else none

/-- Accesses of chunk i of an untimed store: one push at a scratchpad window, one write or combine-add a line elsewhere. -/
def storeAccesses (s : State) (t : Tile) (a : Int) (img : Nat) (add : Option Afmt) (sync : Option Nat) (i : Nat) :
    List (Act × Nat × Word) :=
  let moves := t.storeChunk i img (sidePhys s t a)
  let vaOf (l : List Move) : Word :=
    match sideWindow s t a, l.head? with
    | some (w, _, _), some m => BitVec.ofNat 64 (w.vbase + (m.dst - w.pbase))
    | _, _ => BitVec.ofInt 64 a
  match windowCore s t a with
  | some d =>
    let home := 1 + coreColumn d
    if moves.isEmpty && sync.isNone then []
    else [(.push add (sync.map (fun o => bufAddr d .xb o)) moves.length (payload s moves), home, vaOf moves)]
  | none =>
    (splitLines Move.dst moves).map (fun l =>
      (match add with | none => Act.write (payload s l) | some f => Act.combine f (payload s l),
       homeNode ((l.head?.map Move.dst).getD 0), vaOf l))

/-- Accesses of chunk i of an untimed load, and its fill. -/
def loadAccesses (s : State) (t : Tile) (a : Int) (img i : Nat) : List (Act × Nat × Word) × List Host.Cell :=
  let c := t.loadChunk i img (sidePhys s t a)
  ((splitLines Move.src c.1).map (fun l =>
    (Act.read l, homeNode ((l.head?.map Move.src).getD 0),
     match sideWindow s t a, l.head? with
     | some (w, _, _), some m => BitVec.ofNat 64 (w.vbase + (m.src - w.pbase))
     | _, _ => 0)), c.2)

/-- Check 4 for a sync reference (R446): EN needs a 16-byte-aligned word, a store, and a scratchpad window where the
destination translates. -/
def syncBad (s : State) (t : Tile) (a : Int) (store : Bool) (r : Nat × Bool) : Bool :=
  r.2 && (decide (r.1 % 16 ≠ 0) || !store || ((sideWindow s t a).isSome && (windowCore s t a).isNone))

/-- Element size of a combine-add format (R446 check 2). -/
def afmtBytes : Afmt → Nat
  | .bf16 => 2
  | .i64 => 8
  | _ => 4
/-- The record, and for a combine-add its element size. -/
def addTile (s : State) (yr : BitVec 4) (add : Option Afmt) : Option Tile :=
  (tileOf s yr).filter (fun t => match add with | none => true | some f => decide (t.e = afmtBytes f))

/-- An untimed store inside the package: `cpy.ut` store, `cpy.add`, `coll` with REMOTE = 0 (R451, R452, R454). -/
def packageStore (s : State) (yr ar : BitVec 4) (buf : Buf) (soff cbm : Nat) (add : Option Afmt) (badRef mustSync : Bool)
    (r : Nat × Bool) : Eff :=
  let a := (s.cur.ar ar).toInt
  withChecks s (addTile s yr add) [tooMany s]
    (fun t =>
      [check (!storeBuf buf || badRef) (copyFault 0x02),
       check (bitmapBad cbm t.chunks || syncBad s t a true r || (mustSync && !r.2)) (copyFault 0x09),
       check (spanBad t buf soff) (copyFault 0x03), check (gaddrBad t a) (copyFault 0x04),
       translateBad s t a (if add.isSome then .atm else .wr)])
    (fun t =>
      (untimedCopy s cbm t.chunks true (BitVec.ofInt 64 a)
        (fun i => (storeAccesses s t a (bufAddr s.curCore buf soff) add (if r.2 then some r.1 else none) i, [])), none))

/-- An untimed load: `cpy.ut` load (R451). -/
def packageLoad (s : State) (yr ar : BitVec 4) (buf : Buf) (soff cbm : Nat) (badRef : Bool) (r : Nat × Bool) : Eff :=
  let a := (s.cur.ar ar).toInt
  withChecks s (tileOf s yr) [tooMany s]
    (fun t =>
      [check (!loadBuf buf || badRef) (copyFault 0x02),
       check (bitmapBad cbm t.chunks || syncBad s t a false r) (copyFault 0x09),
       check (spanBad t buf soff) (copyFault 0x03), check (gaddrBad t a) (copyFault 0x04), translateBad s t a .rd])
    (fun t => (untimedCopy s cbm t.chunks false (BitVec.ofInt 64 a) (loadAccesses s t a (bufAddr s.curCore buf soff)), none))

/-- `cpy.ut` (R451). -/
def execCpyUt (p yr ar : BitVec 4) (dir : Bool) (buf : Buf) (soff : BitVec 14) (cbm : BitVec 12) (gx : BitVec 5) (s : State) : Out :=
  runSlot s (.cpyUt p yr ar dir buf soff cbm gx) p (fun s =>
    let w := gxr s gx
    if dir then packageStore s yr ar buf (64 * soff.toNat) (8 * cbm.toNat) none (syncRefBad w) false (syncRef w)
    else packageLoad s yr ar buf (64 * soff.toNat) (8 * cbm.toNat) (syncRefBad w) (syncRef w))

/-- `cpy.add` (R202, R452). -/
def execCpyAdd (p yr ar : BitVec 4) (buf : Buf) (afmt : Afmt) (soff : BitVec 14) (cbm : BitVec 12) (gx : BitVec 5) (s : State) : Out :=
  runSlot s (.cpyAdd p yr ar buf afmt soff cbm gx) p (fun s =>
    let w := gxr s gx
    packageStore s yr ar buf (64 * soff.toNat) (8 * cbm.toNat) (some afmt) (syncRefBad w) false (syncRef w))

/-! ### Fabric forms (R203, R453, R454) -/

/-- The fabric descriptor (R445). -/
structure FabDesc where
  member : Nat
  remote : Bool
  sync : Nat
  en : Bool
  bad : Bool

def fabDesc (w : Word) : FabDesc :=
  { member := (fld w 0 6).toNat, remote := bit w 6, sync := (fld w 16 15).toNat, en := bit w 63,
    bad := decide (fld w 7 9 ≠ 0#9 ∨ fld w 31 32 ≠ 0#32) }

/-- Check 8 for a fabric form: the package belongs to a trust domain and the member is present (R446). -/
def memberBad (s : State) (m : Nat) : Bool :=
  !s.hub.domain.has m

/-- A fabric form (R203): gaddr limits are checked at issue, translation is made at the member. -/
def fabricCopy (s : State) (yr ar : BitVec 4) (buf : Buf) (soff cbm : Nat) (store : Bool) (add : Option Afmt) (mustSync : Bool)
    (noRemote : Bool) (w : Word) : Eff :=
  let a := (s.cur.ar ar).toInt
  let d := fabDesc w
  let img := bufAddr s.curCore buf soff
  let remote (g : Int) : Nat := (a + g).toNat
  withChecks s (addTile s yr add) [tooMany s]
    (fun t =>
      [check (!(if store then storeBuf buf else loadBuf buf) || d.bad || (noRemote && d.remote)) (copyFault 0x02),
       check (bitmapBad cbm t.chunks || (d.en && (decide (d.sync % 16 ≠ 0) || !store)) || (mustSync && !d.en)) (copyFault 0x09),
       check (spanBad t buf soff) (copyFault 0x03), check (gaddrBad t a) (copyFault 0x04),
       check (memberBad s d.member) (copyFault 0x06)])
    (fun t =>
      let sync := if d.en then some d.sync else none
      (untimedCopy s cbm t.chunks store (BitVec.ofInt 64 a) (fun i =>
        if store then
          let moves := t.storeChunk i img remote
          if moves.isEmpty && sync.isNone then ([], [])
          else
            ([(.fabric d.member add sync [] (payload s moves), 0,
               BitVec.ofNat 64 ((moves.head?.map Move.dst).getD a.toNat))], [])
        else
          let c := t.loadChunk i img remote
          (if c.1.isEmpty then [] else [(.fabric d.member none none c.1 { cells := [] }, 0, 0)], c.2)), none))

/-- `cpy.put` (R453). -/
def execCpyPut (p yr ar : BitVec 4) (buf : Buf) (soff : BitVec 14) (cbm : BitVec 12) (gx : BitVec 5) (s : State) : Out :=
  runSlot s (.cpyPut p yr ar buf soff cbm gx) p (fun s =>
    fabricCopy s yr ar buf (64 * soff.toNat) (8 * cbm.toNat) true none false true (gxr s gx))

/-- `cpy.get` (R453). -/
def execCpyGet (p yr ar : BitVec 4) (buf : Buf) (soff : BitVec 14) (cbm : BitVec 12) (gx : BitVec 5) (s : State) : Out :=
  runSlot s (.cpyGet p yr ar buf soff cbm gx) p (fun s =>
    fabricCopy s yr ar buf (64 * soff.toNat) (8 * cbm.toNat) false none false true (gxr s gx))

/-- The combine-add format of a `coll` mode. -/
def CollMode.add : CollMode → Option Afmt
  | .put => none
  | .add f => some f

/-- `coll` (R454): to a scratchpad window of the package, or to one of a member. -/
def execColl (p yr ar : BitVec 4) (buf : Buf) (mode : CollMode) (soff : BitVec 14) (cbm : BitVec 12) (gx : BitVec 5) (s : State) : Out :=
  runSlot s (.coll p yr ar buf mode soff cbm gx) p (fun s =>
    let w := gxr s gx
    let d := fabDesc w
    if d.remote then fabricCopy s yr ar buf (64 * soff.toNat) (8 * cbm.toNat) true (CollMode.add mode) true false w
    else packageStore s yr ar buf (64 * soff.toNat) (8 * cbm.toNat) (CollMode.add mode) (d.bad || decide (d.member ≠ 0)) true (d.sync, d.en))

/-! ### `mig` (R205, R455) -/

/-- Check 9: the page is exactly one valid 2 MiB translation entry (R191 cause 0x0A). -/
def pageBad (s : State) (a : Nat) : Bool :=
  match findWindow s.me.windows a pageBytes with
  | some w => decide (w.vbase ≠ a ∨ w.size ≠ 0)
  | none => true

/-- `mig`: the page move counts as one outstanding untimed copy with one completion bit. -/
def execMig (p ar : BitVec 4) (tier : Tier) (cbm : BitVec 12) (s : State) : Out :=
  runSlot s (.mig p ar tier cbm) p (fun s =>
    let a := s.cur.ar ar
    let bm := 8 * cbm.toNat
    match firstFault [tooMany s, check (bitmapBad bm 1) (copyFault 0x09), check (pageBad s a.toNat) (copyFault 0x0A),
        check (translate s.me.windows a.toNat pageBytes .rdwr).isNone (.trap 0x0A a)] with
    | some e => (s, some e)
    | none =>
      let id := s.seqno
      let s := (clearBits s bm 1).bump
      let s := s.updCur (fun c => { c with copies := c.copies ++
        [{ id := id, cbm := bm, store := true, va := a, chunks := [{ i := 0, waiting := 1 }], mig := some { va := a, tier := tier, token := c.pageToken }, frond := c.frond }] })
      (s.order (.move a tier) 0 (.mig id), none))

end Sys2Proof.Machine
end

