-- ==== Sys2Proof/Machine/Matrix.lean ====
section
/-! DEFINITION. The matrix engine (11 R230 to R252; 19 R441, R442): panels, the micro-op sequencer with its start cycles, the
checks of a call, the M slot, and the microinstructions. One sequencer serves the checks at issue and the runs. -/

namespace Sys2Proof.Machine

/-! ### Panels (R232 to R236) -/

/-- Bits of an element. -/
def mfmtBits : MFmt → Nat
  | .t8 => 8 | .t6 => 6 | .bf16 => 16
/-- The exact value of an element code. -/
def mfmtValue : MFmt → Nat → Num
  | .t8, x => decodeTap t8Fmt x
  | .t6, x => decodeTap t6Fmt x
  | .bf16, x => decodeF bf16Fmt x
/-- A field of a descriptor. -/
def dfield (p : Word) (lo n : Nat) : Nat := p.toNat / 2 ^ lo % 2 ^ n

/-- The image index of R190 for dimension-0 size b0. -/
def imageIndex (geo b0 i0 i1 : Nat) : Nat :=
  if geo = 0 then b0 * i1 + i0
  else
    let b := geoBlock geo
    32 * (i1 / b.1 * (b0 / b.2) + i0 / b.2) + i1 % b.1 * b.2 + i0 % b.2

/-- The element code of `bits` bits at place `idx` of the bytes that `rd` reads. -/
def codeAt (rd : Nat → Byte) (bits idx : Nat) : Nat :=
  let o := bits * idx / 8
  leNat [rd o, rd (o + 1), rd (o + 2)] / 2 ^ (bits * idx % 8) % 2 ^ bits

/-- Elements 0 to 2,047 of a panel, by 32 × line + K-element, and the scales. -/
def panelOf (fmt : MFmt) (code scale : Nat → Nat → Nat) : Panel :=
  { codes := (List.range 2048).filterMap (fun n => if code (n / 32) (n % 32) = 0 then none else some (n, code (n / 32) (n % 32)))
    scales := (List.range 2048).filterMap (fun n =>
      if scale (n / 32) (n % 32) = 0x7F then none else some (n, scale (n / 32) (n % 32)))
    fmt := fmt }

/-- The A panel of a descriptor (R232, R233). -/
def loadA (s : State) (c : Nat) (p : Word) (fmt : MFmt) : Panel :=
  let geo := dfield p 54 3
  let kw := 32 * (dfield p 46 8 + 1)
  let idx (i kk : Nat) : Nat := imageIndex geo kw (32 * dfield p 19 8 + kk) i
  panelOf fmt
    (fun i kk => codeAt (fun o => s.byte (bufAddr c .ab (dfield p 0 19 + o))) (mfmtBits fmt) (idx i kk))
    (fun i kk => if geo = 0 then 0x7F else (s.byte (bufAddr c .ab (dfield p 27 19 + idx i kk / 32))).toNat)

/-- A byte of the compressed stream (R234): WB wraps. -/
def streamByte (s : State) (c cursor o : Nat) : Byte := s.byte (bufAddr c .wb ((cursor + o) % 786432))
/-- Occupancy of element n = 32 × column + K-element. -/
def stored (s : State) (c cursor n : Nat) : Bool := (streamByte s c cursor (n / 8)).getLsbD (n % 8)
/-- Stored elements before element n. -/
def storedBefore (s : State) (c cursor n : Nat) : Nat := ((List.range n).filter (stored s c cursor)).length
/-- Bytes of the panel at the cursor. -/
def streamBytes (s : State) (c cursor : Nat) (fmt : MFmt) : Nat :=
  roundUp (256 + (mfmtBits fmt * storedBefore s c cursor 2048 + 7) / 8) 64

/-- The B panel at the cursor with a descriptor's scales (R234, R235). -/
def loadB (s : State) (c cursor : Nat) (p : Word) (fmt : MFmt) : Panel :=
  let geo := dfield p 20 3
  panelOf fmt
    (fun j kk =>
      if stored s c cursor (32 * j + kk) then
        codeAt (fun o => streamByte s c cursor (256 + o)) (mfmtBits fmt) (storedBefore s c cursor (32 * j + kk))
      else 0)
    (fun j kk => if geo = 0 then 0x7F else (s.byte (bufAddr c .wb (dfield p 0 20 + imageIndex geo 32 kk j / 32))).toNat)

/-- An element and its scale. -/
def Panel.num (x : Panel) (line kk : Nat) : Num := mfmtValue x.fmt (SMap.get 0 x.codes (32 * line + kk))
def Panel.scale (x : Panel) (line kk : Nat) : Nat := SMap.get 0x7F x.scales (32 * line + kk)

/-- The K-step (R230, R220 to R222). -/
def kstep (a b : Panel) (ac : SMap (BitVec 32)) : SMap (BitVec 32) :=
  (List.range 4096).filterMap (fun n =>
    let i := n / 64
    let j := n % 64
    let prods := (List.range 32).map (fun kk => kprod (a.num i kk) (b.num j kk) (a.scale i kk) (b.scale j kk))
    let v := BitVec.ofNat 32 (kcell prods (SMap.get 0 ac n).toNat)
    if v = 0 then none else some (n, v))

/-- The accumulator as FP32 bytes of CB, row by row. -/
def loadAcc (s : State) (c : Nat) (p : Word) : SMap (BitVec 32) :=
  (List.range 4096).filterMap (fun n =>
    let v := BitVec.ofNat 32 (s.load (bufAddr c .cb (dfield p 0 18 + 4 * n)) 4)
    if v = 0 then none else some (n, v))

def Engine.asBuf (e : Engine) (b : Bool) : Panel := if b then e.as1 else e.as0
def Engine.bsBuf (e : Engine) (b : Bool) : Panel := if b then e.bs1 else e.bs0
def Engine.acc (e : Engine) (b : Bool) : SMap (BitVec 32) := if b then e.ac1 else e.ac0
def Engine.setAs (e : Engine) (b : Bool) (x : Panel) : Engine := if b then { e with as1 := x } else { e with as0 := x }
def Engine.setBs (e : Engine) (b : Bool) (x : Panel) : Engine := if b then { e with bs1 := x } else { e with bs0 := x }
def Engine.setAcc (e : Engine) (b : Bool) (x : SMap (BitVec 32)) : Engine :=
  if b then { e with ac1 := x } else { e with ac0 := x }

/-! ### Start cycles (R240) -/

/-- The earliest start of a micro-op, not before `lo`. -/
def UnitTimes.start (t : UnitTimes) (lo : Nat) (i : Instr) : Nat :=
  let lo := Max.max lo t.last
  match i with
  | .uaLd _ _ ac _ true =>
    Max.max (Max.max lo t.drFree) (if ac then Max.max t.ac1Step t.ac1Drain else Max.max t.ac0Step t.ac0Drain)
  | .uaLd _ asb _ _ false => Max.max (Max.max lo t.aFree) (if asb then t.as1Read else t.as0Read)
  | .ubLd _ bs _ => Max.max (Max.max lo t.bFree) (if bs then t.bs1Read else t.bs0Read)
  | .uStep _ asb bs ac _ =>
    Max.max (Max.max (Max.max lo t.arrFree) (if asb then t.as1Ready else t.as0Ready))
      (Max.max (if bs then t.bs1Ready else t.bs0Ready) (if ac then Max.max t.ac1Drain t.ac1Load else Max.max t.ac0Drain t.ac0Load))
  | .uDrain ac _ _ _ _ _ =>
    Max.max (Max.max lo t.drFree) (if ac then Max.max t.ac1Step t.ac1Load else Max.max t.ac0Step t.ac0Load)
  | _ => lo

/-- The entries of a queue drain, less one (R236). -/
def drainNe (p : Word) : Nat := dfield p 24 3
/-- Busy cycles of a drain (R240) and its last landing after the start (R242). -/
def drainBusy (dst : DrainDst) (bf16 : Bool) (p : Word) : Nat :=
  match dst with
  | .queue => drainNe p + 1
  | .cb => if bf16 then 16 else 32
  | .sb => 32
def drainLast (dst : DrainDst) (bf16 : Bool) (p : Word) : Nat := drainBusy dst bf16 p + 1

/-- A landing at a cycle. -/
def UnitTimes.land (t : UnitTimes) (n : Nat) : UnitTimes := { t with landing := Max.max t.landing n, any := true }
/-- An effect of `mstat` or `mprog` at a cycle. -/
def UnitTimes.landSide (t : UnitTimes) (n : Nat) : UnitTimes := { t with side := Max.max t.side n, any := true }

/-- The units after a micro-op that starts at s (R240). -/
def UnitTimes.after (t : UnitTimes) (s : Nat) (p : Word) (i : Instr) : UnitTimes :=
  let t := { t with last := s + 1 }
  match i with
  | .uaLd _ _ ac _ true =>
    let t := { t with drFree := s + 32 }
    (if ac then { t with ac1Load := s + 32 } else { t with ac0Load := s + 32 }).land (s + 32)
  | .uaLd fmt asb _ _ false =>
    let n := s + aloadCycles fmt
    let t := { t with aFree := n }
    (if asb then { t with as1Ready := n } else { t with as0Ready := n }).land n
  | .ubLd fmt bs _ =>
    let n := s + bloadCycles fmt
    let t := { t with bFree := n }
    (if bs then { t with bs1Ready := n } else { t with bs0Ready := n }).land n
  | .uStep fmt asb bs ac _ =>
    let n := s + kstepCycles fmt
    let t := { t with arrFree := n }
    let t := if asb then { t with as1Read := s + 1 } else { t with as0Read := s + 1 }
    let t := if bs then { t with bs1Read := s + 1 } else { t with bs0Read := s + 1 }
    (if ac then { t with ac1Step := n } else { t with ac0Step := n }).land n
  | .uDrain ac _ _ dst _ bf16 =>
    let t := { t with drFree := s + drainBusy dst bf16 p }
    (if ac then { t with ac1Drain := s + 1 } else { t with ac0Drain := s + 1 }).land (s + drainLast dst bf16 p)
  | _ => t

/-! ### The sequencer (R239, R246) -/

/-- The strides of a call. -/
def callStride (m : List Word) (k : Nat) : Int :=
  let w := m.getD (if k < 2 then 6 else 7) 0
  (if k % 2 = 0 then fld w 0 32 else fld w 32 32).toInt
/-- P0 to P7 of run q. -/
def runParams (m : List Word) (q : Nat) : SMap Word :=
  (List.range 8).foldl (fun x k =>
    SMap.put 0 x k (m.getD k 0 + (if k < 4 then BitVec.ofInt 64 ((q : Int) * callStride m k) else 0))) []
/-- Run q of a call at its routine's first word. -/
def runFrom (addr : Nat) (m : List Word) (q : Nat) : RunSt := { run := q, w := addr, p := runParams m q }

/-- First word of a routine (R237). -/
def Engine.addr (e : Engine) (rtn : Nat) : Nat := (SMap.get 0 e.table rtn).toNat % 1024
/-- Its routine, parameters and runs. -/
def CallEnt.args (x : CallEnt) : Nat × List Word × Nat := match x.kind with | .call r m n => (r, m, n) | _ => (0, [], 1)
/-- The present run. -/
def Engine.runNow (e : Engine) (x : CallEnt) : RunSt := e.run.getD (runFrom (e.addr x.args.1) x.args.2.1 0)
/-- The next micro-op; `none` where its word is no microinstruction or lies beyond the store. -/
def Engine.opNow (e : Engine) (r : RunSt) : Option Instr := if 1024 ≤ r.w then none else decodeU (SMap.get 0 e.store r.w)
/-- The parameter register a micro-op names. -/
def paramOf : Instr → Nat
  | .uaLd _ _ _ pr _ | .ubLd _ _ pr | .uDrain _ pr _ _ _ _ | .uAddp pr _ _ => pr.toNat
  | _ => 0

/-- The run after a micro-op; `none` after `u.end` (R239). -/
def RunSt.next (r : RunSt) (i : Instr) : Option RunSt :=
  let r := { r with begun := true }
  match i with
  | .uLoop lv tgt cnt =>
    let k := SMap.get 0 r.lcnt lv.toNat
    let n := (if k = 0 then cnt.toNat else k) - 1
    some { r with lcnt := SMap.put 0 r.lcnt lv.toNat n
                  lown := SMap.put 0 r.lown lv.toNat r.w
                  w := if n = 0 then r.w + 1 else tgt.toNat }
  | .uAddp pr sh imm =>
    let v := SMap.get 0 r.p pr.toNat + BitVec.ofInt 64 (imm.toInt * 2 ^ sh.toNat)
    some { r with p := SMap.put 0 r.p pr.toNat v, w := r.w + 1 }
  | .uEnd => none
  | _ => some { r with w := r.w + 1 }

/-- The format a loader leaves in its buffer. -/
def Engine.setFmt (e : Engine) : Instr → Engine
  | .uaLd fmt asb _ _ false => e.setAs asb { e.asBuf asb with fmt := fmt }
  | .ubLd fmt bs _ => e.setBs bs { e.bsBuf bs with fmt := fmt }
  | _ => e

/-- The control part of a micro-op that starts at s: units, formats, the run, and after the last run's `u.end` the queue. -/
def Engine.advance (e : Engine) (i : Instr) (s : Nat) : Engine :=
  match e.nextCall with
  | none => { e.setFmt i with times := e.times.after s 0 i }
  | some x =>
    let r := e.runNow x
    let e := { e.setFmt i with times := e.times.after s (SMap.get 0 r.p (paramOf i)) i }
    match r.next i with
    | some r' => { e with run := some r' }
    | none =>
      if r.run + 1 < x.args.2.2 then { e with run := some (runFrom (e.addr x.args.1) x.args.2.1 (r.run + 1)) }
      else { e with run := none, calls := e.calls.filter (fun y => decide (y.id ≠ x.id)),
                    times := { e.times with gone := e.times.idleAt } }

/-- The cycle at which the next micro-op starts. -/
def Engine.opCycle (e : Engine) : Option Nat :=
  match e.nextCall with
  | none => none
  | some x => (e.opNow (e.runNow x)).map (e.times.start (x.issue + 2))

/-- The cycle at which an `mwb` takes effect (R248). -/
def Engine.wbCycle (e : Engine) (x : CallEnt) : Nat := Max.max e.times.last (x.issue + 2)
/-- The delivery of an `mdrain` behind which nothing of the queue is left (R250). -/
def Engine.drainCycle (e : Engine) (x : CallEnt) : Nat :=
  if e.times.any then Max.max (Max.max x.base e.times.landing + 1) (x.issue + 2) else x.issue + 2

/-- One move of the queue in a projection: the first entry's next micro-op, or its effect. -/
def Engine.project1 (e : Engine) : Engine :=
  match e.calls with
  | [] => e
  | x :: r =>
    match x.kind with
    | .wb _ => { e with calls := r, times := e.times.land (e.wbCycle x) }
    | .drain _ => { e with calls := r, times := e.times.land (x.due.getD (e.drainCycle x)) }
    | .call _ _ _ =>
      match e.opNow (e.runNow x) with
      | none => { e with calls := r, run := none }
      | some i => e.advance i (e.times.start (x.issue + 2) i)
/-- The engine as the entries of its queue will leave it, as far as times, formats and the cursor's cycle go. -/
def Engine.project : Nat → Engine → Engine
  | 0, e => e
  | n + 1, e => if e.calls.isEmpty then e else Engine.project n e.project1

/-- More micro-ops than any queue of legal calls runs: 4 calls of at most 4,095 runs, each of at most 1,024 words in at most
four loops of at most 2^24 passes. -/
def engineFuel : Nat := 2 ^ 128

/-! ### Checks of a call (R245, R251) -/

/-- Fault codes of an A descriptor: 0x02, 0x03, or 0. -/
def checkA (p : Word) (fmt : MFmt) : Nat :=
  let geo := dfield p 54 3
  let top := imageIndex geo (32 * (dfield p 46 8 + 1)) (32 * dfield p 19 8 + 31) 63
  if dfield p 57 7 ≠ 0 ∨ geo = 7 ∨ (geo ≠ 0 ∧ fmt = .bf16) ∨ dfield p 46 8 < dfield p 19 8 then 2
  else if 524288 < dfield p 0 19 + (mfmtBits fmt * (top + 1) + 7) / 8 ∨
      (geo ≠ 0 ∧ 524288 < dfield p 27 19 + top / 32 + 1) then 3
  else 0
/-- Fault codes of a B descriptor. -/
def checkB (p : Word) (fmt : MFmt) : Nat :=
  let geo := dfield p 20 3
  if dfield p 23 41 ≠ 0 ∨ geo = 7 ∨ (geo ≠ 0 ∧ fmt = .bf16) then 2
  else if geo ≠ 0 ∧ 786432 < dfield p 0 20 + 64 then 3
  else 0
/-- Fault codes of a C descriptor for n bytes of CB. -/
def checkCb (p : Word) (n : Nat) : Nat :=
  if dfield p 18 46 ≠ 0 then 2
  else if dfield p 0 18 % 64 ≠ 0 ∨ 262144 < dfield p 0 18 + n then 3
  else 0
/-- Fault codes of a drain (R236, R251, R260), 0x02 before 0x03 (R245): an invalid region, row or element of an SB drain has 0x02; an offset that is
no multiple of 64, at which no region stands, and a region that passes the end of SB have 0x03 (log 57). -/
def checkDrain (s : State) (c : Nat) (p : Word) (dst : DrainDst) (bf16 : Bool) : Nat :=
  match dst with
  | .cb => checkCb p (if bf16 then 8192 else 16384)
  | .sb =>
    if bf16 then 1
    else if dfield p 53 11 ≠ 0 ∨ dfield p 18 9 ≠ 0 then 2
    else if dfield p 0 18 % 64 ≠ 0 then 3
    else
      let d := descAt (s.sb c) (dfield p 0 18)
      if d.fields && !d.ok then (if d.nrow < dfield p 27 13 + 64 ∨ d.nel < dfield p 40 13 + 64 then 2 else 3)
      else if saFault (s.sb c) p.toNat .add 64 64 1 = 0 then 0
      else 2
  | .queue =>
    if dfield p 53 11 ≠ 0 ∨ dfield p 0 18 ≠ 0 ∨ dfield p 27 26 ≠ 0 then 2
    else if 63 < dfield p 18 6 + (if bf16 then drainNe p else drainNe p / 2) then 2
    else 0
/-- The first fault code of a micro-op against the engine it will meet; 0 for none. -/
def checkOp (s : State) (c : Nat) (e : Engine) (r : RunSt) (i : Instr) : Nat :=
  let p := SMap.get 0 r.p (paramOf i)
  match i with
  | .uaLd fmt _ _ _ false => checkA p fmt
  | .uaLd _ _ _ _ true => checkCb p 16384
  | .ubLd fmt _ _ => checkB p fmt
  | .uStep fmt asb bs _ _ => if (e.asBuf asb).fmt = fmt ∧ (e.bsBuf bs).fmt = fmt then 0 else 4
  | .uDrain _ _ _ dst _ bf16 => checkDrain s c p dst bf16
  | .uLoop lv tgt cnt =>
    if cnt = 0 ∨ r.w < tgt.toNat ∨ (SMap.get 0 r.lcnt lv.toNat ≠ 0 ∧ SMap.get 0 r.lown lv.toNat ≠ r.w) then 1 else 0
  | _ => 0
/-- Entries a micro-op delivers: queue and count. -/
def opDelivers (r : RunSt) : Instr → Option (Nat × Nat)
  | .uDrain _ pr _ .queue qd _ => some (qd.toNat, drainNe (SMap.get 0 r.p pr.toNat) + 1)
  | _ => none

/-- The walk through every micro-op of a call that stands alone in the queue of the projected engine: the deliveries by
queue, or the first fault. -/
def walkCall (s : State) (c : Nat) : Nat → Engine → SMap Nat → Except Nat (SMap Nat)
  | 0, _, _ => .error 1
  | n + 1, e, out =>
    match e.calls with
    | [] => .ok out
    | x :: _ =>
      let r := e.runNow x
      match e.opNow r with
      | none => .error 1
      | some i =>
        if checkOp s c e r i ≠ 0 then .error (checkOp s c e r i)
        else
          walkCall s c n (e.advance i (e.times.start (x.issue + 2) i))
            (match opDelivers r i with
             | some (q, k) => SMap.put 0 out q (SMap.get 0 out q + k)
             | none => out)

/-- Entries still in the call queue at a cycle (R244). -/
def Engine.live (e : Engine) (now : Nat) : List CallEnt := e.calls.filter (fun x => x.due.all (fun d => decide (now < d)))

/-! ### Deliveries of `mdrain` (R250) -/

/-- A cycle in a frond's domain time (R36): its freezes before that cycle count. -/
def State.dtimeAt (s : State) (f n : Nat) : Int :=
  let fr := s.frond f
  (n : Int) - fr.base - frozenIn fr.freezes 0 n
/-- The engine as the entries before one of its queue will leave it (R240: every start is fixed by the routines). -/
def Engine.before (e : Engine) (x : CallEnt) : Engine :=
  Engine.project engineFuel { e with calls := e.calls.takeWhile (fun y => decide (y.id ≠ x.id)) }
/-- The delivery cycle of an `mdrain`: in a freeze of its frond, the domain cycle after c comes after the freeze. -/
def State.drainDue (s : State) (e : Engine) (x : CallEnt) : Nat :=
  if s.frozen x.frond then Max.max (e.drainCycle x) ((s.frond x.frond).freezeEnd + 1) else e.drainCycle x
/-- An `mdrain` takes its delivery cycle: nothing before it in the queue has micro-ops or an effect to come, or that cycle is the next. -/
def State.drainReady (s : State) (c : Nat) (x : CallEnt) : Bool :=
  let e := (s.core c).engine
  (match x.kind with | .drain _ => true | _ => false) && x.due.isNone &&
  ((e.calls.takeWhile (fun y => decide (y.id ≠ x.id))).all (fun y => match y.kind with | .drain _ => true | _ => false) ||
   decide (s.drainDue (e.before x) x ≤ s.now + 1))

/-- The `mdrain` entries that are ready take their delivery cycles. -/
def State.settleDrains (s : State) (c : Nat) : List CallEnt → State
  | [] => s
  | x :: r =>
    match x.kind with
    | .drain q =>
      if !s.drainReady c x then s.settleDrains c r
      else
        let e := (s.core c).engine.before x
        let due := s.drainDue e x
        let v : Word := if e.times.any then BitVec.ofInt 64 (s.dtimeAt x.frond (Max.max x.base e.times.landing)) else 0
        ((s.scheduleFor due c x.ctx x.frond x.id (.deliver x.ctx q (.data (v.setWidth 1024)))).updCore c (fun y =>
          { y with engine := { y.engine with
              calls := y.engine.calls.map (fun z : CallEnt => if z.id = x.id then { z with due := some due } else z)
              times := y.engine.times.land due } })).settleDrains c r
    | _ => s.settleDrains c r
/-- Entries whose delivery has been made leave, and those that can settle do. -/
def State.settleEngine (s : State) (c : Nat) : State :=
  let s := s.updCore c (fun x => { x with engine := { x.engine with calls := x.engine.live s.now } })
  s.settleDrains c (s.core c).engine.calls
/-- An `mwb` takes effect. -/
def State.applyWb (s : State) (c : Nat) : State :=
  match (s.core c).engine.calls.find? (fun x => match x.kind with | .wb _ => true | _ => false) with
  | some x =>
    (s.updCore c (fun y =>
      { y with engine := { y.engine with
          cursor := match x.kind with | .wb n => n | _ => y.engine.cursor
          calls := y.engine.calls.filter (fun z => decide (z.id ≠ x.id))
          times := y.engine.times.land (y.engine.wbCycle x) } })).settleEngine c
  | none => s
/-- Words of an `mprog` land (R247). -/
def State.applyProg (s : State) (c : Nat) (table : Bool) (words : List (Nat × Word)) : State :=
  s.updCore c (fun y =>
    { y with engine :=
        if table then { y.engine with table := words.foldl (fun m w => SMap.put 0 m w.1 (w.2.setWidth 16)) y.engine.table }
        else { y.engine with store := words.foldl (fun m w => SMap.put 0 m w.1 w.2) y.engine.store } })

/-! ### The M slot (R244 to R250) -/

/-- The matrix fault. -/
def matrixFault (code : Nat) : Option Stop := some (.trap 0x0D (BitVec.ofNat 64 code))

/-- Checks 2 to 4 of R442 for an instruction that enters the call queue. -/
def queueChecks (s : State) (isCall : Bool) : Option Stop :=
  let e := s.me.engine
  if !isCall && decide (s.cur.armed ≠ 0) then matrixFault 6
  else if s.now < e.mprogEnd then matrixFault 8
  else if 4 ≤ (e.live s.now).length then matrixFault 7
  else none

/-- An entry joins the call queue. -/
def pushCall (s : State) (k : CallKind) : State :=
  let s := s.updCore s.curCore (fun x =>
    { x with engine := { x.engine with
        calls := x.engine.live s.now ++
          [{ id := s.seqno, ctx := s.curCtx, frond := s.cur.frond, issue := s.now, kind := k, base := x.engine.times.side }] } })
  s.bump.settleEngine s.curCore

/-- Deliveries owed to queues, each under R154. -/
def askQueues (s : State) : List (Nat × Nat) → Eff
  | [] => (s, none)
  | (q, k) :: r =>
    match askQueue s q k with
    | (t, none) => askQueues t r
    | (_, some e) => (s, some e)

/-- `mcall` (R245, R246). -/
def execMcall (p : BitVec 4) (rtn : BitVec 6) (s : State) : Out :=
  runSlot s (.mcall p rtn) p (fun s =>
    match queueChecks s true with
    | some e => (s, some e)
    | none =>
      let c := s.cur
      let e := s.me.engine
      let n := if c.armed = 0 then 1 else c.armed
      let m := (List.range 8).map (fun k => SMap.get 0 c.m k)
      let ent := SMap.get 0 e.table rtn.toNat
      if !bit ent 15 || decide (fld ent 10 5 ≠ 0#5) then (s, matrixFault 1)
      else
        let ahead := Engine.project engineFuel { e with calls := e.live s.now }
        let alone := { ahead with run := none, calls := [{ id := s.seqno, ctx := 0, frond := 0, issue := s.now, kind := .call rtn.toNat m n }] }
        match walkCall s s.curCore engineFuel alone [] with
        | .error code => (s, matrixFault code)
        | .ok out =>
          match askQueues s out with
          | (_, some t) => (s, some t)
          | (s, none) =>
            let s := pushCall (s.updCur (fun x => { x with armed := 0 })) (.call rtn.toNat m n)
            ((List.range 4).foldl (fun s k =>
              s.toM k 1 (m.getD k 0 + BitVec.ofInt 64 ((n : Int) * callStride m k))) s, none))

/-- `mrep` (R246). -/
def execMrep (p : BitVec 4) (n : BitVec 12) (s : State) : Out :=
  runSlot s (.mrep p n) p (fun s =>
    if s.cur.armed ≠ 0 then (s, matrixFault 6) else (s.updCur (fun x => { x with armed := n.toNat }), none))

/-- The writes of an `mprog` by cycle: 16 words, or all table entries at once. -/
def progGroups (s : State) (table : Bool) (words : List (Nat × Word)) : State :=
  if table then s.schedule (s.now + 1) s.curCore (.mprog true words)
  else
    (List.range ((words.length + 15) / 16)).foldl (fun s i =>
      s.schedule (s.now + 1 + i) s.curCore (.mprog false ((words.drop (16 * i)).take 16))) s

/-- `mprog` and `mprog.t` (R247). -/
def programStore (s : State) (ga : BitVec 6) (dst nm1 : BitVec 10) (table : Bool) : Eff :=
  let e := s.me.engine
  let a := (s.cur.gr ga).toNat
  let c := nm1.toNat + 1
  let n := if table then 2 else 8
  if s.cur.armed ≠ 0 then (s, matrixFault 6)
  else if (e.live s.now) ≠ [] then (s, matrixFault 8)
  else if a % n ≠ 0 ∨ bufSize .lb < a + n * c ∨ (if table then 64 else 1024) < dst.toNat + c then (s, matrixFault 9)
  else
    let words := (List.range c).map (fun i =>
      (dst.toNat + i, BitVec.ofNat 64 (s.load (bufAddr s.curCore .lb (a + n * i)) n)))
    let last := if table then s.now + 1 else s.now + 1 + (c - 1) / 16
    let s := progGroups s table words
    (s.updCore s.curCore (fun x =>
      { x with engine := { x.engine with mprogEnd := Max.max x.engine.mprogEnd last, times := x.engine.times.landSide last } }), none)

/-- `mprog`. -/
def execMprog (p : BitVec 4) (ga : BitVec 6) (dst nm1 : BitVec 10) (s : State) : Out :=
  runSlot s (.mprog p ga dst nm1) p (fun s => programStore s ga dst nm1 false)

/-- `mprog.t`. -/
def execMprogT (p : BitVec 4) (ga : BitVec 6) (dst nm1 : BitVec 10) (s : State) : Out :=
  runSlot s (.mprogT p ga dst nm1) p (fun s => programStore s ga dst nm1 true)

/-- `mwb` (R248). -/
def execMwb (p : BitVec 4) (ga : BitVec 6) (s : State) : Out :=
  runSlot s (.mwb p ga) p (fun s =>
    match queueChecks s false with
    | some e => (s, some e)
    | none => (pushCall s (.wb ((s.cur.gr ga).toNat % 786432 / 64 * 64)), none))

/-- What `mstat` delivers (R249). A call that has left the queue and has micro-ops in progress is the current call until the last of them ends, and
has no run to start, also where the next call's have begun (log 76). -/
def statWord (e : Engine) (now : Nat) : Word :=
  let q := e.live now
  let busy := decide (now < e.times.idleAt)
  let runs :=
    if now < e.times.gone then 0
    else
      match e.nextCall with
      | none => 0
      | some x =>
        let r := e.runNow x
        x.args.2.2 - r.run - r.begun.toNat
  let t := (Engine.project engineFuel { e with calls := q }).times
  let last := Max.max t.landing t.side
  let cyc := if q.isEmpty && !busy && decide (last ≤ now) then 0 else Min.min (last + 1 - now) 0xFFFFFFFF
  BitVec.ofNat 64 (q.length % 8 + 8 * busy.toNat + 0x10000 * (runs % 0x10000) + 0x100000000 * cyc)

/-- `mstat` (R249). -/
def execMstat (p : BitVec 4) (qd : BitVec 3) (s : State) : Out :=
  runSlot s (.mstat p qd) p (fun s =>
    if s.cur.armed ≠ 0 then (s, matrixFault 6)
    else
      match askQueue s qd.toNat 1 with
      | (_, some e) => (s, some e)
      | (t, none) =>
        let v := statWord s.me.engine s.now
        let t := t.schedule (s.now + 2) s.curCore (.deliver s.curCtx qd.toNat (.data (v.setWidth 1024)))
        (t.updCore s.curCore (fun x => { x with engine := { x.engine with times := x.engine.times.landSide (s.now + 2) } }), none))

/-- `mdrain` (R250). -/
def execMdrain (p : BitVec 4) (qd : BitVec 3) (s : State) : Out :=
  runSlot s (.mdrain p qd) p (fun s =>
    match queueChecks s false with
    | some e => (s, some e)
    | none =>
      match askQueue s qd.toNat 1 with
      | (_, some e) => (s, some e)
      | (t, none) => (pushCall t (.drain qd.toNat), none))

/-! ### Microinstructions (R238 to R242) -/

/-- The issuer of the micro-op that the engine of the present core starts: context, frond, call. -/
def issuer (s : State) : Nat × Nat × Nat :=
  match s.me.engine.nextCall with
  | some x => (x.ctx, x.frond, x.id)
  | none => (s.curCtx, s.cur.frond, 0)
/-- The parameter register P[pr] of the present run. -/
def param (s : State) (pr : BitVec 3) : Word :=
  match s.me.engine.nextCall with
  | some x => SMap.get 0 (s.me.engine.runNow x).p pr.toNat
  | none => 0

/-- A MICRO-OP STARTS at the present cycle: its effect on the buffers, then the sequencer's move. -/
def microOp (s : State) (i : Instr) (f : Engine → Engine) (g : State → State) : Out :=
  let s := (g s).updCore s.curCore (fun x => { x with engine := (f x.engine).advance i s.now })
  .next (s.settleEngine s.curCore)

/-- `ua.ld` (R239): an A panel, or an accumulator from CB. -/
def execUaLd (fmt : MFmt) (asb ac : Bool) (pr : BitVec 3) (tgt : Bool) (s : State) : Out :=
  microOp s (.uaLd fmt asb ac pr tgt)
    (fun e => if tgt then e.setAcc ac (loadAcc s s.curCore (param s pr)) else e.setAs asb (loadA s s.curCore (param s pr) fmt)) id

/-- `ub.ld` (R239). -/
def execUbLd (fmt : MFmt) (bs : Bool) (pr : BitVec 3) (s : State) : Out :=
  microOp s (.ubLd fmt bs pr)
    (fun e => { e.setBs bs (loadB s s.curCore e.cursor (param s pr) fmt) with
                  cursor := (e.cursor + streamBytes s s.curCore e.cursor fmt) % 786432 }) id

/-- `u.step` (R239). -/
def execUStep (fmt : MFmt) (asb bs ac zr : Bool) (s : State) : Out :=
  microOp s (.uStep fmt asb bs ac zr)
    (fun e => e.setAcc ac (kstep (e.asBuf asb) (e.bsBuf bs) (if zr then [] else e.acc ac))) id

/-- Elements i, j onward of an accumulator. -/
def accRow (ac : SMap (BitVec 32)) (i j n : Nat) : List (BitVec 32) := (List.range n).map (fun k => SMap.get 0 ac (64 * i + j + k))
/-- RoundNEB of an FP32 element. -/
def toBf16 (x : BitVec 32) : Nat := roundNEB (decodeF f32Fmt x.toNat)
/-- Elements side by side as a number. -/
def packElems (bits : Nat) (l : List Nat) : Nat := l.foldr (fun x n => x + 2 ^ bits * n) 0

/-- A drain's emission from its snapshot (R242). -/
def emitDrain (s : State) (ac : SMap (BitVec 32)) (p : Word) (dst : DrainDst) (qd : BitVec 3) (bf16 : Bool) : State :=
  let (k, f, id) := issuer s
  let c := s.curCore
  match dst with
  | .cb =>
    let rows := if bf16 then 4 else 2
    (List.range (64 / rows)).foldl (fun t m =>
      let cells := (List.range rows).flatMap (fun i =>
        (List.range 64).flatMap (fun j =>
          let x := SMap.get 0 ac (64 * (rows * m + i) + j)
          if bf16 then cellsAt (bufAddr c .cb (dfield p 0 18 + 128 * (rows * m + i) + 2 * j)) 2 (toBf16 x)
          else cellsAt (bufAddr c .cb (dfield p 0 18 + 256 * (rows * m + i) + 4 * j)) 4 x.toNat))
      t.scheduleFor (s.now + 2 + m) c k f id (.drainCb cells)) s
  | .sb =>
    (List.range 32).foldl (fun t m =>
      t.scheduleFor (s.now + 2 + m) c k f id
        (.drainSb k (dfield p 0 18) (dfield p 27 13 + 2 * m) (dfield p 40 13)
          [accRow ac (2 * m) 0 64, accRow ac (2 * m + 1) 0 64] s.seqno)) s
  | .queue =>
    (List.range (drainNe p + 1)).foldl (fun t e =>
      let v := if bf16 then packElems 16 ((accRow ac (dfield p 18 6 + e) 0 64).map toBf16)
               else packElems 32 ((accRow ac (dfield p 18 6 + e / 2) (32 * (e % 2)) 32).map BitVec.toNat)
      t.scheduleFor (s.now + 2 + e) c k f id (.deliver k qd.toNat (.data (BitVec.ofNat 1024 v)))) s

/-- `u.drain` (R239, R242). -/
def execUDrain (ac : Bool) (pr : BitVec 3) (zr : Bool) (dst : DrainDst) (qd : BitVec 3) (bf16 : Bool) (s : State) : Out :=
  microOp s (.uDrain ac pr zr dst qd bf16)
    (fun e => if zr then e.setAcc ac [] else e)
    (fun s => emitDrain s (s.me.engine.acc ac) (param s pr) dst qd bf16)

/-- `u.loop` (R239). -/
def execULoop (lv : BitVec 2) (tgt : BitVec 10) (cnt : BitVec 24) (s : State) : Out := microOp s (.uLoop lv tgt cnt) id id

/-- `u.addp` (R239). -/
def execUAddp (pr : BitVec 3) (sh : BitVec 6) (imm : BitVec 24) (s : State) : Out := microOp s (.uAddp pr sh imm) id id

/-- `u.end` (R239). -/
def execUEnd (s : State) : Out := microOp s .uEnd id id

end Sys2Proof.Machine
end

