-- ==== Sys2Proof/Machine/Transc.lean ====
section
/-! DEFINITION. The transcendental functions of the X slot (10 R223, R224). `rcp`, `rsq` and `sqrt` are exact. The others are
evaluated in fixed point with error bounds: where both ends of the interval round to one encoding, that is the
result; no input is known for which they differ (log 14). -/

namespace Sys2Proof.Machine

/-- Fraction bits of the fixed-point evaluation; the error of each value below is less than 2^-560 of it plus 2^-600. -/
def tbits : Nat := 640
/-- One in fixed point. -/
def tone : Int := 2 ^ tbits
/-- A product. -/
def tmul (a b : Int) : Int := a * b / tone
/-- A quotient. -/
def tdiv (a b : Int) : Int := a * tone / b

/-- The exponential series from term n on, t being the term before. -/
def expSeries (r : Int) : Nat → Nat → Int → Int
  | 0, _, _ => 0
  | k + 1, n, t => t + expSeries r k (n + 1) (tmul t r / n)
/-- Repeated squaring. -/
def squarings : Nat → Int → Int
  | 0, x => x
  | n + 1, x => squarings n (tmul x x)
/-- e^x for |x| ≤ 256. -/
def fixExp (x : Int) : Int := squarings 9 (expSeries (x / 512) 130 1 tone)

/-- The odd series z + z³/3 + z⁵/5 + …, with signs alternating where `alt`. -/
def oddSeries (alt : Bool) (z2 : Int) : Nat → Nat → Int → Int
  | 0, _, _ => 0
  | k + 1, n, t => t / n + oddSeries alt z2 k (n + 2) (if alt then -(tmul t z2) else tmul t z2)
/-- ln m for 1 ≤ m ≤ 2. -/
def fixLn (m : Int) : Int :=
  let z := tdiv (m - tone) (m + tone)
  2 * oddSeries false (tmul z z) 220 1 z
/-- ln 2. -/
def ln2 : Int := fixLn (2 * tone)

/-- arctan (1 / n) with 200 further fraction bits. -/
def arcSeries (n : Nat) : Nat → Nat → Int → Int
  | 0, _, _ => 0
  | k + 1, m, t => t / m - arcSeries n k (m + 2) (t / (n * n : Nat))
/-- π with 840 fraction bits (Machin). -/
def piBits : Int :=
  let u : Int := 2 ^ (tbits + 200)
  16 * arcSeries 5 190 1 (u / 5) - 4 * arcSeries 239 60 1 (u / 239)

/-- The sine and cosine series. -/
def sinSeries (r2 : Int) : Nat → Nat → Int → Int
  | 0, _, _ => 0
  | k + 1, n, t => t - sinSeries r2 k (n + 2) (tmul t r2 / (n * (n + 1) : Nat))
/-- sin x and cos x of x ≥ 0: the quarter turns are taken off exactly. -/
def fixSinCos (x : Int) : Int × Int :=
  let half := piBits / 2
  let y := x * 2 ^ 200
  let q := (2 * y + half) / (2 * half)
  let r := (y - q * half) / 2 ^ 200
  let r2 := tmul r r
  let sn := sinSeries r2 70 2 r
  let cs := sinSeries r2 70 1 tone
  match (q % 4).toNat with
  | 0 => (sn, cs)
  | 1 => (cs, -sn)
  | 2 => (-sn, -cs)
  | _ => (-cs, sn)

/-- A fixed-point value as an exact number. -/
def ofFix (x : Int) : Num := .fin (decide (x < 0)) x.natAbs (2 ^ tbits)
/-- The exact input in fixed point; inputs are multiples of 2^-149. -/
def toFix : Num → Int
  | .fin s n d => signedOf s (n * 2 ^ tbits / d)
  | _ => 0

/-- The rounding of a form: toward zero for `.f`, to nearest for `.r`. -/
def formRm (fast : Bool) : Rm := if fast then .rtz else .rne

/-- A fixed-point value known to lie from lo to hi, shifted by 2^k, rounded where its interval allows; where the ends of the interval round to two
encodings, it is one of them (log 14). -/
def roundFix (fn : Nat) (fast : Bool) (x : Nat) (lo hi v k : Int) : Nat :=
  let err : Int := v.natAbs / 2 ^ 560 + 2 ^ 40
  let round (y : Int) : Nat := roundF f32Fmt (formRm fast) ((ofFix (Max.max lo (Min.min hi y))).shift k)
  if round (v - err) = round (v + err) ∨ Config.undecidedRounding fn fast.toNat (BitVec.ofNat 32 x) = true then round (v - err)
  else round (v + err)
/-- Twice the largest fixed-point value that any form meets. -/
def fixMost : Int := 2 ^ 2048

/-- An exact result rounded. -/
def exactForm (fast : Bool) (t : Num) : Nat := roundF f32Fmt (formRm fast) t
/-- Encodings of the table of R223. -/
def f32One : Nat := 0x3F800000
def f32Nan : Nat := 0x7FC00000
def f32Inf : Nat := 0x7F800000
def f32Sign : Nat := 0x80000000

/-- A magnitude above a bound. -/
def Num.above (b : Nat) : Num → Bool
  | .fin _ n d => decide (b * d < n)
  | _ => false

/-- e^x for every finite x: beyond 2^8 the result overflows or vanishes. -/
def expFix (t : Num) : Int × Int :=
  if t.above 256 then (tone, if t.isNeg then -400 else 400) else (fixExp (toFix t), 0)

/-- `exp`. -/
def expValue (fast : Bool) (x : Nat) : Nat :=
  match decodeF f32Fmt x with
  | .nan => f32Nan
  | .inf true => 0
  | .inf false => f32Inf
  | .fin s n d =>
    if n = 0 then f32One
    else roundFix 0 fast x (if s then 1 else tone) (if s then tone else fixMost) (expFix (.fin s n d)).1 (expFix (.fin s n d)).2

/-- `exp2`: exact for integers. -/
def exp2Value (fast : Bool) (x : Nat) : Nat :=
  match decodeF f32Fmt x with
  | .nan => f32Nan
  | .inf true => 0
  | .inf false => f32Inf
  | .fin s n d =>
    let k := Int.fdiv (signedOf s n) d
    if (Num.fin s n d).above 512 then exactForm fast ((Num.fin false 1 1).shift (if s then -600 else 600))
    else if signedOf s n = k * d then exactForm fast ((Num.fin false 1 1).shift k)
    else roundFix 1 fast x tone (2 * tone) (fixExp (tmul ((signedOf s n - k * d) * tone / d) ln2)) k

/-- `log2`: exact for powers of two. -/
def log2Value (fast : Bool) (x : Nat) : Nat :=
  match decodeF f32Fmt x with
  | .nan => f32Nan
  | .inf true => f32Nan
  | .inf false => f32Inf
  | .fin s n d =>
    if n = 0 then f32Sign + f32Inf
    else if s then f32Nan
    else
      let e := floorLog2 n d
      let m := overPow n d e
      if m.1 = m.2 then exactForm fast (Num.ofInt e)
      else roundFix 2 fast x (e * tone) ((e + 1) * tone) (e * tone + tdiv (fixLn ((m.1 : Int) * tone / m.2)) ln2) 0

/-- `rcp`. -/
def rcpValue (fast : Bool) (x : Nat) : Nat :=
  match decodeF f32Fmt x with
  | .nan => f32Nan
  | .inf s => f32Fmt.sign s
  | .fin s n d => if n = 0 then f32Fmt.sign s + f32Inf else exactForm fast (.fin s d n)

/-- The integer square root, bit by bit from bit b − 1. -/
def isqrt (n : Nat) : Nat → Nat → Nat
  | 0, r => r
  | b + 1, r => isqrt n b (if (r + 2 ^ b) * (r + 2 ^ b) ≤ n then r + 2 ^ b else r)
/-- √(n / d) with 160 fraction bits and one bit that says whether anything is left below. -/
def rootNum (n d : Nat) : Num :=
  let m := n * 2 ^ 320 / d
  let q := isqrt m 300 0
  let more := decide (q * q ≠ m) || decide (n * 2 ^ 320 % d ≠ 0)
  .fin false (2 * q + more.toNat) (2 ^ 161)

/-- `sqrt`. -/
def sqrtValue (fast : Bool) (x : Nat) : Nat :=
  match decodeF f32Fmt x with
  | .nan => f32Nan
  | .inf true => f32Nan
  | .inf false => f32Inf
  | .fin s n d => if n = 0 then f32Fmt.sign s else if s then f32Nan else exactForm fast (rootNum n d)

/-- `rsq`. -/
def rsqValue (fast : Bool) (x : Nat) : Nat :=
  match decodeF f32Fmt x with
  | .nan => f32Nan
  | .inf true => f32Nan
  | .inf false => 0
  | .fin s n d => if n = 0 then f32Fmt.sign s + f32Inf else if s then f32Nan else exactForm fast (rootNum d n)

/-- `tanh`. -/
def tanhValue (fast : Bool) (x : Nat) : Nat :=
  match decodeF f32Fmt x with
  | .nan => f32Nan
  | .inf s => f32Fmt.sign s + f32One
  | .fin s n d =>
    if n = 0 then f32Fmt.sign s
    else if (Num.fin s n d).above 64 then exactForm fast (.fin s (2 ^ 100 - 1) (2 ^ 100))
    else
      let e := fixExp (2 * toFix (.fin s n d))
      roundFix 6 fast x (if s then -tone else 1) (if s then -1 else tone) (tdiv (e - tone) (e + tone)) 0

/-- `sigm`. -/
def sigmValue (fast : Bool) (x : Nat) : Nat :=
  match decodeF f32Fmt x with
  | .nan => f32Nan
  | .inf true => 0
  | .inf false => f32One
  | .fin s n d =>
    if n = 0 then 0x3F000000
    else if (Num.fin s n d).above 256 then
      exactForm fast (if s then .fin false 1 (2 ^ 300) else .fin false (2 ^ 100 - 1) (2 ^ 100))
    else roundFix 7 fast x (if s then 1 else tone / 2) (if s then tone / 2 else tone) (tdiv tone (tone + fixExp (toFix (.fin (!s) n d)))) 0

/-- `sin`: the fast form answers NaN above 1024. -/
def sinValue (fast : Bool) (x : Nat) : Nat :=
  match decodeF f32Fmt x with
  | .nan => f32Nan
  | .inf _ => f32Nan
  | .fin s n d =>
    if n = 0 then f32Fmt.sign s
    else if fast && (Num.fin s n d).above 1024 then f32Nan
    else
      let v := (fixSinCos (toFix (.fin false n d))).1
      roundFix 8 fast x (-tone) tone (if s then -v else v) 0

/-- `cos`. -/
def cosValue (fast : Bool) (x : Nat) : Nat :=
  match decodeF f32Fmt x with
  | .nan => f32Nan
  | .inf _ => f32Nan
  | .fin s n d =>
    if n = 0 then f32One
    else if fast && (Num.fin s n d).above 1024 then f32Nan
    else roundFix 9 fast x (-tone) tone (fixSinCos (toFix (.fin false n d))).2 0

end Sys2Proof.Machine
end

