-- ==== Sys2Proof/Machine/Vector.lean ====
section
/-! DEFINITION. The instructions of the VA, VB and X slots (18 R400 to R426), but for those of the stream accumulator. Each reads
its sources at issue and its result lands after the latency of R401. -/

namespace Sys2Proof.Machine

/-! ### Elements and sources (R400) -/

/-- Element j of a value: bits E·j + E − 1 : E·j. -/
def elem (e x j : Nat) : Nat := x / 2 ^ (e * j) % 2 ^ e
/-- n elements of a value. -/
def elems (e n x : Nat) : List Nat := (List.range n).map (elem e x)
/-- A value from its elements, element 0 lowest. -/
def joinElems (e : Nat) : List Nat → Nat
  | [] => 0
  | x :: r => x % 2 ^ e + 2 ^ e * joinElems e r
/-- Bits w − 1 : 0 of a value. -/
def low (w : Width) (v : Vec) : Nat := v.toNat % 2 ^ w.bits
/-- Element count of a width and a format. -/
def lanes (w : Width) (f : Fmt) : Nat := w.bits / f.bits

/-- A slot with one vector source: the result of `f` on the w-bit value of SA. -/
def vecOne (s : State) (i : Instr) (p : BitVec 4) (w : Width) (vd : BitVec 6) (lat : Nat) (sa : Src) (f : State → Nat → Nat) : Out :=
  runSlot s i p (fun s =>
    let a := takeSrc s sa
    match a.2.2 with
    | some e => (a.1, some e)
    | none => (a.1.toV vd w.bits lat (BitVec.ofNat 1024 (f s (low w a.2.1))), none))

/-- A slot with the sources SA and SB. -/
def vecTwo (s : State) (i : Instr) (p : BitVec 4) (w : Width) (vd : BitVec 6) (lat : Nat) (sa sb : Src) (f : Nat → Nat → Nat) : Out :=
  runSlot s i p (fun s =>
    let a := takeSrc s sa
    let b := takeSrc a.1 sb
    match firstStop [a.2.2, b.2.2] with
    | some e => (b.1, some e)
    | none => (b.1.toV vd w.bits lat (BitVec.ofNat 1024 (f (low w a.2.1) (low w b.2.1))), none))

/-- A slot with the sources SA, SB and SC. -/
def vecThree (s : State) (i : Instr) (p : BitVec 4) (w : Width) (vd : BitVec 6) (lat : Nat) (sa sb sc : Src)
    (f : Nat → Nat → Nat → Nat) : Out :=
  runSlot s i p (fun s =>
    let a := takeSrc s sa
    let b := takeSrc a.1 sb
    let c := takeSrc b.1 sc
    match firstStop [a.2.2, b.2.2, c.2.2] with
    | some e => (c.1, some e)
    | none => (c.1.toV vd w.bits lat (BitVec.ofNat 1024 (f (low w a.2.1) (low w b.2.1) (low w c.2.1))), none))

/-- Element by element over one, two and three values. -/
def map1 (w : Width) (f : Fmt) (g : Nat → Nat) (a : Nat) : Nat :=
  joinElems f.bits ((elems f.bits (lanes w f) a).map g)
def map2 (w : Width) (f : Fmt) (g : Nat → Nat → Nat) (a b : Nat) : Nat :=
  joinElems f.bits ((List.range (lanes w f)).map (fun j => g (elem f.bits a j) (elem f.bits b j)))
def map3 (w : Width) (f : Fmt) (g : Nat → Nat → Nat → Nat) (a b c : Nat) : Nat :=
  joinElems f.bits ((List.range (lanes w f)).map (fun j => g (elem f.bits a j) (elem f.bits b j) (elem f.bits c j)))

/-! ### Element operations (R403 to R411) -/

/-- The value of a floating element. -/
def fval (f : Fmt) (x : Nat) : Num := decodeF (ffmt f) x
/-- `vadd`, `vsub`, `vmul` of two elements (R405). -/
def addElem (f : Fmt) (rm : Rm) (a b : Nat) : Nat :=
  if f.isF then roundF (ffmt f) rm ((fval f a).add rm (fval f b)) else wrapN f.bits (intVal f a + intVal f b)
def subElem (f : Fmt) (rm : Rm) (a b : Nat) : Nat :=
  if f.isF then roundF (ffmt f) rm ((fval f a).add rm (fval f b).neg) else wrapN f.bits (intVal f a - intVal f b)
def mulElem (f : Fmt) (rm : Rm) (a b : Nat) : Nat :=
  if f.isF then roundF (ffmt f) rm ((fval f a).mul (fval f b)) else wrapN f.bits (intVal f a * intVal f b)
/-- `vfma` and `vfnma` round once (R406). -/
def fmaElem (f : Fmt) (rm : Rm) (a b c : Nat) : Nat :=
  roundF (ffmt f) rm (((fval f a).mul (fval f b)).add rm (fval f c))
def fnmaElem (f : Fmt) (rm : Rm) (a b c : Nat) : Nat :=
  roundF (ffmt f) rm ((fval f c).add rm ((fval f a).mul (fval f b)).neg)
/-- The sign bit of an element. -/
def signBit (f : Fmt) (x : Nat) : Bool := x.testBit (f.bits - 1)
/-- a counts as less than b (R407): −0 is less than +0. -/
def lessElem (f : Fmt) (a b : Nat) : Bool :=
  if f.isF then
    if (fval f a).isZero && (fval f b).isZero then signBit f a && !signBit f b else (fval f a).lt (fval f b)
  else decide (intVal f a < intVal f b)
/-- `vmin` and `vmax` of two elements (R407). -/
def minElem (f : Fmt) (a b : Nat) : Nat :=
  if f.isF && ((fval f a).isNan || (fval f b).isNan) then (ffmt f).nan else if lessElem f b a then b else a
def maxElem (f : Fmt) (a b : Nat) : Nat :=
  if f.isF && ((fval f a).isNan || (fval f b).isNan) then (ffmt f).nan else if lessElem f a b then b else a
/-- `vabs` and `vneg` of an element (R408). -/
def absElem (f : Fmt) (a : Nat) : Nat :=
  if f.isF then (if (fval f a).isNan then (ffmt f).nan else a % 2 ^ (f.bits - 1)) else wrapN f.bits (intVal f a).natAbs
def negElem (f : Fmt) (a : Nat) : Nat :=
  if f.isF then (if (fval f a).isNan then (ffmt f).nan else Nat.xor a (2 ^ (f.bits - 1))) else wrapN f.bits (-(intVal f a))
/-- The shifts of an element by h (R410). -/
def shlElem (f : Fmt) (a h : Nat) : Nat := if f.bits ≤ h then 0 else a * 2 ^ h % 2 ^ f.bits
def shrElem (f : Fmt) (a h : Nat) : Nat := if f.bits ≤ h then 0 else a / 2 ^ h
def sraElem (f : Fmt) (a h : Nat) : Nat := wrapN f.bits (Int.fdiv (intVal f a) (2 ^ Min.min h f.bits))
/-- A comparison of two elements (R411). -/
def vcndHolds (f : Fmt) (c : VCnd) (a b : Nat) : Bool :=
  if f.isF then
    match c with
    | .eq => (fval f a).eqv (fval f b)
    | .ne => !(fval f a).eqv (fval f b)
    | .lt => (fval f a).lt (fval f b)
    | .le => (fval f a).lt (fval f b) || (fval f a).eqv (fval f b)
    | .gt => (fval f b).lt (fval f a)
    | .ge => (fval f b).lt (fval f a) || (fval f a).eqv (fval f b)
  else
    match c with
    | .eq => decide (intVal f a = intVal f b)
    | .ne => decide (intVal f a ≠ intVal f b)
    | .lt => decide (intVal f a < intVal f b)
    | .le => decide (intVal f a ≤ intVal f b)
    | .gt => decide (intVal f b < intVal f a)
    | .ge => decide (intVal f b ≤ intVal f a)
/-- `vcmp` of two elements: all ones or zero. -/
def cmpElem (f : Fmt) (c : VCnd) (a b : Nat) : Nat := if vcndHolds f c a b then 2 ^ f.bits - 1 else 0
/-- `vsel` (R409). -/
def selBits (w : Width) (a b c : Nat) : Nat := Nat.lor (Nat.land a c) (Nat.land b (Nat.xor c (2 ^ w.bits - 1)))
/-- `vandn` (R409). -/
def andnBits (w : Width) (a b : Nat) : Nat := Nat.land a (Nat.xor b (2 ^ w.bits - 1))
/-- Element size of a conversion, T6 counted as 8 (R413). -/
def cvtSize (f : Fmt) : Nat := Max.max 8 f.bits
/-- `vcvt` of a value (R413, R414). -/
def cvtVec (w : Width) (src dst : Fmt) (rm : Rm) (sat : Bool) (a : Nat) : Nat :=
  joinElems dst.bits ((elems src.bits (w.bits / Max.max (cvtSize src) (cvtSize dst)) a).map (convert src dst rm sat))
/-- One level of the reduction tree (R415). -/
def pairUp (g : Nat → Nat → Nat) : List Nat → List Nat
  | a :: b :: r => g a b :: pairUp g r
  | r => r
/-- The reduction tree over 2^k elements. -/
def treeOf (g : Nat → Nat → Nat) : Nat → List Nat → Nat
  | 0, l => l.headD 0
  | k + 1, l => treeOf g k (pairUp g l)
/-- A reduction (R415): element 0 of the result. -/
def reduce (w : Width) (f : Fmt) (g : Nat → Nat → Nat) (a : Nat) : Nat :=
  treeOf g (Nat.log2 (lanes w f)) (elems f.bits (lanes w f) a)

/-! ### Packing and rearranging (R419 to R425) -/

/-- A value divided by the scale 2^(e − 127), or multiplied by it. -/
def Num.unscale (e : Nat) (x : Num) : Num := if e = 0xFF then .nan else x.shift (127 - (e : Int))
def Num.scale (e : Nat) (x : Num) : Num := if e = 0xFF then .nan else x.shift ((e : Int) - 127)
/-- The tapered format of a code. -/
def tfmt : Fmt → TFmt
  | .t6 => t6Fmt
  | _ => t8Fmt
/-- `xpack` (R419). -/
def packVec (w : Width) (src dst : Fmt) (e a : Nat) : Nat :=
  joinElems dst.bits ((elems src.bits (lanes w src) a).map (fun x => encodeTap (tfmt dst) ((fval src x).unscale e)))
/-- `xunpack` (R420). -/
def unpackVec (w : Width) (src dst : Fmt) (e a : Nat) : Nat :=
  joinElems dst.bits ((elems src.bits (lanes w dst) a).map (fun c => roundF (ffmt dst) .rne ((decodeTap (tfmt src) c).scale e)))
/-- `xscale` (R421). -/
def scaleVec (w : Width) (f : Fmt) (e a : Nat) : Nat := map1 w f (fun x => roundF (ffmt f) .rne ((fval f x).scale e)) a
/-- The magnitude of a value. -/
def Num.abs : Num → Num
  | .nan => .nan
  | .inf _ => .inf false
  | .fin _ n d => .fin false n d
/-- The larger of two magnitudes; NaN if either is. -/
def Num.larger (a b : Num) : Num := if a.isNan || b.isNan then .nan else if a.lt b then b else a
/-- `xmaxe` (R422). -/
def maxScale (w : Width) (f tgt : Fmt) (a b : Nat) : Nat :=
  scaleFor (decide (tgt = .t8))
    (((elems f.bits (lanes w f) a ++ elems f.bits (lanes w f) b).map (fun x => (fval f x).abs)).foldl Num.larger (.fin false 0 1))
/-- `xperm` (R423). -/
def permVec (w : Width) (f : Fmt) (a b : Nat) : Nat :=
  joinElems f.bits ((List.range (lanes w f)).map (fun j => elem f.bits a (elem f.bits b j % lanes w f)))
/-- `xrot` (R423). -/
def rotVec (w : Width) (f : Fmt) (r a : Nat) : Nat :=
  let n := lanes w f
  joinElems f.bits ((List.range n).map (fun j => elem f.bits a ((j + (n - r % n)) % n)))
/-- `xzip` (R424). -/
def zipVec (w : Width) (f : Fmt) (hi : Bool) (a b : Nat) : Nat :=
  let n := lanes w f
  let h := if hi then n / 2 else 0
  joinElems f.bits ((List.range n).map (fun j => if j % 2 = 0 then elem f.bits a (h + j / 2) else elem f.bits b (h + j / 2)))
/-- `xunzip` (R424). -/
def unzipVec (w : Width) (f : Fmt) (odd : Bool) (a b : Nat) : Nat :=
  let n := lanes w f
  joinElems f.bits ((List.range n).map (fun j =>
    let k := 2 * j + odd.toNat
    if k < n then elem f.bits a k else elem f.bits b (k - n)))
/-- `xtrans` (R425): the transpose of 2^LROWS rows. -/
def transVec (w : Width) (f : Fmt) (lrows a : Nat) : Nat :=
  let rows := 2 ^ lrows
  let cols := lanes w f / rows
  joinElems f.bits ((List.range (lanes w f)).map (fun j => elem f.bits a (j % rows * cols + j / rows)))
/-- The scale byte of a general register (R419). -/
def scaleByte (s : State) (ga : BitVec 6) : Nat := (s.cur.gr ga).toNat % 256

/-! ### The VA and VB slots -/

/-- `vadd` (R405). -/
def execVadd (p : BitVec 4) (w : Width) (fmt : Fmt) (vd : BitVec 6) (rm : Rm) (sa sb : Src) (s : State) : Out :=
  vecTwo s (.vadd p w fmt vd rm sa sb) p w vd (latVec s.t16) sa sb (map2 w fmt (addElem fmt rm))

/-- `vsub` (R405). -/
def execVsub (p : BitVec 4) (w : Width) (fmt : Fmt) (vd : BitVec 6) (rm : Rm) (sa sb : Src) (s : State) : Out :=
  vecTwo s (.vsub p w fmt vd rm sa sb) p w vd (latVec s.t16) sa sb (map2 w fmt (subElem fmt rm))

/-- `vmul` (R405). -/
def execVmul (p : BitVec 4) (w : Width) (fmt : Fmt) (vd : BitVec 6) (rm : Rm) (sa sb : Src) (s : State) : Out :=
  vecTwo s (.vmul p w fmt vd rm sa sb) p w vd (latFma s.t16) sa sb (map2 w fmt (mulElem fmt rm))

/-- `vfma` (R406). -/
def execVfma (p : BitVec 4) (w : Width) (fmt : Fmt) (vd : BitVec 6) (rm : Rm) (sa sb sc : Src) (s : State) : Out :=
  vecThree s (.vfma p w fmt vd rm sa sb sc) p w vd (latFma s.t16) sa sb sc (map3 w fmt (fmaElem fmt rm))

/-- `vfnma` (R406). -/
def execVfnma (p : BitVec 4) (w : Width) (fmt : Fmt) (vd : BitVec 6) (rm : Rm) (sa sb sc : Src) (s : State) : Out :=
  vecThree s (.vfnma p w fmt vd rm sa sb sc) p w vd (latFma s.t16) sa sb sc (map3 w fmt (fnmaElem fmt rm))

/-- `vadds` (R407). -/
def execVadds (p : BitVec 4) (w : Width) (fmt : Fmt) (vd : BitVec 6) (sa sb : Src) (s : State) : Out :=
  vecTwo s (.vadds p w fmt vd sa sb) p w vd (latVec s.t16) sa sb (map2 w fmt (fun a b => satInt fmt (intVal fmt a + intVal fmt b)))

/-- `vsubs` (R407). -/
def execVsubs (p : BitVec 4) (w : Width) (fmt : Fmt) (vd : BitVec 6) (sa sb : Src) (s : State) : Out :=
  vecTwo s (.vsubs p w fmt vd sa sb) p w vd (latVec s.t16) sa sb (map2 w fmt (fun a b => satInt fmt (intVal fmt a - intVal fmt b)))

/-- `vmin` (R407). -/
def execVmin (p : BitVec 4) (w : Width) (fmt : Fmt) (vd : BitVec 6) (sa sb : Src) (s : State) : Out :=
  vecTwo s (.vmin p w fmt vd sa sb) p w vd (latVec s.t16) sa sb (map2 w fmt (minElem fmt))

/-- `vmax` (R407). -/
def execVmax (p : BitVec 4) (w : Width) (fmt : Fmt) (vd : BitVec 6) (sa sb : Src) (s : State) : Out :=
  vecTwo s (.vmax p w fmt vd sa sb) p w vd (latVec s.t16) sa sb (map2 w fmt (maxElem fmt))

/-- `vabs` (R408). -/
def execVabs (p : BitVec 4) (w : Width) (fmt : Fmt) (vd : BitVec 6) (sa : Src) (s : State) : Out :=
  vecOne s (.vabs p w fmt vd sa) p w vd (latVec s.t16) sa (fun _ => map1 w fmt (absElem fmt))

/-- `vneg` (R408). -/
def execVneg (p : BitVec 4) (w : Width) (fmt : Fmt) (vd : BitVec 6) (sa : Src) (s : State) : Out :=
  vecOne s (.vneg p w fmt vd sa) p w vd (latVec s.t16) sa (fun _ => map1 w fmt (negElem fmt))

/-- `vand` (R409). -/
def execVand (p : BitVec 4) (w : Width) (vd : BitVec 6) (sa sb : Src) (s : State) : Out :=
  vecTwo s (.vand p w vd sa sb) p w vd (latVec s.t16) sa sb Nat.land

/-- `vor` (R409). -/
def execVor (p : BitVec 4) (w : Width) (vd : BitVec 6) (sa sb : Src) (s : State) : Out :=
  vecTwo s (.vor p w vd sa sb) p w vd (latVec s.t16) sa sb Nat.lor

/-- `vxor` (R409). -/
def execVxor (p : BitVec 4) (w : Width) (vd : BitVec 6) (sa sb : Src) (s : State) : Out :=
  vecTwo s (.vxor p w vd sa sb) p w vd (latVec s.t16) sa sb Nat.xor

/-- `vandn` (R409). -/
def execVandn (p : BitVec 4) (w : Width) (vd : BitVec 6) (sa sb : Src) (s : State) : Out :=
  vecTwo s (.vandn p w vd sa sb) p w vd (latVec s.t16) sa sb (andnBits w)

/-- `vshl` (R410). -/
def execVshl (p : BitVec 4) (w : Width) (fmt : Fmt) (vd : BitVec 6) (sa sb : Src) (s : State) : Out :=
  vecTwo s (.vshl p w fmt vd sa sb) p w vd (latVec s.t16) sa sb (map2 w fmt (shlElem fmt))

/-- `vshr` (R410). -/
def execVshr (p : BitVec 4) (w : Width) (fmt : Fmt) (vd : BitVec 6) (sa sb : Src) (s : State) : Out :=
  vecTwo s (.vshr p w fmt vd sa sb) p w vd (latVec s.t16) sa sb (map2 w fmt (shrElem fmt))

/-- `vsra` (R410). -/
def execVsra (p : BitVec 4) (w : Width) (fmt : Fmt) (vd : BitVec 6) (sa sb : Src) (s : State) : Out :=
  vecTwo s (.vsra p w fmt vd sa sb) p w vd (latVec s.t16) sa sb (map2 w fmt (sraElem fmt))

/-- `vshli` (R410). -/
def execVshli (p : BitVec 4) (w : Width) (fmt : Fmt) (vd n : BitVec 6) (sa : Src) (s : State) : Out :=
  vecOne s (.vshli p w fmt vd n sa) p w vd (latVec s.t16) sa (fun _ => map1 w fmt (fun a => shlElem fmt a n.toNat))

/-- `vshri` (R410). -/
def execVshri (p : BitVec 4) (w : Width) (fmt : Fmt) (vd n : BitVec 6) (sa : Src) (s : State) : Out :=
  vecOne s (.vshri p w fmt vd n sa) p w vd (latVec s.t16) sa (fun _ => map1 w fmt (fun a => shrElem fmt a n.toNat))

/-- `vsrai` (R410). -/
def execVsrai (p : BitVec 4) (w : Width) (fmt : Fmt) (vd n : BitVec 6) (sa : Src) (s : State) : Out :=
  vecOne s (.vsrai p w fmt vd n sa) p w vd (latVec s.t16) sa (fun _ => map1 w fmt (fun a => sraElem fmt a n.toNat))

/-- `vcmp` (R411). -/
def execVcmp (p : BitVec 4) (w : Width) (fmt : Fmt) (vd : BitVec 6) (cnd : VCnd) (sa sb : Src) (s : State) : Out :=
  vecTwo s (.vcmp p w fmt vd cnd sa sb) p w vd (latVec s.t16) sa sb (map2 w fmt (cmpElem fmt cnd))

/-- `vsel` (R409): each bit of C chooses from A or from B. -/
def execVsel (p : BitVec 4) (w : Width) (vd : BitVec 6) (sa sb sc : Src) (s : State) : Out :=
  vecThree s (.vsel p w vd sa sb sc) p w vd (latVec s.t16) sa sb sc (selBits w)

/-- `vcvt` (R413, R414). -/
def execVcvt (p : BitVec 4) (w : Width) (fmt : Fmt) (vd : BitVec 6) (rm : Rm) (sat : Bool) (src : Fmt) (sa : Src) (s : State) : Out :=
  vecOne s (.vcvt p w fmt vd rm sat src sa) p w vd (latVec s.t16) sa (fun _ => cvtVec w src fmt rm sat)

/-- `vdup` (R412): every element receives the low bits of g[GA]. -/
def execVdup (p : BitVec 4) (w : Width) (fmt : Fmt) (vd ga : BitVec 6) (s : State) : Out :=
  runSlot s (.vdup p w fmt vd ga) p (fun s =>
    (s.toV vd w.bits (latVec s.t16) (BitVec.ofNat 1024
      (joinElems fmt.bits (List.replicate (lanes w fmt) (s.cur.gr ga).toNat))), none))

/-- `vrsum` (R415). -/
def execVrsum (p : BitVec 4) (w : Width) (fmt : Fmt) (vd : BitVec 6) (sa : Src) (s : State) : Out :=
  vecOne s (.vrsum p w fmt vd sa) p w vd (latSum s.t16) sa (fun _ => reduce w fmt (addElem fmt .rne))

/-- `vrmax` (R415). -/
def execVrmax (p : BitVec 4) (w : Width) (fmt : Fmt) (vd : BitVec 6) (sa : Src) (s : State) : Out :=
  vecOne s (.vrmax p w fmt vd sa) p w vd (latRed s.t16) sa (fun _ => reduce w fmt (maxElem fmt))

/-- `vrmin` (R415). -/
def execVrmin (p : BitVec 4) (w : Width) (fmt : Fmt) (vd : BitVec 6) (sa : Src) (s : State) : Out :=
  vecOne s (.vrmin p w fmt vd sa) p w vd (latRed s.t16) sa (fun _ => reduce w fmt (minElem fmt))

/-! ### The X slot: transcendentals (R418) -/

/-- `exp.f` (R223, R224, R418). -/
def execExpF (p : BitVec 4) (w : Width) (vd : BitVec 6) (sa : Src) (s : State) : Out :=
  vecOne s (.expF p w vd sa) p w vd (latFast s.t16) sa (fun _ => map1 w .f32 (expValue true))

/-- `exp.r` (R223, R224, R418). -/
def execExpR (p : BitVec 4) (w : Width) (vd : BitVec 6) (sa : Src) (s : State) : Out :=
  vecOne s (.expR p w vd sa) p w vd (latRepro s.t16) sa (fun _ => map1 w .f32 (expValue false))

/-- `exp2.f` (R223, R224, R418). -/
def execExp2F (p : BitVec 4) (w : Width) (vd : BitVec 6) (sa : Src) (s : State) : Out :=
  vecOne s (.exp2F p w vd sa) p w vd (latFast s.t16) sa (fun _ => map1 w .f32 (exp2Value true))

/-- `exp2.r` (R223, R224, R418). -/
def execExp2R (p : BitVec 4) (w : Width) (vd : BitVec 6) (sa : Src) (s : State) : Out :=
  vecOne s (.exp2R p w vd sa) p w vd (latRepro s.t16) sa (fun _ => map1 w .f32 (exp2Value false))

/-- `log2.f` (R223, R224, R418). -/
def execLog2F (p : BitVec 4) (w : Width) (vd : BitVec 6) (sa : Src) (s : State) : Out :=
  vecOne s (.log2F p w vd sa) p w vd (latFast s.t16) sa (fun _ => map1 w .f32 (log2Value true))

/-- `log2.r` (R223, R224, R418). -/
def execLog2R (p : BitVec 4) (w : Width) (vd : BitVec 6) (sa : Src) (s : State) : Out :=
  vecOne s (.log2R p w vd sa) p w vd (latRepro s.t16) sa (fun _ => map1 w .f32 (log2Value false))

/-- `rcp.f` (R223, R224, R418). -/
def execRcpF (p : BitVec 4) (w : Width) (vd : BitVec 6) (sa : Src) (s : State) : Out :=
  vecOne s (.rcpF p w vd sa) p w vd (latFast s.t16) sa (fun _ => map1 w .f32 (rcpValue true))

/-- `rcp.r` (R223, R224, R418). -/
def execRcpR (p : BitVec 4) (w : Width) (vd : BitVec 6) (sa : Src) (s : State) : Out :=
  vecOne s (.rcpR p w vd sa) p w vd (latRepro s.t16) sa (fun _ => map1 w .f32 (rcpValue false))

/-- `rsq.f` (R223, R224, R418). -/
def execRsqF (p : BitVec 4) (w : Width) (vd : BitVec 6) (sa : Src) (s : State) : Out :=
  vecOne s (.rsqF p w vd sa) p w vd (latFast s.t16) sa (fun _ => map1 w .f32 (rsqValue true))

/-- `rsq.r` (R223, R224, R418). -/
def execRsqR (p : BitVec 4) (w : Width) (vd : BitVec 6) (sa : Src) (s : State) : Out :=
  vecOne s (.rsqR p w vd sa) p w vd (latRepro s.t16) sa (fun _ => map1 w .f32 (rsqValue false))

/-- `sqrt.f` (R223, R224, R418). -/
def execSqrtF (p : BitVec 4) (w : Width) (vd : BitVec 6) (sa : Src) (s : State) : Out :=
  vecOne s (.sqrtF p w vd sa) p w vd (latFast s.t16) sa (fun _ => map1 w .f32 (sqrtValue true))

/-- `sqrt.r` (R223, R224, R418). -/
def execSqrtR (p : BitVec 4) (w : Width) (vd : BitVec 6) (sa : Src) (s : State) : Out :=
  vecOne s (.sqrtR p w vd sa) p w vd (latRepro s.t16) sa (fun _ => map1 w .f32 (sqrtValue false))

/-- `tanh.f` (R223, R224, R418). -/
def execTanhF (p : BitVec 4) (w : Width) (vd : BitVec 6) (sa : Src) (s : State) : Out :=
  vecOne s (.tanhF p w vd sa) p w vd (latFast s.t16) sa (fun _ => map1 w .f32 (tanhValue true))

/-- `tanh.r` (R223, R224, R418). -/
def execTanhR (p : BitVec 4) (w : Width) (vd : BitVec 6) (sa : Src) (s : State) : Out :=
  vecOne s (.tanhR p w vd sa) p w vd (latRepro s.t16) sa (fun _ => map1 w .f32 (tanhValue false))

/-- `sigm.f` (R223, R224, R418). -/
def execSigmF (p : BitVec 4) (w : Width) (vd : BitVec 6) (sa : Src) (s : State) : Out :=
  vecOne s (.sigmF p w vd sa) p w vd (latFast s.t16) sa (fun _ => map1 w .f32 (sigmValue true))

/-- `sigm.r` (R223, R224, R418). -/
def execSigmR (p : BitVec 4) (w : Width) (vd : BitVec 6) (sa : Src) (s : State) : Out :=
  vecOne s (.sigmR p w vd sa) p w vd (latRepro s.t16) sa (fun _ => map1 w .f32 (sigmValue false))

/-- `sin.f` (R223, R224, R418). -/
def execSinF (p : BitVec 4) (w : Width) (vd : BitVec 6) (sa : Src) (s : State) : Out :=
  vecOne s (.sinF p w vd sa) p w vd (latFast s.t16) sa (fun _ => map1 w .f32 (sinValue true))

/-- `sin.r` (R223, R224, R418). -/
def execSinR (p : BitVec 4) (w : Width) (vd : BitVec 6) (sa : Src) (s : State) : Out :=
  vecOne s (.sinR p w vd sa) p w vd (latRepro s.t16) sa (fun _ => map1 w .f32 (sinValue false))

/-- `cos.f` (R223, R224, R418). -/
def execCosF (p : BitVec 4) (w : Width) (vd : BitVec 6) (sa : Src) (s : State) : Out :=
  vecOne s (.cosF p w vd sa) p w vd (latFast s.t16) sa (fun _ => map1 w .f32 (cosValue true))

/-- `cos.r` (R223, R224, R418). -/
def execCosR (p : BitVec 4) (w : Width) (vd : BitVec 6) (sa : Src) (s : State) : Out :=
  vecOne s (.cosR p w vd sa) p w vd (latRepro s.t16) sa (fun _ => map1 w .f32 (cosValue false))

/-! ### The X slot: packing and rearranging -/

/-- `xpack` (R419). -/
def execXpack (p : BitVec 4) (w : Width) (fmt : Fmt) (vd : BitVec 6) (src : Fmt) (sa : Src) (ga : BitVec 6) (s : State) : Out :=
  vecOne s (.xpack p w fmt vd src sa ga) p w vd (latPack s.t16) sa (fun s => packVec w src fmt (scaleByte s ga))

/-- `xunpack` (R420). -/
def execXunpack (p : BitVec 4) (w : Width) (fmt : Fmt) (vd : BitVec 6) (src : Fmt) (sa : Src) (ga : BitVec 6) (s : State) : Out :=
  vecOne s (.xunpack p w fmt vd src sa ga) p w vd (latPack s.t16) sa (fun s => unpackVec w src fmt (scaleByte s ga))

/-- `xscale` (R421). -/
def execXscale (p : BitVec 4) (w : Width) (fmt : Fmt) (vd : BitVec 6) (sa : Src) (ga : BitVec 6) (s : State) : Out :=
  vecOne s (.xscale p w fmt vd sa ga) p w vd (latPack s.t16) sa (fun s => scaleVec w fmt (scaleByte s ga))

/-- `xmaxe` (R422). -/
def execXmaxe (p : BitVec 4) (w : Width) (fmt : Fmt) (vd : BitVec 6) (tgt : Fmt) (sa sb : Src) (s : State) : Out :=
  vecTwo s (.xmaxe p w fmt vd tgt sa sb) p w vd (latPack s.t16) sa sb (maxScale w fmt tgt)

/-- `xperm` (R423). -/
def execXperm (p : BitVec 4) (w : Width) (fmt : Fmt) (vd : BitVec 6) (sa sb : Src) (s : State) : Out :=
  vecTwo s (.xperm p w fmt vd sa sb) p w vd (latPack s.t16) sa sb (permVec w fmt)

/-- `xrot` (R423): a rotation by r moves element 0 to position r. -/
def execXrot (p : BitVec 4) (w : Width) (fmt : Fmt) (vd : BitVec 6) (sa : Src) (ga : BitVec 6) (s : State) : Out :=
  vecOne s (.xrot p w fmt vd sa ga) p w vd (latPack s.t16) sa (fun s => rotVec w fmt (s.cur.gr ga).toNat)

/-- `xzip` (R424). -/
def execXzip (p : BitVec 4) (w : Width) (fmt : Fmt) (vd : BitVec 6) (hi : Bool) (sa sb : Src) (s : State) : Out :=
  vecTwo s (.xzip p w fmt vd hi sa sb) p w vd (latPack s.t16) sa sb (zipVec w fmt hi)

/-- `xunzip` (R424). -/
def execXunzip (p : BitVec 4) (w : Width) (fmt : Fmt) (vd : BitVec 6) (odd : Bool) (sa sb : Src) (s : State) : Out :=
  vecTwo s (.xunzip p w fmt vd odd sa sb) p w vd (latPack s.t16) sa sb (unzipVec w fmt odd)

/-- `xtrans` (R425). -/
def execXtrans (p : BitVec 4) (w : Width) (fmt : Fmt) (vd : BitVec 6) (lrows : BitVec 3) (sa : Src) (s : State) : Out :=
  vecOne s (.xtrans p w fmt vd lrows sa) p w vd (latPack s.t16) sa (fun _ => transVec w fmt lrows.toNat)

end Sys2Proof.Machine
end

