-- ==== Sys2Proof/Machine/Stream.lean ====
section
/-! DEFINITION. The instructions of the stream accumulator (12 R259 to R271): adds, normalising reads, the group exchange, the
seals, eviction and restore, with the effects they schedule. -/

namespace Sys2Proof.Machine

/-- The stream-accumulator fault (R257). -/
def saStop (code : Nat) : Option Stop := if code = 0 then none else some (.trap 0x0E (BitVec.ofNat 64 code))
/-- Cores of the issuing frond (R257 cause 0x06). -/
def frondSize (s : State) : Nat := (s.frond s.cur.frond).cores.length

/-- The source of an SA instruction: while its own entry is owed the bundle blocks before any check of the region (the run of
R273, log 15); then the check, then the source's own trap. -/
def saSource (s : State) (x : Src) (chk : Option Stop) (k : State → Vec → Eff) : Eff :=
  let a := takeSrc s x
  match a.2.2 with
  | some (.block w) => (a.1, some (.block w))
  | stop =>
    match chk with
    | some e => (s, some e)
    | none => match stop with | some e => (s, some e) | none => k a.1 a.2.1

/-- `sa.add` (R259): applied in its issue cycle. -/
def execSaAdd (p : BitVec 4) (w : Width) (fmt : Fmt) (ga : BitVec 6) (sa : Src) (s : State) : Out :=
  runSlot s (.saAdd p w fmt ga sa) p (fun s =>
    let ptr := (s.cur.gr ga).toNat
    let cnt := w.bits / fmt.bits
    let rd := s.sb s.curCore
    saSource s sa (saStop (saFault rd ptr .add cnt 1 (frondSize s))) (fun s v =>
      let vals := (List.range cnt).map (fun j => decodeF (ffmt fmt) (v.toNat / 2 ^ (fmt.bits * j) % 2 ^ fmt.bits))
      match addRow rd s.curCore (descAt rd (saReg ptr)) (saRow ptr) (saElem ptr) vals with
      | .error j => (s, some (.trap 0x0F (saPtr (saReg ptr) (saRow ptr) (saElem ptr + j))))
      | .ok cells => (s.saApply s.curCore cells, none)))

/-- Elements of `sa.nrd`, exact (R268). -/
def nrdElem (x : Int) (sc : Int) (gain rho : Nat) : Num :=
  (((Num.ofInt x).shift sc).mul (decodeF bf16Fmt gain)).mul (decodeF f32Fmt rho)
/-- The larger of a running magnitude and an element's; NaN prevails. -/
def maxMag (m t : Num) : Num :=
  match m, t with
  | .nan, _ => .nan
  | _, .nan => .nan
  | .inf _, _ => .inf false
  | _, .inf _ => .inf false
  | .fin _ a b, .fin _ c d => if a * d < c * b then .fin false c d else .fin false a b

/-- The result of `sa.nrd` from its exact elements (R268, R219). -/
def nrdOut (fmt : Fmt) (ts : List Num) : Nat :=
  if fmt = .t8 then
    let e := scaleFor true (ts.foldl maxMag (.fin false 0 1))
    joinElems 8 (ts.map (fun t => if e = 0xFF then 0x80 else encodeTap t8Fmt (t.shift (127 - (e : Int))))) + e * 2 ^ 256
  else joinElems fmt.bits (ts.map (roundF (ffmt fmt) .rne))

/-- `sa.nrd` (R268). -/
def execSaNrd (p : BitVec 4) (w : Width) (fmt : Fmt) (vd : BitVec 6) (sa : Src) (ga : BitVec 6) (s : State) : Out :=
  runSlot s (.saNrd p w fmt vd sa ga) p (fun s =>
    let ptr := (s.cur.gr ga).toNat
    let cnt := if fmt = .t8 then 32 else w.bits / 32
    let rd := s.sbView s.curCore s.cur.frond
    saSource s sa (saStop (saFault rd ptr .nrd cnt 1 (frondSize s))) (fun s v =>
      let d := descAt rd (saReg ptr)
      let r := saRow ptr
      let sum := if d.gsz = 1 then sbNat rd (d.row r) 16 else s.load (bufAddr s.curCore .xb (d.slot r + 16 * d.gsz)) 16
      let n := sbNat rd (d.row r + 16) 2
      let m := roundNE32 (((Num.fin false sum n).shift (2 * d.sc)).add .rne (decodeF f32Fmt d.eps))
      let rho := rsqValue false m
      let ts := (List.range cnt).map (fun j =>
        nrdElem (s48Val (sbNat rd (d.elem r (saElem ptr + j)) 6)) d.sc (v.toNat / 2 ^ (16 * j) % 2 ^ 16) rho)
      (s.toV vd w.bits (latNrd s.t16) (BitVec.ofNat 1024 (nrdOut fmt ts)), none)))

/-- The physical cores of a region's group: members are frond ranks GFR + k. -/
def groupCores (s : State) (d : SaDesc) : List Nat :=
  (List.range d.gsz).map (fun k => (s.frond s.cur.frond).cores.getD (d.gfr + k) s.curCore)

/-- `sa.sax` (R263): SS to partial entry GRK of every member. -/
def execSaSax (p : BitVec 4) (ga : BitVec 6) (s : State) : Out :=
  runSlot s (.saSax p ga) p (fun s =>
    let ptr := (s.cur.gr ga).toNat
    let rd := s.sbView s.curCore s.cur.frond
    match saStop (saFault rd ptr .sax 0 1 (frondSize s)) with
    | some e => (s, some e)
    | none =>
      let d := descAt rd (saReg ptr)
      let r := saRow ptr
      let members := groupCores s d
      let cells := members.flatMap (fun c => cellsAt (bufAddr c .xb (d.slot r + 16 * d.grk)) 16 (sbNat rd (d.row r) 16))
      (s.schedule (s.now + latMcast s.t16 (sameColumn s.curCore members) + d.grk / 8) s.curCore (.mcast members cells), none))

/-! ### Seals (R264 to R267) -/

/-- The row count of a seal. -/
def sealCount (s : State) (gb : BitVec 6) : Nat := (s.cur.gr gb).toNat % 2 ^ 14

/-- A fold is scheduled at t + F (R265). -/
def scheduleFold (s : State) (ga gb : BitVec 6) : Eff :=
  let ptr := (s.cur.gr ga).toNat
  let c := sealCount s gb
  let rd := s.sb s.curCore
  match saStop (saFault rd ptr .seal_ 0 c (frondSize s)) with
  | some e => (s, some e)
  | none =>
    let d := descAt rd (saReg ptr)
    (s.schedule (s.now + 2 + (c * d.nel + 31) / 32) s.curCore (.fold s.curCtx (saReg ptr) (saRow ptr) c), none)

/-- `sa.seal.c` (R265). -/
def execSaSealC (p : BitVec 4) (ga gb : BitVec 6) (s : State) : Out :=
  runSlot s (.saSealC p ga gb) p (fun s => scheduleFold s ga gb)

/-- `sa.seal.g` (R266): the group sums are formed at t + 2. -/
def execSaSealG (p : BitVec 4) (ga gb : BitVec 6) (s : State) : Out :=
  runSlot s (.saSealG p ga gb) p (fun s =>
    let ptr := (s.cur.gr ga).toNat
    let c := sealCount s gb
    let rd := s.sb s.curCore
    match saStop (saFault rd ptr .sealG 0 c (frondSize s)) with
    | some e => (s, some e)
    | none =>
      let d := descAt rd (saReg ptr)
      (s.schedule (s.now + 2) s.curCore (.gsum d.xtab d.gsz (saRow ptr) c), none))

/-- `sa.seal.p` (R267): a fold, and a fence of package scope whose set holds it. -/
def execSaSealP (p : BitVec 4) (ga gb : BitVec 6) (s : State) : Out :=
  runSlot s (.saSealP p ga gb) p (fun s =>
    match scheduleFold s ga gb with
    | (t, some e) => (t, some e)
    | (t, none) => (t.updCur (fun c => { c with staged := { c.staged with fences := c.staged.fences ++ [.pkg] } }), none))

/-- The deltas of a row with its elements: places, elements and deltas. -/
def rowDeltas (rd : Nat → Byte) (d : SaDesc) (r : Nat) : List (Nat × Int × Int) :=
  (List.range d.nel).map (fun e => (e, s48Val (sbNat rd (d.elem r e) 6), s48Val (sbNat rd (d.delta r e) 6)))

/-- One row folded (R265). -/
def foldRow (s : State) (c : Nat) (d : SaDesc) (r : Nat) : State :=
  let rd := s.sb c
  let l := rowDeltas rd d r
  let ss := l.foldl (fun a x => a + 2 * x.2.1 * x.2.2 + x.2.2 * x.2.2) (sbNat rd (d.row r) 16 : Int)
  let s := s.saApply c (l.flatMap (fun x => sbCells c (d.elem r x.1) 6 (wrapN 48 (x.2.1 + x.2.2))) ++
    sbCells c (d.row r) 16 (wrapN 128 ss))
  let s := s.timedWrite (l.flatMap (fun x => sbCells c (d.delta r x.1) 6 0))
  let a := bufAddr c .sb (d.row r + 19)
  s.setByte a (s.byte a &&& 0xFE#8)

/-- The fold of cnt rows from row (R265), and the records of its failures. -/
def foldRows (s : State) (c k f reg row cnt : Nat) : State :=
  let rd := s.sb c
  let d := descAt rd reg
  let rows := ((List.range cnt).map (fun i => row + i)).filter (fun r => decide (r < d.nrow))
  if !d.ok then s
  else
    let bad := if d.ibp then rows.find? (fun r => (rowDeltas rd d r).any (fun x => !inS48 (x.2.1 + x.2.2))) else none
    let s := match bad with
      | some r => s.holdOverflow c k f (saPtr reg r 0) true
      | none => if d.ibp then rows.foldl (fun s r => foldRow s c d r) s else s
    let flag (r : Nat) : Nat := bufAddr c .sb (d.row r + 19)
    let s := match rows.find? (fun r => (s.byte (flag r)).getLsbD 1) with
      | some r => s.holdOverflow c k f (saPtr reg r 0) true
      | none => s
    rows.foldl (fun s r => s.setByte (flag r) (s.byte (flag r) &&& 0xFD#8)) s

/-- Group sums of the slots of cnt rows (R266). -/
def groupSums (s : State) (c xtab gsz row cnt : Nat) : List Host.Cell :=
  (List.range cnt).flatMap (fun i =>
    let base := xtab + 16 * (gsz + 1) * ((row + i) % 16)
    let sum := (List.range gsz).foldl (fun a k => a + s.load (bufAddr c .xb (base + 16 * k)) 16) 0
    cellsAt (bufAddr c .xb (base + 16 * gsz)) 16 (sum % 2 ^ 128))

/-! ### Eviction and restore (R269 to R271) -/

/-- STR32. -/
def SaDesc.str32 (d : SaDesc) : Nat := roundUp (32 + 4 * d.nel) 64

/-- A byte of the SAE32 image as SB stands (R271): SS is written as zero. -/
def imageByte (rd : Nat → Byte) (d : SaDesc) (o : Nat) : Byte :=
  if o < 64 then rd (d.reg + o)
  else
    let r := (o - 64) / d.str32
    let b := (o - 64) % d.str32
    if b < 16 then 0
    else if b < 32 then rd (d.row r + b)
    else
      let e := (b - 32) / 4
      if d.nel ≤ e then 0
      else
        let x := s48Val (sbNat rd (d.elem r e) 6)
        let dl := if d.ibp then s48Val (sbNat rd (d.delta r e) 6) else 0
        BitVec.ofNat 8 (fromS48 (x + dl) d.sc / 2 ^ (8 * (b % 4)))

/-- The checks of `cpy.ev` and `cpy.rs` (R269, R271, R446). -/
def saeChecks (s : State) (t : Tile) (a : Int) (store sae32 : Bool) (buf : Buf) (reg : Nat) : List (Option Stop) :=
  let d := descAt (s.sb s.curCore) reg
  [check (decide (buf ≠ .sb) || (store && sae32 && !d.ok)) (copyFault 0x02),
   check (spanBad t .sb reg || (store && sae32 && decide (t.bytes ≠ 64 + d.nrow * d.str32))) (copyFault 0x03),
   check (gaddrBad t a) (copyFault 0x04), check (alignBad t a store) (copyFault 0x05), check (sideBad s t a) (copyFault 0x06),
   translateBad s t a (if store then .wr else .rd)]

/-- `cpy.ev` (R269 to R271). -/
def execCpyEv (p yr ar : BitVec 4) (sae32 : Bool) (buf : Buf) (soff : BitVec 14) (s : State) : Out :=
  runSlot s (.cpyEv p yr ar sae32 buf soff) p (fun s =>
    let a := (s.cur.ar ar).toInt
    let reg := 64 * soff.toNat
    withChecks s (tileOf s yr) [] (fun t => saeChecks s t a true sae32 buf reg)
      (fun t =>
        let l := copyLat s t a
        let claim : Claim := (s.curCore, false, s.now)
        if !sae32 then
          timedCopy s t.chunks [claim] s.now (s.now + l) (fun i => (t.storeChunk i (bufAddr s.curCore .sb reg) (sidePhys s t a), []))
        else if claimBad s t.chunks claim then (s, some (copyFault 0x07))
        else
          ((List.range t.chunks).foldl (fun s i =>
            let moves := t.storeChunk i 0 (sidePhys s t a)
            let u := s.scheduleSpan (s.now + l + 2 * i) s.curCore (lineStarts (moves.map Move.dst)) (.chunkLand [])
            u.schedule (s.now + 2 * i) s.curCore (.evict reg moves s.seqno))
            (holdPort s t.chunks claim), none)))

/-- `cpy.rs` (R269 to R271). -/
def execCpyRs (p yr ar : BitVec 4) (sae32 : Bool) (buf : Buf) (soff : BitVec 14) (s : State) : Out :=
  runSlot s (.cpyRs p yr ar sae32 buf soff) p (fun s =>
    let a := (s.cur.ar ar).toInt
    let reg := 64 * soff.toNat
    withChecks s (tileOf s yr) [] (fun t => saeChecks s t a false sae32 buf reg)
      (fun t =>
        let l := copyLat s t a
        let claim : Claim := (s.curCore, true, s.now + l)
        let ord := s.seqno
        if claimBad s t.chunks claim then (s, some (copyFault 0x07))
        else
          ((List.range t.chunks).foldl (fun s i =>
            let c := t.loadChunk i 0 (sidePhys s t a)
            let u := s.scheduleFor (s.now + l + 2 * i) s.curCore s.curCtx s.cur.frond ord (.restore sae32 reg i [] c.2)
              (lineStarts (c.1.map Move.src)) s.cur.pageToken
            u.scheduleFor (s.now + l / 2 + 2 * i) s.curCore s.curCtx s.cur.frond ord (.chunkRead c.1 s.seqno) [] s.cur.pageToken)
            (holdPort s t.chunks claim).bump, none)))

/-- A restored region with a plane takes its directory entry (R261, R270). -/
def State.setInbound (s : State) (c : Nat) (d : SaDesc) : State :=
  if d.vld && d.ibp then s.updCore c (fun x => { x with inbound := SMap.put 0x3FFFF x.inbound d.islot d.reg }) else s

/-- The new S48 of an element landing as FP32 (R271). -/
def restoredElem (x : Nat) (sc : Int) : Int :=
  match decodeF f32Fmt x with
  | .nan => 0
  | .inf neg => if neg then -(2 ^ 47) else 2 ^ 47 - 1
  | v => satS48 ((toS48 v sc).getD 0)

/-- Elements, plane and header of one row from the image bytes of a chunk: the state, and what later chunks need of the
row. -/
def restoreRow (s : State) (c : Nat) (d : SaDesc) (img : List Host.Cell) (carry : List (Nat × Nat × Bool)) (r : Nat) :
    State × Option (Nat × Nat × Bool) :=
  let base := 64 + r * d.str32
  let at_ (o : Nat) : Option Byte := (img.find? (fun e => decide (e.1 = o))).map Prod.snd
  let word (o : Nat) : Nat := leNat ((List.range 4).map (fun j => (at_ (o + j)).getD 0))
  let here := (List.range d.nel).filter (fun e => (at_ (base + 32 + 4 * e)).isSome)
  let old := (carry.find? (fun x => decide (x.1 = r))).map Prod.snd
  let hdr := if (at_ (base + 16)).isSome then leNat ((List.range 3).map (fun j => (at_ (base + 16 + j)).getD 0))
             else (old.map Prod.fst).getD 0
  let nan := here.any (fun e => (decodeF f32Fmt (word (base + 32 + 4 * e))).isNan) || (old.map Prod.snd).getD false
  let s := s.saRestore c (here.flatMap (fun e =>
    sbCells c (d.elem r e) 6 (wrapN 48 (restoredElem (word (base + 32 + 4 * e)) d.sc)) ++
    (if d.ibp then sbCells c (d.delta r e) 6 0 else [])))
  if (at_ (base + d.str32 - 1)).isSome then
    let ss := (List.range d.nel).foldl (fun a e =>
      let x := s48Val (sbNat (s.sb c) (d.elem r e) 6)
      a + x * x) (0 : Int)
    (s.saRestore c (sbCells c (d.row r) 32 (wrapN 128 ss + hdr * 2 ^ 128 + nan.toNat * 2 ^ 154)), none)
  else (s, if here.isEmpty && (at_ (base + 16)).isNone && old.isNone then none else some (r, hdr, nan))

/-- The landing of a restore's chunk (R270, R271): the state, and what the next chunk needs. -/
def restoreChunk (s : State) (c : Nat) (sae32 : Bool) (reg i : Nat) (carry : List (Nat × Nat × Bool)) (img : List Host.Cell) :
    State × List (Nat × Nat × Bool) :=
  if !sae32 then
    let s := s.saRestore c (img.map (fun e => (bufAddr c .sb (reg + e.1), e.2)))
    (if i = 0 then s.setInbound c (descAt (s.sb c) reg) else s, [])
  else
    let s := if i = 0 then s.saRestore c ((img.filter (fun e => decide (e.1 < 64))).map (fun e => (bufAddr c .sb (reg + e.1), e.2))) else s
    let d := descAt (s.sb c) reg
    if !d.ok then
      let a := bufAddr c .sb (reg + 6)
      (if i = 0 then s.setByte a (s.byte a &&& 0xEF#8) else s, [])
    else
      let s := if i = 0 then s.setInbound c d else s
      let lo := 512 * i
      let rows := (List.range d.nrow).filter (fun r => decide (64 + r * d.str32 < lo + 512 ∧ lo < 64 + (r + 1) * d.str32))
      rows.foldl (fun a r =>
        let x := restoreRow a.1 c d img carry r
        (x.1, a.2 ++ x.2.toList)) (s, [])

/-! ### Lines of a restore that take their new value before its landing (R182) -/

/-- Destinations of the bytes that a chunk's read is still to bring. -/
def State.awaited (s : State) (id : Nat) : List Nat :=
  s.calendar.flatMap (fun t =>
    match t.act with
    | .chunkRead moves land | .evict _ moves land => if land = id then moves.map Move.dst else []
    | .sample _ n (.chunk land) => if land = id then List.range n else []
    | _ => [])
/-- What a restore's chunk finds when its earlier chunks have landed: the state, and what they leave for it. -/
def State.restoreAhead (s : State) (t : Timed) (i : Nat) (carry : List (Nat × Nat × Bool)) : State × List (Nat × Nat × Bool) :=
  let r := s.calendar.foldl (fun (a : State × Option (List (Nat × Nat × Bool))) q =>
    match q.act with
    | .restore w reg j c cells =>
      if q.ord = t.ord ∧ j < i then
        let x := restoreChunk a.1 q.core w reg j (a.2.getD c) cells
        (x.1, some x.2)
      else a
    | _ => a) (s, none)
  (r.1, r.2.getD carry)
/-- SB offsets, ends of fields, that chunk i of an SAE32 image writes. -/
def restoreSpan (d : SaDesc) (i : Nat) : List Nat :=
  let inside (o : Nat) : Bool := decide (512 * i ≤ o ∧ o < 512 * i + 512)
  (if i = 0 then [d.reg] else []) ++
  (if !d.ok then []
   else
     (List.range d.nrow).flatMap (fun r =>
       ((List.range d.nel).filter (fun e => inside (64 + r * d.str32 + 32 + 4 * e))).flatMap (fun e =>
         [d.elem r e, d.elem r e + 5] ++ (if d.ibp then [d.delta r e, d.delta r e + 5] else [])) ++
       (if inside (64 + (r + 1) * d.str32 - 1) then [d.row r] else [])))
/-- Lines of a restore's chunk whose new value is known: those whose image bytes are there; of an SAE32 image, those of a chunk of which, as of the
chunks before it, all bytes are. -/
def State.restoreLines (s : State) (t : Timed) : List Nat :=
  match t.act with
  | .restore w reg i carry cells =>
    let line (o : Nat) : Nat := lineOf (bufAddr t.core .sb o)
    let l :=
      if !w then
        let late := (s.awaited t.id).map (fun o => line (reg + o))
        (cells.map (fun c => line (reg + c.1))).filter (fun n => !late.contains n)
      else if s.calendar.any (fun q =>
          match q.act with
          | .restore _ _ j _ _ => decide (q.ord = t.ord ∧ j ≤ i) && !(s.awaited q.id).isEmpty
          | _ => false) then []
      else
        let a := s.restoreAhead t i carry
        (restoreSpan (descAt ((restoreChunk a.1 t.core w reg i a.2 cells).1.sb t.core) reg) i).map line
    l.eraseDups.filter (fun n => !t.landed.contains n)
  | _ => []
/-- One of them takes its new value. -/
def State.landRestoreLine (s : State) (t : Timed) (n : Nat) : State :=
  match t.act with
  | .restore w reg i carry cells =>
    let a := s.restoreAhead t i carry
    let r := (restoreChunk a.1 t.core w reg i a.2 cells).1
    let l := ((List.range 64).map (fun j => 64 * n + j)).filter (fun pa => decide (r.byte pa ≠ a.1.byte pa))
    ({ s with calendar := s.calendar.map (fun q : Timed => if q.id = t.id then { q with landed := q.landed ++ [n] } else q) }).saRestore
      t.core (l.map (fun pa => (pa, r.byte pa)))
  | _ => s

end Sys2Proof.Machine
end

