-- ==== Sys2Proof/Machine/Landing.lean ====
section
/-! DEFINITION. What falls due by the calendar (07 R12, R154, R159, R162; 08 R170, R171, R181; 09 R193; 11 R242, R243; 12 R260,
R265, R266, R271), and the ends of holds and freezes (R36, R377, R382). -/

namespace Sys2Proof.Machine

/-- Bytes put into a waiting action: the value of a delivery, or the bytes of a chunk. -/
def State.fillTimed (s : State) (id : Nat) (f : TAct → TAct) : State :=
  { s with calendar := s.calendar.map (fun t : Timed => if t.id = id then { t with act := f t.act } else t) }
/-- Bytes join a chunk's landing. -/
def joinChunk (cells : List Host.Cell) : TAct → TAct
  | .chunkLand l => .chunkLand (l ++ cells)
  | .restore w reg i carry l => .restore w reg i carry (l ++ cells)
  | a => a

/-- `RESULT_LANDING` (R12, R152): the value lands in its physical register, and a bank that waited for it settles (R159). -/
def execResultLanding (core ctx id : Nat) (s : State) : Out :=
  .next (s.updCtx core ctx (fun x =>
    match x.inflight.find? (fun r => decide (r.id = id) && r.old.isNone) with
    | none => x
    | some r =>
      ({ x.writeReg r.file r.reg r.width (r.value.getD 0) with
          inflight := x.inflight.map (fun q : Result => if q.id = id then { q with old := some (x.regVal r.file r.reg) } else q) }).settleBanks))

/-- `QUEUE_DELIVERY` (R154, R437): an engine's delivery, or the response of an untimed atomic, enters its queue. A delivery for
a context that no longer runs the item is dropped. -/
def execQueueDelivery (id : Nat) (s : State) : Out :=
  match s.timed id with
  | some t =>
    match t.act with
    | .deliver k q e =>
      let u := s.unschedule id
      .next (if u.keeps t.frond t.core k then u.deliver t.core k q t.ord e else u)
    | _ => .next s
  | none => .next (s.respond id)

/-- `BANK_WAKE_DONE` (R159). -/
def execBankWakeDone (core ctx bank : Nat) (s : State) : Out := .next (s.updCtx core ctx (fun x => x.wakeBank bank))

/-- `TIMED_WRITE_LANDING` (R170, R434): bytes land, or a scratchpad atomic takes its one step. -/
def execTimedWriteLanding (id : Nat) (s : State) : Out :=
  match s.timed id with
  | some t =>
    match t.act with
    | .write _ cells => .next ((s.unschedule id).landAs (s.core t.core).world cells)
    | .atom k rid pa n aop v cmp =>
      let old := s.load pa n
      let new := atomNew aop (8 * n) old (v.toNat % 2 ^ (8 * n)) (cmp.toNat % 2 ^ (8 * n))
      .next (((s.unschedule id).timedWrite (cellsAt pa n new)).fill t.core k rid (BitVec.ofNat 1024 old))
    | _ => .next s
  | none => .next s

/-- The address lies in the scratchpad of a fenced core, which no one reads (R136). -/
def State.fencedAt (s : State) (pa : Nat) : Bool := match region pa with | .spad c _ => (s.core c).fenced | _ => false
/-- `TIMED_READ_SAMPLE` (R170, R193, R271): the bytes read go to a result, a later delivery or a later landing. -/
def execTimedReadSample (id : Nat) (s : State) : Out :=
  match s.timed id with
  | some t =>
    let u := s.unschedule id
    match t.act with
    | .sample pa n dst =>
      match s.badRead ((List.range n).map (fun i => pa + i)) with
      | some b => .next (u.uncorrectable b t.requester t.token 0)
      | none =>
      let seen := s.seenBy (s.core t.core).world ((List.range n).map (fun i => pa + i))
      let v := BitVec.ofNat 1024 (seen.load pa n)
      match dst with
      | .result k rid => .next (u.fill t.core k rid v)
      | .entry d => .next (u.fillTimed d (fun a => match a with | .deliver k q _ => .deliver k q (.data v) | a => a))
      | .chunk l => .next (u.fillTimed l (joinChunk ((List.range n).map (fun i => (i, seen.byte (pa + i))))))
    | .chunkRead moves land =>
      let good := moves.filter (fun m => (s.badRead [m.src]).isNone && !s.fencedAt m.src)
      let seen := s.seenBy (s.core t.core).world (good.map Move.src)
      let v := u.fillTimed land (joinChunk (good.map (fun m => (m.dst, seen.byte m.src))))
      match s.badRead (moves.map Move.src) with
      | some b => .next (v.uncorrectable b t.requester t.token 0)
      | none => .next v
    | .evict reg moves land =>
      let rd := s.sb t.core
      let d := descAt rd reg
      .next (u.fillTimed land (joinChunk (moves.map (fun m => (m.dst, imageByte rd d m.src)))))
    | _ => .next s
  | none => .next s

/-- `TIMED_CHUNK_LANDING` (R193, R270, R271). -/
def execTimedChunkLanding (id : Nat) (s : State) : Out :=
  match s.timed id with
  | some t =>
    let u := s.unschedule id
    match t.act with
    | .chunkLand cells => .next (u.landAs (s.core t.core).world cells)
    | .restore w reg i carry cells =>
      let r := restoreChunk u t.core w reg i carry cells
      -- lines that took their new value before (R182) stay as they are
      let v := r.1.writeCells ((t.landed.flatMap (fun n => (List.range 64).map (fun j => 64 * n + j))).map (fun pa => (pa, s.byte pa)))
      .next { v with calendar := v.calendar.map (fun q : Timed =>
        match q.act with
        | .restore w' reg' j _ l => if q.ord = t.ord ∧ j = i + 1 then { q with act := .restore w' reg' j r.2 l } else q
        | _ => q) }
    | _ => .next s
  | none => .next s

/-- `MULTICAST_LANDING` (R181, R385): every target takes the bytes in one cycle, and its contexts' latches are set. -/
def execMulticastLanding (id : Nat) (s : State) : Out :=
  match s.timed id with
  | some t =>
    match t.act with
    | .mcast targets cells => .next (targets.foldl State.latchCore ((s.unschedule id).timedWrite cells))
    | _ => .next s
  | none => .next s

/-- `DRAIN_ROW_LANDING` (R242, R243, R260): rows land in CB, or are added into SB; with an overflow this pair and the later ones
commit nothing and the issuer's record is formed. -/
def execDrainRowLanding (id : Nat) (s : State) : Out :=
  match s.timed id with
  | some t =>
    let u := s.unschedule id
    match t.act with
    | .drainCb cells => .next (u.timedWrite cells)
    | .drainSb k reg row sel rows call =>
      match u.addRows t.core reg row sel rows with
      | some v => .next v
      | none =>
        let v := { u with calendar := u.calendar.filter (fun q =>
          match q.act with | .drainSb _ _ _ _ _ call' => decide (¬ (q.core = t.core ∧ call' = call)) | _ => true) }
        .next (v.holdOverflow t.core k t.frond (saPtr reg row sel) false)
    | _ => .next s
  | none => .next s

/-- `SA_FOLD` (R265). -/
def execSaFold (id : Nat) (s : State) : Out :=
  match s.timed id with
  | some t =>
    match t.act with
    | .fold k reg row cnt => .next (foldRows (s.unschedule id) t.core k t.frond reg row cnt)
    | _ => .next s
  | none => .next s

/-- `SA_GROUP_SUM` (R266): the partial entries are sampled after the landings of the cycle, and the sums land in the next, in
which a read sees them. -/
def execSaGroupSum (id : Nat) (s : State) : Out :=
  match s.timed id with
  | some t =>
    match t.act with
    | .gsum xtab gsz row cnt => 
      .next ((s.unschedule id).scheduleFor (s.now + 1) t.core t.ctx t.frond t.ord (.write 3 (groupSums s t.core xtab gsz row cnt)))
    | _ => .next s
  | none => .next s

/-- `FREEZE_END` (R36, R143): domain time resumes, and an abort that an error during the freeze asked for is made. Arrivals and
bit settings held for the frozen cores become possible again with the end of the freeze (R206). -/
def execFreezeEnd (frond : Nat) (s : State) : Out :=
  match (s.frond frond).thawAbort with
  | some why => .next ((s.updFrond frond (fun f => { f with thawAbort := none })).abortFrond frond why)
  | none => .next s

/-- `TKALIGN_RELEASE` (R377). -/
def execTkalignRelease (core ctx : Nat) (s : State) : Out :=
  .next (s.updCtx core ctx (fun x => if x.hold.any (fun h => decide (h ≤ s.now)) then { x with hold := none } else x))

/-- `SIG_WAIT_REPOST` (R382): the next read is posted, as an ordered event. -/
def execSigWaitRepost (core ctx : Nat) (s : State) : Out :=
  let x := s.ctx core ctx
  match x.sig with
  | some (.repost a) =>
    let b : Access := { a with id := s.seqno, tag := [], err := false, done := none }
    let s := s.bump.updCtx core ctx (fun x => { x with sig := some (.posted b.id) })
    .next (if x.holds then
        s.updCtx core ctx (fun y => { y with heldev := y.heldev ++ [{ id := b.id, fences := x.holding, ev := .post b }] })
      else s.post b)
  | _ => .next s

/-- `LANDING_ENTRY` (R307): the checks of an entry, and the bundle inside the version entered; a failed check is a trap whose
resume point stays the entry. -/
def execLandingEntry (core ctx : Nat) (s : State) : Out :=
  match (s.ctx core ctx).point with
  | .entry page idx kind =>
    match s.enter core page idx kind with
    | .error (cause, x) => .next (s.takeTrap core ctx cause x 0)
    | .ok (base, o) => .next (s.updCtx core ctx (fun c => { c with point := .inside page base idx o }))
  | .inside _ _ _ _ => .next s

end Sys2Proof.Machine
end

