-- ==== Sys2Proof/Machine/Scalar.lean ====
section
/-! DEFINITION. The instructions of the IA and IB slots (17 R390 to R398). Each reads its operands at issue, and its result
lands after its latency (R371). None traps on a value (R372). -/

namespace Sys2Proof.Machine

/-- A result for gD. -/
def writeG (s : State) (p : BitVec 4) (gd : BitVec 6) (lat : Nat) (v : Word) : Out :=
  runScalar s p (countG gd) (fun s => s.toG gd lat v)

/-- A result for pD. -/
def writeP (s : State) (p pd : BitVec 4) (b : Bool) : Out :=
  runScalar s p (countP pd) (fun s => s.toP pd (latInt s.t16) b)

/-- `add` (R390). -/
def execAdd (p : BitVec 4) (gd ga gb : BitVec 6) (s : State) : Out :=
  writeG s p gd (latInt s.t16) (s.cur.gr ga + s.cur.gr gb)

/-- `sub` (R390). -/
def execSub (p : BitVec 4) (gd ga gb : BitVec 6) (s : State) : Out :=
  writeG s p gd (latInt s.t16) (s.cur.gr ga - s.cur.gr gb)

/-- `adds` (R390). -/
def execAdds (p : BitVec 4) (gd ga gb : BitVec 6) (sg : Bool) (s : State) : Out :=
  writeG s p gd (latInt s.t16) (sat64 sg (rd64 sg (s.cur.gr ga) + rd64 sg (s.cur.gr gb)))

/-- `subs` (R390). -/
def execSubs (p : BitVec 4) (gd ga gb : BitVec 6) (sg : Bool) (s : State) : Out :=
  writeG s p gd (latInt s.t16) (sat64 sg (rd64 sg (s.cur.gr ga) - rd64 sg (s.cur.gr gb)))

/-- `mul` (R391). -/
def execMul (p : BitVec 4) (gd ga gb : BitVec 6) (s : State) : Out :=
  writeG s p gd (latMul s.t16) (s.cur.gr ga * s.cur.gr gb)

/-- `mulh` (R391): bits 127:64 of the signed product. -/
def execMulh (p : BitVec 4) (gd ga gb : BitVec 6) (s : State) : Out :=
  writeG s p gd (latMul s.t16) (wrap64 ((s.cur.gr ga).toInt * (s.cur.gr gb).toInt / 2 ^ 64))

/-- `mulhn` (R391): bits 127:64 of the unsigned product. -/
def execMulhn (p : BitVec 4) (gd ga gb : BitVec 6) (s : State) : Out :=
  writeG s p gd (latMul s.t16) (BitVec.ofNat 64 ((s.cur.gr ga).toNat * (s.cur.gr gb).toNat / 2 ^ 64))

/-- `div` (R393). -/
def execDiv (p : BitVec 4) (gd ga gb : BitVec 6) (sg : Bool) (s : State) : Out :=
  writeG s p gd (latDiv s.t16) (divide sg (s.cur.gr ga) (s.cur.gr gb))

/-- `rem` (R393). -/
def execRem (p : BitVec 4) (gd ga gb : BitVec 6) (sg : Bool) (s : State) : Out :=
  writeG s p gd (latDiv s.t16) (remainder sg (s.cur.gr ga) (s.cur.gr gb))

/-- `addi` (R390): the immediate is signed. -/
def execAddi (p : BitVec 4) (gd ga : BitVec 6) (imm : BitVec 9) (s : State) : Out :=
  writeG s p gd (latInt s.t16) (s.cur.gr ga + sx imm)

/-- `xori` (R394): the immediate is unsigned. -/
def execXori (p : BitVec 4) (gd ga : BitVec 6) (imm : BitVec 9) (s : State) : Out :=
  writeG s p gd (latInt s.t16) (s.cur.gr ga ^^^ zx imm)

/-- `andi` (R394). -/
def execAndi (p : BitVec 4) (gd ga : BitVec 6) (imm : BitVec 9) (s : State) : Out :=
  writeG s p gd (latInt s.t16) (s.cur.gr ga &&& zx imm)

/-- `ori` (R394). -/
def execOri (p : BitVec 4) (gd ga : BitVec 6) (imm : BitVec 9) (s : State) : Out :=
  writeG s p gd (latInt s.t16) (s.cur.gr ga ||| zx imm)

/-- `and` (R394). -/
def execAnd (p : BitVec 4) (gd ga gb : BitVec 6) (s : State) : Out :=
  writeG s p gd (latInt s.t16) (s.cur.gr ga &&& s.cur.gr gb)

/-- `or` (R394). -/
def execOr (p : BitVec 4) (gd ga gb : BitVec 6) (s : State) : Out :=
  writeG s p gd (latInt s.t16) (s.cur.gr ga ||| s.cur.gr gb)

/-- `xor` (R394). -/
def execXor (p : BitVec 4) (gd ga gb : BitVec 6) (s : State) : Out :=
  writeG s p gd (latInt s.t16) (s.cur.gr ga ^^^ s.cur.gr gb)

/-- `shli` (R394). -/
def execShli (p : BitVec 4) (gd ga n : BitVec 6) (s : State) : Out :=
  writeG s p gd (latInt s.t16) ((s.cur.gr ga) <<< n.toNat)

/-- `shri` (R394). -/
def execShri (p : BitVec 4) (gd ga n : BitVec 6) (s : State) : Out :=
  writeG s p gd (latInt s.t16) ((s.cur.gr ga) >>> n.toNat)

/-- `srai` (R394). -/
def execSrai (p : BitVec 4) (gd ga n : BitVec 6) (s : State) : Out :=
  writeG s p gd (latInt s.t16) ((s.cur.gr ga).sshiftRight n.toNat)

/-- `roti` (R394): toward the most significant end. -/
def execRoti (p : BitVec 4) (gd ga n : BitVec 6) (s : State) : Out :=
  writeG s p gd (latInt s.t16) ((s.cur.gr ga).rotateLeft n.toNat)

/-- `shl` (R394): 0 from 64 on. -/
def execShl (p : BitVec 4) (gd ga gb : BitVec 6) (s : State) : Out :=
  writeG s p gd (latInt s.t16) (if 64 ≤ (s.cur.gr gb).toNat then 0 else (s.cur.gr ga) <<< (s.cur.gr gb).toNat)

/-- `shr` (R394): 0 from 64 on. -/
def execShr (p : BitVec 4) (gd ga gb : BitVec 6) (s : State) : Out :=
  writeG s p gd (latInt s.t16) (if 64 ≤ (s.cur.gr gb).toNat then 0 else (s.cur.gr ga) >>> (s.cur.gr gb).toNat)

/-- `sra` (R394): by at most 64. -/
def execSra (p : BitVec 4) (gd ga gb : BitVec 6) (s : State) : Out :=
  writeG s p gd (latInt s.t16) ((s.cur.gr ga).sshiftRight (Min.min (s.cur.gr gb).toNat 64))

/-- `rot` (R394): by b mod 64. -/
def execRot (p : BitVec 4) (gd ga gb : BitVec 6) (s : State) : Out :=
  writeG s p gd (latInt s.t16) ((s.cur.gr ga).rotateLeft ((s.cur.gr gb).toNat % 64))

/-- `bfx` (R395). -/
def execBfx (p : BitVec 4) (gd ga gb : BitVec 6) (s : State) : Out :=
  writeG s p gd (latBits s.t16) (extractField (s.cur.gr ga) (s.cur.gr gb))

/-- `bfxs` (R395). -/
def execBfxs (p : BitVec 4) (gd ga gb : BitVec 6) (s : State) : Out :=
  writeG s p gd (latBits s.t16) (extractSigned (s.cur.gr ga) (s.cur.gr gb))

/-- `bfi` (R395); it also reads gD. -/
def execBfi (p : BitVec 4) (gd ga gb : BitVec 6) (s : State) : Out :=
  writeG s p gd (latBits s.t16) (insertField (s.cur.gr gd) (s.cur.gr ga) (s.cur.gr gb))

/-- `fsh` (R395); it also reads gD. -/
def execFsh (p : BitVec 4) (gd ga gb : BitVec 6) (s : State) : Out :=
  writeG s p gd (latBits s.t16) (funnel (s.cur.gr gd) (s.cur.gr ga) (s.cur.gr gb))

/-- `popc` (R396). -/
def execPopc (p : BitVec 4) (gd ga : BitVec 6) (s : State) : Out :=
  writeG s p gd (latBits s.t16) (BitVec.ofNat 64 (popCount (s.cur.gr ga)))

/-- `clz` (R396). -/
def execClz (p : BitVec 4) (gd ga : BitVec 6) (s : State) : Out :=
  writeG s p gd (latBits s.t16) (BitVec.ofNat 64 (leadingZeros (s.cur.gr ga)))

/-- `ctz` (R396). -/
def execCtz (p : BitVec 4) (gd ga : BitVec 6) (s : State) : Out :=
  writeG s p gd (latBits s.t16) (BitVec.ofNat 64 (trailingZeros (s.cur.gr ga)))

/-- `min` (R390). -/
def execMin (p : BitVec 4) (gd ga gb : BitVec 6) (sg : Bool) (s : State) : Out :=
  writeG s p gd (latInt s.t16) (if rd64 sg (s.cur.gr gb) < rd64 sg (s.cur.gr ga) then s.cur.gr gb else s.cur.gr ga)

/-- `max` (R390). -/
def execMax (p : BitVec 4) (gd ga gb : BitVec 6) (sg : Bool) (s : State) : Out :=
  writeG s p gd (latInt s.t16) (if rd64 sg (s.cur.gr ga) < rd64 sg (s.cur.gr gb) then s.cur.gr gb else s.cur.gr ga)

/-- `cmp` (R397). -/
def execCmp (p pd : BitVec 4) (cnd : Cnd) (ga gb : BitVec 6) (s : State) : Out :=
  writeP s p pd (cndHolds cnd (s.cur.gr ga) (s.cur.gr gb))

/-- `cmpi` (R397): the immediate is sign extended. -/
def execCmpi (p pd : BitVec 4) (cnd : Cnd) (ga : BitVec 6) (imm : BitVec 8) (s : State) : Out :=
  writeP s p pd (cndHolds cnd (s.cur.gr ga) (sx imm))

/-- `sel` (R397). -/
def execSel (p : BitVec 4) (gd ga gb : BitVec 6) (ps : BitVec 3) (s : State) : Out :=
  writeG s p gd (latInt s.t16) (if s.cur.pr (ps.setWidth 4) then s.cur.gr ga else s.cur.gr gb)

/-- `movi` (R398). -/
def execMovi (p : BitVec 4) (gd : BitVec 6) (imm : BitVec 15) (s : State) : Out :=
  writeG s p gd (latInt s.t16) (sx imm)

/-- `andn` (R394). -/
def execAndn (p : BitVec 4) (gd ga gb : BitVec 6) (s : State) : Out :=
  writeG s p gd (latInt s.t16) (s.cur.gr ga &&& ~~~ s.cur.gr gb)

/-- `pand` (R397). -/
def execPand (p pd pa pb : BitVec 4) (s : State) : Out :=
  writeP s p pd (s.cur.pr pa && s.cur.pr pb)

/-- `por` (R397). -/
def execPor (p pd pa pb : BitVec 4) (s : State) : Out :=
  writeP s p pd (s.cur.pr pa || s.cur.pr pb)

/-- `pxor` (R397). -/
def execPxor (p pd pa pb : BitVec 4) (s : State) : Out :=
  writeP s p pd (s.cur.pr pa != s.cur.pr pb)

/-- `pandn` (R397). -/
def execPandn (p pd pa pb : BitVec 4) (s : State) : Out :=
  writeP s p pd (s.cur.pr pa && !s.cur.pr pb)

/-- `lea` (R398): the immediate is unsigned. -/
def execLea (p ad : BitVec 4) (ga : BitVec 6) (imm : BitVec 9) (s : State) : Out :=
  runScalar s p 1 (fun s => s.toA ad (latInt s.t16) (s.cur.gr ga + zx imm))

/-- `movm` (R398). -/
def execMovm (p : BitVec 4) (md : BitVec 3) (ga : BitVec 6) (s : State) : Out :=
  runScalar s p 1 (fun s => s.toM md.toNat (latInt s.t16) (s.cur.gr ga))

/-- `movg` (R398). -/
def execMovg (p : BitVec 4) (gd : BitVec 6) (aa : BitVec 4) (s : State) : Out :=
  writeG s p gd (latInt s.t16) (s.cur.ar aa)

/-- `leaa` (R398). -/
def execLeaa (p ad aa : BitVec 4) (imm : BitVec 13) (s : State) : Out :=
  runScalar s p 1 (fun s => s.toA ad (latInt s.t16) (s.cur.ar aa + sx imm))

end Sys2Proof.Machine
end

