-- ==== Sys2Proof/Machine/Dispatch.lean ====
section
/-! DEFINITION. The dispatch of a step to its meaning: one arm for each constructor. -/

namespace Sys2Proof.Machine

/-- The meaning of every step. -/
def exec (i : Instr) (s : State) : Host.Outcome State Fault Refusal :=
  match i with
  | .br p l => Sys2Proof.Machine.execBr p l s
  | .brx p ga => Sys2Proof.Machine.execBrx p ga s
  | .call p l r gd => Sys2Proof.Machine.execCall p l r gd s
  | .lsetup p ga ns nb => Sys2Proof.Machine.execLsetup p ga ns nb s
  | .lend p => Sys2Proof.Machine.execLend p s
  | .lquit p l => Sys2Proof.Machine.execLquit p l s
  | .callx p ga r gd => Sys2Proof.Machine.execCallx p ga r gd s
  | .ret p ga => Sys2Proof.Machine.execRet p ga s
  | .barL p lev => Sys2Proof.Machine.execBarL p lev s
  | .tkalign p off => Sys2Proof.Machine.execTkalign p off s
  | .childLaunch p gd ga gb => Sys2Proof.Machine.execChildLaunch p gd ga gb s
  | .sigDec p ga off k => Sys2Proof.Machine.execSigDec p ga off k s
  | .sigWait p ga off thr => Sys2Proof.Machine.execSigWait p ga off thr s
  | .fence p scope => Sys2Proof.Machine.execFence p scope s
  | .cwait p gm off => Sys2Proof.Machine.execCwait p gm off s
  | .swait p gg off => Sys2Proof.Machine.execSwait p gg off s
  | .softwareTrap p imm => Sys2Proof.Machine.execSoftwareTrap p imm s
  | .halt p => Sys2Proof.Machine.execHalt p s
  | .rdsys p gd sys => Sys2Proof.Machine.execRdsys p gd sys s
  | .wrsys p ga sys => Sys2Proof.Machine.execWrsys p ga sys s
  | .wfe p => Sys2Proof.Machine.execWfe p s
  | .saSealC p ga gb => Sys2Proof.Machine.execSaSealC p ga gb s
  | .saSealG p ga gb => Sys2Proof.Machine.execSaSealG p ga gb s
  | .saSealP p ga gb => Sys2Proof.Machine.execSaSealP p ga gb s
  | .add p gd ga gb => Sys2Proof.Machine.execAdd p gd ga gb s
  | .sub p gd ga gb => Sys2Proof.Machine.execSub p gd ga gb s
  | .adds p gd ga gb sg => Sys2Proof.Machine.execAdds p gd ga gb sg s
  | .subs p gd ga gb sg => Sys2Proof.Machine.execSubs p gd ga gb sg s
  | .mul p gd ga gb => Sys2Proof.Machine.execMul p gd ga gb s
  | .mulh p gd ga gb => Sys2Proof.Machine.execMulh p gd ga gb s
  | .mulhn p gd ga gb => Sys2Proof.Machine.execMulhn p gd ga gb s
  | .div p gd ga gb sg => Sys2Proof.Machine.execDiv p gd ga gb sg s
  | .rem p gd ga gb sg => Sys2Proof.Machine.execRem p gd ga gb sg s
  | .addi p gd ga imm => Sys2Proof.Machine.execAddi p gd ga imm s
  | .xori p gd ga imm => Sys2Proof.Machine.execXori p gd ga imm s
  | .andi p gd ga imm => Sys2Proof.Machine.execAndi p gd ga imm s
  | .ori p gd ga imm => Sys2Proof.Machine.execOri p gd ga imm s
  | .and p gd ga gb => Sys2Proof.Machine.execAnd p gd ga gb s
  | .or p gd ga gb => Sys2Proof.Machine.execOr p gd ga gb s
  | .xor p gd ga gb => Sys2Proof.Machine.execXor p gd ga gb s
  | .shli p gd ga n => Sys2Proof.Machine.execShli p gd ga n s
  | .shri p gd ga n => Sys2Proof.Machine.execShri p gd ga n s
  | .srai p gd ga n => Sys2Proof.Machine.execSrai p gd ga n s
  | .roti p gd ga n => Sys2Proof.Machine.execRoti p gd ga n s
  | .shl p gd ga gb => Sys2Proof.Machine.execShl p gd ga gb s
  | .shr p gd ga gb => Sys2Proof.Machine.execShr p gd ga gb s
  | .sra p gd ga gb => Sys2Proof.Machine.execSra p gd ga gb s
  | .rot p gd ga gb => Sys2Proof.Machine.execRot p gd ga gb s
  | .bfx p gd ga gb => Sys2Proof.Machine.execBfx p gd ga gb s
  | .bfxs p gd ga gb => Sys2Proof.Machine.execBfxs p gd ga gb s
  | .bfi p gd ga gb => Sys2Proof.Machine.execBfi p gd ga gb s
  | .fsh p gd ga gb => Sys2Proof.Machine.execFsh p gd ga gb s
  | .popc p gd ga => Sys2Proof.Machine.execPopc p gd ga s
  | .clz p gd ga => Sys2Proof.Machine.execClz p gd ga s
  | .ctz p gd ga => Sys2Proof.Machine.execCtz p gd ga s
  | .min p gd ga gb sg => Sys2Proof.Machine.execMin p gd ga gb sg s
  | .max p gd ga gb sg => Sys2Proof.Machine.execMax p gd ga gb sg s
  | .cmp p pd cnd ga gb => Sys2Proof.Machine.execCmp p pd cnd ga gb s
  | .cmpi p pd cnd ga imm => Sys2Proof.Machine.execCmpi p pd cnd ga imm s
  | .sel p gd ga gb ps => Sys2Proof.Machine.execSel p gd ga gb ps s
  | .movi p gd imm => Sys2Proof.Machine.execMovi p gd imm s
  | .andn p gd ga gb => Sys2Proof.Machine.execAndn p gd ga gb s
  | .pand p pd pa pb => Sys2Proof.Machine.execPand p pd pa pb s
  | .por p pd pa pb => Sys2Proof.Machine.execPor p pd pa pb s
  | .pxor p pd pa pb => Sys2Proof.Machine.execPxor p pd pa pb s
  | .pandn p pd pa pb => Sys2Proof.Machine.execPandn p pd pa pb s
  | .lea p ad ga imm => Sys2Proof.Machine.execLea p ad ga imm s
  | .movm p md ga => Sys2Proof.Machine.execMovm p md ga s
  | .movg p gd aa => Sys2Proof.Machine.execMovg p gd aa s
  | .leaa p ad aa imm => Sys2Proof.Machine.execLeaa p ad aa imm s
  | .spStG p r off => Sys2Proof.Machine.execSpStG p r off s
  | .spStV p r off => Sys2Proof.Machine.execSpStV p r off s
  | .spLdG p r off => Sys2Proof.Machine.execSpLdG p r off s
  | .spLdV p r off => Sys2Proof.Machine.execSpLdV p r off s
  | .vadd p w fmt vd rm sa sb => Sys2Proof.Machine.execVadd p w fmt vd rm sa sb s
  | .vsub p w fmt vd rm sa sb => Sys2Proof.Machine.execVsub p w fmt vd rm sa sb s
  | .vmul p w fmt vd rm sa sb => Sys2Proof.Machine.execVmul p w fmt vd rm sa sb s
  | .vfma p w fmt vd rm sa sb sc => Sys2Proof.Machine.execVfma p w fmt vd rm sa sb sc s
  | .vfnma p w fmt vd rm sa sb sc => Sys2Proof.Machine.execVfnma p w fmt vd rm sa sb sc s
  | .vadds p w fmt vd sa sb => Sys2Proof.Machine.execVadds p w fmt vd sa sb s
  | .vsubs p w fmt vd sa sb => Sys2Proof.Machine.execVsubs p w fmt vd sa sb s
  | .vmin p w fmt vd sa sb => Sys2Proof.Machine.execVmin p w fmt vd sa sb s
  | .vmax p w fmt vd sa sb => Sys2Proof.Machine.execVmax p w fmt vd sa sb s
  | .vabs p w fmt vd sa => Sys2Proof.Machine.execVabs p w fmt vd sa s
  | .vneg p w fmt vd sa => Sys2Proof.Machine.execVneg p w fmt vd sa s
  | .vand p w vd sa sb => Sys2Proof.Machine.execVand p w vd sa sb s
  | .vor p w vd sa sb => Sys2Proof.Machine.execVor p w vd sa sb s
  | .vxor p w vd sa sb => Sys2Proof.Machine.execVxor p w vd sa sb s
  | .vandn p w vd sa sb => Sys2Proof.Machine.execVandn p w vd sa sb s
  | .vshl p w fmt vd sa sb => Sys2Proof.Machine.execVshl p w fmt vd sa sb s
  | .vshr p w fmt vd sa sb => Sys2Proof.Machine.execVshr p w fmt vd sa sb s
  | .vsra p w fmt vd sa sb => Sys2Proof.Machine.execVsra p w fmt vd sa sb s
  | .vshli p w fmt vd n sa => Sys2Proof.Machine.execVshli p w fmt vd n sa s
  | .vshri p w fmt vd n sa => Sys2Proof.Machine.execVshri p w fmt vd n sa s
  | .vsrai p w fmt vd n sa => Sys2Proof.Machine.execVsrai p w fmt vd n sa s
  | .vcmp p w fmt vd cnd sa sb => Sys2Proof.Machine.execVcmp p w fmt vd cnd sa sb s
  | .vsel p w vd sa sb sc => Sys2Proof.Machine.execVsel p w vd sa sb sc s
  | .vcvt p w fmt vd rm sat src sa => Sys2Proof.Machine.execVcvt p w fmt vd rm sat src sa s
  | .vdup p w fmt vd ga => Sys2Proof.Machine.execVdup p w fmt vd ga s
  | .vrsum p w fmt vd sa => Sys2Proof.Machine.execVrsum p w fmt vd sa s
  | .vrmax p w fmt vd sa => Sys2Proof.Machine.execVrmax p w fmt vd sa s
  | .vrmin p w fmt vd sa => Sys2Proof.Machine.execVrmin p w fmt vd sa s
  | .saAdd p w fmt ga sa => Sys2Proof.Machine.execSaAdd p w fmt ga sa s
  | .expF p w vd sa => Sys2Proof.Machine.execExpF p w vd sa s
  | .expR p w vd sa => Sys2Proof.Machine.execExpR p w vd sa s
  | .exp2F p w vd sa => Sys2Proof.Machine.execExp2F p w vd sa s
  | .exp2R p w vd sa => Sys2Proof.Machine.execExp2R p w vd sa s
  | .log2F p w vd sa => Sys2Proof.Machine.execLog2F p w vd sa s
  | .log2R p w vd sa => Sys2Proof.Machine.execLog2R p w vd sa s
  | .rcpF p w vd sa => Sys2Proof.Machine.execRcpF p w vd sa s
  | .rcpR p w vd sa => Sys2Proof.Machine.execRcpR p w vd sa s
  | .rsqF p w vd sa => Sys2Proof.Machine.execRsqF p w vd sa s
  | .rsqR p w vd sa => Sys2Proof.Machine.execRsqR p w vd sa s
  | .sqrtF p w vd sa => Sys2Proof.Machine.execSqrtF p w vd sa s
  | .sqrtR p w vd sa => Sys2Proof.Machine.execSqrtR p w vd sa s
  | .tanhF p w vd sa => Sys2Proof.Machine.execTanhF p w vd sa s
  | .tanhR p w vd sa => Sys2Proof.Machine.execTanhR p w vd sa s
  | .sigmF p w vd sa => Sys2Proof.Machine.execSigmF p w vd sa s
  | .sigmR p w vd sa => Sys2Proof.Machine.execSigmR p w vd sa s
  | .sinF p w vd sa => Sys2Proof.Machine.execSinF p w vd sa s
  | .sinR p w vd sa => Sys2Proof.Machine.execSinR p w vd sa s
  | .cosF p w vd sa => Sys2Proof.Machine.execCosF p w vd sa s
  | .cosR p w vd sa => Sys2Proof.Machine.execCosR p w vd sa s
  | .xpack p w fmt vd src sa ga => Sys2Proof.Machine.execXpack p w fmt vd src sa ga s
  | .xunpack p w fmt vd src sa ga => Sys2Proof.Machine.execXunpack p w fmt vd src sa ga s
  | .xscale p w fmt vd sa ga => Sys2Proof.Machine.execXscale p w fmt vd sa ga s
  | .xmaxe p w fmt vd tgt sa sb => Sys2Proof.Machine.execXmaxe p w fmt vd tgt sa sb s
  | .xperm p w fmt vd sa sb => Sys2Proof.Machine.execXperm p w fmt vd sa sb s
  | .xrot p w fmt vd sa ga => Sys2Proof.Machine.execXrot p w fmt vd sa ga s
  | .xzip p w fmt vd hi sa sb => Sys2Proof.Machine.execXzip p w fmt vd hi sa sb s
  | .xunzip p w fmt vd odd sa sb => Sys2Proof.Machine.execXunzip p w fmt vd odd sa sb s
  | .xtrans p w fmt vd lrows sa => Sys2Proof.Machine.execXtrans p w fmt vd lrows sa s
  | .saNrd p w fmt vd sa ga => Sys2Proof.Machine.execSaNrd p w fmt vd sa ga s
  | .saSax p ga => Sys2Proof.Machine.execSaSax p ga s
  | .mcall p rtn => Sys2Proof.Machine.execMcall p rtn s
  | .mrep p n => Sys2Proof.Machine.execMrep p n s
  | .mprog p ga dst nm1 => Sys2Proof.Machine.execMprog p ga dst nm1 s
  | .mprogT p ga dst nm1 => Sys2Proof.Machine.execMprogT p ga dst nm1 s
  | .mwb p ga => Sys2Proof.Machine.execMwb p ga s
  | .mstat p qd => Sys2Proof.Machine.execMstat p qd s
  | .mdrain p qd => Sys2Proof.Machine.execMdrain p qd s
  | .uaLd fmt asb ac pr tgt => Sys2Proof.Machine.execUaLd fmt asb ac pr tgt s
  | .ubLd fmt bs pr => Sys2Proof.Machine.execUbLd fmt bs pr s
  | .uStep fmt asb bs ac zr => Sys2Proof.Machine.execUStep fmt asb bs ac zr s
  | .uDrain ac pr zr dst qd bf16 => Sys2Proof.Machine.execUDrain ac pr zr dst qd bf16 s
  | .uLoop lv tgt cnt => Sys2Proof.Machine.execULoop lv tgt cnt s
  | .uAddp pr sh imm => Sys2Proof.Machine.execUAddp pr sh imm s
  | .uEnd => Sys2Proof.Machine.execUEnd s
  | .ld p w buf d gb off => Sys2Proof.Machine.execLd p w buf d gb off s
  | .st p w buf vr port gb off => Sys2Proof.Machine.execSt p w buf vr port gb off s
  | .lds p sz buf gr sx gb off => Sys2Proof.Machine.execLds p sz buf gr sx gb off s
  | .sts p sz buf gr gb off => Sys2Proof.Machine.execSts p sz buf gr gb off s
  | .atom p sz buf gr aop gs gb off => Sys2Proof.Machine.execAtom p sz buf gr aop gs gb off s
  | .gld p w d gb off => Sys2Proof.Machine.execGld p w d gb off s
  | .gst p w vr port gb off => Sys2Proof.Machine.execGst p w vr port gb off s
  | .gatom p sz qd aop gs gb off => Sys2Proof.Machine.execGatom p sz qd aop gs gb off s
  | .mcst p w vr port gm gb rank xoff => Sys2Proof.Machine.execMcst p w vr port gm gb rank xoff s
  | .cpyTl p yr ar dir buf soff gx => Sys2Proof.Machine.execCpyTl p yr ar dir buf soff gx s
  | .cpyUt p yr ar dir buf soff cbm gx => Sys2Proof.Machine.execCpyUt p yr ar dir buf soff cbm gx s
  | .cpyAdd p yr ar buf afmt soff cbm gx => Sys2Proof.Machine.execCpyAdd p yr ar buf afmt soff cbm gx s
  | .cpyBc p yr ar buf soff gx => Sys2Proof.Machine.execCpyBc p yr ar buf soff gx s
  | .cpyEv p yr ar sae32 buf soff => Sys2Proof.Machine.execCpyEv p yr ar sae32 buf soff s
  | .cpyRs p yr ar sae32 buf soff => Sys2Proof.Machine.execCpyRs p yr ar sae32 buf soff s
  | .cpyPut p yr ar buf soff cbm gx => Sys2Proof.Machine.execCpyPut p yr ar buf soff cbm gx s
  | .cpyGet p yr ar buf soff cbm gx => Sys2Proof.Machine.execCpyGet p yr ar buf soff cbm gx s
  | .coll p yr ar buf mode soff cbm gx => Sys2Proof.Machine.execColl p yr ar buf mode soff cbm gx s
  | .mig p ar tier cbm => Sys2Proof.Machine.execMig p ar tier cbm s
  | .yclr p yd => Sys2Proof.Machine.execYclr p yd s
  | .ysetd p yd dim stl sth bx sz => Sys2Proof.Machine.execYsetd p yd dim stl sth bx sz s
  | .yseto p yd ga gb => Sys2Proof.Machine.execYseto p yd ga gb s
  | .ysetf p yd esz ndm hi fill => Sys2Proof.Machine.execYsetf p yd esz ndm hi fill s
  | .ysetb p yd geo => Sys2Proof.Machine.execYsetb p yd geo s
  | .ycpy p yd ys => Sys2Proof.Machine.execYcpy p yd ys s
  | .freezeEnd frond => Sys2Proof.Machine.execFreezeEnd frond s
  | .errorResponseArrival id => Sys2Proof.Machine.execErrorResponseArrival id s
  | .timedFlitRelease die id => Sys2Proof.Machine.execTimedFlitRelease die id s
  | .packetConsume world queue => Sys2Proof.Machine.execPacketConsume world queue s
  | .packetStart id => Sys2Proof.Machine.execPacketStart id s
  | .packetComplete id => Sys2Proof.Machine.execPacketComplete id s
  | .nop id => Sys2Proof.Machine.execNop id s
  | .launch id => Sys2Proof.Machine.execLaunch id s
  | .almanac id => Sys2Proof.Machine.execAlmanac id s
  | .pred id => Sys2Proof.Machine.execPred id s
  | .sigdec id => Sys2Proof.Machine.execSigdec id s
  | .sigwait id => Sys2Proof.Machine.execSigwait id s
  | .sigwaitReevaluate id => Sys2Proof.Machine.execSigwaitReevaluate id s
  | .sigwaitTimeout id => Sys2Proof.Machine.execSigwaitTimeout id s
  | .copy id => Sys2Proof.Machine.execCopy id s
  | .partition id => Sys2Proof.Machine.execPartition id s
  | .checkpoint id => Sys2Proof.Machine.execCheckpoint id s
  | .loadkey id => Sys2Proof.Machine.execLoadkey id s
  | .eraseload id => Sys2Proof.Machine.execEraseload id s
  | .domrekey id => Sys2Proof.Machine.execDomrekey id s
  | .ifstLock id => Sys2Proof.Machine.execIfstLock id s
  | .ifstUnlock id => Sys2Proof.Machine.execIfstUnlock id s
  | .ifstRelease id => Sys2Proof.Machine.execIfstRelease id s
  | .cfgwr id => Sys2Proof.Machine.execCfgwr id s
  | .cfgrd id => Sys2Proof.Machine.execCfgrd id s
  | .configRegisterWrite addr value => Sys2Proof.Machine.execConfigRegisterWrite addr value s
  | .worldCreate id key => Sys2Proof.Machine.execWorldCreate id key s
  | .worldDrain id => Sys2Proof.Machine.execWorldDrain id s
  | .worldDrainComplete world => Sys2Proof.Machine.execWorldDrainComplete world s
  | .worldGrant id => Sys2Proof.Machine.execWorldGrant id s
  | .measure id => Sys2Proof.Machine.execMeasure id s
  | .queueCreate id => Sys2Proof.Machine.execQueueCreate id s
  | .queueReset id => Sys2Proof.Machine.execQueueReset id s
  | .queueDestroy id => Sys2Proof.Machine.execQueueDestroy id s
  | .almanacBindDeadline entry => Sys2Proof.Machine.execAlmanacBindDeadline entry s
  | .almanacStart frond => Sys2Proof.Machine.execAlmanacStart frond s
  | .armedStart core => Sys2Proof.Machine.execArmedStart core s
  | .almanacLimitExpiry frond => Sys2Proof.Machine.execAlmanacLimitExpiry frond s
  | .frondStart frond => Sys2Proof.Machine.execFrondStart frond s
  | .itemStart frond => Sys2Proof.Machine.execItemStart frond s
  | .frondEnd frond => Sys2Proof.Machine.execFrondEnd frond s
  | .barrierTimeout core ctx => Sys2Proof.Machine.execBarrierTimeout core ctx s
  | .waitTimeout core ctx => Sys2Proof.Machine.execWaitTimeout core ctx s
  | .resultLanding core ctx id => Sys2Proof.Machine.execResultLanding core ctx id s
  | .queueDelivery id => Sys2Proof.Machine.execQueueDelivery id s
  | .bankWakeDone core ctx bank => Sys2Proof.Machine.execBankWakeDone core ctx bank s
  | .timedWriteLanding id => Sys2Proof.Machine.execTimedWriteLanding id s
  | .timedReadSample id => Sys2Proof.Machine.execTimedReadSample id s
  | .untimedApply id => Sys2Proof.Machine.execUntimedApply id s
  | .untimedServe id => Sys2Proof.Machine.execUntimedServe id s
  | .untimedAtomic id => Sys2Proof.Machine.execUntimedAtomic id s
  | .fenceComplete core ctx => Sys2Proof.Machine.execFenceComplete core ctx s
  | .multicastLanding id => Sys2Proof.Machine.execMulticastLanding id s
  | .timedChunkLanding id => Sys2Proof.Machine.execTimedChunkLanding id s
  | .untimedChunkComplete core ctx copy chunk => Sys2Proof.Machine.execUntimedChunkComplete core ctx copy chunk s
  | .pushArrival id => Sys2Proof.Machine.execPushArrival id s
  | .migrationWritesApplied core ctx copy => Sys2Proof.Machine.execMigrationWritesApplied core ctx copy s
  | .drainRowLanding id => Sys2Proof.Machine.execDrainRowLanding id s
  | .saFold id => Sys2Proof.Machine.execSaFold id s
  | .saGroupSum id => Sys2Proof.Machine.execSaGroupSum id s
  | .saPlaneArrival id => Sys2Proof.Machine.execSaPlaneArrival id s
  | .contextSaveDone core ctx => Sys2Proof.Machine.execContextSaveDone core ctx s
  | .landingEntry core ctx => Sys2Proof.Machine.execLandingEntry core ctx s
  | .tkalignRelease core ctx => Sys2Proof.Machine.execTkalignRelease core ctx s
  | .sigWaitRepost core ctx => Sys2Proof.Machine.execSigWaitRepost core ctx s
  | .contextRestoreDone core ctx => Sys2Proof.Machine.execContextRestoreDone core ctx s
  | .emptyBundle lnd qt => Sys2Proof.Machine.execEmptyBundle lnd qt s
  | .illegalEncoding slotIndex => Sys2Proof.Machine.execIllegalEncoding slotIndex s
  | .resetRelease flash => Sys2Proof.Machine.execResetRelease flash s
  | .frameTick => Sys2Proof.Machine.execFrameTick s
  | .enterRun => Sys2Proof.Machine.execEnterRun s
  | .interfaceDrainComplete => Sys2Proof.Machine.execInterfaceDrainComplete s
  | .roleDrainComplete => Sys2Proof.Machine.execRoleDrainComplete s
  | .flushComplete die => Sys2Proof.Machine.execFlushComplete die s
  | .zeroiseComplete die => Sys2Proof.Machine.execZeroiseComplete die s
  | .reenumerateComplete die => Sys2Proof.Machine.execReenumerateComplete die s
  | .roleChangeCommit => Sys2Proof.Machine.execRoleChangeCommit s
  | .drainDeadlineExpiry => Sys2Proof.Machine.execDrainDeadlineExpiry s
  | .layerFence die addr => Sys2Proof.Machine.execLayerFence die addr s
  | .scratchpadCorrectableError core addr => Sys2Proof.Machine.execScratchpadCorrectableError core addr s
  | .scratchpadUncorrectableError core addr => Sys2Proof.Machine.execScratchpadUncorrectableError core addr s
  | .nearTierUncorrectable addr req => Sys2Proof.Machine.execNearTierUncorrectable addr req s
  | .layerPoolUncorrectable addr req => Sys2Proof.Machine.execLayerPoolUncorrectable addr req s
  | .farTierUncorrectable addr req => Sys2Proof.Machine.execFarTierUncorrectable addr req s
  | .copyParityError core addr => Sys2Proof.Machine.execCopyParityError core addr s
  | .coreRelease die c => Sys2Proof.Machine.execCoreRelease die c s
  | .lskewWrite die e value => Sys2Proof.Machine.execLskewWrite die e value s
  | .linkCalibration die e => Sys2Proof.Machine.execLinkCalibration die e s
  | .linkCalibrationDone die e raw marg late => Sys2Proof.Machine.execLinkCalibrationDone die e raw marg late s
  | .lstatClear die e value => Sys2Proof.Machine.execLstatClear die e value s
  | .lostevClear die value => Sys2Proof.Machine.execLostevClear die value s
  | .timedFlitArrival die e outcome frond id addr => Sys2Proof.Machine.execTimedFlitArrival die e outcome frond id addr s
  | .untimedFlitArrival die e outcome id => Sys2Proof.Machine.execUntimedFlitArrival die e outcome id s
  | .uePacketReceive port packet => Sys2Proof.Machine.execUePacketReceive port packet s
  | .put world va packets => Sys2Proof.Machine.execPut world va packets s
  | .get world va len => Sys2Proof.Machine.execGet world va len s
  | .fetchAndAdd world va x => Sys2Proof.Machine.execFetchAndAdd world va x s
  | .compareAndSwap world va cmp x => Sys2Proof.Machine.execCompareAndSwap world va cmp x s
  | .swap world va x => Sys2Proof.Machine.execSwap world va x s
  | .statusWindowGet => Sys2Proof.Machine.execStatusWindowGet s
  | .runReceive peer arrival => Sys2Proof.Machine.execRunReceive peer arrival s
  | .runIdleClose peer => Sys2Proof.Machine.execRunIdleClose peer s
  | .runRetryExhausted run => Sys2Proof.Machine.execRunRetryExhausted run s
  | .cxlLinkDown die port => Sys2Proof.Machine.execCxlLinkDown die port s
  | .getVersion conn inSession => Sys2Proof.Machine.execGetVersion conn inSession s
  | .getCapabilities asker => Sys2Proof.Machine.execGetCapabilities asker s
  | .negotiateAlgorithms asker offered => Sys2Proof.Machine.execNegotiateAlgorithms asker offered s
  | .getDigests asker => Sys2Proof.Machine.execGetDigests asker s
  | .getCertificate asker slot offset len => Sys2Proof.Machine.execGetCertificate asker slot offset len s
  | .challenge asker slot nonce busy => Sys2Proof.Machine.execChallenge asker slot nonce busy s
  | .getMeasurements conn session slot index signed nonce busy => Sys2Proof.Machine.execGetMeasurements conn session slot index signed nonce busy s
  | .keyExchange asker slot exchange busy => Sys2Proof.Machine.execKeyExchange asker slot exchange busy s
  | .finish conn session mac => Sys2Proof.Machine.execFinish conn session mac s
  | .endSession conn session => Sys2Proof.Machine.execEndSession conn session s
  | .spdmUnsupportedRequest conn code => Sys2Proof.Machine.execSpdmUnsupportedRequest conn code s
  | .channelPut msg => Sys2Proof.Machine.execChannelPut msg s
  | .commandPacketMessage msg => Sys2Proof.Machine.execCommandPacketMessage msg s
  | .tailWrite msg => Sys2Proof.Machine.execTailWrite msg s
  | .heartbeat msg => Sys2Proof.Machine.execHeartbeat msg s
  | .channelClose msg => Sys2Proof.Machine.execChannelClose msg s
  | .heartbeatTimeout session => Sys2Proof.Machine.execHeartbeatTimeout session s
  | .keyHoldExpiry world => Sys2Proof.Machine.execKeyHoldExpiry world s
  | .measuredLoad world file => Sys2Proof.Machine.execMeasuredLoad world file s
  | .rekeyDrained report => Sys2Proof.Machine.execRekeyDrained report s
  | .rekeySwitch domain => Sys2Proof.Machine.execRekeySwitch domain s
  | .rekeySwitched report secret => Sys2Proof.Machine.execRekeySwitched report secret s
  | .rekeyResume domain => Sys2Proof.Machine.execRekeyResume domain s
  | .rekeyPhaseTimeout domain peer => Sys2Proof.Machine.execRekeyPhaseTimeout domain peer s
  | .checkpointBarrier => Sys2Proof.Machine.execCheckpointBarrier s
  | .checkpointBudgetExpiry => Sys2Proof.Machine.execCheckpointBudgetExpiry s
  | .checkpointSaveDone => Sys2Proof.Machine.execCheckpointSaveDone s
  | .checkpointStreamDone sinkOk => Sys2Proof.Machine.execCheckpointStreamDone sinkOk s
  | .checkpointBlobDone => Sys2Proof.Machine.execCheckpointBlobDone s
  | .domform id proofs => Sys2Proof.Machine.execDomform id proofs s
  | .worldOpen session body => Sys2Proof.Machine.execWorldOpen session body s
  | .leaseClaim die => Sys2Proof.Machine.execLeaseClaim die s
  | .leaseRenew die epoch => Sys2Proof.Machine.execLeaseRenew die epoch s
  | .leaseExpiry => Sys2Proof.Machine.execLeaseExpiry s
  | .bindRecordWrite entry word value => Sys2Proof.Machine.execBindRecordWrite entry word value s
  | .commit entry value => Sys2Proof.Machine.execCommit entry value s
  | .migrationCopyDone core ctx copy frame => Sys2Proof.Machine.execMigrationCopyDone core ctx copy frame s
  | .contextPreempt core ctx => Sys2Proof.Machine.execContextPreempt core ctx s
  | .contextResume core ctx => Sys2Proof.Machine.execContextResume core ctx s
  | .contextSave core ctx => Sys2Proof.Machine.execContextSave core ctx s
  | .contextRestore core ctx => Sys2Proof.Machine.execContextRestore core ctx s
  | .instructionStoreWrite core frame syllable value => Sys2Proof.Machine.execInstructionStoreWrite core frame syllable value s
  | .directoryWrite core frame value => Sys2Proof.Machine.execDirectoryWrite core frame value s
  | .freinoEntryTrap core ctx => Sys2Proof.Machine.execFreinoEntryTrap core ctx s
  | .reset => Sys2Proof.Machine.execReset s
  | .rekeyRequest ask => Sys2Proof.Machine.execRekeyRequest ask s
  | .checkpointRestore blob => Sys2Proof.Machine.execCheckpointRestore blob s

end Sys2Proof.Machine
end

