-- ==== Sys2Proof/Machine/Issue.lean ====
section
/-! DEFINITION. The issue of bundles (07 R145 to R150, 13 R280 to R286, 14 R304 to R310, 16 R366): the attempt of one bundle, its
checks in the order of R283, its slots through `exec`, and what follows a trap. -/

namespace Sys2Proof.Machine

/-! ### What follows a trap or a block (R285, R96, R150) -/

/-- The state an outcome leaves; the machine never stops. -/
def after (o : Out) (s : State) : State := match o with | .next t => t | _ => s

/-- The context runs an almanac's item. -/
def State.inAlmanac (s : State) (c k : Nat) : Bool :=
  decide ((s.frond (s.ctx c k).frond).bound = true ∧ (s.frond (s.ctx c k).frond).kind = .almanac)
/-- Firmware may clear the cause (R281, R285, R310): an absent page or a foreign tag at an entry, or a write refused by MIG alone. -/
def State.resumable (s : State) (c k : Nat) (migOnly : Bool) : Bool :=
  let x := s.ctx c k
  if x.xcause = 0x11 then true
  else if x.xcause = 0x12 then (match x.point with | .entry _ _ _ => true | .inside _ _ _ _ => false)
  else decide (x.xcause = 0x0A) && migOnly
/-- THE DISPOSITION OF A TRAP (R285): an almanac slips; a launch's context waits for firmware, or its frond is aborted and the
manager is told. -/
def State.afterTrap (s : State) (c k : Nat) (migOnly : Bool) : State :=
  let x := s.ctx c k
  if x.st ≠ .trapped then s
  else if s.inAlmanac c k then s.slip c k
  else if s.resumable c k migOnly || !(s.frond x.frond).bound then s
  else (s.abortFrond x.frond (abortStatus 4 x.xcause.toNat)).tell (.trap c k x.xcause.toNat x.xval x.xtok)
/-- A trap of the bundle at a point: the context's resume point is the point at which the attempt began (R282, R307). -/
def State.trapAt (s : State) (c k : Nat) (from_ : Point) (cause : Nat) (xval xcnt : Word) (migOnly : Bool) : State :=
  ((s.takeTrap c k cause xval xcnt).updCtx c k (fun x => { x with point := from_ })).afterTrap c k migOnly

/-! ### Whole-bundle checks (R283 items 6 to 9) -/

/-- A bundle's instructions, in slot order. -/
def bundleInstrs (b : Bundle) : List Instr := b.slots.map Prod.snd
/-- The guard of an instruction is true. -/
def Ctx.guard (c : Ctx) (i : Instr) : Bool := match guardOf i with | some p => c.pr p | none => true
/-- Rank of a held record's cause (R283 item 6). -/
def heldRank (cause : Nat) : Nat := if cause = 0x10 then 0 else if cause = 0x0C then 1 else if cause = 0x0F then 2 else 3
/-- The held record that the bundle raises. -/
def bundleHeld (c : Ctx) (l : List Instr) : Option (Nat × Word × Word × Ctx) :=
  ((l.filter c.guard).filterMap (heldStop c)).foldl (fun a x =>
    match a with
    | none => some x
    | some y => if heldRank x.1 < heldRank y.1 then some x else some y) none
/-- The physical register of a destination, for `xval` (R366). -/
def physDest (c : Ctx) (d : Nat × Nat) : Nat := if d.1 = 0 ∨ d.1 = 3 then physReg c.rot d.2 else d.2
/-- Of the first slot whose guard is true and which writes what earlier ones with a true guard write, the destination that the first of these
writes (R366). -/
def writeClash (c : Ctx) : List Instr → List (Nat × Nat) → Option (Nat × Nat)
  | [], _ => none
  | i :: r, seen =>
    if c.guard i then
      match seen.find? (fun d => (destsOf i).contains d) with
      | some d => some d
      | none => writeClash c r (seen ++ destsOf i)
    else writeClash c r seen
/-- Items 5 to 9 of R283: the cause, the value, the count, and the state in which a raised record is cleared. -/
def State.bundleStop (s : State) (b : Bundle) : Option (Nat × Word × Word × State) :=
  let c := s.cur
  let l := bundleInstrs b
  let n := c.flying s.now
  if b.qt && decide (n ≠ 0) then some (0x07, BitVec.ofNat 64 n, 0, s)
  else
    match bundleHeld c l with
    | some (cause, x, cnt, c') => some (cause, x, cnt, s.updCur (fun _ => c'))
    | none =>
      match l.findSome? (sleeper c) with
      | some r => some (0x04, BitVec.ofNat 64 r, 0, s)
      | none =>
        match writeClash c l [] with
        | some d => some (0x03, BitVec.ofNat 64 (d.1 * 0x100 + physDest c d), 0, s)
        | none =>
          if 256 < c.inFlight + ((l.filter c.guard).map resultsOf).foldl (· + ·) 0 then some (0x16, 256, 0, s) else none

/-! ### The slots -/

/-- What the slots of a bundle come to: every effect; a trap; a block with its waits; or the frond aborted by a slot. -/
inductive Slots
  | done (s : State)
  | trap (cause : Nat) (xval xcnt : Word) (migOnly : Bool)
  | block (w : List Wait)
  | gone (s : State)

/-- The windows of the present core without MIG. -/
def State.withoutMig (s : State) : State :=
  s.updCore s.curCore (fun x => { x with windows := x.windows.map (fun w : Nat × Window => (w.1, { w.2 with mig := false })) })
/-- A translation trap of a slot that MIG alone causes (R133): without it the slot does not raise the trap. -/
def migAlone (i : Instr) (s : State) : Bool :=
  let c := (after (exec i s.withoutMig) s).ctx s.curCore s.curCtx
  !(decide (c.st = .trapped ∧ c.xcause = 0x0A))
/-- The slots in order, each through `exec` on the state the earlier ones leave (R283 item 10): `first` is the state of the bundle's
attempt, `w` what earlier slots wait for. -/
def runSlots (first : State) : List Instr → State → List Wait → Slots
  | [], s, w => if w.isEmpty then .done s else .block w
  | i :: r, s, w =>
    let t := after (exec i s) s
    let c := t.ctx s.curCore s.curCtx
    match c.st with
    | .trapped => .trap c.xcause.toNat c.xval c.xcnt (decide (c.xcause = 0x0A) && migAlone i s)
    | .blocked =>
      -- it issues nothing, and the later slots are judged for traps, with the queue positions it has taken
      let u := t.updCore s.curCore (fun x =>
        { (x.updCtx s.curCtx (fun y => { y with st := .running, wait := [] })) with
          running := some s.curCtx, lastLeft := (s.core s.curCore).lastLeft, nextIssue := (s.core s.curCore).nextIssue })
      runSlots first r u (w ++ c.wait)
    | .running => runSlots first r t w
    | .idle | .ready | .preempted | .saved => .gone (after (exec i first) first)

/-- The two acts of a blocked bundle (R149). -/
def announce (s : State) (l : List Instr) : State :=
  (l.filter s.cur.guard).foldl (fun s i =>
    match i with
    | .barL _ lev => if s.cur.arrived then s else announceBar s lev
    | .sigWait _ ga off thr =>
      if s.cur.sig.isSome then s
      else
        match globalAddr s (sigAddr s ga off) 8 8 .rd false with
        | (pa, none) => announceSig s (sigAddr s ga off) pa thr.toInt
        | _ => s
    | _ => s) s

/-- The point at which sequential fetch goes on (R304): past padding, at the next packet's syllable; beyond the page, as an entry into
the next one. -/
def State.fallThrough (s : State) (c k : Nat) : State :=
  match (s.ctx c k).point with
  | .inside page base land o =>
    match (s.core c).seek base seekFuel o with
    | .beyond => s.updCtx c k (fun x => { x with point := .entry (page + 1) 0 1 })
    | .bundle b | .bad b => if b = o then s else s.updCtx c k (fun x => { x with point := .inside page base land b })
  | .entry _ _ _ => s

/-- THE ATTEMPT OF A DECODED BUNDLE at the present cycle, from the point `from_`; the context stands at the bundle, and a block
leaves it there, pinning the version (R149, R309). -/
def State.attempt (s : State) (from_ : Point) (b : Bundle) : State :=
  let c := s.curCore
  let k := s.curCtx
  match s.bundleStop b with
  | some (cause, x, cnt, t) => t.trapAt c k from_ cause x cnt false
  | none =>
    let s0 := s.updCur (fun x => { x with wait := [] })
    match runSlots s0 (bundleInstrs b) s0 [] with
    | .trap cause x cnt mig => s.trapAt c k from_ cause x cnt mig
    | .gone t => t
    | .block w =>
      if s.inAlmanac c k then s.slip c k
      else (announce s (bundleInstrs b)).block c k w
    | .done t => if b.slots.isEmpty then (after (execEmptyBundle b.lnd b.qt s) s).fallThrough c k else (t.finish b.len).fallThrough c k

/-- Sequential fetch at a point inside a version (R304, R310): the offset of the bundle, or the trap. -/
def State.fetch (s : State) (c page base o : Nat) : Except (Nat × Word) Nat :=
  let x := s.core c
  let _ := page
  if !pinnedOk (x.pageLcd base) (x.pagePfd base) (x.pageTag base) (s.tag c) then .error (0x12, (x.pageTag base).setWidth 64)
  else
    match x.seek base seekFuel o with
    | .bundle b => .ok b
    | .bad _ => .error (0x01, 15)
    | .beyond => .error (0x14, 0)

/-- THE ISSUE ATTEMPT of a running context (R148, R304 to R310). -/
def State.issue (s : State) (c k : Nat) : State :=
  let s := { s with curCore := c, curCtx := k }.fallThrough c k
  let p := (s.ctx c k).point
  let at_ : Except (Nat × Word) (Nat × Nat × Nat × Nat) :=
    match p with
    | .entry page idx kind =>
      if 2 ^ 40 ≤ page then .error (0x14, 0)
      else (s.enter c page idx kind).map (fun r => (page, r.1, idx, r.2))
    | .inside page base land o => (s.fetch c page base o).map (fun b => (page, base, land, b))
  match at_ with
  | .error (cause, x) => s.trapAt c k p cause x 0 false
  | .ok (page, base, land, o) =>
    let t := s.updCtx c k (fun x => { x with point := .inside page base land o })
    let from_ := match p with | .entry _ _ _ => p | .inside _ _ _ _ => .inside page base land o
    match (s.core c).bundleAt base o with
    | .error i => t.trapAt c k from_ 0x01 (BitVec.ofNat 64 (i % 16)) 0 false
    | .ok b => t.attempt from_ b

end Sys2Proof.Machine
end

