-- ==== Sys2Proof/Machine/Events.lean ====
section
/-! DEFINITION. What the machine does next (07 R148 to R150, 08 R168, R171, R173): within one cycle the landings and samples of the
calendar, engines, what falls due, the issue of bundles, folds, then untimed actions in an order nothing fixes; then the next cycle. -/

namespace Sys2Proof.Machine

/-- Every context that is listed: core and number. -/
def State.allCtxs (s : State) : List (Nat × Nat) := s.cores.flatMap (fun e => e.2.ctxs.map (fun k => (e.1, k.1)))
/-- The frond of a context is frozen. -/
def State.stands (s : State) (c k : Nat) : Bool := s.frozen (s.ctx c k).frond

/-! ### Landings and samples (R162, R171, R369) -/

/-- The place of an action within its cycle (R162, R171): multicast, writes to memory and copy landings by ascending core, matrix
drains, group sums, spill writes, L writes and atomics; then samples; then engine stores and deliveries. Drains into SB and folds
come after the bundles of the cycle (R258), and then the samples of copy chunks, which see all that the cycle has applied (R270,
R271). -/
def TAct.place : TAct → Nat
  | .mcast _ _ => 0
  | .chunkLand _ | .restore _ _ _ _ _ => 1
  | .write r _ => if r = 0 then 1 else if r = 3 then 3 else if r = 2 then 4 else 5
  | .drainCb _ => 2
  | .atom _ _ _ _ _ _ _ => 6
  | .sample _ _ _ | .gsum _ _ _ _ => 7
  | .mprog _ _ => 8
  | .deliver _ _ _ => 9
  | .drainSb _ _ _ _ _ _ => 10
  | .fold _ _ _ _ => 11
  | .chunkRead _ _ | .evict _ _ _ => 12
/-- An action that writes to memory or a scratchpad before the samples of its cycle. -/
def TAct.isWrite (a : TAct) : Bool := decide (a.place ≤ 6)
/-- One action comes before another of its cycle: by place, core, and the order of their requests (R162); writes of different
fronds by core first (R171). -/
def Timed.precedes (t u : Timed) : Bool :=
  if t.act.isWrite && u.act.isWrite && decide (t.frond ≠ u.frond) then
    decide (t.core < u.core) || (decide (t.core = u.core) && (decide (t.act.place < u.act.place) ||
      (decide (t.act.place = u.act.place) && decide (t.ord < u.ord))))
  else
    decide (t.act.place < u.act.place) ||
    (decide (t.act.place = u.act.place) && (decide (t.core < u.core) || (decide (t.core = u.core) && decide (t.ord < u.ord))))
/-- The first action of a list, the earlier listed of two that are equal in place. -/
def firstTimed : List Timed → Option Timed
  | [] => none
  | t :: r =>
    match firstTimed r with
    | none => some t
    | some u => if u.precedes t then some u else some t
/-- An action touches a line that another touches too; a restore, the SB of its core. -/
def Timed.touchesOf (t u : Timed) : Bool :=
  let inSb (c pa : Nat) : Bool := match region pa with | .spad d off => decide (d = c ∧ bufAt off = .sb) | _ => false
  (linesOf (t.act.touches t.core)).any (fun n =>
    match u.act with
    | .restore _ _ _ _ _ => inSb u.core (64 * n)
    | a => (linesOf (a.touches u.core)).contains n)
def Timed.meets (t u : Timed) : Bool := t.touchesOf u || u.touchesOf t
/-- The next of the actions whose cycle has come, among those before the bundles of the cycle or after them: a write before which none comes
that meets it, and then the others by their places. Where three writes to one byte come each before the next, which R162 and R171 leave
open, the first by place goes first (log 72). -/
def State.dueAction (s : State) (late : Bool) : Option Timed :=
  let l := s.calendar.filter (fun t => s.isDue t && (decide (10 ≤ t.act.place) == late))
  let w := l.filter (fun t => t.act.isWrite)
  if w.isEmpty then firstTimed l
  else
    match w.find? (fun t => !w.any (fun u => u.precedes t && u.meets t)) with
    | some t => some t
    | none => firstTimed w
/-- An action of the calendar is taken. -/
def State.takeAction (s : State) (t : Timed) : State :=
  match t.act with
  | .write _ _ | .atom _ _ _ _ _ _ _ => after (execTimedWriteLanding t.id s) s
  | .sample _ _ _ | .chunkRead _ _ | .evict _ _ _ => after (execTimedReadSample t.id s) s
  | .chunkLand _ | .restore _ _ _ _ _ => after (execTimedChunkLanding t.id s) s
  | .mcast _ _ => after (execMulticastLanding t.id s) s
  | .deliver _ _ _ => after (execQueueDelivery t.id s) s
  | .drainCb _ | .drainSb _ _ _ _ _ _ => after (execDrainRowLanding t.id s) s
  | .fold _ _ _ _ => after (execSaFold t.id s) s
  | .gsum _ _ _ _ => after (execSaGroupSum t.id s) s
  | .mprog table words => (s.unschedule t.id).applyProg t.core table words

/-! ### Engines (R239 to R250) -/

/-- The micro-op that an engine starts, through its own meaning. -/
def State.startOp (s : State) (c : Nat) (i : Instr) : State :=
  let s := { s with curCore := c }
  match i with
  | .uaLd fmt asb ac pr tgt => after (execUaLd fmt asb ac pr tgt s) s
  | .ubLd fmt bs pr => after (execUbLd fmt bs pr s) s
  | .uStep fmt asb bs ac zr => after (execUStep fmt asb bs ac zr s) s
  | .uDrain ac pr zr dst qd bf16 => after (execUDrain ac pr zr dst qd bf16 s) s
  | .uLoop lv tgt cnt => after (execULoop lv tgt cnt s) s
  | .uAddp pr sh imm => after (execUAddp pr sh imm s) s
  | .uEnd => after (execUEnd s) s
  | _ => s
/-- What the engine of a core does in the present cycle, if anything. -/
def State.engineStep (s : State) (c : Nat) : Option State :=
  let e := (s.core c).engine
  if e.calls.any (fun x => x.due.any (fun d => decide (d ≤ s.now)) || s.drainReady c x) then some (s.settleEngine c)
  else
    match e.calls.find? (fun x => match x.kind with | .drain _ => false | _ => true) with
    | none => none
    | some x =>
      if s.frozen x.frond || (s.core c).fenced then none
      else
        match x.kind with
        | .wb _ => if e.wbCycle x ≤ s.now then some (s.applyWb c) else none
        | _ =>
          match e.opNow (e.runNow x) with
          | none => none
          | some i =>
            if e.times.start (x.issue + 2) i ≤ s.now then
              some ((s.updCore c (fun y => { y with engine := { y.engine with owner := x.frond } })).startOp c i)
            else none

/-! ### Contexts (R12, R123, R148, R149, R176, R178, R275) -/

/-- A result that lands now. -/
def State.dueResult (s : State) (x : Ctx) : Option Result :=
  x.inflight.find? (fun r => decide (r.due ≤ s.now) && r.value.isSome && r.old.isNone)
/-- A wait is met. -/
def State.waitMet (s : State) (c k : Nat) (w : Wait) : Bool :=
  let x := s.ctx c k
  match w with
  | .queues need => need.all (fun q => decide (q.2 ≤ x.count q.1))
  | .barrier lev => !x.heldev.any (fun h => decide (h.ev = .arrive lev)) && s.barrierOpen c k lev
  | .cwait pa mask => s.cwaitMet pa mask
  | .swait pa g => s.swaitMet pa g
  | .sigWait => (match x.sig with | some .satisfied | some (.error _) => true | _ => false)
  | .wfe => x.latch
/-- The first ordered event of a context whose release, or whose settling where it is discarded, has come (R178). -/
def State.dueRelease (s : State) (c k : Nat) : Option HeldEv :=
  (s.ctx c k).heldev.find? (fun h => h.rel.any (fun t => decide (t ≤ s.now)) && !s.stands c k)
/-- The core is in an almanac's armed-start wait, in which no other context issues (R150). -/
def State.armedWait (s : State) (c : Nat) : Bool := (s.core c).armedAt.isSome && (s.frond (s.ctx c 0).frond).started
/-- The context has the issue position of its core in this cycle, and neither a freeze, nor a fence of the core, nor an armed start stops it. -/
def State.inTurn (s : State) (c k : Nat) : Bool :=
  let x := s.core c
  decide (x.running = some k) && decide (x.nextIssue ≤ s.now) && !s.stands c k && !x.fenced && !s.armedWait c
/-- The context would issue in this cycle: no `tkalign` holds it either. -/
def State.atIssue (s : State) (c k : Nat) : Bool := s.inTurn c k && (s.ctx c k).hold.isNone
/-- A latched pre-emption takes effect (R275); it ends the hold of a `tkalign` (R377, R399). -/
def State.preDue (s : State) (c k : Nat) : Bool :=
  (s.ctx c k).pre.any (fun p => decide (p < s.now)) && !s.stands c k &&
  (match (s.ctx c k).st with | .ready | .blocked => true | .running => s.inTurn c k | _ => false)
/-- A context at a landing stops for a role change or a checkpoint (R29, R108). -/
def State.stopDue (s : State) (c k : Nat) : Bool :=
  s.mayStop c k && (decide ((s.ctx c k).st ≠ .running) || s.atIssue c k)
/-- The first bank of a context whose clearing has ended. -/
def State.dueBank (s : State) (c k : Nat) : Option Nat :=
  [1, 2, 3].find? (fun b => ((s.ctx c k).bankOf b).clearing.any (fun t => decide (t ≤ s.now)))
/-- The frond is bound, and has neither ended nor been aborted. -/
def State.lives (s : State) (f : Nat) : Bool := (s.frond f).bound && !(s.frond f).ended && (s.frond f).abort.isNone
/-- What falls due for a context before bundles issue. -/
def State.ctxEvent (s : State) (c k : Nat) : Option State :=
  let x := s.ctx c k
  match s.dueResult x, s.dueBank c k, s.dueRelease c k with
  | some r, _, _ => some (after (execResultLanding c k r.id s) s)
  | none, some b, _ => some (after (execBankWakeDone c k b s) s)
  | none, none, some h => some (s.releaseEvent c k h)
  | none, none, none =>
    if (s.fenceReady c k).isSome then some (after (execFenceComplete c k s) s)
    else if x.hold.any (fun t => decide (t ≤ s.now)) && !s.stands c k then some (after (execTkalignRelease c k s) s)
    else if s.preDue c k then some (s.preempt c k s.now)
    else if s.stopDue c k then some (s.stopAtLanding c k)
    else if s.lives x.frond && s.waitedOut c k && x.atBarrier then some (after (execBarrierTimeout c k s) s)
    else if s.lives x.frond && s.waitedOut c k && x.atWait then some (after (execWaitTimeout c k s) s)
    else if decide (x.st = .blocked) && x.wait.all (s.waitMet c k) then
      some (s.updCtx c k (fun x => { x with st := .ready, wait := [] }))
    else none

/-- The armed start of an almanac's core has come (R95, R150). -/
def State.armedDue (s : State) (c : Nat) : Bool :=
  let f := (s.ctx c 0).frond
  (s.core c).armedAt.any (fun a => decide ((a : Int) ≤ s.dtime f)) && (s.frond f).started && !s.frozen f && !(s.core c).fenced
/-- A context may take the issue position. -/
def State.mayRun (s : State) (c k : Nat) : Bool :=
  decide ((s.ctx c k).st = .ready) && !s.stands c k && !(decide (k = 0) && (s.core c).armedAt.isSome) && !s.armedWait c
/-- The context that takes a free issue position: the first in the cyclic order after the one that last left (R148). -/
def State.nextCtx (s : State) (c : Nat) : Option Nat :=
  let x := s.core c
  if x.running.isSome || x.fenced then none else ((List.range 4).map (fun i => (x.lastLeft + 1 + i) % 4)).find? (s.mayRun c)
/-- What falls due for a core before bundles issue. -/
def State.coreEvent (s : State) (c : Nat) : Option State :=
  if (s.core c).retired.any (fun b => decide ((s.core c).pins b = 0)) then some (s.updCore c Core.freeRetired)
  else if s.armedDue c then some (after (execArmedStart c s) s) else (s.nextCtx c).map (s.take c)

/-! ### Untimed actions, in an order nothing fixes (R173) -/

/-- What may come next without a cycle of its own. -/
inductive Cand
  | access (id : Nat)
  /-- A request passes its arbitration point (R50). -/
  | hop (id : Nat)
  | chunk (core ctx copy i : Nat)
  /-- A line of a timed chunk, by its landing; and a line of an untimed one (R182). -/
  | line (id line : Nat)
  | chunkLine (core ctx copy i line : Nat)
  | save (core ctx : Nat)
  | restore (core ctx : Nat)
  | consume (world queue : Nat)
  | packet (id : Nat)
  | run (peer : Nat)
  /-- A run that is not acknowledged is sent again (R56). -/
  | resend (peer seq : Nat)
  | die (d : Nat)
  | drained (world : Nat)
  /-- The next step of a re-key at this package (R78). -/
  | rekey (ph : Phase)
  /-- The security engine ends a signature (R66). -/
  | signed
  /-- A load in progress goes on (R345, R349). -/
  | load (world : Nat)
  | ckpt
  deriving DecidableEq, Repr

/-- No timed chunk holds the landing port of a core (R194). -/
def State.portFree (s : State) (c : Nat) : Bool := !(s.core c).landPort.any (fun h => decide (h.1 ≤ s.now ∧ s.now ≤ h.1 + 1))
/-- A response that brings a queue entry keeps the order of the requests whose entries enter in this cycle (R369). -/
def State.inOrder (s : State) (a : Access) : Bool :=
  match a.owed with
  | .queue q _ => !((s.ctx a.core a.ctx).cameIn q s.now).any (fun n => decide (a.id < n))
  | _ => true
/-- An arrival in the scratchpad of a core may act: it needs the landing port (R194), waits for the end of a freeze (R206, R459), and keeps the
order of the source cores among those of its cycle, the fabric last (R200, R258, R435). -/
def State.mayArrive (s : State) (c src : Nat) : Bool :=
  let l := (s.core c).lastArrival
  s.portFree c && !s.coreStands c && (decide (l.1 ≠ s.now) || decide (l.2 ≤ src))
/-- An access may move: a response, an error response, or its home's act. -/
def State.accessReady (s : State) (a : Access) : Bool :=
  if a.done.isSome || (a.err && !a.act.writes) then !s.frozen a.frond && s.inOrder a
  else if !a.hops.isEmpty then false
  else
    match a.act with
    | .fabric _ _ _ _ _ => false
    | _ => s.ready a && a.arrivesAt.all (fun c => s.mayArrive c a.core)
/-- Cycles of one turn of a link wheel (R47), which no turn of a memory path exceeds. -/
def wheelTurn : Nat := 64 * linkSlotCycles
/-- A request that must pass now, so that it starts within its class bound (R50): less than one turn of the wheel is left. -/
def State.overdue (s : State) : Option Access :=
  s.posted.find? (fun a => s.mayHop a && decide (a.deadline ≤ s.now + wheelTurn))
/-- A chunk's bit may be set (R194, R195, R206). -/
def State.chunkReady (s : State) (c : Nat) (y : CopySt) (h : Chunk) : Bool :=
  decide (h.waiting = 0) && !s.coreStands c && (y.store || h.cells.isEmpty || s.portFree c)
/-- The lines that bytes lie in. -/
def cellLines (l : List Host.Cell) : List Nat := (l.map (fun c => lineOf c.1)).eraseDups
/-- Lines of timed chunks that may take their new value before the landing cycle, once all their bytes are there (R182). -/
def State.earlyLines (s : State) : List Cand :=
  s.calendar.flatMap (fun t =>
    if s.isDue t || s.frozen t.frond then []
    else
      (match t.act with
       | .chunkLand cells =>
         let w := (s.awaited t.id).map lineOf
         (cellLines cells).filter (fun n => !w.contains n)
       | .restore _ _ _ _ _ => s.restoreLines t
       | _ => []).map (Cand.line t.id))
/-- Lines of an untimed load's chunk that may take their new value before its bit is set (R182, R194, R206). -/
def State.earlyChunkLines (s : State) (c k : Nat) (y : CopySt) (h : Chunk) : List Cand :=
  if y.store || h.failed || !s.chunkReady c y h then [] else (cellLines h.cells).map (Cand.chunkLine c k y.id h.i)
/-- A packet may move. -/
def State.packetReady (s : State) (p : Packet) : Bool :=
  match p.st with
  | .done => true
  | .fresh => false
  | .waiting => s.mayStart p && !(p.arm && decide (pkOpc p.bits = 0x01 ∨ pkOpc p.bits = 0x02) && s.freeSlot.isNone)
  | .stat | .sig => decide (p.waiting = 0)
  | .running =>
    let opc := pkOpc p.bits
    if opc = 0x06 then (decide (p.status = 0) && !p.err && decide (p.progress < pkField p.bits 40 8)) || decide (p.waiting = 0)
    else if !p.acted then true
    else if opc = 0x01 ∨ opc = 0x02 then
      (p.entry.bind (fun e => if (s.slot e).st = .bound then s.frondOutcome (s.slot e).frond else none)).isSome
    else decide (opc = 0x04 ∨ opc = 0x0C) && decide (p.waiting = 0)
/-- The phase to which a re-key can go on at this package, of itself: as the coordinator, or to DRAINED (R78). -/
def State.rekeyNext (s : State) : Option Phase :=
  let d := s.hub.domain
  let lead := decide (d.coordinator = d.self)
  if !d.formed then none
  else
    match d.phase with
    | .idle => none
    | .quiesce => if s.domainDrained then some .drained else none
    | .drained => if lead && d.reported Peer.drained then some .switching else none
    | .switching => if lead && s.switchDone d.number then some .switched else none
    | .switched => if lead && d.reported Peer.switched then some .idle else none
/-- The untimed actions that are possible now. -/
def State.candidates (s : State) : List Cand :=
  (s.posted.filter s.accessReady).map (fun a => Cand.access a.id) ++ (s.posted.filter s.mayHop).map (fun a => Cand.hop a.id) ++
  s.cores.flatMap (fun e => e.2.ctxs.flatMap (fun k =>
    k.2.copies.flatMap (fun y => (y.chunks.filter (s.chunkReady e.1 y)).map (fun h => Cand.chunk e.1 k.1 y.id h.i)) ++
    k.2.copies.flatMap (fun y => y.chunks.flatMap (s.earlyChunkLines e.1 k.1 y)) ++
    (if k.2.saving && s.drained e.1 k.1 then [.save e.1 k.1] else []) ++ (if k.2.restoring then [.restore e.1 k.1] else []))) ++
  s.earlyLines ++ (s.packets.filter s.packetReady).map (fun p => Cand.packet p.id) ++
  s.worlds.flatMap (fun w => (w.2.queues.filter (fun q =>
    q.2.present && !q.2.error && decide (q.2.head ≠ q.2.tail) && s.consumes w.1 q.1)).map (fun q => Cand.consume w.1 q.1)) ++
  (s.worlds.filter (fun w => decide (w.2.st = .draining) && s.worldIdle w.1)).map (fun w => Cand.drained w.1) ++
  (s.worlds.filter (fun w => s.loadReady w.1)).map (fun w => Cand.load w.1) ++
  (s.hub.domain.peers.filter (fun p => s.mayClose p.1 && !p.2.rekeyAsked)).map (fun p => Cand.run p.1) ++
  (if s.serves then s.hub.domain.peers.flatMap (fun p => p.2.runs.map (fun r => Cand.resend p.1 r.seq)) else []) ++
  (if s.hub.signing.isSome then [.signed] else []) ++ (s.rekeyNext.map Cand.rekey).toList ++
  (s.dies.filter (fun d => (decide (d.2.st = .flushing) && s.flushed d.1) || decide (d.2.st = .zeroing) ||
    (decide (d.2.st = .enumerating) && !d.2.enumerated))).map (fun d => Cand.die d.1) ++
  (if s.ckptDrained || s.hub.ckpt.any (fun q => decide (q.step = 5)) then [.ckpt] else [])

/-- The home's act on an access, or its response. -/
def State.moveAccess (s : State) (id : Nat) : State :=
  match s.access id with
  | none => s
  | some a =>
    if a.done.isSome then after (execQueueDelivery id s) s
    else if a.err && !a.act.writes then after (execErrorResponseArrival id s) s
    else
      match a.act with
      | .write _ | .void => after (execUntimedApply id s) s
      | .read _ | .sigRead _ | .move _ _ => after (execUntimedServe id s) s
      | .atomic _ _ _ _ _ | .dec _ _ | .combine _ _ => after (execUntimedAtomic id s) s
      | .push (some .sa) _ _ _ => after (execSaPlaneArrival id s) s
      | .push _ _ _ _ => after (execPushArrival id s) s
      | .fabric _ _ _ _ _ => s
/-- A world key as the engine of H draws it (R73). -/
def drawKey (n : Nat) : BitVec 512 :=
  BitVec.ofNat 512 ((List.range 8).foldl (fun a i => a + (Config.freeWord (n + i)).toNat * 2 ^ (64 * i)) 0)
/-- A packet's own act, by its opcode and sub-operation (R89). -/
def State.actPacket (s : State) (p : Packet) : State :=
  let id := p.id
  let o (r : Out) : State := after r s
  match pkOpc p.bits, pkField p.bits 24 1 with
  | 0x00, _ => o (execNop id s)
  | 0x01, _ => o (execLaunch id s)
  | 0x02, _ => o (execAlmanac id s)
  | 0x03, _ => o (execPred id s)
  | 0x04, _ => o (execSigdec id s)
  | 0x05, _ => o (execSigwait id s)
  | 0x06, _ => o (execCopy id s)
  | 0x07, _ => o (execPartition id s)
  | 0x08, _ => o (execCheckpoint id s)
  | 0x09, 1 => o (execLoadkey id s)
  | 0x09, 2 => o (execEraseload id s)
  | 0x09, 3 => o (execDomform id [] s)
  | 0x09, 4 => o (execDomrekey id s)
  | 0x0A, 1 => o (execIfstLock id s)
  | 0x0A, 2 => o (execIfstUnlock id s)
  | 0x0A, 3 => o (execIfstRelease id s)
  | 0x0B, _ => o (execCfgwr id s)
  | 0x0C, _ => o (execCfgrd id s)
  | 0x0D, 1 => o (execWorldCreate id (drawKey s.fresh) { s with fresh := s.fresh + 8 })
  | 0x0D, 2 => o (execWorldDrain id s)
  | 0x0D, 4 => o (execWorldGrant id s)
  | 0x0E, _ => o (execMeasure id s)
  | 0x0F, 1 => o (execQueueCreate id s)
  | 0x0F, 2 => o (execQueueReset id s)
  | 0x0F, 3 => o (execQueueDestroy id s)
  | _, _ => s
/-- The front end's act for a packet as it is consumed (R83, R95, R105, R106, R114, R120), unless a read of it must wait (R173). -/
def State.freshStep (s : State) : Option State :=
  (s.packets.filter (fun p => decide (p.st = .fresh))).findSome? (fun p =>
    let t := s.actPacket p
    if (t.packet p.id).any (fun q => decide (q.st = .fresh)) then none else some t)
/-- The next act of a packet. -/
def State.movePacket (s : State) (id : Nat) : State :=
  match s.packet id with
  | none => s
  | some p =>
    match p.st with
    | .waiting => let t := after (execPacketStart id s) s; t.freshStep.getD t
    | .done | .stat | .sig => after (execPacketComplete id s) s
    | .fresh => s
    | .running =>
      let opc := pkOpc p.bits
      if (!p.acted && decide (opc ≠ 0x06)) ||
          (decide (opc = 0x06) && decide (p.status = 0) && !p.err && decide (p.progress < pkField p.bits 40 8)) then s.actPacket p
      else after (execPacketComplete id s) s
/-- A line of a timed chunk takes its new value before the landing cycle (R182). -/
def State.landLine (s : State) (id line : Nat) : State :=
  match s.timed id with
  | some t =>
    match t.act with
    | .chunkLand cells =>
      let rest := cells.filter (fun c => decide (lineOf c.1 ≠ line))
      ({ s with calendar := s.calendar.map (fun u : Timed => if u.id = id then { u with act := .chunkLand rest } else u) }).landAs
        (s.core t.core).world (cells.filter (fun c => decide (lineOf c.1 = line)))
    | .restore _ _ _ _ _ => s.landRestoreLine t line
    | _ => s
  | none => s
/-- A line of an untimed load's chunk takes its new value before the bit is set (R182). -/
def State.landChunkLine (s : State) (c k copy i line : Nat) : State :=
  match (s.ctx c k).chunk copy i with
  | some h =>
    let now := h.cells.filter (fun x => decide (lineOf x.1 = line))
    ((s.updCtx c k (fun x => x.updChunk copy i (fun h => { h with cells := h.cells.filter (fun x => decide (lineOf x.1 ≠ line)) }))).timedWrite
      now).latchFor (now.map Prod.fst)
  | none => s
/-- An untimed action is taken. -/
def State.takeCand (s : State) : Cand → State
  | .access id => s.moveAccess id
  | .hop id => s.hop id
  | .chunk c k y i => after (execUntimedChunkComplete c k y i s) s
  | .line id l => s.landLine id l
  | .chunkLine c k y i l => s.landChunkLine c k y i l
  | .save c k => after (execContextSaveDone c k s) s
  | .restore c k => after (execContextRestoreDone c k s) s
  | .consume w q => let t := after (execPacketConsume w q s) s; t.freshStep.getD t
  | .packet id => s.movePacket id
  | .run m => after (execRunIdleClose m s) s
  | .die d =>
    match (s.die d).st with
    | .flushing => after (execFlushComplete d s) s
    | .zeroing => after (execZeroiseComplete d s) s
    | _ => after (execReenumerateComplete d s) s
  | .drained w => after (execWorldDrainComplete w s) s
  | .resend m n => s.resend m n
  | .load w => s.loadNext w
  | .signed => s.updHub (fun h => { h with signing := none })
  | .rekey ph =>
    let d := s.hub.domain
    match ph with
    | .drained => after (execRekeyDrained ⟨d.number, d.self⟩ s) s
    | .switching => after (execRekeySwitch d.number s) s
    | .switched => after (execRekeySwitched ⟨d.number, d.self⟩ 0 s) s
    | .idle => after (execRekeyResume d.number s) s
    | .quiesce => s
  | .ckpt =>
    if s.hub.ckpt.any (fun q => decide (q.step = 3)) then after (execCheckpointSaveDone s) s else after (execCheckpointBlobDone s) s

/-! ### Fronds, packets, roles and checkpoints -/

/-- What falls due for a frond (R36, R95, R118, R119, R125). -/
def State.frondEvent (s : State) (f : Nat) : Option State :=
  let fr := s.frond f
  if fr.thawAbort.isSome && !s.frozen f then some (after (execFreezeEnd f s) s)
  else if fr.bound && !fr.started && decide (fr.kind = .almanac) && decide (fr.start * frameCycles ≤ s.now) then
    some (after (execAlmanacStart f s) s)
  else if s.startDue f then some (after (execFrondStart f s) s)
  else if s.itemDue f then some (after (execItemStart f s) s)
  else if s.endDue f then some (after (execFrondEnd f s) s)
  else if fr.bound && fr.abort.isNone && !fr.ended && fr.limit.any (fun t => decide (t * frameCycles ≤ s.now)) &&
      !fr.cores.all fr.halted.contains then some (after (execAlmanacLimitExpiry f s) s)
  else none
/-- What falls due for an entry of the slot table (R95, R117). -/
def State.entryEvent (s : State) (i : Nat) : Option State :=
  let e := s.slot i
  if e.st ≠ .pending then none
  else if e.kind = .almanac ∧ (e.start.toNat - 4) * frameCycles < s.now then some (after (execAlmanacBindDeadline i s) s)
  else if e.committed && !s.columnHeld e && s.entryStarted i && !s.dispatchHeld then some (s.dispatch i)
  else none
/-- What a leaving layer still waits for goes on (R28 step 2, R31): an access to it, or one that may have to come before. -/
def State.pushOn (s : State) : Option State :=
  let wanted (a : Access) : Bool :=
    a.done.isNone && a.act.touches.any (fun pa => layerDies.any (fun d => decide ((s.die d).st = .flushing) && onLayer d pa))
  if !s.posted.any wanted then none
  else
    match s.posted.find? (fun a => wanted a && s.accessReady a), s.posted.find? s.mayHop,
        s.posted.find? (fun a => a.done.isNone && s.accessReady a) with
    | some a, _, _ => some (s.moveAccess a.id)
    | none, some a, _ => some (s.hop a.id)
    | none, none, some a => some (s.moveAccess a.id)
    | none, none, none => none
/-- The steps of a role change that are due (R28, R30, R31): its last steps end in time. -/
def State.roleEvent (s : State) : Option State :=
  match s.hub.role with
  | none => none
  | some r =>
    if r.step = 6 then some (after (execRoleChangeCommit s) s)
    else if r.step = 1 then
      if s.roleDrained r then some (after (execRoleDrainComplete s) s)
      else if r.accepted + r.deadline ≤ s.gtick.toNat then some (after (execDrainDeadlineExpiry s) s)
      else none
    else if (s.readyColumn r).isSome || (decide (r.step < 5) && s.roleSettled r) then
      some (((s.readyColumn r).toList.foldl (fun s k => s.enumerateStaying r k) s).roleSettle)
    else if r.since + 159 ≤ s.gtick.toNat then
      match layerDies.find? (fun d => decide ((s.die d).st = .flushing) && s.flushed d),
          layerDies.find? (fun d => decide ((s.die d).st = .zeroing)),
          layerDies.find? (fun d => decide ((s.die d).st = .enumerating) && !(s.die d).enumerated) with
      | some d, _, _ => some (after (execFlushComplete d s) s)
      | none, some d, _ => some (after (execZeroiseComplete d s) s)
      | none, none, some d => some (after (execReenumerateComplete d s) s)
      | none, none, none => if layerDies.any (fun d => decide ((s.die d).st = .flushing)) then s.pushOn else none
    else none
/-- The steps of a checkpoint that are due (R108, R109). -/
def State.ckptEvent (s : State) : Option State :=
  match s.hub.ckpt with
  | none => none
  | some q =>
    if q.step = 0 ∧ !s.ckptHeld then some s.ckptBegin
    else if s.barrierDue then some (after (execCheckpointBarrier s) s)
    else if q.step = 2 ∧ q.began + q.budget ≤ s.gtick.toNat then some (after (execCheckpointBudgetExpiry s) s)
    else none
/-- What falls due at H (R39, R82 to R84, R100). -/
def State.hubEvent (s : State) : Option State :=
  if s.hub.ifs = .boot ∧ s.hub.booting then (if s.now % frameCycles = 0 ∧ s.now ≠ 0 then some s.startStage2 else none)
  else if s.hub.ifs = .locked ∧ s.hub.lockTick = some s.gtick then some (after (execEnterRun s) s)
  else if s.hub.ifs = .drain ∧ s.worldsEmpty then some (after (execInterfaceDrainComplete s) s)
  else
    match (s.hub.domain.peers.find? (fun p => s.mayClose p.1 && !p.2.spent && s.runFull p.1)).map Prod.fst with
    | some m => some (after (execRunIdleClose m s) s)
    | none =>
    match s.packets.find? (fun p => (s.sigwaiting p.id).isSome && p.until_.any (fun t => decide (t ≤ s.gtick.toNat))),
        s.hub.channels.find? (fun c => c.2.busy.isNone && !c.2.jobs.isEmpty),
        s.dies.find? (fun d => d.2.flits.any (fun x => s.flitDue x.1)) with
    | some p, _, _ => some (after (execSigwaitTimeout p.id s) s)
    | none, some c, _ => some (s.channelStep c.1)
    | none, none, some d =>
      (d.2.flits.find? (fun x => s.flitDue x.1)).map (fun x => after (execTimedFlitRelease d.1 x.1 s) s)
    | none, none, none => none
/-- A page move whose earlier writes are applied goes on (R205 step 2). -/
def State.moveEvent (s : State) : Option State :=
  (s.migrations.find? (fun m => m.2.2.2.marked && !m.2.2.2.applied &&
    m.2.2.2.writes.all (fun i => !s.posted.any (fun a => decide (a.id = i) && a.act.writes && a.done.isNone)))).map
    (fun m => after (execMigrationWritesApplied m.1 m.2.1 m.2.2.1 s) s)

/-! ### The next cycle -/

/-- Memory errors that the dies corrected in place during the frame, any number of them (R137, log 54). -/
def State.correct (s : State) : State :=
  (SMap.keys s.dies).foldl (fun s d =>
    { s with fresh := s.fresh + 1 }.updDie d (fun x => { x with memCorr := x.memCorr + Config.freeChoice s.fresh })) s
/-- A frame tick (R35): H's and the dies' part, the next reads of `sig.wait`s that a served read left waiting (R382), and the
evaluation of waiting SIGWAITs (R99). -/
def State.tick (s : State) : State :=
  let s := (after (execFrameTick s) s).correct.letIn
  let s := s.allCtxs.foldl (fun s x => after (execSigWaitRepost x.1 x.2 s) s) s
  ((s.packets.filter (fun p => (s.sigwaiting p.id).isSome)).map Packet.id).foldl (fun s i => after (execSigwaitReevaluate i s) s) s
/-- Results that have landed are no longer in flight, and the banks that left ON with them have left. -/
def Ctx.settleLanded (x : Ctx) : Ctx :=
  if x.inflight.any (fun r => r.old.isSome) then
    { x with
      inflight := x.inflight.filter (fun r => r.old.isNone)
      bank1 := { x.bank1 with left := none }, bank2 := { x.bank2 with left := none }, bank3 := { x.bank3 with left := none } }
  else x
/-- THE NEXT CYCLE. -/
def State.advance (s : State) : State :=
  let s := { s with
    now := s.now + 1
    cores := s.cores.map (fun e : Nat × Core => (e.1, { e.2 with ctxs := e.2.ctxs.map (fun k : Nat × Ctx => (k.1, k.2.settleLanded)) })) }
  if s.now % frameCycles = 0 then s.tick else s

/-! ### The order of one cycle -/

/-- What comes before the bundles of the present cycle. -/
def State.beforeIssue (s : State) : Option State :=
  match s.dueAction false with
  | some t => some (s.takeAction t)
  | none =>
    match (SMap.keys s.cores).findSome? s.engineStep with
    | some t => some t
    | none =>
      match (SMap.keys s.fronds).findSome? s.frondEvent with
      | some t => some t
      | none =>
        match s.allCtxs.findSome? (fun x => s.ctxEvent x.1 x.2) with
        | some t => some t
        | none =>
          match (SMap.keys s.cores).findSome? s.coreEvent with
          | some t => some t
          | none =>
            match (SMap.keys s.hub.slots).findSome? s.entryEvent with
            | some t => some t
            | none =>
              match s.roleEvent, s.ckptEvent, s.hubEvent, s.moveEvent with
              | some t, _, _, _ => some t
              | none, some t, _, _ => some t
              | none, none, some t, _ => some t
              | none, none, none, e => e
/-- The context that issues next in the present cycle: those of lower cores first. -/
def State.issuer? (s : State) : Option (Nat × Nat) :=
  s.cores.findSome? (fun e => e.2.running.bind (fun k => if s.atIssue e.1 k then some (e.1, k) else none))
/-- What comes after the bundles of the present cycle: slips, drains and folds, then an untimed action, or the next cycle (R173). -/
def State.afterIssue (s : State) : State :=
  match s.fronds.find? (fun e => !e.2.slips.isEmpty), s.dueAction true with
  | some e, _ => s.endSlip e.1
  | none, some t => s.takeAction t
  | none, none =>
    match s.overdue with
    | some a => s.hop a.id
    | none =>
    match s.candidates with
    | [] => s.advance
    | l =>
      let r := s.choose (l.length + 1)
      match r.1 with
      | 0 => r.2.advance
      | n + 1 => (l[n]?).elim r.2.advance r.2.takeCand
/-- What happens next. -/
def State.event (s : State) : State :=
  match s.freshStep, s.beforeIssue with
  | some t, _ => t
  | none, some t => t
  | none, none =>
    match s.issuer? with
    | some (c, k) => s.issue c k
    | none => s.afterIssue

end Sys2Proof.Machine
end

