-- ==== Sys2Proof/Machine/Place.lean ====
section
/-! DEFINITION. Placing one instruction where the machine takes its next one: what the manager, the loader and dispatch otherwise
bring about over many steps (log 21). -/

namespace Sys2Proof.Machine

/-! ### What comes from outside (R52, R53) -/

/-- Traffic that comes by RUD (R53): host gets of device memory, and the runs of a trust domain; a packet says its own mode. The rest, which the
device takes by ROD or firmware brings about, keeps its order. -/
def unordered : Instr → Bool
  | .get _ _ _ | .statusWindowGet | .runReceive _ _ => true
  | .uePacketReceive _ p => decide (p.mode = .rud)
  | _ => false
/-- The places of the steps from outside that may come next: the first of those that keep their order, and every other, which the network may
have brought before it. -/
def nextPlaces (l : List Instr) : List Nat :=
  (List.range l.length).filter (fun i => (l.drop i).head?.any unordered || (l.take i).all unordered)
/-- The next step from outside. -/
def State.takeInbox (s : State) : Option (Instr × State) :=
  match s.inbox with
  | [] => none
  | i :: r =>
    match nextPlaces (i :: r) with
    | [] | [_] => some (i, { s with inbox := r })
    | l =>
      let x := s.choose l.length
      let n := l.getD x.1 0
      some ((((i :: r).drop n).headD i), { x.2 with inbox := (i :: r).eraseIdx n })

/-- The slot that a word of the opcode table is placed in: the first map that reads it, in the order of `decodeTableWord`; a word
that no map reads stands in the first slot of its length. -/
def placeKind (nbits w : Nat) : SlotKind :=
  let w0 : Syllable := BitVec.ofNat 32 w
  let w1 : Syllable := if nbits ≤ 32 then 0#32 else BitVec.ofNat 32 (w / 2 ^ 32)
  let l : List SlotKind := if nbits ≤ 32 then [.C, .I, .S, .V, .X, .M, .L, .K, .Y] else [.V, .X, .M, .L, .K, .Y, .U]
  (l.find? (fun k => match decodeSlot k w0 w1 with | .ok _ => true | .error _ => false)).getD (if nbits ≤ 32 then .C else .V)
/-- The presence bit of a slot of a kind. -/
def kindBit : SlotKind → Nat
  | .C => 30 | .I => 29 | .V => 27 | .X => 25 | .M => 24 | .L => 23 | .S => 22 | .K => 21 | .Y => 20 | .U => 19
/-- The version of page 0 that holds one bundle: its tag, a length of two packets, and at offset 32 a header that names one slot,
and the slot's syllables (R300, R301, R350, R351). -/
def onePage (tag : BitVec 32) (k : SlotKind) (w : Nat) : SMap Syllable :=
  [(1, tag), (2, 2#32), (32, BitVec.ofNat 32 (2 ^ 31 + 2 ^ kindBit k)), (33, BitVec.ofNat 32 w), (34, BitVec.ofNat 32 (w / 2 ^ 32))]
/-- `s` with a slot instruction at the resume point of context 0 of core 0, which holds the issue position; or with a
microinstruction as the first word of the run that core 0's engine starts now. Nothing else is due. -/
def State.placeWord (s : State) (nbits w : Nat) : State :=
  let k := placeKind nbits w
  let x := s.core 0
  let y := x.ctx 0
  let clear (s : State) : State := { s with inbox := [], calendar := [], fronds := [] }
  if k = .U then
    { clear s with
      now := s.now + 2
      cores := [(0, { x with
        powered := true, fenced := false, running := none, ctxs := [], armedAt := none
        engine := { x.engine with
          store := SMap.put 0 x.engine.store 0 (BitVec.ofNat 64 w), table := SMap.put 0 x.engine.table 0 0x8000#16, times := {}
          calls := [{ id := 0, ctx := 0, frond := 384, issue := s.now, kind := .call 0 (List.replicate 8 0) 1 }]
          run := some (runFrom 0 (List.replicate 8 0) 0) } })] }
  else
    { clear s with
      cores := [(0, { x with
        powered := true, fenced := false, running := some 0, nextIssue := s.now, armedAt := none, engine := { x.engine with calls := [] }
        istore := onePage (s.tag 0) k w
        dir := [(0, { page := 0, v := true, cur := true })]
        ctxs := [(0, { y with
          st := .running, point := .inside 0 0 0 32, inflight := [], record := [], heldev := [], fences := [], wait := [],
          hold := none, pre := none, bank1 := {}, bank2 := {}, bank3 := {} })] })] }

end Sys2Proof.Machine
end

