-- ==== Sys2Proof/Machine/Step.lean ====
section
/-! DEFINITION. One step of the machine, and a state in which a given instruction is the next to run. -/

namespace Sys2Proof.Machine

/-- ONE STEP: a step from outside that is waiting (log 2), or else what the machine does next. -/
def step (s : State) : Host.Outcome State Fault Refusal :=
  match s.takeInbox with
  | some (i, t) => exec i t
  | none => .next s.event

/-- `s` with the instruction of a table word placed where the machine takes its next one (log 21). -/
def State.withFetchWord (s : State) (nbits w : Nat) : State := s.placeWord nbits w

end Sys2Proof.Machine
end

