-- ==== Sys2Proof/Safety.lean ====
section
/-! DEFINITION. The terms in which claims are stated: memory's form, a step that goes on, what stands before an instruction's
own effect, and what it leaves as it was. -/

namespace Sys2Proof

open Machine

/-- Memory is in its canonical form: addresses strictly rising, and no entry that reads as an unlisted address does. -/
abbrev Memory.wf (m : SMap Byte) : Prop := SMap.wf (0 : Byte) m = true

/-- A step ends in a next state: the machine of the manual never stops, since every trap, error and refusal of it is a next state. -/
def Goes (s : State) : Prop := ∃ t, step s = .next t

/-- The guard is true, and n more results fit under the in-flight limit (R289, R352). -/
def Opens (s : State) (p : BitVec 4) (n : Nat) : Prop := s.cur.pr p = true ∧ s.cur.inFlight + n ≤ 256

/-- Nothing stands before the slot's own checks: its guard is true, it raises no held record (R284), it names no vector
register of a bank that is asleep (R159), and its results fit under the in-flight limit (R289). -/
def Fires (s : State) (i : Instr) (p : BitVec 4) : Prop :=
  s.cur.pr p = true ∧ heldStop s.cur i = none ∧ sleeper s.cur i = none ∧ s.cur.inFlight + resultsOf i ≤ 256

/-- Every register of a context is the same: general, address, predicate, vector, matrix parameter and layout registers, and the
registers of R165 that a context holds. -/
structure SameRegs (x y : Ctx) : Prop where
  g : y.g = x.g
  a : y.a = x.a
  p : y.p = x.p
  v : y.v = x.v
  m : y.m = x.m
  lay : y.y = x.y
  ltrip : y.ltrip = x.ltrip
  lpass : y.lpass = x.lpass
  lrot : y.lrot = x.lrot
  wid : y.wid = x.wid
  wlay : y.wlay = x.wlay
  tslc : y.tslc = x.tslc
  xcause : y.xcause = x.xcause
  xval : y.xval = x.xval
  xtok : y.xtok = x.xtok
  xcnt : y.xcnt = x.xcnt

/-- Every register of every context, and every byte of memory, is the same. -/
def KeepsRegsAndMemory (s t : State) : Prop :=
  (∀ c k, SameRegs (s.ctx c k) (t.ctx c k)) ∧ ∀ a, t.byte a = s.byte a

/-- What a world sees of memory at some addresses is what stands there, but for the lines of them that another world wrote last, which
it sees through its own key (R204). -/
def SeesOwn (s : State) (w : Nat) (l : List Nat) : Prop :=
  ∀ a, s.foreign w (lineOf a) = false ∨ lineOf a ∉ l.map lineOf → (s.seenBy w l).byte a = s.byte a

/-- A write of a world to some addresses leaves every other byte as it was, and of the lines written that were another world's, as the
world saw it. -/
def KeepsOthers (s t : State) (w : Nat) (l : List Nat) : Prop :=
  (∀ a, a ∉ l → t.byte a = (s.seenBy w l).byte a) ∧ SeesOwn s w l

/-- The posted accesses, whatever arbitration points their requests have reached (R50). -/
def Machine.State.accesses (s : State) : List Access := s.posted.map (fun a => { a with arr := none })

/-- What a source of VA, VB or X offers: its register's value, or the data entry at the bundle's position of its queue (R154). -/
def Offers (s : State) : Src → Vec → Prop
  | .v r _, v => v = s.cur.vr r
  | .q r _, v => (SMap.get [] s.cur.q r.toNat)[SMap.get 0 s.cur.popped r.toNat]? = some (.data v)

/-- Every source of a list offers its value, each after those before it have taken their queue positions. -/
def OffersAll (s : State) : List (Src × Vec) → Prop
  | [] => True
  | (x, v) :: r => Offers s x v ∧ OffersAll (takeSrc s x).1 r

/-- The state in which sources have taken their queue positions. -/
def afterSrcs (s : State) (l : List Src) : State := l.foldl (fun t x => (takeSrc t x).1) s

/-- Element j of a vector value with elements of e bits (R208). -/
def laneOf (e : Nat) (v : Vec) (j : Nat) : BitVec e := v.extractLsb' (e * j) e

/-- An instruction completes: its sources take their queue positions, and all else it does is to put one result in flight for bits
w − 1 : 0 of vD, due after `lat` cycles, whose value meets `ok` (R12, R400, R401). -/
def GivesVector (i : Instr) (s : State) (l : List Src) (vd : BitVec 6) (w : Width) (lat : Nat) (ok : Vec → Prop) : Prop :=
  ∃ r : Vec, exec i s = .next ((afterSrcs s l).toV vd w.bits lat r) ∧ ok r

/-- The calendar holds chunk i of a timed copy (R193): its read at r + 2i takes some moves, and hands the bytes to a landing at
l + 2i, which holds some cells from the start. -/
def HasChunk (t : State) (i r l : Nat) (moves : List Move) (cells : List Host.Cell) : Prop :=
  ∃ x ∈ t.calendar, ∃ y ∈ t.calendar,
    x.due = r + 2 * i ∧ x.act = .chunkRead moves y.id ∧ y.due = l + 2 * i ∧ y.act = .chunkLand cells

/-- A timed load of a tile (R190, R193): every in-bounds element moves from its place at `src` to its place in the image, and every
other element of the image is filled, each with its chunk. -/
def LoadsTile (t : State) (tile : Tile) (img : Nat) (src : Int → Nat) (r l : Nat) : Prop :=
  ∀ k < tile.count, ∃ moves cells, HasChunk t (tile.e * k / 512) r l moves cells ∧
    match tile.offset k with
    | some g => ∀ j < tile.e, ({ dst := img + tile.e * k + j, src := src g + j } : Move) ∈ moves
    | none => ∀ j < tile.e, (img + tile.e * k + j, BitVec.ofNat 8 (tile.fillValue / 2 ^ (8 * j))) ∈ cells

/-- A timed store of a tile: every in-bounds element moves from the image to its place at `dst`, and no other element moves. -/
def StoresTile (t : State) (tile : Tile) (img : Nat) (dst : Int → Nat) (r l : Nat) : Prop :=
  ∀ k < tile.count, ∃ moves, HasChunk t (tile.e * k / 512) r l moves [] ∧
    match tile.offset k with
    | some g => ∀ j < tile.e, ({ dst := dst g + j, src := img + tile.e * k + j } : Move) ∈ moves
    | none => ∀ m ∈ moves, m.src < img + tile.e * k ∨ img + tile.e * (k + 1) ≤ m.src

/-- An untimed copy of n chunks begins (R195, R447): it is counted as outstanding, its completion bits are cleared, its accesses
are posted for its chunks, and nothing else of memory and no register changes. -/
structure StartsCopy (s t : State) (cbm n : Nat) (store : Bool) (acts : List Access) : Prop where
  posted : t.accesses = s.accesses ++ acts
  owed : ∀ x ∈ acts, x.core = s.curCore ∧ x.ctx = s.curCtx ∧ ∃ i va, i < n ∧ x.owed = .chunk s.seqno i va store
  counted : ∃ cp : CopySt, t.cur.copies = s.cur.copies ++ [cp] ∧ cp.id = s.seqno ∧ cp.cbm = cbm ∧ cp.store = store ∧
    cp.chunks.map Chunk.i = List.range n
  cleared : ∀ i < n, (t.byte (bufAddr s.curCore .xb (cbm + i / 8))).getLsbD (i % 8) = false
  kept : ∀ b, (∀ i < n, b ≠ bufAddr s.curCore .xb (cbm + i / 8)) → t.byte b = s.byte b
  regs : ∀ c k, SameRegs (s.ctx c k) (t.ctx c k)

/-- The byte of every in-bounds element of a tile's image goes with an access of its chunk that `carries` it to its place. -/
def SendsTile (s : State) (tile : Tile) (img : Nat) (acts : List Access) (carries : Act → Int → Nat → Byte → Prop) : Prop :=
  ∀ k < tile.count, ∀ g, tile.offset k = some g → ∀ j < tile.e, ∃ x ∈ acts,
    (∃ va st, x.owed = .chunk s.seqno (tile.e * k / 512) va st) ∧ carries x.act g j (s.byte (img + tile.e * k + j))

/-- Every in-bounds element of a tile is read by an access of its chunk, into its place in the image. -/
def FetchesTile (s : State) (tile : Tile) (img : Nat) (acts : List Access) (reads : Act → Int → Nat → Nat → Prop) : Prop :=
  ∀ k < tile.count, ∀ g, tile.offset k = some g → ∀ j < tile.e, ∃ x ∈ acts,
    (∃ va st, x.owed = .chunk s.seqno (tile.e * k / 512) va st) ∧ reads x.act g j (img + tile.e * k + j)

/-- The instructions of a bundle's slots run in order, each on the state the earlier one leaves, and the present context runs on
after each (R283 item 10). -/
def RunsAll : List Instr → State → State → Prop
  | [], s, t => t = s
  | i :: r, s, t => ∃ u, exec i s = .next u ∧ (u.ctx s.curCore s.curCtx).st = .running ∧ RunsAll r u t

end Sys2Proof
end

