-- ==== Sys2Proof/Certificates/Slice0/Obligations.lean ====
section
/-! DEFINITION. The statements about the model, for the provers. Each says in its docstring which rules of spec/ it formalises, and
what of it is a choice of the model. -/

open Sys2Proof Sys2Proof.Machine

/-! ### The integer slots (17 R390 to R398, latencies of R371) -/

/-- R390 with the latencies of R371: what each additive form puts in flight for gD, for every operand; the sums are exact and then
wrapped or saturated. -/
def Obligations.ScalarAdditiveResults : Prop :=
  ∀ (s : State) (p : BitVec 4) (gd ga gb : BitVec 6) (imm : BitVec 9), Opens s p (countG gd) →
    let a := s.cur.gr ga
    let b := s.cur.gr gb
    exec (.add p gd ga gb) s = .next (s.toG gd 1 (BitVec.ofInt 64 (a.toInt + b.toInt))) ∧
    exec (.sub p gd ga gb) s = .next (s.toG gd 1 (BitVec.ofInt 64 (a.toInt - b.toInt))) ∧
    exec (.addi p gd ga imm) s = .next (s.toG gd 1 (BitVec.ofInt 64 (a.toInt + imm.toInt))) ∧
    exec (.adds p gd ga gb false) s =
      .next (s.toG gd 1 (BitVec.ofInt 64 (max (-2 ^ 63) (min (2 ^ 63 - 1) (a.toInt + b.toInt))))) ∧
    exec (.adds p gd ga gb true) s = .next (s.toG gd 1 (BitVec.ofNat 64 (min (2 ^ 64 - 1) (a.toNat + b.toNat)))) ∧
    exec (.subs p gd ga gb false) s =
      .next (s.toG gd 1 (BitVec.ofInt 64 (max (-2 ^ 63) (min (2 ^ 63 - 1) (a.toInt - b.toInt))))) ∧
    exec (.subs p gd ga gb true) s = .next (s.toG gd 1 (BitVec.ofNat 64 (a.toNat - b.toNat))) ∧
    exec (.min p gd ga gb false) s = .next (s.toG gd 1 (if a.toInt ≤ b.toInt then a else b)) ∧
    exec (.min p gd ga gb true) s = .next (s.toG gd 1 (if a.toNat ≤ b.toNat then a else b)) ∧
    exec (.max p gd ga gb false) s = .next (s.toG gd 1 (if a.toInt ≤ b.toInt then b else a)) ∧
    exec (.max p gd ga gb true) s = .next (s.toG gd 1 (if a.toNat ≤ b.toNat then b else a))

/-- R391 and R393: products by their 128 bits, and division truncating toward zero with its two corner cases; 2 or 4 and 18 or 24
cycles at T12 and T16 (R371). -/
def Obligations.ScalarMultiplicativeResults : Prop :=
  ∀ (s : State) (p : BitVec 4) (gd ga gb : BitVec 6), Opens s p (countG gd) →
    let a := s.cur.gr ga
    let b := s.cur.gr gb
    let m := if s.hub.profile = 0x16 then 4 else 2
    let d := if s.hub.profile = 0x16 then 24 else 18
    exec (.mul p gd ga gb) s = .next (s.toG gd m (BitVec.ofNat 64 (a.toNat * b.toNat))) ∧
    exec (.mulh p gd ga gb) s =
      .next (s.toG gd m ((a.signExtend 128 * b.signExtend 128).extractLsb' 64 64)) ∧
    exec (.mulhn p gd ga gb) s =
      .next (s.toG gd m ((a.setWidth 128 * b.setWidth 128).extractLsb' 64 64)) ∧
    exec (.div p gd ga gb true) s = .next (s.toG gd d (if b = 0 then BitVec.allOnes 64 else a / b)) ∧
    exec (.rem p gd ga gb true) s = .next (s.toG gd d (if b = 0 then a else a % b)) ∧
    exec (.div p gd ga gb false) s =
      .next (s.toG gd d (if b = 0 then BitVec.allOnes 64 else BitVec.ofInt 64 (Int.tdiv a.toInt b.toInt))) ∧
    exec (.rem p gd ga gb false) s =
      .next (s.toG gd d (if b = 0 then a else BitVec.ofInt 64 (Int.tmod a.toInt b.toInt)))

/-- R394, bit by bit: the logic forms, and shifts and rotates by immediate and by register, for every amount. -/
def Obligations.ScalarLogicAndShiftResults : Prop :=
  ∀ (s : State) (p : BitVec 4) (gd ga gb n : BitVec 6) (imm : BitVec 9), Opens s p (countG gd) →
    let a := s.cur.gr ga
    let b := s.cur.gr gb
    let h := b.toNat
    let gives (i : Instr) (f : Nat → Bool) : Prop :=
      ∃ v : Word, exec i s = .next (s.toG gd 1 v) ∧ ∀ j < 64, v.getLsbD j = f j
    gives (.and p gd ga gb) (fun j => a.getLsbD j && b.getLsbD j) ∧
    gives (.or p gd ga gb) (fun j => a.getLsbD j || b.getLsbD j) ∧
    gives (.xor p gd ga gb) (fun j => a.getLsbD j != b.getLsbD j) ∧
    gives (.andn p gd ga gb) (fun j => a.getLsbD j && !b.getLsbD j) ∧
    gives (.andi p gd ga imm) (fun j => a.getLsbD j && imm.getLsbD j) ∧
    gives (.ori p gd ga imm) (fun j => a.getLsbD j || imm.getLsbD j) ∧
    gives (.xori p gd ga imm) (fun j => a.getLsbD j != imm.getLsbD j) ∧
    gives (.shli p gd ga n) (fun j => decide (n.toNat ≤ j) && a.getLsbD (j - n.toNat)) ∧
    gives (.shri p gd ga n) (fun j => a.getLsbD (j + n.toNat)) ∧
    gives (.srai p gd ga n) (fun j => a.getLsbD (min (j + n.toNat) 63)) ∧
    gives (.roti p gd ga n) (fun j => a.getLsbD ((j + (64 - n.toNat)) % 64)) ∧
    gives (.shl p gd ga gb) (fun j => decide (h ≤ j) && a.getLsbD (j - h)) ∧
    gives (.shr p gd ga gb) (fun j => a.getLsbD (j + h)) ∧
    gives (.sra p gd ga gb) (fun j => a.getLsbD (min (j + h) 63)) ∧
    gives (.rot p gd ga gb) (fun j => a.getLsbD ((j + (64 - h % 64)) % 64))

/-- R395 and R396: fields by their bits, the funnel shift, and the counts by what they count; 1 or 2 cycles at T12 and T16. -/
def Obligations.ScalarFieldAndCountResults : Prop :=
  ∀ (s : State) (p : BitVec 4) (gd ga gb : BitVec 6), Opens s p (countG gd) →
    let a := s.cur.gr ga
    let b := s.cur.gr gb
    let d := s.cur.gr gd
    let lat := if s.hub.profile = 0x16 then 2 else 1
    let ofs := b.toNat % 64
    let wdt := min (b.toNat / 2 ^ 8 % 2 ^ 7) (64 - ofs)
    let sh := b.toNat % 128
    let gives (i : Instr) (f : Nat → Bool) : Prop :=
      ∃ v : Word, exec i s = .next (s.toG gd lat v) ∧ ∀ j < 64, v.getLsbD j = f j
    gives (.bfx p gd ga gb) (fun j => decide (j < wdt) && a.getLsbD (ofs + j)) ∧
    gives (.bfxs p gd ga gb) (fun j => decide (wdt ≠ 0) && a.getLsbD (ofs + min j (wdt - 1))) ∧
    gives (.bfi p gd ga gb) (fun j => if ofs ≤ j ∧ j < ofs + wdt then a.getLsbD (j - ofs) else d.getLsbD j) ∧
    gives (.fsh p gd ga gb) (fun j => if j + sh < 64 then a.getLsbD (j + sh) else d.getLsbD (j + sh - 64)) ∧
    (∃ v : Word, exec (.popc p gd ga) s = .next (s.toG gd lat v) ∧
      v.toNat = (List.range 64).countP (fun j => a.getLsbD j)) ∧
    (∃ v : Word, exec (.clz p gd ga) s = .next (s.toG gd lat v) ∧ v.toNat ≤ 64 ∧
      (∀ j, 64 - v.toNat ≤ j → a.getLsbD j = false) ∧ (v.toNat < 64 → a.getLsbD (63 - v.toNat) = true)) ∧
    (∃ v : Word, exec (.ctz p gd ga) s = .next (s.toG gd lat v) ∧ v.toNat ≤ 64 ∧
      (∀ j < v.toNat, a.getLsbD j = false) ∧ (v.toNat < 64 → a.getLsbD v.toNat = true))

/-- R397: comparisons and predicate logic put one predicate in flight, and `sel` chooses by a predicate, read at issue. -/
def Obligations.ScalarPredicateResults : Prop :=
  ∀ (s : State) (p pd pa pb : BitVec 4) (gd ga gb : BitVec 6) (imm : BitVec 8) (ps : BitVec 3),
    let a := s.cur.gr ga
    let b := s.cur.gr gb
    let i : Int := imm.toInt
    let u : Int := if imm.toInt < 0 then imm.toInt + 2 ^ 64 else imm.toInt
    (Opens s p (countP pd) →
      exec (.cmp p pd .eq ga gb) s = .next (s.toP pd 1 (a == b)) ∧
      exec (.cmp p pd .ne ga gb) s = .next (s.toP pd 1 (a != b)) ∧
      exec (.cmp p pd .lt ga gb) s = .next (s.toP pd 1 (a.slt b)) ∧
      exec (.cmp p pd .ge ga gb) s = .next (s.toP pd 1 (b.sle a)) ∧
      exec (.cmp p pd .ltu ga gb) s = .next (s.toP pd 1 (a.ult b)) ∧
      exec (.cmp p pd .geu ga gb) s = .next (s.toP pd 1 (b.ule a)) ∧
      exec (.cmpi p pd .eq ga imm) s = .next (s.toP pd 1 (decide (a.toInt = i))) ∧
      exec (.cmpi p pd .ne ga imm) s = .next (s.toP pd 1 (decide (a.toInt ≠ i))) ∧
      exec (.cmpi p pd .lt ga imm) s = .next (s.toP pd 1 (decide (a.toInt < i))) ∧
      exec (.cmpi p pd .ge ga imm) s = .next (s.toP pd 1 (decide (i ≤ a.toInt))) ∧
      exec (.cmpi p pd .ltu ga imm) s = .next (s.toP pd 1 (decide ((a.toNat : Int) < u))) ∧
      exec (.cmpi p pd .geu ga imm) s = .next (s.toP pd 1 (decide (u ≤ (a.toNat : Int)))) ∧
      exec (.pand p pd pa pb) s = .next (s.toP pd 1 (s.cur.pr pa && s.cur.pr pb)) ∧
      exec (.por p pd pa pb) s = .next (s.toP pd 1 (s.cur.pr pa || s.cur.pr pb)) ∧
      exec (.pxor p pd pa pb) s = .next (s.toP pd 1 (s.cur.pr pa != s.cur.pr pb)) ∧
      exec (.pandn p pd pa pb) s = .next (s.toP pd 1 (s.cur.pr pa && !s.cur.pr pb))) ∧
    (Opens s p (countG gd) →
      exec (.sel p gd ga gb ps) s = .next (s.toG gd 1 (if s.cur.pr (ps.setWidth 4) then a else b)))

/-- R398: the moves and address forms, with their signed and unsigned immediates. -/
def Obligations.ScalarMoveResults : Prop :=
  ∀ (s : State) (p ad aa : BitVec 4) (gd ga : BitVec 6) (md : BitVec 3) (i9 : BitVec 9) (i13 : BitVec 13) (i15 : BitVec 15),
    (Opens s p (countG gd) →
      exec (.movi p gd i15) s = .next (s.toG gd 1 (BitVec.ofInt 64 i15.toInt)) ∧
      exec (.movg p gd aa) s = .next (s.toG gd 1 (s.cur.ar aa))) ∧
    (Opens s p 1 →
      exec (.lea p ad ga i9) s = .next (s.toA ad 1 (BitVec.ofNat 64 ((s.cur.gr ga).toNat + i9.toNat))) ∧
      exec (.leaa p ad aa i13) s = .next (s.toA ad 1 (BitVec.ofInt 64 ((s.cur.ar aa).toInt + i13.toInt))) ∧
      exec (.movm p md ga) s = .next (s.toM md.toNat 1 (s.cur.gr ga)))

/-! ### The VA, VB and X slots (18 R400 to R425) -/

/-- R405, R407 and R408 for the integer formats I and N, element by element, with the latencies of R401: wrapping and saturating
arithmetic, and the choice of the smaller or larger element. -/
def Obligations.VectorIntegerArithmetic : Prop :=
  ∀ (s : State) (p : BitVec 4) (w : Width) (fmt : Fmt) (vd : BitVec 6) (rm : Rm) (sa sb : Src) (a b : Vec),
    fmt.isIN = true → OffersAll s [(sa, a), (sb, b)] →
    let e := fmt.bits
    let read (x : BitVec e) : Int := if fmt.isI then x.toInt else x.toNat
    let lo : Int := if fmt.isI then -2 ^ (e - 1) else 0
    let hi : Int := if fmt.isI then 2 ^ (e - 1) - 1 else 2 ^ e - 1
    let lat := if s.hub.profile = 0x16 then 4 else 3
    let gives (i : Instr) (n : Nat) (f : BitVec e → BitVec e → BitVec e) : Prop :=
      Fires s i p → GivesVector i s [sa, sb] vd w n
        (fun r => ∀ j < w.bits / e, laneOf e r j = f (laneOf e a j) (laneOf e b j))
    gives (.vadd p w fmt vd rm sa sb) lat (fun x y => x + y) ∧
    gives (.vsub p w fmt vd rm sa sb) lat (fun x y => x - y) ∧
    gives (.vmul p w fmt vd rm sa sb) (if s.hub.profile = 0x16 then 6 else 4) (fun x y => x * y) ∧
    gives (.vadds p w fmt vd sa sb) lat (fun x y => BitVec.ofInt e (max lo (min hi (read x + read y)))) ∧
    gives (.vsubs p w fmt vd sa sb) lat (fun x y => BitVec.ofInt e (max lo (min hi (read x - read y)))) ∧
    gives (.vmin p w fmt vd sa sb) lat (fun x y => if read x ≤ read y then x else y) ∧
    gives (.vmax p w fmt vd sa sb) lat (fun x y => if read x ≤ read y then y else x)

/-- R403, R405 and R406 for f32, bf16 and f16: one rounding of the exact result, with a canonical NaN for every NaN operand; the
exact values and the rounding are those of 10 R209 to R211 (Machine/Float.lean). -/
def Obligations.VectorFloatArithmetic : Prop :=
  ∀ (s : State) (p : BitVec 4) (w : Width) (fmt : Fmt) (vd : BitVec 6) (rm : Rm) (sa sb sc : Src) (a b c : Vec),
    fmt.isF = true →
    let e := fmt.bits
    let val (v : Vec) (j : Nat) : Machine.Num := decodeF (ffmt fmt) (laneOf e v j).toNat
    let rounded (r : Vec) (t : Nat → Machine.Num) : Prop :=
      ∀ j < w.bits / e, laneOf e r j = BitVec.ofNat e (roundF (ffmt fmt) rm (t j))
    let lat := if s.hub.profile = 0x16 then 4 else 3
    let slow := if s.hub.profile = 0x16 then 6 else 4
    (OffersAll s [(sa, a), (sb, b)] →
      (Fires s (.vadd p w fmt vd rm sa sb) p → GivesVector (.vadd p w fmt vd rm sa sb) s [sa, sb] vd w lat
        (fun r => rounded r (fun j => (val a j).add rm (val b j)) ∧
          ∀ j < w.bits / e, val a j = .nan ∨ val b j = .nan → (laneOf e r j).toNat = (ffmt fmt).nan)) ∧
      (Fires s (.vsub p w fmt vd rm sa sb) p → GivesVector (.vsub p w fmt vd rm sa sb) s [sa, sb] vd w lat
        (fun r => rounded r (fun j => (val a j).add rm (val b j).neg))) ∧
      (Fires s (.vmul p w fmt vd rm sa sb) p → GivesVector (.vmul p w fmt vd rm sa sb) s [sa, sb] vd w slow
        (fun r => rounded r (fun j => (val a j).mul (val b j))))) ∧
    (OffersAll s [(sa, a), (sb, b), (sc, c)] →
      (Fires s (.vfma p w fmt vd rm sa sb sc) p → GivesVector (.vfma p w fmt vd rm sa sb sc) s [sa, sb, sc] vd w slow
        (fun r => rounded r (fun j => ((val a j).mul (val b j)).add rm (val c j)))) ∧
      (Fires s (.vfnma p w fmt vd rm sa sb sc) p → GivesVector (.vfnma p w fmt vd rm sa sb sc) s [sa, sb, sc] vd w slow
        (fun r => rounded r (fun j => (val c j).add rm ((val a j).mul (val b j)).neg))))

/-- R407 and R408 for f32, bf16 and f16: minimum and maximum with NaN and signed zeros, absolute value and negation by the sign bit
alone; and R408 for the integer formats. -/
def Obligations.VectorSignAndExtremes : Prop :=
  ∀ (s : State) (p : BitVec 4) (w : Width) (fmt : Fmt) (vd : BitVec 6) (sa sb : Src) (a b : Vec),
    let e := fmt.bits
    let val (x : BitVec e) : Machine.Num := decodeF (ffmt fmt) x.toNat
    let nan : BitVec e := BitVec.ofNat e (ffmt fmt).nan
    let lat := if s.hub.profile = 0x16 then 4 else 3
    let below (x y : BitVec e) : Bool := (val x).lt (val y) || ((val x).isZero && (val y).isZero && x.msb && !y.msb)
    (fmt.isF = true → OffersAll s [(sa, a), (sb, b)] →
      (Fires s (.vmin p w fmt vd sa sb) p → GivesVector (.vmin p w fmt vd sa sb) s [sa, sb] vd w lat (fun r => ∀ j < w.bits / e,
        let x := laneOf e a j
        let y := laneOf e b j
        laneOf e r j = if (val x).isNan || (val y).isNan then nan else if below y x then y else x)) ∧
      (Fires s (.vmax p w fmt vd sa sb) p → GivesVector (.vmax p w fmt vd sa sb) s [sa, sb] vd w lat (fun r => ∀ j < w.bits / e,
        let x := laneOf e a j
        let y := laneOf e b j
        laneOf e r j = if (val x).isNan || (val y).isNan then nan else if below x y then y else x))) ∧
    (OffersAll s [(sa, a)] →
      (fmt.isF = true →
        (Fires s (.vabs p w fmt vd sa) p → GivesVector (.vabs p w fmt vd sa) s [sa] vd w lat (fun r => ∀ j < w.bits / e,
          let x := laneOf e a j
          laneOf e r j = if (val x).isNan then nan else x &&& ~~~ BitVec.twoPow e (e - 1))) ∧
        (Fires s (.vneg p w fmt vd sa) p → GivesVector (.vneg p w fmt vd sa) s [sa] vd w lat (fun r => ∀ j < w.bits / e,
          let x := laneOf e a j
          laneOf e r j = if (val x).isNan then nan else x ^^^ BitVec.twoPow e (e - 1)))) ∧
      (fmt.isI = true →
        (Fires s (.vabs p w fmt vd sa) p → GivesVector (.vabs p w fmt vd sa) s [sa] vd w lat (fun r => ∀ j < w.bits / e,
          laneOf e r j = (laneOf e a j).abs)) ∧
        (Fires s (.vneg p w fmt vd sa) p → GivesVector (.vneg p w fmt vd sa) s [sa] vd w lat (fun r => ∀ j < w.bits / e,
          laneOf e r j = -laneOf e a j))))

/-- R409 and R410: logic and selection on all bits, and shifts of elements by register and by immediate, with amounts of the element
size and more. -/
def Obligations.VectorLogicAndShifts : Prop :=
  ∀ (s : State) (p : BitVec 4) (w : Width) (fmt : Fmt) (vd n : BitVec 6) (sa sb sc : Src) (a b c : Vec),
    let e := fmt.bits
    let lat := if s.hub.profile = 0x16 then 4 else 3
    let bits (i : Instr) (l : List Src) (f : Vec) : Prop :=
      Fires s i p → GivesVector i s l vd w lat (fun r => r.setWidth w.bits = f.setWidth w.bits)
    let gives (i : Instr) (l : List Src) (f : Nat → BitVec e) : Prop :=
      Fires s i p → GivesVector i s l vd w lat (fun r => ∀ j < w.bits / e, laneOf e r j = f j)
    (OffersAll s [(sa, a), (sb, b)] →
      bits (.vand p w vd sa sb) [sa, sb] (a &&& b) ∧
      bits (.vor p w vd sa sb) [sa, sb] (a ||| b) ∧
      bits (.vxor p w vd sa sb) [sa, sb] (a ^^^ b) ∧
      bits (.vandn p w vd sa sb) [sa, sb] (a &&& ~~~ b) ∧
      (fmt.isIN = true →
        gives (.vshl p w fmt vd sa sb) [sa, sb] (fun j => laneOf e a j <<< (laneOf e b j).toNat) ∧
        gives (.vshr p w fmt vd sa sb) [sa, sb] (fun j => laneOf e a j >>> (laneOf e b j).toNat)) ∧
      (fmt.isI = true → gives (.vsra p w fmt vd sa sb) [sa, sb] (fun j => (laneOf e a j).sshiftRight (laneOf e b j).toNat))) ∧
    (OffersAll s [(sa, a), (sb, b), (sc, c)] → bits (.vsel p w vd sa sb sc) [sa, sb, sc] ((a &&& c) ||| (b &&& ~~~ c))) ∧
    (OffersAll s [(sa, a)] →
      (fmt.isIN = true →
        gives (.vshli p w fmt vd n sa) [sa] (fun j => laneOf e a j <<< n.toNat) ∧
        gives (.vshri p w fmt vd n sa) [sa] (fun j => laneOf e a j >>> n.toNat)) ∧
      (fmt.isI = true → gives (.vsrai p w fmt vd n sa) [sa] (fun j => (laneOf e a j).sshiftRight n.toNat)))

/-- R411, R412 and R415: comparison masks of whole elements, for integers and for floating formats with NaN unordered; duplication of
a general register; and the reductions, whose result is element 0 over a fixed tree of pairs, with the other elements zero. -/
def Obligations.VectorCompareDuplicateReduce : Prop :=
  ∀ (s : State) (p : BitVec 4) (w : Width) (fmt : Fmt) (vd ga : BitVec 6) (cnd : VCnd) (sa sb : Src) (a b : Vec),
    let e := fmt.bits
    let lat := if s.hub.profile = 0x16 then 4 else 3
    let flt (x : BitVec e) : Machine.Num := decodeF (ffmt fmt) x.toNat
    let int (x : BitVec e) : Int := if fmt.isI then x.toInt else x.toNat
    let less (x y : BitVec e) : Bool := if fmt.isF then (flt x).lt (flt y) else decide (int x < int y)
    let same (x y : BitVec e) : Bool := if fmt.isF then (flt x).eqv (flt y) else decide (x = y)
    let holds (x y : BitVec e) : Bool := match cnd with
      | .eq => same x y | .ne => !same x y | .lt => less x y
      | .le => less x y || same x y | .gt => less y x | .ge => less y x || same x y
    let value (r : Vec) (l : List (BitVec e)) : Prop :=
      (match l with | [x] => laneOf e r 0 = x | _ => False) ∧ ∀ j, 0 < j → j < w.bits / e → laneOf e r j = 0
    let pairs (f : BitVec e → BitVec e → BitVec e) (l : List (BitVec e)) : List (BitVec e) :=
      (List.range (l.length / 2)).map (fun k => f (l.getD (2 * k) 0) (l.getD (2 * k + 1) 0))
    let tree (f : BitVec e → BitVec e → BitVec e) : List (BitVec e) :=
      (pairs f)^[Nat.log2 (w.bits / e)] ((List.range (w.bits / e)).map (laneOf e a))
    (fmt.isFIN = true → OffersAll s [(sa, a), (sb, b)] → Fires s (.vcmp p w fmt vd cnd sa sb) p →
      GivesVector (.vcmp p w fmt vd cnd sa sb) s [sa, sb] vd w lat (fun r => ∀ j < w.bits / e,
        laneOf e r j = if holds (laneOf e a j) (laneOf e b j) then BitVec.allOnes e else 0)) ∧
    (fmt ≠ .t6 → Fires s (.vdup p w fmt vd ga) p → GivesVector (.vdup p w fmt vd ga) s [] vd w lat (fun r => ∀ j < w.bits / e,
        laneOf e r j = (s.cur.gr ga).setWidth e)) ∧
    (fmt.isFIN = true → OffersAll s [(sa, a)] →
      (Fires s (.vrsum p w fmt vd sa) p →
        GivesVector (.vrsum p w fmt vd sa) s [sa] vd w (if s.hub.profile = 0x16 then 12 else 8) (fun r => value r (tree (fun x y =>
          if fmt.isF then BitVec.ofNat e (roundF (ffmt fmt) .rne ((flt x).add .rne (flt y))) else x + y)))) ∧
      (Fires s (.vrmax p w fmt vd sa) p →
        GivesVector (.vrmax p w fmt vd sa) s [sa] vd w (if s.hub.profile = 0x16 then 6 else 5) (fun r => value r (tree (fun x y =>
          if fmt.isF && ((flt x).isNan || (flt y).isNan) then BitVec.ofNat e (ffmt fmt).nan
          else if less x y || (fmt.isF && (flt x).isZero && (flt y).isZero && x.msb && !y.msb) then y else x)))) ∧
      (Fires s (.vrmin p w fmt vd sa) p →
        GivesVector (.vrmin p w fmt vd sa) s [sa] vd w (if s.hub.profile = 0x16 then 6 else 5) (fun r => value r (tree (fun x y =>
          if fmt.isF && ((flt x).isNan || (flt y).isNan) then BitVec.ofNat e (ffmt fmt).nan
          else if less y x || (fmt.isF && (flt x).isZero && (flt y).isZero && y.msb && !x.msb) then y else x)))))

/-- R413, R414 and R212: a conversion writes n elements of the destination, n being the width over the larger of the two element sizes with
t6 counted as 8, each converted once, and zero above them; into an integer format a value is rounded to an integer under RM and then
saturated, an infinity goes to the bound of its side, and NaN to 0. -/
def Obligations.VectorConvert : Prop :=
  ∀ (s : State) (p : BitVec 4) (w : Width) (fmt : Fmt) (vd : BitVec 6) (rm : Rm) (sat : Bool) (src : Fmt) (sa : Src) (a : Vec),
    src.isCvt = true → fmt.isCvt = true → OffersAll s [(sa, a)] → Fires s (.vcvt p w fmt vd rm sat src sa) p →
    let n := w.bits / max (max 8 src.bits) (max 8 fmt.bits)
    GivesVector (.vcvt p w fmt vd rm sat src sa) s [sa] vd w (if s.hub.profile = 0x16 then 4 else 3) (fun r =>
      r.toNat < 2 ^ (fmt.bits * n) ∧
      ∀ j < n, let x := laneOf src.bits a j
        (src.isIN = true → fmt.isIN = true →
          let i : Int := if src.isI then x.toInt else x.toNat
          laneOf fmt.bits r j = BitVec.ofInt fmt.bits (if sat then
            (if fmt.isI then max (-2 ^ (fmt.bits - 1)) (min (2 ^ (fmt.bits - 1) - 1) i) else max 0 (min (2 ^ fmt.bits - 1) i)) else i)) ∧
        (fmt.isF = true → (laneOf fmt.bits r j).toNat = roundF (ffmt fmt) rm (decodeAny src x.toNat)) ∧
        (fmt.isT = true → (laneOf fmt.bits r j).toNat = encodeTap (if fmt = .t8 then t8Fmt else t6Fmt) (decodeAny src x.toNat)) ∧
        (src.isIN = false → fmt.isIN = true →
          let lo : Int := if fmt.isI then -2 ^ (fmt.bits - 1) else 0
          let hi : Int := if fmt.isI then 2 ^ (fmt.bits - 1) - 1 else 2 ^ fmt.bits - 1
          match decodeAny src x.toNat with
          | .nan => laneOf fmt.bits r j = 0
          | .inf neg => laneOf fmt.bits r j = BitVec.ofInt fmt.bits (if neg then lo else hi)
          | .fin neg num den =>
            let z : Int := if neg then -(num : Int) else num
            let down := z / den
            let up := -((-z) / den)
            let m : Int := match rm with
              | .rne => if 2 * (z - down * den) < den then down else if (den : Int) < 2 * (z - down * den) then up
                        else if down % 2 = 0 then down else up
              | .rtz => if neg then up else down
              | .rup => up
              | .rdn => down
            laneOf fmt.bits r j = BitVec.ofInt fmt.bits (max lo (min hi m))))

/-- R423 to R425: each rearranging form of X moves whole elements to the places the rule gives. -/
def Obligations.RearrangeElements : Prop :=
  ∀ (s : State) (p : BitVec 4) (w : Width) (fmt : Fmt) (vd ga : BitVec 6) (flag : Bool) (lrows : BitVec 3) (sa sb : Src) (a b : Vec),
    fmt.isI = true →
    let e := fmt.bits
    let n := w.bits / e
    let lat := if s.hub.profile = 0x16 then 4 else 3
    let gives (i : Instr) (l : List Src) (ok : Vec → Prop) : Prop := Fires s i p → GivesVector i s l vd w lat ok
    (OffersAll s [(sa, a), (sb, b)] →
      gives (.xperm p w fmt vd sa sb) [sa, sb] (fun r => ∀ j < n, laneOf e r j = laneOf e a ((laneOf e b j).toNat % n)) ∧
      gives (.xzip p w fmt vd flag sa sb) [sa, sb] (fun r => ∀ j < n / 2,
        let h := if flag then n / 2 else 0
        laneOf e r (2 * j) = laneOf e a (h + j) ∧ laneOf e r (2 * j + 1) = laneOf e b (h + j)) ∧
      gives (.xunzip p w fmt vd flag sa sb) [sa, sb] (fun r => ∀ j < n / 2,
        let m := if flag then 1 else 0
        laneOf e r j = laneOf e a (2 * j + m) ∧ laneOf e r (n / 2 + j) = laneOf e b (2 * j + m))) ∧
    (OffersAll s [(sa, a)] →
      gives (.xrot p w fmt vd sa ga) [sa] (fun r => ∀ j < n, laneOf e r ((j + (s.cur.gr ga).toNat) % n) = laneOf e a j) ∧
      (2 ^ lrows.toNat ∣ n → gives (.xtrans p w fmt vd lrows sa) [sa] (fun r =>
        let cols := n / 2 ^ lrows.toNat
        ∀ q < 2 ^ lrows.toNat, ∀ c < cols, laneOf e r (c * 2 ^ lrows.toNat + q) = laneOf e a (q * cols + c))))

/-- R419 to R422 and R219: packing into tapered codes under the scale byte of gA, unpacking, scaling, and ScaleFor of the largest magnitude of
both sources, with Floor(Log2) of it less EMAX plus 127; e = 0xFF gives NaN, and what the rule does not write is zero. -/
def Obligations.PackAndScale : Prop :=
  ∀ (s : State) (p : BitVec 4) (w : Width) (f t : Fmt) (vd ga : BitVec 6) (sa sb : Src) (a b : Vec),
    f.isF = true → t.isT = true →
    let sc := (s.cur.gr ga).toNat % 256
    let tap := if t = .t8 then t8Fmt else t6Fmt
    let n := w.bits / f.bits
    let lat := if s.hub.profile = 0x16 then 4 else 3
    let val (v : Vec) (j : Nat) : Machine.Num := decodeF (ffmt f) (laneOf f.bits v j).toNat
    let gives (i : Instr) (l : List Src) (ok : Vec → Prop) : Prop := Fires s i p → GivesVector i s l vd w lat ok
    (OffersAll s [(sa, a)] →
      gives (.xpack p w t vd f sa ga) [sa] (fun r => r.toNat < 2 ^ (t.bits * n) ∧ ∀ j < n,
        (laneOf t.bits r j).toNat = encodeTap tap (if sc = 255 then .nan else (val a j).shift (127 - sc))) ∧
      gives (.xunpack p w f vd t sa ga) [sa] (fun r => ∀ j < n, (laneOf f.bits r j).toNat =
        roundF (ffmt f) .rne (if sc = 255 then .nan else (decodeTap tap (laneOf t.bits a j).toNat).shift (sc - 127))) ∧
      gives (.xscale p w f vd sa ga) [sa] (fun r => ∀ j < n, (laneOf f.bits r j).toNat =
        roundF (ffmt f) .rne (if sc = 255 then .nan else (val a j).shift (sc - 127)))) ∧
    (OffersAll s [(sa, a), (sb, b)] →
      gives (.xmaxe p w f vd t sa sb) [sa, sb] (fun r => r.toNat < 256 ∧
        ((∃ j < n, val a j = .nan ∨ val b j = .nan) → r.toNat = 255) ∧
        ((∀ j < n, val a j ≠ .nan ∧ val b j ≠ .nan) → ∀ v ∈ [a, b], ∀ i < n,
          (∀ j < n, (val v i).abs.lt (val a j).abs = false ∧ (val v i).abs.lt (val b j).abs = false) →
            r.toNat = scaleFor (decide (t = .t8)) (val v i) ∧
            (match val v i with
             | .nan => True
             | .inf _ => r.toNat = 255
             | .fin _ num den =>
               if num = 0 then r.toNat = 127
               else ∀ l : Int, (2 : ℚ) ^ l ≤ num / den → (num : ℚ) / den < 2 ^ (l + 1) →
                 (r.toNat : Int) = max 0 (min 254 (l - (if t = .t8 then 5 else 2) + 127))))))

/-- R223, R224 and R418: every transcendental form completes, 6 or 8 cycles for `.f` and 14 or 20 for `.r`, element by element as a
function of the 32 input bits alone, with the results of R223's table for the special inputs. On every other input: `rcp`, `sqrt` and `rsq` are the
exact value rounded once, toward zero for `.f` and to nearest for `.r`, the roots by the squares of the neighbouring values; `exp2` of an integer and
`log2` of a power of two are the exact values rounded so; and what the others give lies in the range of the function, with its sign. -/
def Obligations.Transcendentals : Prop :=
  ∀ (s : State) (p : BitVec 4) (w : Width) (vd : BitVec 6) (sa : Src) (a : Vec), OffersAll s [(sa, a)] →
    let one : BitVec 32 := 0x3F800000
    let nan : BitVec 32 := 0x7FC00000
    let inf : BitVec 32 := 0x7F800000
    let half : BitVec 32 := 0x3F000000
    let neg (x : BitVec 32) : BitVec 32 := x ||| 0x80000000
    let mag (x : BitVec 32) : Nat := (x &&& 0x7FFFFFFF).toNat
    let rounded (fast : Bool) (t : Machine.Num) : BitVec 32 := BitVec.ofNat 32 (roundF f32Fmt (if fast then .rtz else .rne) t)
    let val (x : BitVec 32) : ℚ := match decodeF f32Fmt x.toNat with | .fin g n d => (if g then -(n : ℚ) else n) / d | _ => 0
    -- the square root of a positive t, rounded: by the squares of it and of its neighbours, or of what lies midway between them
    let root (fast : Bool) (t : ℚ) (y : BitVec 32) : Prop := y.msb = false ∧
      if fast then val y ^ 2 ≤ t ∧ t < val (y + 1) ^ 2
      else (val (y - 1) + val y) ^ 2 ≤ 4 * t ∧ 4 * t ≤ (val y + val (y + 1)) ^ 2
    let form (i : Instr) (fast : Bool) (table : List (BitVec 32)) (gives : BitVec 32 → BitVec 32 → Prop) : Prop :=
      Fires s i p → ∃ f : BitVec 32 → BitVec 32,
        GivesVector i s [sa] vd w (if s.hub.profile = 0x16 then (if fast then 8 else 20) else if fast then 6 else 14)
          (fun r => ∀ j < w.bits / 32, laneOf 32 r j = f (laneOf 32 a j)) ∧
        [f (neg inf), f (neg 0), f 0, f inf] = table ∧ (∀ x, inf.toNat < mag x → f x = nan) ∧
        (∀ x, mag x ≠ 0 → mag x < inf.toNat → gives x (f x))
    let both (fast slow : Instr) (table : List (BitVec 32)) (gives : Bool → BitVec 32 → BitVec 32 → Prop) : Prop :=
      form fast true table (gives true) ∧ form slow false table (gives false)
    let within (y lo hi : BitVec 32) : Prop := lo.toNat ≤ y.toNat ∧ y.toNat ≤ hi.toNat
    let signed (x y : BitVec 32) : Prop := y.msb = x.msb
    both (.expF p w vd sa) (.expR p w vd sa) [0, one, one, inf] (fun fast x y =>
      (if x.msb then within y 0 one else within y one inf) ∧
      (256 < val x → y = if fast then inf - 1 else inf) ∧ (val x < -256 → y = 0)) ∧
    both (.exp2F p w vd sa) (.exp2R p w vd sa) [0, one, one, inf] (fun fast x y =>
      let power (k : Int) : BitVec 32 := rounded fast ((Machine.Num.fin false 1 1).shift k)
      ∀ k : Int, (k : ℚ) ≤ val x → val x < k + 1 →
        within y (power k) (power (k + 1)) ∧ (val x = k → y = power k)) ∧
    both (.log2F p w vd sa) (.log2R p w vd sa) [nan, neg inf, neg inf, inf] (fun fast x y =>
      if x.msb then y = nan
      else ∀ k : Int, (2 : ℚ) ^ k ≤ val x → val x < 2 ^ (k + 1) →
        (val x = 2 ^ k → y = rounded fast (Machine.Num.ofInt k)) ∧
        (if 0 ≤ k then within y (rounded fast (Machine.Num.ofInt k)) (rounded fast (Machine.Num.ofInt (k + 1)))
         else y.msb ∧ mag (rounded fast (Machine.Num.ofInt (k + 1))) ≤ mag y ∧ mag y ≤ mag (rounded fast (Machine.Num.ofInt k)) ∨ mag y = 0)) ∧
    both (.rcpF p w vd sa) (.rcpR p w vd sa) [neg 0, neg inf, inf, 0] (fun fast x y =>
      match decodeF f32Fmt x.toNat with
      | .fin g n d => y = rounded fast (.fin g d n)
      | _ => True) ∧
    both (.rsqF p w vd sa) (.rsqR p w vd sa) [nan, neg inf, inf, 0] (fun fast x y => if x.msb then y = nan else root fast (1 / val x) y) ∧
    both (.sqrtF p w vd sa) (.sqrtR p w vd sa) [nan, neg 0, 0, inf] (fun fast x y => if x.msb then y = nan else root fast (val x) y) ∧
    both (.tanhF p w vd sa) (.tanhR p w vd sa) [neg one, neg 0, 0, one] (fun _ x y => signed x y ∧ mag y ≤ one.toNat) ∧
    both (.sigmF p w vd sa) (.sigmR p w vd sa) [0, half, half, one] (fun _ x y => if x.msb then within y 0 half else within y half one) ∧
    both (.sinF p w vd sa) (.sinR p w vd sa) [nan, neg 0, 0, nan] (fun fast x y =>
      if fast ∧ 0x44800000 < mag x then y = nan else mag y ≤ one.toNat) ∧
    both (.cosF p w vd sa) (.cosR p w vd sa) [nan, one, one, nan] (fun fast x y =>
      if fast ∧ 0x44800000 < mag x then y = nan else mag y ≤ one.toNat)

/-- R372, R352 and R289 for every instruction of the integer slots and every state: it always answers a next state; with a false guard
nothing changes; otherwise the in-flight limit traps, or all that happens is that at most one result is put in flight, to land later, so no
register and no byte of memory changes. R402, R159 and R352 for every instruction of VA, VB and X but those of the stream accumulator, and
every state: it answers a next state; a bank asleep traps whatever the guard; a false guard changes nothing; and whatever happens, no byte
of memory, no action on its way and no other context changes, and the context keeps its registers unless it traps: with bank-asleep, queue
underflow, load fault or in-flight limit alone. -/
def Obligations.SlotFrames : Prop :=
  (∀ (s : State) (i : Instr) (p : BitVec 4), i.kind = some .I → guardOf i = some p →
    ∃ t, exec i s = .next t ∧
      (s.cur.pr p = false → t = s) ∧
      (256 < s.cur.inFlight + resultsOf i → s.cur.pr p = true → t = s.takeTrap s.curCore s.curCtx 0x16 256 0) ∧
      (s.cur.inFlight + resultsOf i ≤ 256 →
        KeepsRegsAndMemory s t ∧ t.calendar = s.calendar ∧ t.posted = s.posted ∧
        (t = s ∨ ∃ r : Result, t = { s.updCur (fun c => { c with inflight := c.inflight ++ [r] }) with seqno := s.seqno + 1 }))) ∧
  ∀ (s : State) (i : Instr) (p : BitVec 4), i.kind = some .V ∨ i.kind = some .X → isSa i = false → guardOf i = some p →
    ∃ t, exec i s = .next t ∧
      (∀ r, sleeper s.cur i = some r → t = s.takeTrap s.curCore s.curCtx 0x04 (BitVec.ofNat 64 r) 0) ∧
      (sleeper s.cur i = none → s.cur.pr p = false → t = s) ∧
      t.mem = s.mem ∧ t.calendar = s.calendar ∧ t.posted = s.posted ∧
      (∀ c k, ¬ (c = s.curCore ∧ k = s.curCtx) → t.ctx c k = s.ctx c k) ∧
      (SameRegs s.cur t.cur ∨
        ∃ cause x n, (cause = 0x04 ∨ cause = 0x05 ∨ cause = 0x15 ∨ cause = 0x16) ∧ t = s.takeTrap s.curCore s.curCtx cause x n)

/-! ### The stream accumulator's instructions (12 R259 to R268) -/

/-- R259 with R226: `sa.add` takes its source and, in its issue cycle, adds the addends exactly into consecutive elements of the row
and into the row's sum of squares; no register and no other byte changes. With an addend or a sum out of range it traps with
the place of the first, and commits nothing. -/
def Obligations.StreamAdd : Prop :=
  ∀ (s : State) (p : BitVec 4) (w : Width) (fmt : Fmt) (ga : BitVec 6) (sa : Src) (v : Vec),
    fmt.isF = true → Fires s (.saAdd p w fmt ga sa) p → OffersAll s [(sa, v)] →
    let ptr := (s.cur.gr ga).toNat
    let n := w.bits / fmt.bits
    let d := descAt (s.sb s.curCore) (saReg ptr)
    let r := saRow ptr
    let x (t : State) (j : Nat) : Int := s48Val (sbNat (t.sb s.curCore) (d.elem r (saElem ptr + j)) 6)
    let ss (t : State) : Int := sbNat (t.sb s.curCore) (d.row r) 16
    let add (j : Nat) : Option Int := toS48 (decodeF (ffmt fmt) (laneOf fmt.bits v j).toNat) d.sc
    let fits (j : Nat) : Prop := ∃ y, add j = some y ∧ inS48 y = true ∧ inS48 (x s j + y) = true
    saFault (s.sb s.curCore) ptr .add n 1 (frondSize s) = 0 →
    (∀ y : Nat → Int, (∀ j < n, add j = some (y j)) → (∀ j < n, fits j) →
      ∃ t, exec (.saAdd p w fmt ga sa) s = .next t ∧
        (∀ j < n, x t j = x s j + y j) ∧
        ss t = (ss s + (List.range n).foldl (fun a j => a + 2 * x s j * y j + y j * y j) 0) % 2 ^ 128 ∧
        SameRegs s.cur t.cur ∧ t.calendar = s.calendar ∧
        ∀ b, (∀ i < 16, b ≠ bufAddr s.curCore .sb (d.row r + i)) →
          (∀ j < n, ∀ i < 6, b ≠ bufAddr s.curCore .sb (d.elem r (saElem ptr + j) + i)) → t.byte b = s.byte b) ∧
    (∀ j < n, (∀ k < j, fits k) → ¬ fits j →
      exec (.saAdd p w fmt ga sa) s =
        .next (s.takeTrap s.curCore s.curCtx 0x0F (saPtr (saReg ptr) r (saElem ptr + j)) 0))

/-- R268: `sa.nrd` puts in flight, 16 or 22 cycles on, the row's elements times the scale, the gains and the reciprocal root of the
mean square plus epsilon, each rounded once, or packed as T8 codes with their scale, R219's for the largest magnitude of them, in bits 263:256. The row is as R258 shows
it, and the sum of squares is the row's own or the group's. -/
def Obligations.StreamNormalisingRead : Prop :=
  ∀ (s : State) (p : BitVec 4) (w : Width) (fmt : Fmt) (vd ga : BitVec 6) (sa : Src) (v : Vec),
    fmt.isF = true ∨ (fmt = .t8 ∧ w = .w512) → Fires s (.saNrd p w fmt vd sa ga) p → OffersAll s [(sa, v)] →
    let ptr := (s.cur.gr ga).toNat
    let n := if fmt = .t8 then 32 else w.bits / 32
    let rd := s.sbView s.curCore s.cur.frond
    let d := descAt rd (saReg ptr)
    let r := saRow ptr
    let sum := if d.gsz = 1 then sbNat rd (d.row r) 16 else s.load (bufAddr s.curCore .xb (d.slot r + 16 * d.gsz)) 16
    let m := roundF f32Fmt .rne (((Num.fin false sum (sbNat rd (d.row r + 16) 2)).shift (2 * d.sc)).add .rne (decodeF f32Fmt d.eps))
    let t (j : Nat) : Machine.Num :=
      (((Num.ofInt (s48Val (sbNat rd (d.elem r (saElem ptr + j)) 6))).shift d.sc).mul
        (decodeF bf16Fmt (laneOf 16 v j).toNat)).mul (decodeF f32Fmt (rsqValue false m))
    saFault rd ptr .nrd n 1 (frondSize s) = 0 →
    GivesVector (.saNrd p w fmt vd sa ga) s [sa] vd w (if s.hub.profile = 0x16 then 22 else 16) (fun o =>
      (fmt.isF = true → o.toNat < 2 ^ (fmt.bits * n) ∧
        ∀ j < n, (laneOf fmt.bits o j).toNat = roundF (ffmt fmt) .rne (t j)) ∧
      (fmt = .t8 → ∃ e < 256, o.toNat / 2 ^ 256 = e ∧
        ((∃ j < n, t j = .nan) → e = 255) ∧
        ((∀ j < n, t j ≠ .nan) → ∀ i < n, (∀ j < n, (t i).abs.lt (t j).abs = false) → e = scaleFor true (t i)) ∧
        ∀ j < n, (laneOf 8 o j).toNat = if e = 255 then 128 else encodeTap t8Fmt ((t j).shift (127 - e))))

/-- R263 to R267: the group exchange and the seals pass their checks and only schedule: the multicast of the row's sum of squares to
every member's slot, the fold after 2 + ⌈c × NEL / 32⌉ cycles, the forming of the group sums two cycles on; `sa.seal.p` is a package fence of its
bundle as well. -/
def Obligations.StreamExchangeAndSeals : Prop :=
  ∀ (s : State) (p : BitVec 4) (ga gb : BitVec 6),
    let ptr := (s.cur.gr ga).toNat
    let c := (s.cur.gr gb).toNat % 2 ^ 14
    let rd := s.sb s.curCore
    let d := descAt rd (saReg ptr)
    let fold := s.schedule (s.now + 2 + (c * d.nel + 31) / 32) s.curCore (.fold s.curCtx (saReg ptr) (saRow ptr) c)
    (Fires s (.saSax p ga) p → saFault (s.sbView s.curCore s.cur.frond) ptr .sax 0 1 (frondSize s) = 0 →
      let view := s.sbView s.curCore s.cur.frond
      let e := descAt view (saReg ptr)
      let members := groupCores s e
      let m := if members.all (fun x => decide (coreColumn x = coreColumn s.curCore)) then (if s.hub.profile = 0x16 then 32 else 24)
               else if s.hub.profile = 0x16 then 64 else 48
      exec (.saSax p ga) s = .next (s.schedule (s.now + m + e.grk / 8) s.curCore (.mcast members (members.flatMap (fun x =>
        cellsAt (bufAddr x .xb (e.slot (saRow ptr) + 16 * e.grk)) 16 (sbNat view (e.row (saRow ptr)) 16)))))) ∧
    (saFault rd ptr .seal_ 0 c (frondSize s) = 0 →
      (Fires s (.saSealC p ga gb) p → exec (.saSealC p ga gb) s = .next fold) ∧
      (Fires s (.saSealP p ga gb) p → exec (.saSealP p ga gb) s =
        .next (fold.updCur (fun x => { x with staged := { x.staged with fences := x.staged.fences ++ [.pkg] } })))) ∧
    (Fires s (.saSealG p ga gb) p → saFault rd ptr .sealG 0 c (frondSize s) = 0 →
      exec (.saSealG p ga gb) s = .next (s.schedule (s.now + 2) s.curCore (.gsum d.xtab d.gsz (saRow ptr) c)))

/-! ### The L and S slots (19 R431 to R440) -/

/-- R431 to R433, R440: a scratchpad load reads its bytes at issue, little-endian, and puts the value in flight for its register, or
on its way to its queue; a misaligned or overlong access traps. -/
def Obligations.ScratchpadLoads : Prop :=
  ∀ (s : State) (p : BitVec 4) (w : Width) (sz : Sz) (buf : Buf) (r gr : BitVec 6) (q : BitVec 3) (sx : Bool) (gb : BitVec 6)
    (off : BitVec 25) (o10 : BitVec 10) (o6 : BitVec 6),
    let a := (s.cur.gr gb).toNat + off.toNat
    let pa := bufAddr s.curCore buf a
    let lat := if s.hub.profile = 0x16 then 4 else 3
    let slow := if s.hub.profile = 0x16 then 5 else 4
    let xval := BitVec.ofNat 64 (bufNum buf * 2 ^ 32 + a % 2 ^ 32)
    let spb := bufAddr s.curCore .spb (8192 * s.curCtx)
    (Fires s (.ld p w buf (.v r) gb off) p → exec (.ld p w buf (.v r) gb off) s =
      if a % 4 = 0 ∧ a + w.bits / 8 ≤ bufSize buf then .next (s.toV r w.bits lat (BitVec.ofNat 1024 (s.load pa (w.bits / 8))))
      else .next (s.takeTrap s.curCore s.curCtx 0x09 xval 0)) ∧
    (Fires s (.ld p w buf (.q q) gb off) p → a % 4 = 0 ∧ a + w.bits / 8 ≤ bufSize buf →
      exec (.ld p w buf (.q q) gb off) s =
        if s.cur.count q.toNat + s.cur.owes q.toNat < 8 then
          .next ((s.owe q.toNat 1).schedule (s.now + lat) s.curCore
            (.deliver s.curCtx q.toNat (.data (BitVec.ofNat 1024 (s.load pa (w.bits / 8))))))
        else .next (s.takeTrap s.curCore s.curCtx 0x06 (BitVec.ofNat 64 q.toNat) 0)) ∧
    (Fires s (.lds p sz buf gr sx gb off) p →
      let n := szBytes sz
      let v := BitVec.ofNat (8 * n) (s.load pa n)
      exec (.lds p sz buf gr sx gb off) s =
        if a % n = 0 ∧ a + n ≤ bufSize buf then .next (s.toG gr lat (if sx then v.signExtend 64 else v.setWidth 64))
        else .next (s.takeTrap s.curCore s.curCtx 0x09 xval 0)) ∧
    (Fires s (.spLdG p gr o10) p → exec (.spLdG p gr o10) s =
      .next (s.toG gr slow (BitVec.ofNat 64 (s.load (spb + 8 * o10.toNat) 8)))) ∧
    (Fires s (.spLdV p r o6) p → exec (.spLdV p r o6) s =
      .next (s.toV r 1024 slow (BitVec.ofNat 1024 (s.load (spb + 128 * o6.toNat) 128))))

/-- R431, R432, R433, R436 and R440, with R170 and R162: a store completes with one write on its way, due the cycle after (scratchpad) or
after the padded latency (memory), and no byte changed yet; when that write lands, exactly the stored bytes of memory change,
to the register's bytes in ascending order (and of a line that another world wrote last the rest stands as this world sees it, log 12), and
no register does. The stored address is the one the meaning computes: the exact
sum in a buffer, the translation of the wrapped sum, or the context's quarter of SPB. -/
def Obligations.StoresLand : Prop :=
  ∀ (s : State) (i : Instr) (p : BitVec 4) (gb : BitVec 6) (off : BitVec 25),
    (∀ x ∈ s.calendar, x.id ≠ s.seqno) → Fires s i p →
    let a := (s.cur.gr gb).toNat + off.toNat
    let lands (due pa n v : Nat) : Prop :=
      ∃ t u, exec i s = .next t ∧ KeepsRegsAndMemory s t ∧
        (∃ x : Timed, t.calendar = s.calendar ++ [x] ∧ x.id = s.seqno ∧ x.due = due) ∧
        exec (.timedWriteLanding s.seqno) t = .next u ∧
        (∀ c k, SameRegs (s.ctx c k) (u.ctx c k)) ∧
        (∀ k < n, u.byte (pa + k) = BitVec.ofNat 8 (v / 2 ^ (8 * k))) ∧
        KeepsOthers s u s.me.world ((List.range n).map (fun k => pa + k))
    (∀ w buf vr port, i = .st p w buf vr port gb off → a % 4 = 0 ∧ a + w.bits / 8 ≤ bufSize buf →
      lands (s.now + 1) (bufAddr s.curCore buf a) (w.bits / 8) (s.cur.vr vr).toNat) ∧
    (∀ sz buf gr, i = .sts p sz buf gr gb off → a % szBytes sz = 0 ∧ a + szBytes sz ≤ bufSize buf →
      lands (s.now + 1) (bufAddr s.curCore buf a) (szBytes sz) (s.cur.gr gr).toNat) ∧
    (∀ w vr port pa, i = .gst p w vr port gb off →
      globalAddr s (s.cur.gr gb + off.setWidth 64) (w.bits / 8) (w.bits / 8) .wr true = (pa, none) →
      lands (s.now + s.padded s.curCore pa) pa (w.bits / 8) (s.cur.vr vr).toNat) ∧
    (∀ r o, i = .spStG p r o →
      lands (s.now + 1) (bufAddr s.curCore .spb (8192 * s.curCtx + 8 * o.toNat)) 8 (s.cur.gr r).toNat) ∧
    (∀ r o, i = .spStV p r o →
      lands (s.now + 1) (bufAddr s.curCore .spb (8192 * s.curCtx + 128 * o.toNat)) 128 (s.cur.vr r).toNat)

/-- R438 and R181: a multicast store with all its targets in the frond is one action, due after the figure of R23 for its targets; its
landing writes the bytes at the XB offset in every target and nowhere else, sets the event latches of the targets' contexts, and a
zero mask stores nothing. -/
def Obligations.MulticastStores : Prop :=
  ∀ (s : State) (p : BitVec 4) (w : Width) (vr : BitVec 6) (port : BitVec 3) (gm gb : BitVec 6) (rank : BitVec 9) (xoff : BitVec 15)
    (l : List Nat),
    let i : Instr := .mcst p w vr port gm gb rank xoff
    let a := (s.cur.gr gb).toNat + xoff.toNat
    let n := w.bits / 8
    (∀ x ∈ s.calendar, x.id ≠ s.seqno) → Fires s i p → a % n = 0 ∧ a + n ≤ bufSize .xb →
    targetCores (s.frond s.cur.frond).cores (s.cur.gr gm) rank.toNat = some l →
    (l = [] → exec i s = .next s) ∧
    (l ≠ [] → ∃ t u, exec i s = .next t ∧ KeepsRegsAndMemory s t ∧
      (∃ x : Timed, t.calendar = s.calendar ++ [x] ∧ x.id = s.seqno ∧ x.due = s.now +
        if l.all (fun d => decide (coreColumn d = coreColumn s.curCore)) then (if s.hub.profile = 0x16 then 32 else 24)
        else if s.hub.profile = 0x16 then 64 else 48) ∧
      exec (.multicastLanding s.seqno) t = .next u ∧
      (∀ c ∈ l, ∀ k < n, u.byte (bufAddr c .xb (a + k)) = BitVec.ofNat 8 ((s.cur.vr vr).toNat / 2 ^ (8 * k))) ∧
      (∀ b, (∀ c ∈ l, ∀ k < n, b ≠ bufAddr c .xb (a + k)) → u.byte b = s.byte b) ∧
      (∀ c ∈ l, ∀ k < 4, (u.ctx c k).latch = true) ∧
      ∀ c k, SameRegs (s.ctx c k) (u.ctx c k))

/-- R434 and R435: `atom` puts one read-modify-write of LB or XB on its way for the next cycle; when it is made, memory holds the new
value at the named bytes and nothing else changes, and the result waiting for gR, if it is not g0, has the old value. -/
def Obligations.ScratchpadAtomic : Prop :=
  ∀ (s : State) (p : BitVec 4) (sz : Sz) (buf : Buf) (gr : BitVec 6) (aop : Aop) (gs gb : BitVec 6) (off : BitVec 25),
    let i : Instr := .atom p sz buf gr aop gs gb off
    let a := (s.cur.gr gb).toNat + off.toNat
    let n := szBytes sz
    let pa := bufAddr s.curCore buf a
    let x := BitVec.ofNat (8 * n) (s.load pa n)
    let v := (s.cur.gr gs).setWidth (8 * n)
    let c := (s.cur.gr (gs + 1)).setWidth (8 * n)
    let new : BitVec (8 * n) := match aop with
      | .add => x + v | .swap => v | .cas => if x = v then c else x | .and => x &&& v | .or => x ||| v | .xor => x ^^^ v
      | .smax => if x.slt v then v else x | .umax => if x.ult v then v else x
    (∀ y ∈ s.calendar, y.id ≠ s.seqno ∧ y.id ≠ s.seqno + 1) → Fires s i p → sz.isWord = true →
    a % n = 0 → a + n ≤ bufSize buf →
    ∃ t u id, exec i s = .next t ∧ KeepsRegsAndMemory s t ∧
      (∃ y : Timed, t.calendar = s.calendar ++ [y] ∧ y.id = id ∧ y.due = s.now + 1) ∧
      exec (.timedWriteLanding id) t = .next u ∧
      (∀ b, u.byte b = if pa ≤ b ∧ b < pa + n then BitVec.ofNat 8 (new.toNat / 2 ^ (8 * (b - pa))) else s.byte b) ∧
      (gr ≠ 0 → ∃ q : Result, t.cur.inflight = s.cur.inflight ++ [q] ∧ q.id = s.seqno ∧ q.file = .g ∧ q.value = none ∧
        q.due = s.now + (if s.hub.profile = 0x16 then 4 else 3) ∧ q.reg = physReg s.cur.rot gr.toNat ∧
        { q with value := some (x.setWidth 1024) } ∈ u.cur.inflight) ∧
      (gr = 0 → t.cur.inflight = s.cur.inflight)

/-- R436, R437 and R170: `gld` samples its bytes at half the padded latency and delivers at the whole of it, to a register or a queue;
`gatom` is an ordered event whose delivery its queue is owed from issue; a failed translation is the translation trap. -/
def Obligations.GlobalReadsAndAtomics : Prop :=
  ∀ (s : State) (p : BitVec 4) (w : Width) (sz : Sz) (aop : Aop) (r gs gb : BitVec 6) (q port : BitVec 3) (off : BitVec 25) (pa : Nat),
    let a := s.cur.gr gb + off.setWidth 64
    let l := s.padded s.curCore pa
    let room := s.cur.count q.toNat + s.cur.owes q.toNat < 8
    (globalAddr s a (w.bits / 8) (w.bits / 8) .rd true = (pa, none) →
      (Fires s (.gld p w (.v r) gb off) p → exec (.gld p w (.v r) gb off) s =
        .next ((s.result .v (physReg s.cur.rot r.toNat) w.bits l none).schedule (s.now + l / 2) s.curCore
          (.sample pa (w.bits / 8) (.result s.curCtx s.seqno)))) ∧
      (Fires s (.gld p w (.q q) gb off) p → room → exec (.gld p w (.q q) gb off) s =
        .next (((s.owe q.toNat 1).schedule (s.now + l) s.curCore (.deliver s.curCtx q.toNat (.data 0))).schedule (s.now + l / 2)
          s.curCore (.sample pa (w.bits / 8) (.entry s.seqno))))) ∧
    (Fires s (.gatom p sz q aop gs gb off) p → room → globalAddr s a (szBytes sz) (szBytes sz) .atm false = (pa, none) →
      ∃ t, exec (.gatom p sz q aop gs gb off) s = .next t ∧ t.cur.owes q.toNat = s.cur.owes q.toNat + 1 ∧
        KeepsRegsAndMemory s t ∧
        (s.cur.fences = [] → ∃ x : Access, t.accesses = s.accesses ++ [x] ∧ x.id = s.seqno ∧
          x.act = .atomic pa (szBytes sz) aop (s.cur.gr gs) (if aop = .cas then s.cur.gr (gs + 1) else 0) ∧
          x.owed = .queue q.toNat a ∧ x.home = homeNode pa)) ∧
    (Fires s (.gld p w (.v r) gb off) p → translate s.me.windows a.toNat (w.bits / 8) .rd = none →
      exec (.gld p w (.v r) gb off) s = .next (s.takeTrap s.curCore s.curCtx 0x0A a 0)) ∧
    (Fires s (.gst p w r port gb off) p → translate s.me.windows a.toNat (w.bits / 8) .wr = none →
      exec (.gst p w r port gb off) s = .next (s.takeTrap s.curCore s.curCtx 0x0A a 0))

/-! ### The C slot (13 R277, R278; 17 R373 to R389) -/

/-- R373 to R375: a transfer with a legal token commits with its bundle into an entry of the named landing, of the kind the rule gives,
and ends an active loop; `call` and `callx` put the return token in flight for gD; an illegal token is the landing fault with that
token, and a return index above 23 with the return token. -/
def Obligations.TransfersEnter : Prop :=
  ∀ (s : State) (p : BitVec 4) (l r : BitVec 5) (ga gd : BitVec 6) (n : Nat), s.cur.staged = {} →
    let here (j : BitVec 5) : Word := BitVec.ofNat 64 (s.cur.point.page * 2 ^ 24 + j.toNat * 2 ^ 16)
    let near (tok : Word) : Nat := if tok.toNat / 2 ^ 24 = s.cur.point.page ∧ s.me.inCurrent s.cur.point then 2 else 1
    let reg := s.cur.gr ga
    let legal (tok : Word) : Prop := tok.toNat % 2 ^ 16 = 0 ∧ tok.toNat / 2 ^ 16 % 2 ^ 8 ≤ 23
    let enters (i : Instr) (u : State) (tok : Word) (kind : Nat) : Prop :=
      ∃ t, exec i s = .next t ∧ t.cur.inflight = u.cur.inflight ∧ KeepsRegsAndMemory s t ∧
        let x := (t.finish n).ctx s.curCore s.curCtx
        x.point = .entry (tok.toNat / 2 ^ 24) (tok.toNat / 2 ^ 16 % 2 ^ 8) kind ∧ x.loop.active = false
    let faults (i : Instr) (tok : Word) : Prop := exec i s = .next (s.takeTrap s.curCore s.curCtx 0x14 tok 0)
    (Fires s (.br p l) p → if legal (here l) then enters (.br p l) s (here l) (near (here l)) else faults (.br p l) (here l)) ∧
    (Fires s (.brx p ga) p → if legal reg then enters (.brx p ga) s reg (near reg) else faults (.brx p ga) reg) ∧
    (Fires s (.ret p ga) p → if legal reg then enters (.ret p ga) s reg 3 else faults (.ret p ga) reg) ∧
    (Fires s (.call p l r gd) p →
      if legal (here l) then if r.toNat ≤ 23 then enters (.call p l r gd) (s.toG gd 1 (here r)) (here l) 1
        else faults (.call p l r gd) (here r)
      else faults (.call p l r gd) (here l)) ∧
    (Fires s (.callx p ga r gd) p →
      if legal reg then if r.toNat ≤ 23 then enters (.callx p ga r gd) (s.toG gd 1 (here r)) reg 1
        else faults (.callx p ga r gd) (here r)
      else faults (.callx p ga r gd) reg) ∧
    (Fires s (.lquit p l) p →
      if s.cur.loop.active then if legal (here l) then enters (.lquit p l) s (here l) (near (here l)) else faults (.lquit p l) (here l)
      else if l.toNat ≤ 23 then exec (.lquit p l) s = .next s else faults (.lquit p l) (here l))

/-- R277 and R278: `lsetup` starts a loop of the next bundles at pass 0 with every stage predicate from Win; `lend` at the body's last
bundle turns around or falls through after the last pass, and its false guard ends the loop and changes nothing else. The
updates are in force once the bundle commits. -/
def Obligations.LoopsTurn : Prop :=
  ∀ (s : State) (p : BitVec 4) (ga : BitVec 6) (ns : BitVec 3) (nb : BitVec 4) (n page base land o : Nat),
    s.cur.staged = {} → s.cur.point = .inside page base land o →
    let win (stages trip k j : Nat) : Bool := decide (j ≤ stages - 1 ∧ j ≤ k ∧ k - j < trip)
    let next := o + s.me.lenAt base o
    let walk := s.me.walkBody base (nb.toNat + 1) next
    let trip := (s.cur.gr ga).toNat
    (Fires s (.lsetup p ga ns nb) p →
      if trip ≤ 2 ^ 64 - 8 ∧ walk = (false, false) then
        ∃ t, exec (.lsetup p ga ns nb) s = .next t ∧ KeepsRegsAndMemory s t ∧
          let x := (t.finish n).ctx s.curCore s.curCtx
          x.ltrip = s.cur.gr ga ∧ x.lpass = 0 ∧ x.lrot = 0 ∧
          x.loop = { active := true, first := s.me.bodyFirst base next, len := nb.toNat + 1, pos := 0, stages := ns.toNat + 1 } ∧
          ∀ j < 8, x.pr (BitVec.ofNat 4 (8 + j)) = win (ns.toNat + 1) trip 0 j
      else exec (.lsetup p ga ns nb) s = .next (s.takeTrap s.curCore s.curCtx 0x17 1 0)) ∧
    (Fires s (.lend p) p →
      let c := s.cur
      let k := c.lpass.toNat + 1
      let again := decide (k < max c.ltrip.toNat 1 + c.loop.stages - 1)
      if c.loop.active = true ∧ c.loop.pos + 1 = c.loop.len then
        ∃ t, exec (.lend p) s = .next t ∧ KeepsRegsAndMemory s t ∧
          let x := (t.finish n).ctx s.curCore s.curCtx
          x.lpass = c.lpass + 1 ∧ x.lrot.toNat = (c.lrot.toNat + 1) % 32 ∧ x.ltrip = c.ltrip ∧
          x.loop = { c.loop with active := again, pos := 0 } ∧
          x.point = .inside page base land (if again then c.loop.first else o + n) ∧
          ∀ j < 8, x.pr (BitVec.ofNat 4 (8 + j)) = win c.loop.stages c.ltrip.toNat k j
      else exec (.lend p) s = .next (s.takeTrap s.curCore s.curCtx 0x17 0 0)) ∧
    (s.cur.pr p = false → ∃ t, exec (.lend p) s = .next t ∧
      let x := (t.finish n).ctx s.curCore s.curCtx
      x.loop = { s.cur.loop with active := false } ∧ x.lpass = s.cur.lpass ∧ x.lrot = s.cur.lrot ∧ x.p = s.cur.p ∧
      x.point = .inside page base land (o + n))

/-- R383 to R385: `cwait`, `swait` and `wfe` whose condition holds complete and change nothing but, for `wfe`, the latch; otherwise the
context blocks on it and leaves the issue position, with every register as it was. -/
def Obligations.WaitsOnMemoryAndEvents : Prop :=
  ∀ (s : State) (p : BitVec 4) (g : BitVec 6) (o12 : BitVec 12) (o11 : BitVec 11), s.cur.wait = [] →
    let cw := bufAddr s.curCore .xb (8 * o12.toNat)
    let sw := bufAddr s.curCore .xb (16 * o11.toNat)
    let mask := s.cur.gr g
    let blocks (i : Instr) (w : Wait) : Prop := ∃ t, exec i s = .next t ∧ KeepsRegsAndMemory s t ∧
      t.cur.st = .blocked ∧ t.cur.wait = [w] ∧ t.cur.since = s.gtick ∧ t.me.running ≠ some s.curCtx
    (Fires s (.cwait p g o12) p →
      if BitVec.ofNat 64 (s.load cw 8) &&& mask = mask then exec (.cwait p g o12) s = .next s else blocks (.cwait p g o12) (.cwait cw mask)) ∧
    (Fires s (.swait p g o11) p →
      if (s.load (sw + 8) 4 + (2 ^ 32 - mask.toNat % 2 ^ 32)) % 2 ^ 32 < 2 ^ 31 then exec (.swait p g o11) s = .next s
      else blocks (.swait p g o11) (.swait sw (mask.setWidth 32))) ∧
    (Fires s (.wfe p) p →
      if s.cur.latch then exec (.wfe p) s = .next (s.updCur (fun c => { c with latch := false })) else blocks (.wfe p) .wfe)

/-- R381, R382 and R379: signals and child launches. `sig.dec` posts one untimed decrement and never blocks; `sig.wait` posts a read and
blocks at its first attempt, blocks while the read is out, and once satisfied completes and posts nothing; `launch` queues an
ordered event for the record in gA with WBASE and WCNT from gB and the register after it, and its status is in flight for gD; a failed translation is the
translation trap. -/
def Obligations.SignalsAndLaunches : Prop :=
  ∀ (s : State) (p : BitVec 4) (ga gb gd : BitVec 6) (off : BitVec 9) (k thr : BitVec 6) (pa : Nat),
    let a := s.cur.gr ga + BitVec.ofNat 64 (8 * off.toNat)
    s.cur.fences = [] →
    (Fires s (.sigDec p ga off k) p →
      (globalAddr s a 8 8 .atm false = (pa, none) → ∃ t, exec (.sigDec p ga off k) s = .next t ∧ KeepsRegsAndMemory s t ∧
        t.cur.st = s.cur.st ∧ t.cur.inflight = s.cur.inflight ∧
        ∃ x : Access, t.accesses = s.accesses ++ [x] ∧ x.id = s.seqno ∧ x.act = .dec pa (k.setWidth 64) ∧ x.home = homeNode pa ∧
          x.owed = .store a) ∧
      (translate s.me.windows a.toNat 8 .atm = none →
        exec (.sigDec p ga off k) s = .next (s.takeTrap s.curCore s.curCtx 0x0A a 0))) ∧
    (Fires s (.sigWait p ga off thr) p → globalAddr s a 8 8 .rd false = (pa, none) →
      (s.cur.sig = none → ∃ t, exec (.sigWait p ga off thr) s = .next t ∧ KeepsRegsAndMemory s t ∧
        t.cur.st = .blocked ∧ t.cur.sig = some (.posted s.seqno) ∧
        ∃ x : Access, t.accesses = s.accesses ++ [x] ∧ x.id = s.seqno ∧ x.act = .sigRead pa ∧ x.owed = .sig thr.toInt a) ∧
      (s.cur.sig = some .satisfied →
        exec (.sigWait p ga off thr) s = .next (s.updCur (fun c => { c with sig := none }))) ∧
      (∀ i, s.cur.sig = some (.posted i) → ∃ t, exec (.sigWait p ga off thr) s = .next t ∧ KeepsRegsAndMemory s t ∧
        t.cur.st = .blocked ∧ t.posted = s.posted)) ∧
    (Fires s (.childLaunch p gd ga gb) p → ∃ t h, exec (.childLaunch p gd ga gb) s = .next t ∧ KeepsRegsAndMemory s t ∧
      t.cur.heldev = s.cur.heldev ++ [h] ∧ h.rel = some s.now ∧ h.ev = .launch s.seqno s.cur.frond s.cur.pageToken (s.cur.gr ga) (s.cur.gr gb) (s.cur.gr (gb + 1)) ∧
      (gd ≠ 0 → ∃ q : Result, t.cur.inflight = s.cur.inflight ++ [q] ∧ q.id = s.seqno ∧ q.file = .g ∧
        q.reg = physReg s.cur.rot gd.toNat ∧ q.value = none ∧
        q.due = s.now + 2 * latNear s.t16 (s.cls s.curCore) + 16) ∧
      (gd = 0 → t.cur.inflight = s.cur.inflight))

/-- R123, R376, R377, R388, R389 and R176: `bar.l` arrives at its first attempt and blocks, and completes without a second arrival once
the barrier is open; `tkalign` holds the context to the next tick plus its offset; `trap` raises 0x13; `halt` ends the item when its
bundle commits; a fence is recorded with its bundle. -/
def Obligations.BarriersAndEnds : Prop :=
  ∀ (s : State) (p : BitVec 4) (lev : BitVec 3) (off : BitVec 10) (imm : BitVec 16) (sc : Scope) (n : Nat) (it : Item),
    s.cur.staged = {} → s.cur.item = some it →
    let fr := s.frond it.frond
    (Fires s (.barL p lev) p → (fr.kind = .almanac ∨ fr.rlev ≤ lev.toNat) → s.cur.fences = [] →
      (s.cur.arrived = false → ∃ t, exec (.barL p lev) s = .next t ∧ t.cur.st = .blocked ∧ t.cur.arrived = true ∧
        SMap.get 0 (t.frond it.frond).arrivals (arriveKey it.wid.toNat lev.toNat) = SMap.get 0 it.arrivals lev.toNat + 1) ∧
      (s.cur.arrived = true → (∀ h ∈ s.cur.heldev, h.ev ≠ .arrive lev.toNat) → s.barrierOpen s.curCore s.curCtx lev.toNat = true →
        exec (.barL p lev) s = .next (s.updCur (fun c => { c with arrived := false })))) ∧
    (Fires s (.tkalign p off) p → ∃ t, exec (.tkalign p off) s = .next t ∧ KeepsRegsAndMemory s t ∧
      ∃ h, ((t.finish n).ctx s.curCore s.curCtx).hold = some h ∧ s.now < h - off.toNat ∧ h - off.toNat ≤ s.now + 1024 ∧
        (h - off.toNat) % 1024 = 0) ∧
    (Fires s (.softwareTrap p imm) p →
      exec (.softwareTrap p imm) s = .next (s.takeTrap s.curCore s.curCtx 0x13 (imm.setWidth 64) 0)) ∧
    (Fires s (.halt p) p → ∃ t, exec (.halt p) s = .next t ∧ KeepsRegsAndMemory s t ∧
      let x := (t.finish n).ctx s.curCore s.curCtx
      x.st = .idle ∧ x.item = none ∧ x.loop.active = false ∧ x.armed = 0 ∧ x.inflight = s.cur.inflight ∧
      ((t.finish n).frond it.frond).running = fr.running.erase it.wid.toNat) ∧
    (Fires s (.fence p sc) p → ∃ t, exec (.fence p sc) s = .next t ∧ KeepsRegsAndMemory s t ∧
      ∃ f : FenceSt, ((t.finish n).ctx s.curCore s.curCtx).fences = s.cur.fences ++ [f] ∧ f.scope = sc ∧ f.id = s.seqno ∧
        f.set = s.unperformed s.curCore s.curCtx s.cur.frond sc)

/-- R165, R387 and R158: `rdsys` puts the register of R165, sampled at issue, in flight for gD; `wrsys` changes a writable register once
its bundle commits, `lrot` keeping five bits; `xcause` takes all bits and reads as its low eight (R281, log 83);
a read-only register ignores it, and a bank field 0b11 of `vbank` traps; `qst` holds COUNT and OWED of each queue in four bits each,
and `vbank` the states of the banks, as last accepted (log 24), and in bits 10:8 the banks still clearing. -/
def Obligations.SystemRegisters : Prop :=
  ∀ (s : State) (p : BitVec 4) (g : BitVec 6) (n : Nat), s.cur.staged = {} →
    let c := s.cur
    let v := c.gr g
    let reads (r : SysReg) (x : Word) : Prop := Opens s p (countG g) → exec (.rdsys p g r) s = .next (s.toG g 1 x)
    let writes (r : SysReg) (get : Ctx → Word) (x : Word) : Prop :=
      Fires s (.wrsys p g r) p → ∃ t, exec (.wrsys p g r) s = .next t ∧ KeepsRegsAndMemory s t ∧
        get ((t.finish n).ctx s.curCore s.curCtx) = x
    reads .ltrip c.ltrip ∧ reads .lpass c.lpass ∧ reads .lrot c.lrot ∧ reads .ctxid (BitVec.ofNat 64 s.curCtx) ∧
    reads .coreid (BitVec.ofNat 64 (s.curCore + 2 ^ 16 * s.me.logical)) ∧ reads .dieid (BitVec.ofNat 64 (8 + s.curCore / 16)) ∧
    reads .world (BitVec.ofNat 64 s.me.world) ∧ reads .prof ((s.tag s.curCore).setWidth 64) ∧ reads .wid c.wid ∧
    reads .wlay c.wlay ∧ reads .tslc c.tslc ∧ reads .dtime (BitVec.ofInt 64 (s.dtime c.frond)) ∧ reads .gtick s.gtick ∧
    reads .xcause (c.xcause &&& 0xFF) ∧ reads .xval c.xval ∧ reads .xtok c.xtok ∧ reads .xcnt c.xcnt ∧
    writes .ltrip Ctx.ltrip v ∧ writes .lpass Ctx.lpass v ∧ writes .lrot Ctx.lrot (v &&& 31) ∧ writes .xcause Ctx.xcause v ∧
    writes .xval Ctx.xval v ∧ writes .xtok Ctx.xtok v ∧ writes .xcnt Ctx.xcnt v ∧
    (∀ r, r ∈ [SysReg.ctxid, .coreid, .dieid, .world, .prof, .wid, .wlay, .tslc, .dtime, .gtick, .qst] →
      Fires s (.wrsys p g r) p → exec (.wrsys p g r) s = .next s) ∧
    (Fires s (.wrsys p g .vbank) p →
      if (∃ k ∈ [2, 4, 6], v.toNat / 2 ^ k % 4 = 3) then exec (.wrsys p g .vbank) s = .next (s.takeTrap s.curCore s.curCtx 0x08 0x0E 0)
      else ∃ t, exec (.wrsys p g .vbank) s = .next t ∧ KeepsRegsAndMemory s t ∧ t.cur.staged.vbank = some v) ∧
    (Opens s p (countG g) → (∀ q < 8, c.count q < 16 ∧ c.owes q < 16) →
      (∃ v : Word, exec (.rdsys p g .qst) s = .next (s.toG g 1 v) ∧
        ∀ q < 8, v.toNat / 2 ^ (8 * q) % 16 = s.cur.count q ∧ v.toNat / 2 ^ (8 * q + 4) % 16 = s.cur.owes q) ∧
      (∃ v : Word, exec (.rdsys p g .vbank) s = .next (s.toG g 1 v) ∧ v.toNat % 4 = 2 ∧
        v.toNat / 4 % 4 = s.cur.bank1.next.code ∧ v.toNat / 16 % 4 = s.cur.bank2.next.code ∧ v.toNat / 64 % 4 = s.cur.bank3.next.code ∧
        v.toNat.testBit 8 = c.bank1.clearing.isSome ∧ v.toNat.testBit 9 = c.bank2.clearing.isSome ∧
        v.toNat.testBit 10 = c.bank3.clearing.isSome))

/-! ### The matrix engine (11 R230 to R250) -/

/-- R232 to R234 and R239: `ua.ld` fills the A buffer named, or the accumulator named from CB, `ub.ld` fills the B buffer from the
compressed stream at the cursor and moves the cursor past it, and `u.step` adds the K-step of the two buffers into the
accumulator. Nothing else of the engine's buffers, no register and no byte of memory changes. -/
def Obligations.MatrixPanelsAndSteps : Prop :=
  ∀ (s : State) (fmt : MFmt) (asb bs ac zr : Bool) (pr : BitVec 3),
    let e := s.me.engine
    let p := param s pr
    let f (lo n : Nat) : Nat := p.toNat / 2 ^ lo % 2 ^ n
    let runs (i : Instr) (ok : Engine → Prop) : Prop :=
      ∃ t, exec i s = .next t ∧ KeepsRegsAndMemory s t ∧ ok t.me.engine ∧ t.me.engine.store = e.store ∧ t.me.engine.table = e.table
    let sameA (x : Engine) : Prop := x.as0 = e.as0 ∧ x.as1 = e.as1
    let sameB (x : Engine) : Prop := x.bs0 = e.bs0 ∧ x.bs1 = e.bs1 ∧ x.cursor = e.cursor
    let sameC (x : Engine) : Prop := x.ac0 = e.ac0 ∧ x.ac1 = e.ac1
    runs (.uaLd fmt asb ac pr false) (fun x => sameB x ∧ sameC x ∧ x.asBuf (!asb) = e.asBuf (!asb) ∧ (x.asBuf asb).fmt = fmt ∧
      ∀ i < 64, ∀ k < 32, let n := imageIndex (f 54 3) (32 * (f 46 8 + 1)) (32 * f 19 8 + k) i
        (x.asBuf asb).num i k = mfmtValue fmt
          (s.load (bufAddr s.curCore .ab (f 0 19 + mfmtBits fmt * n / 8)) 3 / 2 ^ (mfmtBits fmt * n % 8) % 2 ^ mfmtBits fmt) ∧
        (x.asBuf asb).scale i k =
          if f 54 3 = 0 then 127 else (s.byte (bufAddr s.curCore .ab (f 27 19 + n / 32))).toNat) ∧
    runs (.uaLd fmt asb ac pr true) (fun x => sameA x ∧ sameB x ∧ x.acc (!ac) = e.acc (!ac) ∧
      ∀ i < 64, ∀ j < 64, (SMap.get 0 (x.acc ac) (64 * i + j)).toNat =
        s.load (bufAddr s.curCore .cb (f 0 18 + 256 * i + 4 * j)) 4) ∧
    runs (.ubLd fmt bs pr) (fun x => sameA x ∧ sameC x ∧ x.bsBuf (!bs) = e.bsBuf (!bs) ∧ (x.bsBuf bs).fmt = fmt ∧
      let byte (o : Nat) : Byte := s.byte (bufAddr s.curCore .wb ((e.cursor + o) % 786432))
      let there (n : Nat) : Bool := (byte (n / 8)).getLsbD (n % 8)
      let before (n : Nat) : Nat := ((List.range n).filter there).length
      let b := mfmtBits fmt
      x.cursor = (e.cursor + (256 + (b * before 2048 + 7) / 8 + 63) / 64 * 64) % 786432 ∧
      ∀ j < 64, ∀ k < 32, let n := 32 * j + k
        (x.bsBuf bs).num j k = mfmtValue fmt (if there n then
          leNat ((List.range 3).map (fun i => byte (256 + b * before n / 8 + i))) / 2 ^ (b * before n % 8) % 2 ^ b else 0) ∧
        (x.bsBuf bs).scale j k =
          if f 20 3 = 0 then 127 else (s.byte (bufAddr s.curCore .wb (f 0 20 + imageIndex (f 20 3) 32 k j / 32))).toNat) ∧
    runs (.uStep fmt asb bs ac zr) (fun x => sameA x ∧ sameB x ∧ x.acc (!ac) = e.acc (!ac) ∧
      ∀ i < 64, ∀ j < 64, (SMap.get 0 (x.acc ac) (64 * i + j)).toNat =
        let a := e.asBuf asb
        let b := e.bsBuf bs
        let c := if zr then 0 else (SMap.get 0 (e.acc ac) (64 * i + j)).toNat
        let t := (List.range 32).foldl (fun (t : Machine.Num) (k : Nat) =>
          t.add .rne (if a.scale i k = 255 ∨ b.scale j k = 255 then .nan
            else (((a.num i k).mul (b.num j k)).shift ((a.scale i k : Int) - 127)).shift ((b.scale j k : Int) - 127))) (.fin false 0 1)
        let d := match t with | .fin _ 0 _ => 0 | t => roundF f32Fmt .rne t
        roundF f32Fmt .rne ((decodeF f32Fmt c).add .rne (decodeF f32Fmt d)))

/-- R239 and R242: `u.drain` emits the snapshot of its accumulator: every element of C lands in CB at its place and in its row's
cycle, or row pairs go to SB and entries to a queue of the caller, and the accumulator is cleared if asked. `u.loop` and `u.addp`
move the sequencer and the parameter registers, and `u.end` starts the call's next run or takes the call off the queue. -/
def Obligations.MatrixDrainsAndSequencer : Prop :=
  ∀ (s : State) (x : CallEnt) (ac zr bf16 : Bool) (pr : BitVec 3) (dst : DrainDst) (qd : BitVec 3) (lv : BitVec 2)
    (tgt : BitVec 10) (cnt : BitVec 24) (sh : BitVec 6) (imm : BitVec 24),
    s.me.engine.nextCall = some x →
    let e := s.me.engine
    let r := e.runNow x
    let p := SMap.get 0 r.p pr.toNat
    let f (lo n : Nat) : Nat := p.toNat / 2 ^ lo % 2 ^ n
    let el (i j : Nat) : Nat := (SMap.get 0 (e.acc ac) (64 * i + j)).toNat
    let bf (i j : Nat) : Nat := roundF bf16Fmt .rne (decodeF f32Fmt (el i j))
    let emits (t : State) (due : Nat) (ok : TAct → Prop) : Prop :=
      ∃ y ∈ t.calendar, y.due = due ∧ y.core = s.curCore ∧ y.ctx = x.ctx ∧ y.frond = x.frond ∧ ok y.act
    let goesOn (t : State) (n : RunSt) : Prop := t.me.engine.run = some { n with begun := true } ∧ x ∈ t.me.engine.calls
    (∀ y ∈ e.calls, y.due.all (fun d => decide (s.now < d)) = true ∧ (y.id = x.id → y = x)) →
    (∃ t, exec (.uDrain ac pr zr dst qd bf16) s = .next t ∧ KeepsRegsAndMemory s t ∧
      t.me.engine.acc (!ac) = e.acc (!ac) ∧ t.me.engine.acc ac = (if zr then [] else e.acc ac) ∧
      (dst = .cb → ∀ i < 64, ∀ j < 64, emits t (s.now + 2 + i / (if bf16 then 4 else 2)) (fun y =>
        ∃ cells, y = .drainCb cells ∧ ∀ k < (if bf16 then 2 else 4),
          (bufAddr s.curCore .cb (f 0 18 + if bf16 then 128 * i + 2 * j + k else 256 * i + 4 * j + k),
            BitVec.ofNat 8 ((if bf16 then bf i j else el i j) / 2 ^ (8 * k))) ∈ cells)) ∧
      (dst = .sb → ∀ m < 32, emits t (s.now + 2 + m) (fun y => ∃ call,
        y = .drainSb x.ctx (f 0 18) (f 27 13 + 2 * m) (f 40 13)
          [(List.range 64).map (fun j => SMap.get 0 (e.acc ac) (64 * (2 * m) + j)),
           (List.range 64).map (fun j => SMap.get 0 (e.acc ac) (64 * (2 * m + 1) + j))] call)) ∧
      (dst = .queue → ∀ n ≤ f 24 3, emits t (s.now + 2 + n) (fun y => ∃ v,
        y = .deliver x.ctx qd.toNat (.data v) ∧
        ∀ j < (if bf16 then 64 else 32), if bf16 then (laneOf 16 v j).toNat = bf (f 18 6 + n) j
          else (laneOf 32 v j).toNat = el (f 18 6 + n / 2) (32 * (n % 2) + j)))) ∧
    (∃ t, exec (.uLoop lv tgt cnt) s = .next t ∧ KeepsRegsAndMemory s t ∧
      let k := SMap.get 0 r.lcnt lv.toNat
      let left := (if k = 0 then cnt.toNat else k) - 1
      ∃ n : RunSt, goesOn t n ∧ n.p = r.p ∧ n.run = r.run ∧ n.w = (if left = 0 then r.w + 1 else tgt.toNat) ∧
        SMap.get 0 n.lcnt lv.toNat = left ∧ ∀ l, l ≠ lv.toNat → SMap.get 0 n.lcnt l = SMap.get 0 r.lcnt l) ∧
    (∃ t, exec (.uAddp pr sh imm) s = .next t ∧ KeepsRegsAndMemory s t ∧
      ∃ n : RunSt, goesOn t n ∧ n.w = r.w + 1 ∧ n.lcnt = r.lcnt ∧ n.run = r.run ∧
        SMap.get 0 n.p pr.toNat = p + imm.signExtend 64 <<< sh.toNat ∧
        ∀ k, k ≠ pr.toNat → SMap.get 0 n.p k = SMap.get 0 r.p k) ∧
    (∃ t, exec .uEnd s = .next t ∧ KeepsRegsAndMemory s t ∧
      if r.run + 1 < x.args.2.2 then
        x ∈ t.me.engine.calls ∧ ∃ n : RunSt, t.me.engine.run = some n ∧ n.run = r.run + 1 ∧ n.begun = false ∧ n.lcnt = [] ∧
          n.w = (SMap.get 0 e.table x.args.1).toNat % 1024
      else t.me.engine.run = none ∧ x ∉ t.me.engine.calls)

/-- R244 to R251: the M slot. A call, cursor write or drain marker that passes its checks joins the queue, a call with the armed
count of runs and its increments of m0 to m3 in flight; `mprog` writes the store by sixteen words a cycle, `mstat` delivers one
entry at issue + 2; the checks that fail raise the matrix fault with their code, and a queue without room for what is asked of it
raises the queue fault. -/
def Obligations.MatrixSlot : Prop :=
  ∀ (s : State) (p : BitVec 4) (rtn : BitVec 6) (n : BitVec 12) (ga : BitVec 6) (dst nm1 : BitVec 10) (qd : BitVec 3),
    let e := s.me.engine
    let fault (i : Instr) (code : Nat) : Prop := exec i s = .next (s.takeTrap s.curCore s.curCtx 0x0D (BitVec.ofNat 64 code) 0)
    let joins (t : State) (k : CallKind) : Prop := ∃ y : CallEnt, t.me.engine.calls = e.calls ++ [y] ∧
      y.id = s.seqno ∧ y.ctx = s.curCtx ∧ y.frond = s.cur.frond ∧ y.issue = s.now ∧ y.kind = k
    let live := e.calls.filter (fun y => y.due.all (fun d => decide (s.now < d)))
    let count := if s.cur.armed = 0 then 1 else s.cur.armed
    let ms := (List.range 8).map (fun k => SMap.get 0 s.cur.m k)
    let ahead := Engine.project engineFuel { e with calls := live }
    let walk := walkCall s s.curCore engineFuel { ahead with run := none, calls :=
      [{ id := s.seqno, ctx := 0, frond := 0, issue := s.now, kind := .call rtn.toNat ms count }] } []
    let entry := SMap.get 0 e.table rtn.toNat
    let room (q n : Nat) : Prop := s.cur.count q + s.cur.owes q + n ≤ 8
    let overflow (i : Instr) (q : Nat) : Prop := exec i s = .next (s.takeTrap s.curCore s.curCtx 0x06 (BitVec.ofNat 64 q) 0)
    let enters (i : Instr) : Prop :=
      (s.cur.armed ≠ 0 → fault i 6) ∧ (s.cur.armed = 0 → s.now < e.mprogEnd → fault i 8) ∧
      (s.cur.armed = 0 → e.mprogEnd ≤ s.now → 4 ≤ live.length → fault i 7)
    (Fires s (.mrep p n) p →
      (s.cur.armed = 0 → exec (.mrep p n) s = .next (s.updCur (fun c => { c with armed := n.toNat }))) ∧
      (s.cur.armed ≠ 0 → fault (.mrep p n) 6)) ∧
    (Fires s (.mcall p rtn) p → s.now < e.mprogEnd → fault (.mcall p rtn) 8) ∧
    (Fires s (.mwb p ga) p → enters (.mwb p ga)) ∧ (Fires s (.mdrain p qd) p → enters (.mdrain p qd)) ∧
    (Fires s (.mcall p rtn) p → e.mprogEnd ≤ s.now →
      (4 ≤ live.length → fault (.mcall p rtn) 7) ∧
      (live.length < 4 → entry.getLsbD 15 = false ∨ entry.toNat / 2 ^ 10 % 32 ≠ 0 → fault (.mcall p rtn) 1) ∧
      (live.length < 4 → entry.getLsbD 15 = true → entry.toNat / 2 ^ 10 % 32 = 0 →
        (∀ code, walk = .error code → fault (.mcall p rtn) code) ∧
        (∀ out, walk = .ok out → (∃ d ∈ out, ¬ room d.1 d.2) →
          ∃ d ∈ out, ¬ room d.1 d.2 ∧ overflow (.mcall p rtn) d.1) ∧
        (∀ out, walk = .ok out → (∀ d ∈ out, room d.1 d.2) → (∀ y ∈ e.calls, y.due = none ∧ ∃ r m k, y.kind = .call r m k) →
          ∃ t, exec (.mcall p rtn) s = .next t ∧ joins t (.call rtn.toNat ms count) ∧ t.cur.armed = 0 ∧ KeepsRegsAndMemory s t ∧
            (∀ d ∈ out, t.cur.owes d.1 = s.cur.owes d.1 + d.2) ∧ (∀ q, (∀ d ∈ out, d.1 ≠ q) → t.cur.owes q = s.cur.owes q) ∧
            ∃ l : List Result, t.cur.inflight = s.cur.inflight ++ l ∧ l.length = 4 ∧ ∀ k < 4, ∃ r, l[k]? = some r ∧
              r.file = .m ∧ r.reg = k ∧ r.due = s.now + 1 ∧ r.value = some (BitVec.setWidth 1024 (SMap.get 0 s.cur.m k +
                BitVec.ofNat 64 count * ((SMap.get 0 s.cur.m (6 + k / 2) >>> (32 * (k % 2))).setWidth 32).signExtend 64))))) ∧
    (Fires s (.mwb p ga) p → s.cur.armed = 0 → e.mprogEnd ≤ s.now → e.calls.length < 4 →
      (∀ y ∈ e.calls, y.due = none ∧ ∃ r m k, y.kind = .call r m k) →
      ∃ t, exec (.mwb p ga) s = .next t ∧ KeepsRegsAndMemory s t ∧ joins t (.wb ((s.cur.gr ga).toNat % 786432 / 64 * 64))) ∧
    (Fires s (.mdrain p qd) p → s.cur.armed = 0 → e.mprogEnd ≤ s.now →
      (live.length < 4 → ¬ room qd.toNat 1 → overflow (.mdrain p qd) qd.toNat) ∧
      (e.calls ≠ [] → e.calls.length < 4 → (∀ y ∈ e.calls, y.due = none ∧ ∃ r m k, y.kind = .call r m k) → room qd.toNat 1 →
        ∃ t, exec (.mdrain p qd) s = .next t ∧ KeepsRegsAndMemory s t ∧ joins t (.drain qd.toNat) ∧
          t.cur.owes qd.toNat = s.cur.owes qd.toNat + 1) ∧
      (e.calls = [] → room qd.toNat 1 → s.frozen s.cur.frond = false →
        let last := max e.times.side e.times.landing
        ∃ t, exec (.mdrain p qd) s = .next t ∧ KeepsRegsAndMemory s t ∧ t.cur.owes qd.toNat = s.cur.owes qd.toNat + 1 ∧
          ∃ y ∈ t.calendar, y.due = (if e.times.any then max (last + 1) (s.now + 2) else s.now + 2) ∧
            y.act = .deliver s.curCtx qd.toNat (.data (if e.times.any then
              (BitVec.ofInt 64 (s.dtimeAt s.cur.frond last)).setWidth 1024 else 0)))) ∧
    (Fires s (.mstat p qd) p → (s.cur.armed ≠ 0 → fault (.mstat p qd) 6) ∧
      (s.cur.armed = 0 → ¬ room qd.toNat 1 → overflow (.mstat p qd) qd.toNat) ∧
      (s.cur.armed = 0 → room qd.toNat 1 →
      ∃ t v, exec (.mstat p qd) s = .next t ∧ KeepsRegsAndMemory s t ∧ t.me.engine.calls = e.calls ∧
        t.cur.owes qd.toNat = s.cur.owes qd.toNat + 1 ∧
        (∃ y : Timed, t.calendar = s.calendar ++ [y] ∧ y.due = s.now + 2 ∧ y.act = .deliver s.curCtx qd.toNat (.data v)) ∧
        v.toNat % 8 = live.length % 8 ∧ (e.calls = [] → s.now ≥ e.times.idleAt → s.now ≥ max e.times.landing e.times.side → v = 0))) ∧
    (Fires s (.mprog p ga dst nm1) p → (s.cur.armed ≠ 0 → fault (.mprog p ga dst nm1) 6) ∧
      (s.cur.armed = 0 → live ≠ [] → fault (.mprog p ga dst nm1) 8)) ∧
    (Fires s (.mprogT p ga dst nm1) p → (s.cur.armed ≠ 0 → fault (.mprogT p ga dst nm1) 6) ∧
      (s.cur.armed = 0 → live ≠ [] → fault (.mprogT p ga dst nm1) 8)) ∧
    (Fires s (.mprog p ga dst nm1) p → s.cur.armed = 0 → live = [] →
      let a := (s.cur.gr ga).toNat
      let c := nm1.toNat + 1
      if a % 8 = 0 ∧ a + 8 * c ≤ 196608 ∧ dst.toNat + c ≤ 1024 then
        ∃ t, exec (.mprog p ga dst nm1) s = .next t ∧ KeepsRegsAndMemory s t ∧ t.me.engine.mprogEnd = max e.mprogEnd (s.now + 1 + (c - 1) / 16) ∧
          ∀ i < c, ∃ y ∈ t.calendar, y.due = s.now + 1 + i / 16 ∧ ∃ l, y.act = .mprog false l ∧
            (dst.toNat + i, BitVec.ofNat 64 (s.load (bufAddr s.curCore .lb (a + 8 * i)) 8)) ∈ l
      else fault (.mprog p ga dst nm1) 9) ∧
    (Fires s (.mprogT p ga dst nm1) p → s.cur.armed = 0 → live = [] →
      let a := (s.cur.gr ga).toNat
      let c := nm1.toNat + 1
      if a % 2 = 0 ∧ a + 2 * c ≤ 196608 ∧ dst.toNat + c ≤ 64 then
        ∃ t, exec (.mprogT p ga dst nm1) s = .next t ∧ KeepsRegsAndMemory s t ∧ t.me.engine.mprogEnd = max e.mprogEnd (s.now + 1) ∧
          ∃ y ∈ t.calendar, y.due = s.now + 1 ∧ ∃ l, y.act = .mprog true l ∧ ∀ i < c,
            (dst.toNat + i, BitVec.ofNat 64 (s.load (bufAddr s.curCore .lb (a + 2 * i)) 2)) ∈ l
      else fault (.mprogT p ga dst nm1) 9)

/-! ### The K slot and the Y slot (9 R186 to R205; 19 R443 to R457) -/

/-- R193, R269 and R447 to R450: a timed copy whose checks pass holds its port and puts every chunk on the calendar, sampled and landing in the
cycles of R193; no byte and no register changes at issue. A malformed record is copy fault 0x01 and a held port 0x07. -/
def Obligations.TimedCopies : Prop :=
  ∀ (s : State) (p yr ar : BitVec 4) (buf : Buf) (soff : BitVec 14) (gx : BitVec 5) (tile : Tile) (l : Nat),
    let a := (s.cur.ar ar).toInt
    let so := 64 * soff.toNat
    let img := bufAddr s.curCore buf so
    let mem := sidePhys s tile a
    let w := s.cur.gr (gx.setWidth 6)
    let n := (tile.bytes + 511) / 512
    let free (c : Nat) (land : Bool) (at_ : Nat) : Prop := claimBad s n (c, land, at_) = false
    let fits (b : Buf) : Prop := tile.bytes ≤ 262144 ∧ so + tile.bytes ≤ bufSize b
    let clean (store : Bool) : Prop := gaddrBad tile a = false ∧ alignBad tile a store = false ∧ sideBad s tile a = false ∧
      translateBad s tile a (if store then .wr else .rd) = none ∧ copyLat s tile a = l
    let runs (i : Instr) (ok : State → Prop) : Prop := ∃ t, exec i s = .next t ∧ KeepsRegsAndMemory s t ∧ ok t
    let fault (i : Instr) (code : Nat) : Prop := exec i s = .next (s.takeTrap s.curCore s.curCtx 0x0B (BitVec.ofNat 64 code) 0)
    (Fires s (.cpyTl p yr ar false buf soff gx) p → recTile (s.cur.yr yr) = none → fault (.cpyTl p yr ar false buf soff gx) 1) ∧
    (recTile (s.cur.yr yr) = some tile →
      (Fires s (.cpyTl p yr ar false buf soff 0) p → loadBuf buf = true → fits buf → clean false →
        (free s.curCore true (s.now + l) → runs (.cpyTl p yr ar false buf soff 0) (fun t =>
          LoadsTile t tile img mem (s.now + l / 2) (s.now + l))) ∧
        (¬ free s.curCore true (s.now + l) → fault (.cpyTl p yr ar false buf soff 0) 7)) ∧
      (Fires s (.cpyTl p yr ar true buf soff 0) p → storeBuf buf = true → fits buf → clean true → free s.curCore false s.now →
        runs (.cpyTl p yr ar true buf soff 0) (fun t => StoresTile t tile img mem s.now (s.now + l))) ∧
      (∀ ob oc, gx ≠ 0 → Buf.ofCode (w.extractLsb' 20 3) = some ob →
        w.getLsbD 19 = false → w.toNat / 2 ^ 23 % 2 ^ 9 = 0 → w.toNat / 2 ^ 41 % 2 ^ 22 = 0 →
        let rank := w.toNat / 2 ^ 32 % 2 ^ 9
        (if w.getLsbD 63 then (s.frond s.cur.frond).cores[rank]? = some oc else rank = 0 ∧ oc = s.curCore) → fits buf →
        gaddrBad tile (w.toNat % 2 ^ 19 : Nat) = false →
        (∀ lo hi, tile.range = some (lo, hi) → (w.toNat % 2 ^ 19 : Nat) + hi + tile.e ≤ bufSize ob) →
        let other (g : Int) : Nat := bufAddr oc ob ((w.toNat % 2 ^ 19 : Nat) + g).toNat
        let lat := if w.getLsbD 63 then
            (if coreColumn oc = coreColumn s.curCore then (if s.hub.profile = 0x16 then 32 else 24)
             else if s.hub.profile = 0x16 then 64 else 48)
          else if s.hub.profile = 0x16 then 10 else 8
        (Fires s (.cpyTl p yr ar false buf soff gx) p → loadBuf buf = true → storeBuf ob = true →
          alignBad tile (w.toNat % 2 ^ 19 : Nat) false = false → free oc false s.now → free s.curCore true (s.now + lat) →
          runs (.cpyTl p yr ar false buf soff gx) (fun t => LoadsTile t tile img other s.now (s.now + lat))) ∧
        (Fires s (.cpyTl p yr ar true buf soff gx) p → storeBuf buf = true → loadBuf ob = true →
          alignBad tile (w.toNat % 2 ^ 19 : Nat) true = false → free s.curCore false s.now → free oc true (s.now + lat) →
          runs (.cpyTl p yr ar true buf soff gx) (fun t => StoresTile t tile img other s.now (s.now + lat)))) ∧
      (∀ targets, Fires s (.cpyBc p yr ar buf soff gx) p → loadBuf buf = true → fits buf → clean false → w ≠ 0 →
        let hi := s.cur.gr (gx.setWidth 6 + 1)
        hi.toNat < 512 → targetCores (s.frond s.cur.frond).cores w hi.toNat = some targets →
        let land := s.now + l + if targets.all (fun d => decide (coreColumn d = coreColumn s.curCore)) then 0
          else if s.hub.profile = 0x16 then 32 else 24
        (∀ d ∈ targets, free d true land) →
        runs (.cpyBc p yr ar buf soff gx) (fun t => ∀ d ∈ targets, LoadsTile t tile (bufAddr d buf so) mem (s.now + l / 2) land)) ∧
      (∀ sae32, Fires s (.cpyEv p yr ar sae32 .sb soff) p → fits .sb → clean true → free s.curCore false s.now →
        (sae32 = true → let d := descAt (s.sb s.curCore) so
          d.ok = true ∧ tile.bytes = 64 + d.nrow * ((32 + 4 * d.nel + 63) / 64 * 64)) →
        runs (.cpyEv p yr ar sae32 .sb soff) (fun t =>
          if sae32 then ∀ i < n, ∃ x ∈ t.calendar, ∃ y ∈ t.calendar, y.due = s.now + l + 2 * i ∧ y.act = .chunkLand [] ∧
            x.due = s.now + 2 * i ∧ x.act = .evict so (tile.storeChunk i 0 mem) y.id
          else StoresTile t tile (bufAddr s.curCore .sb so) mem s.now (s.now + l))) ∧
      (∀ sae32, Fires s (.cpyRs p yr ar sae32 .sb soff) p → fits .sb → clean false → free s.curCore true (s.now + l) →
        runs (.cpyRs p yr ar sae32 .sb soff) (fun t => ∀ i < n, ∃ x ∈ t.calendar, ∃ y ∈ t.calendar,
          x.due = s.now + l / 2 + 2 * i ∧ x.act = .chunkRead (tile.loadChunk i 0 mem).1 y.id ∧
          y.due = s.now + l + 2 * i ∧ y.act = .restore sae32 so i [] (tile.loadChunk i 0 mem).2)))

/-- R195 to R203, R205 and R451 to R455: an untimed copy whose checks pass is counted, clears its completion bits and posts its accesses, which carry
every in-bounds byte of the tile to its place, by plain writes, combine-adds, pushes with their sync word, reads, or fabric operations to
a member; `mig` posts one page move. The sixteenth outstanding copy is the last: another is copy fault 0x08. -/
def Obligations.UntimedCopies : Prop :=
  ∀ (s : State) (p yr ar : BitVec 4) (buf : Buf) (f : Afmt) (mode : CollMode) (soff : BitVec 14) (cbm : BitVec 12) (gx : BitVec 5)
    (tier : Tier) (tile : Tile),
    let a := (s.cur.ar ar).toInt
    let so := 64 * soff.toNat
    let cb := 8 * cbm.toNat
    let img := bufAddr s.curCore buf so
    let mem := sidePhys s tile a
    let w := s.cur.gr (gx.setWidth 6)
    let n := (tile.bytes + 511) / 512
    let en := w.getLsbD 63
    let member := w.toNat % 2 ^ 6
    let remote (g : Int) (j : Nat) : Nat := (a + g).toNat + j
    let fits : Prop := recTile (s.cur.yr yr) = some tile ∧ tile.bytes ≤ 262144 ∧ so + tile.bytes ≤ bufSize buf ∧
      cb + (n + 7) / 8 ≤ 32768 ∧ gaddrBad tile a = false
    let size (m : Option Afmt) : Prop := ∀ g, m = some g → tile.e = match g with | .bf16 => 2 | .i64 => 8 | _ => 4
    let local_ (pm : Perm) : Prop := w.toNat / 2 ^ 15 % 2 ^ 48 = 0 ∧ translateBad s tile a pm = none
    let fabric : Prop := w.toNat / 2 ^ 7 % 2 ^ 9 = 0 ∧ w.toNat / 2 ^ 31 % 2 ^ 32 = 0 ∧ w.toNat / 2 ^ 16 % 16 = 0 ∧
      s.hub.domain.has member = true
    let runs (i : Instr) (store : Bool) (ok : List Access → Prop) : Prop :=
      ∃ t l, exec i s = .next t ∧ StartsCopy s t cb n store l ∧ ok l
    let writes (l : List Access) (act : Payload → Act → Prop) : Prop := SendsTile s tile img l (fun x g j b =>
      ∃ pl, act pl x ∧ (mem g + j, b) ∈ pl.cells)
    let pushes (l : List Access) (d : Nat) (m : Option Afmt) (sync : Option Nat) : Prop :=
      writes l (fun pl x => ∃ k, x = .push m (sync.map (bufAddr d .xb)) k pl)
    let puts (l : List Access) (m : Option Afmt) : Prop := SendsTile s tile img l (fun x g j b =>
      ∃ pl, x = .fabric member m (some (w.toNat / 2 ^ 16 % 2 ^ 15)) [] pl ∧ (remote g j, b) ∈ pl.cells)
    let sync15 := if en then some (w.toNat % 2 ^ 15) else none
    s.cur.fences = [] →
    (16 ≤ s.cur.copies.length → Fires s (.cpyGet p yr ar buf soff cbm gx) p →
      exec (.cpyGet p yr ar buf soff cbm gx) s = .next (s.takeTrap s.curCore s.curCtx 0x0B 8 0)) ∧
    (s.cur.copies.length < 16 → fits →
      (Fires s (.cpyUt p yr ar false buf soff cbm gx) p → loadBuf buf = true → local_ .rd → en = false →
        runs (.cpyUt p yr ar false buf soff cbm gx) false (fun l =>
          FetchesTile s tile img l (fun x g j d => ∃ ms, x = .read ms ∧ ({ dst := d, src := mem g + j } : Move) ∈ ms))) ∧
      (Fires s (.cpyUt p yr ar true buf soff cbm gx) p → storeBuf buf = true → local_ .wr →
        (en = false → windowCore s tile a = none →
          runs (.cpyUt p yr ar true buf soff cbm gx) true (fun l => writes l (fun pl x => x = .write pl))) ∧
        (∀ d, windowCore s tile a = some d → w.toNat % 16 = 0 →
          runs (.cpyUt p yr ar true buf soff cbm gx) true (fun l => pushes l d none sync15))) ∧
      (Fires s (.cpyAdd p yr ar buf f soff cbm gx) p → storeBuf buf = true → size (some f) → local_ .atm →
        (en = false → windowCore s tile a = none →
          runs (.cpyAdd p yr ar buf f soff cbm gx) true (fun l => writes l (fun pl x => x = .combine f pl))) ∧
        (∀ d, windowCore s tile a = some d → w.toNat % 16 = 0 →
          runs (.cpyAdd p yr ar buf f soff cbm gx) true (fun l => pushes l d (some f) sync15))) ∧
      (Fires s (.cpyPut p yr ar buf soff cbm gx) p → storeBuf buf = true → fabric → w.getLsbD 6 = false → en = true →
        runs (.cpyPut p yr ar buf soff cbm gx) true (fun l => puts l none)) ∧
      (Fires s (.cpyGet p yr ar buf soff cbm gx) p → loadBuf buf = true → fabric → w.getLsbD 6 = false → en = false →
        runs (.cpyGet p yr ar buf soff cbm gx) false (fun l => FetchesTile s tile img l (fun x g j d =>
          ∃ ms, x = .fabric member none none ms { cells := [] } ∧ ({ dst := d, src := remote g j } : Move) ∈ ms))) ∧
      (Fires s (.coll p yr ar buf mode soff cbm gx) p → storeBuf buf = true → en = true →
        let m := match mode with | .put => none | .add g => some g
        size m →
        (w.getLsbD 6 = true → fabric → runs (.coll p yr ar buf mode soff cbm gx) true (fun l => puts l m)) ∧
        (∀ d, w.getLsbD 6 = false → windowCore s tile a = some d → member = 0 → w.toNat / 2 ^ 7 % 2 ^ 9 = 0 →
          w.toNat / 2 ^ 31 % 2 ^ 32 = 0 → w.toNat / 2 ^ 16 % 16 = 0 →
          translateBad s tile a (match mode with | .put => .wr | .add _ => .atm) = none →
          runs (.coll p yr ar buf mode soff cbm gx) true (fun l => pushes l d m (some (w.toNat / 2 ^ 16 % 2 ^ 15)))))) ∧
    (s.cur.copies.length < 16 → Fires s (.mig p ar tier cbm) p → cb < 32768 →
      let va := s.cur.ar ar
      (∀ x, findWindow s.me.windows va.toNat 0x200000 = some x → x.vbase = va.toNat → x.size = 0 →
        x.rd = true → x.wr = true → x.mig = false →
        ∃ t y, exec (.mig p ar tier cbm) s = .next t ∧ t.accesses = s.accesses ++ [y] ∧ y.act = .move va tier ∧ y.home = 0 ∧
          y.owed = .mig s.seqno ∧ (∀ c k, SameRegs (s.ctx c k) (t.ctx c k)) ∧
          (∃ cp : CopySt, t.cur.copies = s.cur.copies ++ [cp] ∧ cp.id = s.seqno ∧ cp.cbm = cb ∧
            cp.mig = some { va := va, tier := tier } ∧ cp.chunks = [{ i := 0, waiting := 1 }]) ∧
          (t.byte (bufAddr s.curCore .xb cb)).getLsbD 0 = false ∧
          ∀ b, b ≠ bufAddr s.curCore .xb cb → t.byte b = s.byte b) ∧
      (findWindow s.me.windows va.toNat 0x200000 = none → exec (.mig p ar tier cbm) s =
        .next (s.takeTrap s.curCore s.curCtx 0x0B 0x0A 0)))

/-- R189, R456 and R457: a Y write leaves its record as it is for the bundles one and two after its own and is in force for the third: the
fields it names hold the operands, and every other bit of the record and every other record is as it was. -/
def Obligations.LayoutWrites : Prop :=
  ∀ (s : State) (p yd ys : BitVec 4) (dim : BitVec 3) (stl : BitVec 14) (sth : BitVec 1) (bx : BitVec 8) (sz : BitVec 16)
    (ga gb : BitVec 6) (esz : BitVec 2) (ndm geo : BitVec 3) (hi : BitVec 8) (fill : BitVec 16) (n1 l1 n2 l2 n3 l3 : Nat),
    s.cur.ywrites = [] →
    let old := s.cur.yr yd
    let a := (s.cur.gr ga).toNat
    let b := (s.cur.gr gb).toNat
    let field (r : Rec) (lo w : Nat) : Nat := r.toNat / 2 ^ lo % 2 ^ w
    let only (r : Rec) (l : List (Nat × Nat)) : Prop :=
      ∀ k < 256, (∀ x ∈ l, k < x.1 ∨ x.1 + x.2 ≤ k) → r.getLsbD k = old.getLsbD k
    let writes (i : Instr) (ok : Rec → Prop) : Prop := Fires s i p → ∃ t, exec i s = .next t ∧ KeepsRegsAndMemory s t ∧
      t.calendar = s.calendar ∧ t.posted = s.posted ∧ t.cur.inflight = s.cur.inflight ∧
      let c1 := t.cur.commit n1 l1
      let c2 := c1.commit n2 l2
      let c3 := c2.commit n3 l3
      c1.yr yd = old ∧ c2.yr yd = old ∧ ok (c3.yr yd) ∧ ∀ r, r ≠ yd → c3.yr r = s.cur.yr r
    writes (.yclr p yd) (fun r => r = 0) ∧
    writes (.ycpy p yd ys) (fun r => r = s.cur.yr ys) ∧
    writes (.ysetd p yd 0 stl sth bx sz) (fun r =>
      field r 32 16 = sz.toNat ∧ field r 48 8 = bx.toNat ∧ only r [(32, 16), (48, 8)]) ∧
    (dim ≠ 0 → dim.toNat < 5 → writes (.ysetd p yd dim stl sth bx sz) (fun r =>
      let o := 46 * (dim.toNat - 1)
      field r (72 + o) 12 = sz.toNat % 2 ^ 12 ∧ field r (84 + o) 6 = bx.toNat % 2 ^ 6 ∧
        field r (103 + o) 15 = stl.toNat + 2 ^ 14 * sth.toNat ∧ only r [(72 + o, 12), (84 + o, 6), (103 + o, 15)])) ∧
    writes (.yseto p yd ga gb) (fun r =>
      field r 56 16 = a % 2 ^ 16 ∧ field r 90 13 = a / 2 ^ 16 % 2 ^ 13 ∧ field r 136 13 = a / 2 ^ 29 % 2 ^ 13 ∧
      field r 182 13 = a / 2 ^ 42 % 2 ^ 13 ∧ field r 228 13 = b % 2 ^ 13 ∧
      only r [(56, 16), (90, 13), (136, 13), (182, 13), (228, 13)]) ∧
    writes (.ysetf p yd esz ndm hi fill) (fun r =>
      field r 0 2 = esz.toNat ∧ field r 2 3 = ndm.toNat ∧ field r 8 16 = fill.toNat ∧ field r 24 8 = hi.toNat ∧
      only r [(0, 5), (8, 24)]) ∧
    writes (.ysetb p yd geo) (fun r => field r 5 3 = geo.toNat ∧ only r [(5, 3)])

/-! ### What falls due, and untimed accesses at their homes (7, 8, 9, 11, 12) -/

/-- R12, R152, R154, R159, R170, R193, R242, R243, R260 and R369: a due result lands in the bits it names of its register and nowhere else; a
delivery enters its queue before what later requests brought in the same cycle and pays what was owed; a sample fills its result or its
chunk with the bytes as the core's world sees them; landing bytes stand in memory and no other byte changes (the rest of a line that another
world wrote last stands as this world sees it, log 12); a pair of rows of C is added exactly into SB, or, refused or out of range, commits
nothing, nor do the pairs after it, and the error record is formed; a woken bank reads zero. -/
def Obligations.LandingsTakeEffect : Prop :=
  ∀ (s : State) (core ctx id bank : Nat) (x : Timed),
    let c := s.ctx core ctx
    let due : Prop := s.timed id = some x
    let left (t : State) : Prop := t.calendar = s.calendar.filter (fun y => decide (y.id ≠ id))
    let w := (s.core x.core).world
    let lands (i : Instr) (cells : List Host.Cell) (others : State → Prop) : Prop := (cells.map Prod.fst).Nodup → ∃ t, exec i s = .next t ∧
      left t ∧ (∀ a b, (a, b) ∈ cells → t.byte a = b) ∧ others t ∧ ∀ c k, SameRegs (s.ctx c k) (t.ctx c k)
    (∀ r v, c.inflight.find? (fun q => decide (q.id = id) && q.old.isNone) = some r → r.value = some v →
      (∀ k, (c.bankOf k).st = .on → (c.bankOf k).next = .on) →
      ∃ t, exec (.resultLanding core ctx id) s = .next t ∧ (∀ a, t.byte a = s.byte a) ∧
        (∀ d k, (d, k) ≠ (core, ctx) → SameRegs (s.ctx d k) (t.ctx d k)) ∧
        let y := t.ctx core ctx
        (∀ n, SMap.get 0 y.g n = if r.file = .g ∧ n = r.reg ∧ n ≠ 0 then v.setWidth 64 else SMap.get 0 c.g n) ∧
        (∀ n, SMap.get 0 y.a n = if r.file = .a ∧ n = r.reg then v.setWidth 64 else SMap.get 0 c.a n) ∧
        (∀ n, SMap.get 0 y.m n = if r.file = .m ∧ n = r.reg then v.setWidth 64 else SMap.get 0 c.m n) ∧
        (∀ n < 16, y.p.getLsbD n = if r.file = .p ∧ n = r.reg ∧ n ≠ 0 then v.getLsbD 0 else c.p.getLsbD n) ∧
        (∀ n b, (SMap.get 0 y.v n).getLsbD b =
          if r.file = .v ∧ n = r.reg ∧ b < r.width then v.getLsbD b else (SMap.get 0 c.v n).getLsbD b) ∧
        y.y = c.y ∧ y.ltrip = c.ltrip ∧ y.lpass = c.lpass ∧ y.lrot = c.lrot) ∧
    (∀ k q e, due → x.act = .deliver k q e → ∃ t, exec (.queueDelivery id) s = .next t ∧ KeepsRegsAndMemory s t ∧ left t ∧
      (s.keeps x.frond x.core k = true →
        let old := SMap.get [] (s.ctx x.core k).q q
        let n := old.length - (((s.ctx x.core k).cameIn q s.now).filter (fun r => decide (x.ord < r))).length
        SMap.get [] (t.ctx x.core k).q q = old.take n ++ e :: old.drop n ∧
        (t.ctx x.core k).owes q = (s.ctx x.core k).owes q - 1) ∧
      (s.keeps x.frond x.core k = false → ∀ j, (t.ctx x.core k).count j = (s.ctx x.core k).count j)) ∧
    (1 ≤ bank → bank ≤ 3 → ∃ t, exec (.bankWakeDone core ctx bank) s = .next t ∧
      let y := t.ctx core ctx
      (∀ n, SMap.get 0 y.v n = if 16 * bank ≤ n ∧ n < 16 * bank + 16 then 0 else SMap.get 0 c.v n) ∧
      (y.bankOf bank).st = (c.bankOf bank).next ∧ (y.bankOf bank).clearing = none ∧ y.g = c.g ∧ y.a = c.a ∧ y.p = c.p ∧ y.m = c.m ∧
      ∀ a, t.byte a = s.byte a) ∧
    (∀ pa n k rid, due → x.act = .sample pa n (.result k rid) → s.faulty = [] →
      ∃ t, exec (.timedReadSample id) s = .next t ∧ KeepsRegsAndMemory s t ∧ left t ∧
        SeesOwn s w ((List.range n).map (fun i => pa + i)) ∧ ∀ r ∈ (t.ctx x.core k).inflight, r.id = rid →
          r.value = some (BitVec.ofNat 1024 ((s.seenBy w ((List.range n).map (fun i => pa + i))).load pa n))) ∧
    (∀ moves land y cells, due → x.act = .chunkRead moves land → s.faulty = [] → (∀ m ∈ moves, s.fencedAt m.src = false) → land ≠ id →
      s.timed land = some y → y.act = .chunkLand cells → ∃ t, exec (.timedReadSample id) s = .next t ∧ KeepsRegsAndMemory s t ∧
        SeesOwn s w (moves.map Move.src) ∧ t.timed land = some { y with act := .chunkLand (cells ++ moves.map (fun m =>
          (m.dst, (s.seenBy w (moves.map Move.src)).byte m.src))) }) ∧
    (∀ rank cells, due → x.act = .write rank cells →
      lands (.timedWriteLanding id) cells (fun t => KeepsOthers s t w (cells.map Prod.fst))) ∧
    (∀ cells, due → x.act = .chunkLand cells → lands (.timedChunkLanding id) cells (fun t => KeepsOthers s t w (cells.map Prod.fst))) ∧
    (∀ cells, due → x.act = .drainCb cells →
      lands (.drainRowLanding id) cells (fun t => ∀ a, a ∉ cells.map Prod.fst → t.byte a = s.byte a)) ∧
    (∀ k reg row sel l0 l1 call, due → x.act = .drainSb k reg row sel [l0, l1] call → l0.length = 64 → l1.length = 64 →
      reg < 2 ^ 18 → row < 2 ^ 13 → sel < 2 ^ 13 → saFault (s.sb x.core) (saPtr reg row sel).toNat .add 64 2 1 = 0 →
      let d := descAt (s.sb x.core) reg
      let el (t : State) (i j : Nat) : Int := s48Val (sbNat (t.sb x.core) (d.elem (row + i) (sel + j)) 6)
      let ss (t : State) (i : Nat) : Int := sbNat (t.sb x.core) (d.row (row + i)) 16
      ∀ y : Nat → Nat → Int,
        (∀ i < 2, ∀ j < 64, toS48 (decodeF f32Fmt ((if i = 0 then l0 else l1).getD j 0).toNat) d.sc = some (y i j) ∧
          inS48 (y i j) = true ∧ inS48 (el s i j + y i j) = true) →
        ∃ t, exec (.drainRowLanding id) s = .next t ∧ left t ∧ (∀ c k, SameRegs (s.ctx c k) (t.ctx c k)) ∧
          (∀ i < 2, (∀ j < 64, el t i j = el s i j + y i j) ∧
            ss t i = (ss s i + (List.range 64).foldl (fun a j => a + 2 * el s i j * y i j + y i j * y i j) 0) % 2 ^ 128) ∧
          ∀ b, (∀ i < 2, (∀ n < 16, b ≠ bufAddr x.core .sb (d.row (row + i) + n)) ∧
            ∀ j < 64, ∀ n < 6, b ≠ bufAddr x.core .sb (d.elem (row + i) (sel + j) + n)) → t.byte b = s.byte b) ∧
    (∀ k reg row sel rows call, due → x.act = .drainSb k reg row sel rows call →
      (s.unschedule id).addRows x.core reg row sel rows = none →
      ∃ t, exec (.drainRowLanding id) s = .next t ∧ KeepsRegsAndMemory s t ∧
        (s.keeps x.frond x.core k = true → (t.ctx x.core k).overflow = some (match (s.ctx x.core k).overflow with
          | none => { count := 0, xval := saPtr reg row sel, fold := false }
          | some h => { h with count := h.count + 1 })) ∧
        ∀ y, y ∈ t.calendar ↔ y ∈ s.calendar ∧ y.id ≠ id ∧
          ¬ (y.core = x.core ∧ ∃ k reg row sel rows, y.act = .drainSb k reg row sel rows call))

/-- R36, R265, R266, R307, R308, R351, R362, R377 and R382: a fold adds a row's deltas into its elements and clears them; a group sum is
the sum of the members' slots and lands in the next cycle; holds end in their cycle; an entry enters its page or traps; an empty bundle only passes, but at a quiet
point it traps while a result is in flight; an illegal encoding traps with its slot. That a fold goes by the descriptor as it stands when it
lands, and that a group sum lands a cycle after it is formed, is log 50; that the abort asked for in a freeze is made at its end, log 48. -/
def Obligations.FoldsEntriesAndEmptyBundles : Prop :=
  ∀ (s : State) (core ctx id f n : Nat) (x : Timed) (lnd : Bool),
    let m := s.cur.flying s.now
    let c := s.ctx core ctx
    let due : Prop := s.timed id = some x
    let left (t : State) : Prop := t.calendar = s.calendar.filter (fun y => decide (y.id ≠ id))
    (∀ k reg row, due → x.act = .fold k reg row 1 →
      let rd := s.sb x.core
      let d := descAt rd reg
      let el (t : State) (e : Nat) : Int := s48Val (sbNat (t.sb x.core) (d.elem row e) 6)
      let dl (t : State) (e : Nat) : Int := s48Val (sbNat (t.sb x.core) (d.delta row e) 6)
      d.ok = true → d.ibp = true → row < d.nrow → (s.byte (bufAddr x.core .sb (d.row row + 19))).getLsbD 1 = false →
      (∀ e < d.nel, inS48 (el s e + dl s e) = true) →
      ∃ t, exec (.saFold id) s = .next t ∧ left t ∧ (∀ c k, SameRegs (s.ctx c k) (t.ctx c k)) ∧
        (∀ e < d.nel, el t e = el s e + dl s e ∧ dl t e = 0) ∧
        sbNat (t.sb x.core) (d.row row) 16 = (((sbNat rd (d.row row) 16 : Int) +
          (List.range d.nel).foldl (fun a e => a + 2 * el s e * dl s e + dl s e * dl s e) 0) % 2 ^ 128).toNat) ∧
    (∀ xtab gsz row, due → x.act = .gsum xtab gsz row 1 →
      let base := bufAddr x.core .xb (xtab + 16 * (gsz + 1) * (row % 16))
      let sum := (List.range gsz).foldl (fun a k => a + s.load (base + 16 * k) 16) 0 % 2 ^ 128
      ∃ t y, exec (.saGroupSum id) s = .next t ∧ KeepsRegsAndMemory s t ∧
        t.calendar = s.calendar.filter (fun y => decide (y.id ≠ id)) ++ [y] ∧ y.due = s.now + 1 ∧ y.core = x.core ∧
        y.act = .write 3 ((List.range 16).map (fun i => (base + 16 * gsz + i, BitVec.ofNat 8 (sum / 2 ^ (8 * i)))))) ∧
    ((s.frond f).thawAbort = none → exec (.freezeEnd f) s = .next s) ∧
    (∀ why, (s.frond f).thawAbort = some why → (s.frond f).bound = true → (s.frond f).ended = false → (s.frond f).abort = none →
      ∃ t, exec (.freezeEnd f) s = .next t ∧ (t.frond f).abort = some why ∧ (t.frond f).thawAbort = none) ∧
    (∀ h, c.hold = some h → ∃ t, exec (.tkalignRelease core ctx) s = .next t ∧ KeepsRegsAndMemory s t ∧
      (t.ctx core ctx).hold = if h ≤ s.now then none else some h) ∧
    (∀ a, c.sig = some (.repost a) → c.fences = [] → a.act.writes = false → a.request = none →
      ∃ t y, exec (.sigWaitRepost core ctx) s = .next t ∧ KeepsRegsAndMemory s t ∧ t.accesses = s.accesses ++ [y] ∧ y.id = s.seqno ∧
        y.act = a.act ∧ y.owed = a.owed ∧ (t.ctx core ctx).sig = some (.posted s.seqno)) ∧
    (∀ page idx kind, c.point = .entry page idx kind →
      let e := s.core core
      (e.current page = none → exec (.landingEntry core ctx) s = .next (s.takeTrap core ctx 0x11 (BitVec.ofNat 64 page) 0)) ∧
      (∀ base, e.current page = some base →
        let l := e.landing base idx
        let h := e.pageSyl base l.off
        let tok : Word := BitVec.ofNat 64 (page * 2 ^ 24 + idx * 2 ^ 16)
        let ok : Bool := decide (idx < 24) && (if kind = 3 then l.ret else if kind = 2 then l.ent || l.loop else l.ent)
        exec (.landingEntry core ctx) s =
          if e.pageTag base ≠ s.tag core then .next (s.takeTrap core ctx 0x12 ((e.pageTag base).setWidth 64) 0)
          else if ok = false then .next (s.takeTrap core ctx 0x14 tok 0)
          else if h.getLsbD 31 = false then .next (s.takeTrap core ctx 0x02 (BitVec.ofNat 64 l.off) 0)
          else if h.getLsbD 19 = false then .next (s.takeTrap core ctx 0x14 tok 0)
          else .next (s.updCtx core ctx (fun y => { y with point := .inside page base idx l.off })))) ∧
    ((m = 0 → exec (.emptyBundle lnd true) s = .next (s.finish 1)) ∧
      (m ≠ 0 → exec (.emptyBundle lnd true) s = .next (s.takeTrap s.curCore s.curCtx 0x07 (BitVec.ofNat 64 m) 0)) ∧
      exec (.emptyBundle lnd false) s = .next (s.finish 1)) ∧
    (n < 16 → exec (.illegalEncoding n) s = .next (s.takeTrap s.curCore s.curCtx 0x01 (BitVec.ofNat 64 n) 0))

/-- R141, R167, R173, R174, R176, R195 to R202, R204, R205 and R261: an access that its home may take and does not refuse is performed there in one
step: a write stores its payload and is counted, a read takes its bytes and merges the line's clock, an atomic does both and returns the
old value, each on the lines as the access's world sees them; a push updates its sync word; one refused has no effect but the home's count and a log entry, and its error response settles what
it owed. What a read, an atomic or a write sees of a line that another world wrote last, and what stands in the rest of it after a write, is log 12. A
chunk's last response sets its bit, a fence completes when its set is performed, and a page move for which there is no frame leaves the page
where it stands. -/
def Obligations.UntimedAccessesPerform : Prop :=
  ∀ (s : State) (id core ctx copy chunk : Nat) (a : Access), s.access id = some a →
    let waits : Prop := a.done = none ∧ a.err = false ∧ s.faulty = []
    let counted (t : State) : Prop := SMap.get 0 t.applied (7 * a.home + a.node) = SMap.get 0 s.applied (7 * a.home + a.node) + 1
    let response (t : State) (cells : List Host.Cell) (v : Word) : Prop := t.access id = some { a with done := some (cells, v) }
    let regs (t : State) : Prop := ∀ c k, SameRegs (s.ctx c k) (t.ctx c k)
    let seen (l : List Nat) : State := s.seenBy a.world l
    let holds (t : State) (l : List Nat) (cells : List Host.Cell) : Prop := (∀ x b, (x, b) ∈ cells → t.byte x = b) ∧
      (∀ x, x ∉ cells.map Prod.fst → t.byte x = (seen l).byte x) ∧ SeesOwn s a.world l
    let plain (pl : Payload) : Prop := (pl.cells.map Prod.fst).Nodup ∧
      (pl.srcs = [] ∨ pl.srcs.map s.byte = pl.cells.map Prod.snd)
    let c := s.ctx core ctx
    (waits → s.refusal a = none →
      (∀ pl, a.act = .write pl → s.canApply a = true → plain pl → ∃ t, exec (.untimedApply id) s = .next t ∧ regs t ∧
        counted t ∧ response t [] 0 ∧ holds t (pl.cells.map Prod.fst) pl.cells ∧ ∀ x b, (x, b) ∈ pl.cells → SMap.get [] t.tags (lineOf x) = a.tag) ∧
      (∀ moves, a.act = .read moves → s.canServe a = true → ∃ t, exec (.untimedServe id) s = .next t ∧ KeepsRegsAndMemory s t ∧
        response t (moves.map (fun m => (m.dst, (seen (moves.map Move.src)).byte m.src))) 0 ∧ SeesOwn s a.world (moves.map Move.src) ∧
        ∀ m ∈ moves, ∀ i < 49, SMap.get 0 (SMap.get [] s.tags (lineOf m.src)) i ≤ SMap.get 0 t.clk (49 * a.node + i)) ∧
      (∀ pa n aop v cmp, a.act = .atomic pa n aop v cmp → s.canApply a = true → s.canServe a = true → n ∈ [1, 2, 4, 8] →
        let old := (seen [pa]).load pa n
        ∃ t, exec (.untimedAtomic id) s = .next t ∧ regs t ∧ counted t ∧ response t [] (BitVec.ofNat 64 old) ∧
          holds t [pa] (cellsAt pa n (atomNew aop (8 * n) old (v.toNat % 2 ^ (8 * n)) (cmp.toNat % 2 ^ (8 * n))))) ∧
      (∀ pa k, a.act = .dec pa k → s.canApply a = true → s.canServe a = true →
        ∃ t, exec (.untimedAtomic id) s = .next t ∧ regs t ∧ counted t ∧
          holds t [pa] (cellsAt pa 8 ((BitVec.ofNat 64 ((seen [pa]).load pa 8) - k).toNat))) ∧
      (∀ w b pl, a.act = .push none (some w) b pl → s.canApply a = true → plain pl →
        (∀ x b, (x, b) ∈ pl.cells → x + 1 ≤ w ∨ w + 16 ≤ x) →
        let total := s.load w 4
        let n := s.load (w + 4) 4 + b
        let full := total ≠ 0 ∧ total ≤ n
        ∃ t, exec (.pushArrival id) s = .next t ∧ regs t ∧ counted t ∧ response t [] 0 ∧
          (∀ x b, (x, b) ∈ pl.cells → t.byte x = b) ∧ t.load w 4 = total ∧
          t.load (w + 4) 4 = (if full then n - total else n) % 2 ^ 32 ∧
          t.load (w + 8) 4 = (s.load (w + 8) 4 + if full then 1 else 0) % 2 ^ 32 ∧
          ∀ x, x ∉ pl.cells.map Prod.fst → x < w + 4 ∨ w + 12 ≤ x → t.byte x = s.byte x) ∧
      (∀ w b pl t', a.act = .push (some .sa) w b pl → s.canApply a = true → s.canServe a = true → pl.srcs = [] → pl.cells ≠ [] →
        (s.mergeTags a.node (lineStarts (pl.cells.map Prod.fst))).saArrive (pushCore w pl) pl.cells = .ok t' →
        ∃ t, exec (.saPlaneArrival id) s = .next t ∧ regs t ∧ counted t ∧ response t [] 0 ∧
          (w = none → ∀ x, t.byte x = t'.byte x)) ∧
      (∀ va tier frame, a.act = .move va tier → a.owed = .mig copy → s.canServe a = true → s.migFrame a.core va.toNat = some frame →
        ∃ t, exec (.untimedServe id) s = .next t ∧ KeepsRegsAndMemory s t ∧
          ∀ d i, (s.core d).world = a.world → ∀ w, (i, w) ∈ (s.core d).windows → w.v = true → w.pbase ≤ frame →
            frame + 0x200000 ≤ w.pbase + 0x200000 * (w.size + 1) → (i, { w with mig := true }) ∈ (t.core d).windows)) ∧
    (∀ pa pl, waits → s.refusal a = some pa → a.act = .write pl → s.canApply a = true → ∃ t, exec (.untimedApply id) s = .next t ∧
      KeepsRegsAndMemory s t ∧ counted t ∧ t.access id = some { a with act := .read [], err := true } ∧
      ((s.die (addrDie pa)).log.length < 64 → ∃ e, (t.die (addrDie pa)).log = (s.die (addrDie pa)).log ++ [e] ∧ e.kind = 9 ∧
        e.addr = BitVec.ofNat 64 pa)) ∧
    (∀ va, a.err = true → a.act = .read [] → a.owed = .store va → a.core < 512 → s.keeps a.frond a.core a.ctx = true →
      (s.ctx a.core a.ctx).remote = none → ∃ t, exec (.errorResponseArrival id) s = .next t ∧ KeepsRegsAndMemory s t ∧
        t.access id = none ∧ (t.ctx a.core a.ctx).remote = some { count := 0, xval := va }) ∧
    (∀ cp ch, c.copies.find? (fun x => decide (x.id = copy)) = some cp → c.chunk copy chunk = some ch → ch.waiting = 0 →
      ch.failed = false → cp.store = true → cp.mig = none →
      let bit := bufAddr core .xb (cp.cbm + chunk / 8)
      ∃ t, exec (.untimedChunkComplete core ctx copy chunk) s = .next t ∧ regs t ∧
        t.byte bit = s.byte bit ||| BitVec.ofNat 8 (2 ^ (chunk % 8)) ∧ (∀ x, x ≠ bit → t.byte x = s.byte x) ∧
        ∀ k < 4, (t.ctx core k).latch = true) ∧
    (∀ g r, c.fences = g :: r → (∀ y ∈ c.fences, y.err = false) → (∀ n ∈ g.set, s.pendingReq core ctx n = false) →
      ∃ t, exec (.fenceComplete core ctx) s = .next t ∧ KeepsRegsAndMemory s t ∧
        (t.ctx core ctx).fences = c.fences.filter (fun y => decide (y.id ≠ g.id)) ∧
        ∀ h ∈ c.heldev, h.fences = [g.id] → ({ h with fences := [], rel := some (s.now + 1) } : HeldEv) ∈ (t.ctx core ctx).heldev) ∧
    (∀ m, s.migOf core ctx copy = some m → m.marked = true → (∀ y ∈ s.posted, y.id ∉ m.writes) →
      ∃ t, exec (.migrationWritesApplied core ctx copy) s = .next t ∧ KeepsRegsAndMemory s t ∧
        t.migOf core ctx copy = some { m with applied := true }) ∧
    (∀ m i w, s.faulty = [] → s.migOf core ctx copy = some m → m.applied = true → (i, w) ∈ (s.core core).windows → w.v = true →
      w.vbase = m.va.toNat → (∀ j z, (j, z) ∈ (s.core core).windows → z.v = true → z.vbase = m.va.toNat → z = w) →
      ∃ t, exec (.migrationCopyDone core ctx copy none) s = .next t ∧ KeepsRegsAndMemory s t ∧
        (i, { w with mig := false }) ∈ (t.core core).windows)

/-! ### Contexts, traps and code pages (6, 13, 14) -/

/-- R274 to R276 and R290 to R293: a pre-emption request is latched, or refused and logged where the context does not accept it; a resumption makes
a suspended context READY; a save begins to drain it, and once drained writes its area and zeroises its registers, SAVED; a restore
takes the area back, PREEMPTED, each unless the core is fenced (R136). A request in a freeze is latched for the freeze's end (log 22); a restore sets
the event latch (log 49); what of the area another world wrote last is as this world sees it (log 12). -/
def Obligations.ContextControl : Prop :=
  ∀ (s : State) (core ctx : Nat),
    let c := s.ctx core ctx
    let d := coreDie core
    let base := (s.core core).savebase
    let area := (base.toNat / 2 ^ 22 % 2 ^ 26) * 2 ^ 22 + 0x10000 * ctx
    let w := (s.core core).world
    let lines := (List.range 0x400).map (fun i => area + 64 * i)
    let saved := s.seenBy w lines
    let runs (i : Instr) (ok : State → Ctx → Prop) : Prop := ∃ t, exec i s = .next t ∧ ok t (t.ctx core ctx)
    let refused (i : Instr) : Prop := (s.die d).log.length < 64 → runs i (fun t _ => KeepsRegsAndMemory s t ∧
      ∃ e, (t.die d).log = (s.die d).log ++ [e] ∧ e.kind = 0x0A ∧ e.addr = BitVec.ofNat 64 (2 ^ 24 * d + 0x200 + 8 * (core % 16)))
    let fenced := (s.core core).fenced
    let suspended : Prop := (c.st = .trapped ∨ c.st = .preempted) ∧ c.pre = none
    (c.st = .ready ∨ c.st = .running ∨ c.st = .blocked → c.pre = none → (ctx ≠ 0 ∨ s.almanacOn core = none) →
      runs (.contextPreempt core ctx) (fun t x => KeepsRegsAndMemory s t ∧ x.st = c.st ∧
        x.pre = some (Max.max s.now (s.frond c.frond).freezeEnd))) ∧
    (c.st = .idle ∨ c.st = .trapped ∨ c.st = .preempted ∨ c.st = .saved → refused (.contextPreempt core ctx)) ∧
    (suspended → c.saving = false → c.restoring = false → c.preResume = false →
      runs (.contextResume core ctx) (fun t x => KeepsRegsAndMemory s t ∧ x.st = .ready ∧ x.record = c.record ∧ x.point = c.point) ∧
      (base.toNat % 2 ^ 22 = 0 → fenced = false → runs (.contextSave core ctx) (fun t x => KeepsRegsAndMemory s t ∧ x.st = c.st ∧ x.saving = true))) ∧
    (c.st = .saved → c.restoring = false → fenced = false → base.toNat % 2 ^ 22 = 0 → c.savedAt = some base →
      runs (.contextRestore core ctx) (fun t x => KeepsRegsAndMemory s t ∧ x.st = .saved ∧ x.restoring = true)) ∧
    (fenced = true → refused (.contextSave core ctx) ∧ refused (.contextRestore core ctx)) ∧
    (c.pre = none → c.st = .saved → refused (.contextSave core ctx) ∧ refused (.contextResume core ctx)) ∧
    (c.st ≠ .saved → refused (.contextRestore core ctx)) ∧
    (c.saving = true → fenced = false → s.drained core ctx = true → SMap.wf 0 c.g = true → ctx < 4 → core < 512 →
      runs (.contextSaveDone core ctx) (fun t x => x.st = .saved ∧ x.saving = false ∧ x.savedAt = some base ∧
        x.g = [] ∧ x.a = [] ∧ x.v = [] ∧ x.m = [] ∧ x.y = [] ∧ x.q = [] ∧ x.p = 0 ∧ x.record = [] ∧
        (∀ n, 1 ≤ n → n < 64 → t.load (area + 0x100 + 8 * n) 8 = (SMap.get 0 c.g n).toNat) ∧
        t.load area 8 = c.point.token.toNat ∧ t.load (area + 0x48) 8 = c.xcnt.toNat ∧
        ((∀ b ∈ s.ctxArea core ctx, b.1 < 0x10000) → ∀ a, a < area ∨ area + 0x10000 ≤ a → t.byte a = s.byte a))) ∧
    (c.restoring = true → fenced = false → s.faulty = [] → ctx < 4 → core < 512 → runs (.contextRestoreDone core ctx) (fun t x =>
      x.st = .preempted ∧ x.restoring = false ∧ x.latch = true ∧
      SeesOwn s w lines ∧
      (∀ n, 1 ≤ n → n < 64 → SMap.get 0 x.g n = BitVec.ofNat 64 (saved.load (area + 0x100 + 8 * n) 8)) ∧
      (∀ n < 16, SMap.get 0 x.a n = BitVec.ofNat 64 (saved.load (area + 0x300 + 8 * n) 8)) ∧
      (∀ n < 64, SMap.get 0 x.v n = if 16 ≤ n ∧ (x.bankOf (n / 16)).st = .off then 0
        else BitVec.ofNat 1024 (saved.load (area + 0x800 + 128 * n) 128)) ∧
      x.xtok = BitVec.ofNat 64 (saved.load (area + 0x40) 8) ∧
      ∀ a, a < bufAddr core .spb (0x2000 * ctx) ∨ bufAddr core .spb (0x2000 * ctx) + 0x2000 ≤ a → t.byte a = s.byte a))

/-- R280, R282, R287 and R148: a precise trap commits nothing of its bundle. The context enters TRAPPED with the trap's cause, value, count of further
failures and the name of the bundle in xcause, xval, xcnt and xtok; every result in flight enters the pending-write record with what remains of its latency, those that land in the trap's cycle too,
whose registers have their prior values back (log 22), as a bank has its contents that left ON with the last of them; no other register of
its own, no other context and no byte of memory changes; the core gives another context the issue position from the next cycle (log 23);
and the die's management core has its notice. -/
def Obligations.TrapsHoldTheContext : Prop :=
  ∀ (s : State) (core ctx cause : Nat) (xval xcnt : Word), cause < 256 →
    let c := s.ctx core ctx
    (∀ k l, 1 ≤ k → k ≤ 3 → (c.bankOf k).left = some l → SMap.wf 0 l = true ∧ ∀ e ∈ l, inBank k e.1 = true) →
    let prior (f : RFile) (n : Nat) : Option Vec :=
      (c.inflight.find? (fun r => r.old.isSome && decide (r.file = f ∧ r.reg = n))).bind Result.old
    let back {m : Nat} (v : Option Vec) (w : BitVec m) : BitVec m := (v.map (fun v => v.setWidth m)).getD w
    let bank (n : Nat) : SMap Vec := (if n < 16 then none else (c.bankOf (n / 16)).left).getD c.v
    let t := s.takeTrap core ctx cause xval xcnt
    let x := t.ctx core ctx
    x.st = .trapped ∧ x.xcause = BitVec.ofNat 64 cause ∧ x.xval = xval ∧ x.xcnt = xcnt ∧ x.point = c.point ∧
    (∀ page base land off, c.point = .inside page base land off →
      x.xtok = BitVec.ofNat 64 (page * 2 ^ 24 + land * 2 ^ 16 + off)) ∧
    (∀ page idx kind, c.point = .entry page idx kind → x.xtok = BitVec.ofNat 64 (page * 2 ^ 24 + idx * 2 ^ 16)) ∧
    x.inflight = [] ∧ x.record = c.record ++ c.inflight.map (fun r => { r with due := r.due - s.now, old := none, ready := r.due }) ∧
    (∀ n, SMap.get 0 x.g n = if n = 0 then SMap.get 0 c.g 0 else back (prior .g n) (SMap.get 0 c.g n)) ∧
    (∀ n, SMap.get 0 x.a n = back (prior .a n) (SMap.get 0 c.a n)) ∧ (∀ n, SMap.get 0 x.m n = back (prior .m n) (SMap.get 0 c.m n)) ∧
    (∀ n < 16, x.p.getLsbD n = if n = 0 then c.p.getLsbD 0 else ((prior .p n).map (fun v => v.getLsbD 0)).getD (c.p.getLsbD n)) ∧
    (∀ n < 64, SMap.get 0 x.v n = (prior .v n).getD (SMap.get 0 (bank n) n)) ∧
    (∀ k, 1 ≤ k → k ≤ 3 → (x.bankOf k).st = if (c.bankOf k).left.isSome then .on else (c.bankOf k).st) ∧
    ((∀ r ∈ c.inflight, r.old = none) → (∀ k, (c.bankOf k).left = none) →
      x.g = c.g ∧ x.a = c.a ∧ x.p = c.p ∧ x.v = c.v ∧ x.m = c.m) ∧ x.y = c.y ∧ x.q = c.q ∧ x.owed = c.owed ∧
    x.ltrip = c.ltrip ∧ x.lpass = c.lpass ∧ x.lrot = c.lrot ∧ x.loop = c.loop ∧ x.armed = c.armed ∧
    x.ywrites = c.ywrites ∧ x.staged = {} ∧ x.popped = [] ∧
    (∀ d k, (d, k) ≠ (core, ctx) → t.ctx d k = s.ctx d k) ∧ t.mem = s.mem ∧ t.calendar = s.calendar ∧ t.posted = s.posted ∧
    t.hub.queue = s.hub.queue ++ [.trapNotice core ctx] ∧
    ((s.core core).running = some ctx →
      (t.core core).running = none ∧ (t.core core).lastLeft = ctx ∧ (t.core core).nextIssue = s.now + 1) ∧
    (∀ tau, let u := { t.resume core ctx with now := tau }
      (u.ctx core ctx).st = .ready ∧
      ((u.core core).nextIssue ≤ tau → ((u.take core ctx).ctx core ctx).inflight =
        x.record.map (fun r => { r with due := r.due + tau }) ∧ ((u.take core ctx).core core).running = some ctx))

/-- R123, R297 to R299, R311, R386 and R462: the instruction store takes a syllable of a frame that is not valid, the directory an entry that passes its
checks, clearing CUR of the page's other versions, and each refuses the rest, logged; Freino places a version for an entry trap and resumes the
contexts trapped there, or aborts the frond of a sealed page; a wait of 65,536 frames aborts its frond. -/
def Obligations.PagesAndTimeouts : Prop :=
  ∀ (s : State) (core ctx frame o : Nat) (v : Syllable) (w : Word),
    let e := s.core core
    let d := coreDie core
    let c := s.ctx core ctx
    let logs (i : Instr) (a : Word) : Prop := (s.die d).log.length < 64 → ∃ t x, exec i s = .next t ∧ KeepsRegsAndMemory s t ∧
      t.core core = e ∧ (t.die d).log = (s.die d).log ++ [x] ∧ x.kind = 0x0A ∧ x.addr = a
    let aborts (i : Instr) (cls detail : Nat) : Prop := (s.frond c.frond).bound = true → (s.frond c.frond).ended = false →
      (s.frond c.frond).abort = none → ∃ t, exec i s = .next t ∧ (t.frond c.frond).abort = some (0x10, cls * 256 + detail) ∧
        (t.frond c.frond).running = [] ∧ (t.frond c.frond).pending = []
    let page := w.toNat % 2 ^ 40
    (frame < 64 → o < 1024 → (SMap.get {} e.dir frame).v = false → ∃ t, exec (.instructionStoreWrite core frame o v) s = .next t ∧
      KeepsRegsAndMemory s t ∧ (t.core core).syl frame o = v ∧
      ∀ f i, i < 1024 → (f, i) ≠ (frame, o) → (t.core core).syl f i = e.syl f i) ∧
    ((SMap.get {} e.dir frame).v = true ∨ 64 ≤ frame ∨ 1024 ≤ o → logs (.instructionStoreWrite core frame o v)
      (BitVec.ofNat 64 (2 ^ 24 * d + (0x800000 + 0x40000 * (core % 16) + 0x1000 * frame + 4 * o)))) ∧
    (e.dirOk frame w = true → ∃ t, exec (.directoryWrite core frame w) s = .next t ∧ KeepsRegsAndMemory s t ∧
      let x := SMap.get {} (t.core core).dir frame
      x.page = page ∧ x.v = w.getLsbD 40 ∧ x.cur = w.getLsbD 41 ∧ x.cont = w.getLsbD 42 ∧ x.sealed = false ∧
      ∀ f, f ≠ frame → let y := SMap.get {} e.dir f
        SMap.get {} (t.core core).dir f =
          if w.getLsbD 40 && w.getLsbD 41 && !w.getLsbD 42 && y.v && !y.cont && decide (y.page = page) then { y with cur := false } else y) ∧
    (e.dirOk frame w = false → logs (.directoryWrite core frame w)
      (BitVec.ofNat 64 (2 ^ 24 * d + (0x4000 + 0x200 * (core % 16) + 8 * frame)))) ∧
    (c.st = .trapped → c.xcause = 0x11 ∨ c.xcause = 0x12 → ∀ p idx kind, c.point = .entry p idx kind → (s.frond c.frond).kind ≠ .almanac →
      ((∃ y ∈ (s.world e.world).cpt, y.page = p ∧ y.sealed = true) → aborts (.freinoEntryTrap core ctx) 5 3) ∧
      (∀ y, (s.world e.world).cpt = [y] → y.page = p → p < 2 ^ 40 → y.sealed = false → y.tag = s.tag core →
        let n := 1 + ((s.image y).getD 2 0).toNat / 256 % 4
        n ≤ ((List.range 64).filter (fun f => !(SMap.get {} e.dir f).v)).length → e.dir = [] →
        ∃ t, exec (.freinoEntryTrap core ctx) s = .next t ∧ (t.ctx core ctx).st = .ready ∧ (t.ctx core ctx).g = c.g ∧
          (t.core core).current p = some (e.cursor % 64) ∧ ∀ a, t.byte a = s.byte a)) ∧
    (c.st = .blocked → 65536 ≤ s.gtick.toNat - c.since.toNat →
      (∀ lev, c.wait = [.barrier lev] → aborts (.barrierTimeout core ctx) 2 2) ∧
      (∀ pa m, c.wait = [.cwait pa m] → aborts (.waitTimeout core ctx) 3 0) ∧
      (c.wait = [.wfe] → aborts (.waitTimeout core ctx) 3 0) ∧
      (c.wait = [.sigWait] → aborts (.waitTimeout core ctx) 3 0))

/-! ### Command queues and packets (4 R81 to R107) -/

/-- R87, R90, R91, R93, R95, R97 to R102 and R129: a packet is consumed at HEAD, refused as MALFORMED where it breaks a rule, started when it may,
and does what its opcode says; when its work is done it writes its status word and leaves. A PRED is consumed with the packets of its arms,
and waits while they are not all there; a KEY packet's bytes in the ring are overwritten with zero. A MALFORMED packet puts its queue in
ERROR at once, also a LAUNCH while no entry is FREE (log 82). A launch or an almanac whose record is right takes an entry, which is PENDING,
before another packet is consumed. That a packet is judged MALFORMED, then PRIV, then STATE is log 36; that an almanac image which breaks a
rule makes its packet MALFORMED is log 26. -/
def Obligations.PacketsRun : Prop :=
  ∀ (s u : State) (id w q i pa : Nat) (p : Packet) (l : List Byte),
    let f (lo n : Nat) : Nat := p.bits.toNat / 2 ^ (8 * lo) % 2 ^ (8 * n)
    let ends (x : Instr) (status aux : Nat) : Prop := ∃ t r, exec x s = .next t ∧ KeepsRegsAndMemory s t ∧ t.packet id = some r ∧
      r.st = .done ∧ r.status = status ∧ r.aux = aux ∧ r.bits = p.bits
    let posts (x : Instr) (act : Act) (ok : Packet → Prop) : Prop := ∃ t r y, exec x s = .next t ∧ KeepsRegsAndMemory s t ∧
      t.accesses = s.accesses ++ [y] ∧ y.act = act ∧ y.owed = .packet id ∧ y.node = 0 ∧ t.packet id = some r ∧ r.waiting = p.waiting + 1 ∧ ok r
    let runs (opc : Nat) : Prop := p.st = .running ∧ pkOpc p.bits = opc ∧ p.acted = false
    let signed (n : Nat) : Int := (BitVec.ofNat 64 n).toInt
    -- consumption
    (let x := s.queueAt w q
     let slot (j : Nat) : Nat := x.base.toNat + 64 * ((x.head.toNat + j) % 2 ^ x.log2n)
     x.present = true → x.error = false → x.head ≠ x.tail → s.consumes w q = true → s.feRead w (slot 0) 64 = .ok l u →
      let b := BitVec.ofNat 512 (leNat l)
      let taken (t : State) (r : Packet) (good : Bool) (n : Nat) : Prop :=
        t.packets = s.packets ++ [r] ∧ r.bits = b ∧ r.world = w ∧ r.queue = q ∧ (t.queueAt w q).head = x.head + BitVec.ofNat 32 n ∧
        (good = false → r.st = .done ∧ r.status = 0x0B ∧ (t.queueAt w q).error = true) ∧
        (good = true → s.judge w b = none → (t.queueAt w q).error = false ∧ r.st = if
          pkOpc b ∈ [1, 2, 0x0B] ∨ (pkOpc b = 0x0A ∧ pkField b 24 1 ∈ [1, 2]) ∨ (pkOpc b = 0x0D ∧ pkField b 24 1 = 4) ∨
          (pkOpc b = 0x0F ∧ pkField b 24 1 = 3) then .fresh else .waiting) ∧
        (good = true → s.privOk w b = false → r.st = .done ∧ r.status = 0x09) ∧
        (good = true → s.privOk w b = true → s.stateOk w b = false → r.st = .done ∧ r.status = 0x0A)
      (packetOk b = true → s.freeSlot = none → pkOpc b ∈ [1, 2] → exec (.packetConsume w q) s = .next s) ∧
      ((packetOk b = true → s.freeSlot = none → pkOpc b ∉ [1, 2]) → pkOpc b ≠ 9 → (pkOpc b = 3 → packetOk b = false) →
        ∃ t r, exec (.packetConsume w q) s = .next t ∧ KeepsRegsAndMemory s t ∧ taken t r (packetOk b) 1) ∧
      (pkOpc b = 3 → packetOk b = true →
        let n := pkField b 49 1 + pkField b 50 1
        ((x.tail - x.head).toNat < 1 + n → exec (.packetConsume w q) s = .next s) ∧
        (∀ as : List (BitVec 512), 1 + n ≤ (x.tail - x.head).toNat → as.length = n →
          (∀ j < n, ∃ m v, u.feRead w (slot (1 + j)) 64 = .ok m v ∧ as[j]? = some (BitVec.ofNat 512 (leNat m))) →
          (∀ a ∈ as, pkOpc a ≠ 9) → ∃ t r, exec (.packetConsume w q) s = .next t ∧ KeepsRegsAndMemory s t ∧
            taken t r (as.all (fun a => packetOk a && decide (pkOpc a ≠ 3))) (1 + n) ∧ r.arms = as)) ∧
      (∀ v, pkOpc b = 9 → s.feAddr w (slot 0) 64 .rd = some pa → (∀ j < 64, ∀ c o, region (pa + j) ≠ .spad c o) →
        u.feWrite w pa (cellsAt pa 64 0) = some v → ∃ t r, exec (.packetConsume w q) s = .next t ∧
          (∀ c k, SameRegs (s.ctx c k) (t.ctx c k)) ∧ (∀ j < 64, t.byte (pa + j) = 0) ∧
          KeepsOthers s t w ((List.range 64).map (fun j => pa + j)) ∧ taken t r (packetOk b) 1)) ∧
    (s.packet id = some p →
      -- starting and leaving
      (s.mayStart p = true → p.arm = false →
        (p.doomed = false → p.acted = false ∨ pkOpc p.bits ∈ [1, 2] → ∃ t, exec (.packetStart id) s = .next t ∧
          KeepsRegsAndMemory s t ∧ t.packet id = some { p with st := .running }) ∧
        (p.doomed = false → p.acted = true → pkOpc p.bits ∉ [1, 2] → ends (.packetStart id) 0 0) ∧
        (p.doomed = true → ends (.packetStart id) 0x10 0x0100)) ∧
      (p.st = .done → p.force = false → p.status = 0 → f 16 8 ≠ 0 → f 16 8 % 8 = 0 → s.feAddr p.world (f 16 8) 8 .wr = some pa →
        posts (.packetComplete id) (.write { cells := cellsAt pa 8 (2 ^ 8 * f 0 1 + 2 ^ 16 * (p.aux % 2 ^ 16) + 2 ^ 32 * f 4 4) })
          (fun r => r.st = .stat)) ∧
      (p.st = .stat → p.waiting = 0 → p.err = false → f 8 8 = 0 → p.entry = none →
        ∃ t, exec (.packetComplete id) s = .next t ∧ KeepsRegsAndMemory s t ∧ t.packet id = none ∧
          ∀ r ∈ t.packets, id ∉ r.edges) ∧
      -- the packets
      (runs 0 → ends (.nop id) 0 0) ∧
      (p.st = .fresh → pkOpc p.bits = 1 → s.freeSlot = some i → s.feRead p.world (f 24 8) 384 = .ok l u →
        if launchOk l (f 32 8) (f 40 8) true then
          ∃ t r, exec (.launch id) s = .next t ∧ KeepsRegsAndMemory s t ∧ t.packet id = some r ∧ r.st = .waiting ∧ r.entry = some i ∧
            let e := t.slot i
            e.st = .pending ∧ e.kind = .launch ∧ e.world = p.world ∧ e.recAddr.toNat = f 24 8 ∧ e.wbase.toNat = f 32 8 ∧
              e.wcnt.toNat = f 40 8 ∧ e.ncore = f 48 2 ∧ e.cls = f 50 1 ∧ e.launch = launchOf l
        else ends (.launch id) 0x12 1) ∧
      (p.st = .fresh → pkOpc p.bits = 2 →
        let start := if f 32 8 = 0 then s.gtick.toNat + 16 else f 32 8
        (start < s.gtick.toNat + 5 → ends (.almanac id) 0x0E 0) ∧
        (s.gtick.toNat + 5 ≤ start → s.freeSlot = some i → s.feRead p.world (f 24 8) 320 = .ok l u → imageOk l = false →
          ends (.almanac id) 0x0B 0) ∧
        (∀ v m, s.gtick.toNat + 5 ≤ start → start < 2 ^ 64 → s.freeSlot = some i → s.feRead p.world (f 24 8) 320 = .ok l u → imageOk l = true →
          u.feRead p.world (f 24 8) (320 + 16 * recNat l 8 2) = .ok m v →
          ∃ t, exec (.almanac id) s = .next t ∧ KeepsRegsAndMemory s t ∧
            let e := t.slot i
            e.st = .pending ∧ e.kind = .almanac ∧ e.world = p.world ∧ e.start.toNat = start ∧ e.limit = f 40 4 ∧ e.image = imageOf m)) ∧
      (runs 3 → s.feRead p.world (f 24 8) 8 = .ok l u →
        let x := BitVec.ofNat 64 (leNat l) &&& BitVec.ofNat 64 (f 32 8)
        let v := BitVec.ofNat 64 (f 40 8)
        let c := match f 48 1 with
          | 0 => decide (x = v) | 1 => decide (x ≠ v) | 2 => decide (x < v) | 3 => decide (v ≤ x)
          | 4 => decide (x.toInt < v.toInt) | _ => decide (v.toInt ≤ x.toInt)
        ∃ t r, exec (.pred id) s = .next t ∧ KeepsRegsAndMemory s t ∧ t.packet id = some r ∧ r.st = .done ∧ r.status = 0 ∧
          r.aux = (if c then 1 else 0) ∧
          ((∀ y ∈ s.packets, y.id < s.seqno ∧ (y.id = id → y = p)) → s.packets.Nodup → ∃ a b arm, s.packets = a ++ p :: b ∧ t.packets = a ++ r :: arm ++ b ∧
            arm.map Packet.bits = (if c then p.arms.take (f 49 1) else p.arms.drop (f 49 1)))) ∧
      (runs 4 → (s.feAddr p.world (f 24 8) 8 .atm = some pa →
          posts (.sigdec id) (.dec pa (BitVec.ofNat 64 (f 32 8))) (fun r => r.acted = true)) ∧
        (s.feAddr p.world (f 24 8) 8 .atm = none → ends (.sigdec id) 0x0D 0)) ∧
      (runs 5 → s.feRead p.world (f 24 8) 8 = .ok l u →
        (signed (leNat l) ≤ signed (f 32 8) → ends (.sigwait id) 0 0) ∧
        (signed (f 32 8) < signed (leNat l) → ∃ t r, exec (.sigwait id) s = .next t ∧ KeepsRegsAndMemory s t ∧ t.packet id = some r ∧
          r.st = .running ∧ r.acted = true ∧ r.until_ = if f 40 4 = 0 then none else some (s.gtick.toNat + f 40 4))) ∧
      (p.st = .running → pkOpc p.bits = 5 → p.acted = true →
        (s.feRead p.world (f 24 8) 8 = .ok l u → signed (leNat l) ≤ signed (f 32 8) → ends (.sigwaitReevaluate id) 0 0) ∧
        (∀ n, p.until_ = some n → n ≤ s.gtick.toNat → ends (.sigwaitTimeout id) 0x11 0)) ∧
      (p.st = .running → pkOpc p.bits = 6 → p.status = 0 → p.err = false → p.progress < f 40 8 →
        let o := p.progress
        (f 48 1 = 1 → s.feAddr p.world (f 32 8 + o) 64 .wr = some pa →
          posts (.copy id) (.write { cells := (List.range 64).map (fun j => (pa + j, BitVec.ofNat 8 (f 49 1))) })
            (fun r => r.progress = o + 64)) ∧
        (f 48 1 = 0 → s.feAddr p.world (f 32 8 + o) 64 .wr = some pa → s.faulty = [] →
          s.feRead p.world (f 24 8 + o) 64 (f 50 1) = .ok l u →
          posts (.copy id) (.write { cells := l.zipIdx.map (fun b => (pa + b.2, b.1)) }) (fun r => r.progress = o + 64)) ∧
        (f 48 1 = 2 → s.feAddr p.world (f 32 8 + o) 64 .atm = some pa → s.faulty = [] →
          s.feRead p.world (f 24 8 + o) 64 (f 50 1) = .ok l u →
          posts (.copy id) (.combine .f32 { cells := l.zipIdx.map (fun b => (pa + b.2, b.1)) }) (fun r => r.progress = o + 64)) ∧
        (s.feAddr p.world (f 32 8 + o) 64 (if f 48 1 = 2 then .atm else .wr) = none →
          ∃ t, exec (.copy id) s = .next t ∧ KeepsRegsAndMemory s t ∧ t.posted = s.posted ∧
            t.packet id = some { p with status := 0x0D })))

/-- R26, R60, R72, R76, R78, R82, R83 and R103 to R107: each command packet has its effect and completes with OK, or with the status of the check it fails: a
second LOADKEY and a world command in the wrong state with STATE, a MEASURE of slots 0 to 15 with ACCESS, a second checkpoint with
BUSY. LOCK, UNLOCK, CFGWR, WORLD GRANT and QUEUE DESTROY act, or are refused, as they are consumed, and complete in their turn (log 37). DOMFORM
asks the policy's members under nonces, then admits those that fit and sends them the secret (log 45). CFGRD posts one write a line. That a
LOADKEY after an ERASELOAD is no second one is log 78, and HEAD and TAIL 0 of a new queue are log 65. -/
def Obligations.CommandsRun : Prop :=
  ∀ (s u : State) (id pa : Nat) (p : Packet) (l : List Byte) (ca : Nat → Nat) (key : BitVec 512) (proofs : List MemberProof) (addr : BitVec 32) (v : Word),
    let f (lo n : Nat) : Nat := p.bits.toNat / 2 ^ (8 * lo) % 2 ^ (8 * n)
    let w := f 25 1
    let wo := s.world w
    let h := s.hub
    let ends (x : Instr) (status : Nat) (ok : State → Prop) : Prop := ∃ t r, exec x s = .next t ∧ t.packet id = some r ∧
      r.st = .done ∧ r.status = status ∧ ok t
    let does (x : Instr) (status : Nat) (ok : State → Prop) : Prop := ends x status (fun t => KeepsRegsAndMemory s t ∧ ok t)
    let runs (opc : Nat) : Prop := p.st = .running ∧ pkOpc p.bits = opc ∧ p.acted = false
    let sub (opc n : Nat) : Prop := runs opc ∧ f 24 1 = n
    let comes (opc : Nat) : Prop := p.st = .fresh ∧ pkOpc p.bits = opc
    let takes (x : Instr) (ok : State → Prop) : Prop := ∃ t, exec x s = .next t ∧
      t.packet id = some { p with st := .waiting, acted := true } ∧ ok t
    let acts (x : Instr) (ok : State → Prop) : Prop := takes x (fun t => KeepsRegsAndMemory s t ∧ ok t)
    let asks : List PolicyEnt := (Config.policyMembers l).filter (fun e => decide (0 < e.member ∧ e.member < 64))
    let fit (e : PolicyEnt) (q : MemberProof) : Prop := q ∈ proofs ∧ admits (SMap.get 0 h.domain.nonces e.member) e q = true
    let fits (e : PolicyEnt) : Prop := ∃ q, fit e q
    s.packet id = some p →
    (runs 7 → h.role = none → (∀ x ∈ s.worlds, x.2.st ≠ .loading) →
      let r : RoleChange := { packet := id, mask := f 24 1, profile := f 25 1, parts := [f 28 1, f 29 1, f 30 1, f 31 1],
                              deadline := f 26 2, accepted := s.gtick.toNat }
      (s.partitionRefused r = none → ∃ t, exec (.partition id) s = .next t ∧ KeepsRegsAndMemory s t ∧ t.hub.role = some r ∧
        ∀ d, 8 ≤ d → d < 40 → (s.die d).st = .compute → (t.die d).st =
          if f 24 1 / 2 ^ ((d - 8) / 8) % 2 = 1 then .draining else .compute) ∧
      (∀ st, s.partitionRefused r = some st → does (.partition id) st (fun t => t.hub.role = none))) ∧
    (runs 8 → (h.ckpt ≠ none → does (.checkpoint id) 1 (fun t => t.hub.ckpt = h.ckpt)) ∧
      (h.ckpt = none → h.role = none → h.domain.phase = .idle → ∃ t c, exec (.checkpoint id) s = .next t ∧ KeepsRegsAndMemory s t ∧
        t.hub.ckpt = some c ∧ c.packet = id ∧ c.step = 2 ∧ c.budget = f 26 2 ∧ c.pmask = f 24 1 ∧ c.incx = decide (f 25 1 = 1) ∧ c.peer = f 32 6 ∧
        c.sbase.toNat = f 40 8)) ∧
    (sub 9 1 → ((s.world p.world).loadkey = none → does (.loadkey id) 0 (fun t =>
        (t.world p.world).loadkey = some (BitVec.ofNat 256 (f 32 32)))) ∧
      ((s.world p.world).loadkey ≠ none → does (.loadkey id) 0x0A (fun _ => True))) ∧
    (sub 9 2 → does (.eraseload id) 0 (fun t => (t.world p.world).loadkey = none)) ∧
    (sub 9 3 → (h.domain.formed = true → does (.domform id proofs) 0x0A (fun _ => True)) ∧
      (h.domain.formed = false → s.readPolicy p.world (f 32 8) = .ok l u → ∃ t, exec (.domform id proofs) s = .next t ∧
        KeepsRegsAndMemory s t ∧ t.packet id = some { p with acted := true } ∧ t.hub.domain.formed = false ∧
        t.hub.domain.policy = asks ∧ t.hub.sent = h.sent ++ asks.map (fun e =>
          .control e.member 0 (.attest (SMap.get 0 t.hub.domain.nonces e.member))))) ∧
    (p.st = .running → pkOpc p.bits = 9 → f 24 1 = 3 → p.acted = true → h.domain.formed = false → does (.domform id proofs) 0 (fun t =>
        let d := t.hub.domain
        d.formed = true ∧ d.number = f 40 2 ∧ d.kgen = 1 ∧ d.phase = .idle ∧
        (∀ m, (SMap.get {} d.peers m).present = true ↔ ∃ e ∈ h.domain.policy, e.member = m ∧ fits e) ∧
        (∀ m, let x := SMap.get {} d.peers m
          x.present = true → .control m x.session (.secret 1 d.secret) ∈ t.hub.sent ∧
            ∃ e ∈ h.domain.policy, ∃ q, e.member = m ∧ fit e q ∧ x.session = q.session) ∧
        ∀ e ∈ h.domain.policy, ¬ fits e → .notAdmitted e.member ∈ t.hub.queue)) ∧
    (sub 9 4 → (h.domain.formed = true → f 40 2 = h.domain.number → h.domain.phase = .idle → does (.domrekey id) 0 (fun t =>
        t.hub.domain.phase = .quiesce ∧ t.hub.domain.target = h.domain.kgen + 1 ∧ (h.domain.coordinator = h.domain.self → t.hub.sent = h.sent ++
          h.domain.others.map (fun m => .control m (SMap.get {} h.domain.peers m).session
            (.quiesce h.domain.kgen h.domain.timeout))))) ∧
      (h.domain.formed = false → does (.domrekey id) 0x0A (fun _ => True))) ∧
    (comes 0x0A → f 24 1 = 1 → h.ifs = .config → s.partitioning = false → (∀ k < 4, s.part k ≠ 0) →
      if f 32 8 < s.gtick.toNat + 2 then does (.ifstLock id) 0x0E (fun t => t.hub.ifs = .config)
      else acts (.ifstLock id) (fun t => t.hub.ifs = .locked ∧ t.hub.lockTick = some (BitVec.ofNat 64 (f 32 8)))) ∧
    (comes 0x0A → f 24 1 = 2 → h.ifs = .locked → acts (.ifstUnlock id) (fun t => t.hub.ifs = .config ∧ t.hub.lockTick = none)) ∧
    (comes 0x0A → f 24 1 = 2 → h.ifs ≠ .locked → does (.ifstUnlock id) 0x0A (fun t => t.hub.ifs = h.ifs)) ∧
    (sub 0x0A 3 → does (.ifstRelease id) (if h.ifs = .run then 0 else 0x0A) (fun t =>
      t.hub.ifs = if h.ifs = .run then .drain else h.ifs)) ∧
    (comes 0x0B → ∀ a x, f 24 1 = 1 → f 28 4 = a → BitVec.ofNat 64 (f 32 8) = x →
      (∀ c, cfgReg a = .savebase c → acts (.cfgwr id) (fun t => (t.core c).savebase = x &&& 0xFFFFFFFFFFFF)) ∧
      (cfgReg a = .unmapped → does (.cfgwr id) 0x0C (fun t => ∀ c, t.core c = s.core c))) ∧
    (runs 0x0C → let n := f 24 1
      (∀ i < n, cfgReg (f (28 + 4 * i) 4) = .savebase (ca i)) → s.feAddr p.world (f 40 8) (8 * n) .wr = some pa →
      ∃ (t : State) (acts : List Access) (parts : List (List Host.Cell)), exec (.cfgrd id) s = .next t ∧ KeepsRegsAndMemory s t ∧ t.accesses = s.accesses ++ acts ∧
        (∀ y ∈ acts, y.owed = .packet id ∧ y.node = 0) ∧ acts.map Access.act = parts.map (fun c => Act.write { cells := c }) ∧
        parts.flatten = (List.range n).flatMap (fun i => cellsAt (pa + 8 * i) 8 (s.core (ca i)).savebase.toNat) ∧
        ∀ c ∈ parts, ∀ x ∈ c, ∀ y ∈ c, lineOf x.1 = lineOf y.1) ∧
    (∀ c, cfgReg addr.toNat = .savebase c → ∃ t, exec (.configRegisterWrite addr v) s = .next t ∧ KeepsRegsAndMemory s t ∧
      (t.core c).savebase = v &&& 0xFFFFFFFFFFFF) ∧
    (sub 0x0D 1 → w ≠ 0 → (wo.st = .empty → does (.worldCreate id key) 0 (fun t => let x := t.world w
        x.st = .loading ∧ x.key = some key ∧ x.confidential = decide (f 26 1 = 1) ∧ x.cred = BitVec.ofNat 128 (f 48 16) ∧
        (t.queueAt w 0).present = true ∧ (t.queueAt w 0).base = BitVec.ofNat 64 (f 32 8) ∧ (t.queueAt w 0).log2n = f 40 1)) ∧
      (wo.st ≠ .empty → does (.worldCreate id key) 0x0A (fun t => t.world w = wo))) ∧
    (sub 0x0D 2 → w ≠ 0 → (wo.st = .ready → does (.worldDrain id) 0
        (fun t => (t.world w).st = .draining ∧ ∀ i, (s.slot i).st = .pending → (s.slot i).world = w → (t.slot i).st = .free)) ∧
      (wo.st ≠ .ready → does (.worldDrain id) 0x0A (fun t => t.world w = wo))) ∧
    (comes 0x0D → f 24 1 = 4 → wo.st = .loading → wo.step < 8 → s.feRead 0 (f 32 8) 64 = .ok l u →
      ((∀ c < 512, (leNat l).testBit c = true → s.computes (8 + c / 16) = true ∧ (s.core c).fenced = false ∧ (s.core c).granted = false) →
        takes (.worldGrant id) (fun t => ∀ c < 512, (leNat l).testBit c = true →
          (t.core c).granted = true ∧ (t.core c).world = w ∧ (t.core c).ctxs = [] ∧
            ∀ b, b < 0x200000 → t.byte (bufAddr c .wb b) = 0)) ∧
      (∀ c < 512, (leNat l).testBit c = true → (s.core c).granted = true → ends (.worldGrant id) 4 (fun t => KeepsRegsAndMemory s t))) ∧
    (wo.st = .draining → s.worldIdle w = true → w ≠ 0 → ∃ t, exec (.worldDrainComplete w) s = .next t ∧
      (t.world w).st = .empty ∧ (t.world w).key = none ∧ ∀ c, (s.core c).granted = true → (s.core c).world = w →
        (t.core c).granted = false ∧ (t.core c).ctxs = []) ∧
    (runs 0x0E → (f 32 1 < 16 → does (.measure id) 0x0C (fun t => t.hub.msl = h.msl)) ∧
      (16 ≤ f 32 1 → s.feRead p.world (f 24 8) 48 = .ok l u → does (.measure id) 0 (fun t => ∀ i, SMap.get 0 t.hub.msl i =
        if i = f 32 1 then sha384 (leBytes 48 (SMap.get 0 h.msl i).toNat ++ l) else SMap.get 0 h.msl i))) ∧
    (sub 0x0F 1 → if (s.queueAt p.world w).present then does (.queueCreate id) 0x0A (fun t => t.world p.world = s.world p.world)
      else does (.queueCreate id) 0 (fun t => (t.queueAt p.world w).present = true ∧
        (t.queueAt p.world w).base = BitVec.ofNat 64 (f 32 8) ∧ (t.queueAt p.world w).log2n = f 26 1 ∧ (t.queueAt p.world w).head = 0)) ∧
    (sub 0x0F 2 → (s.queueAt p.world w).present = true → does (.queueReset id) 0 (fun t => (t.queueAt p.world w).error = false ∧
      (t.queueAt p.world w).head = BitVec.ofNat 32 (f 40 4) ∧ (t.queueAt p.world w).tail = BitVec.ofNat 32 (f 40 4))) ∧
    (comes 0x0F → f 24 1 = 3 → (s.queueAt p.world w).present = true → ∃ t, exec (.queueDestroy id) s = .next t ∧
      KeepsRegsAndMemory s t ∧ (t.queueAt p.world w).present = false ∧
      t.packet id = some { p with st := .waiting, acted := true, orphan := p.orphan || decide (p.queue = w) } ∧
      ∀ r ∈ s.packets, r.id ≠ id → r.world = p.world → r.queue = w → r.st = .waiting →
        ∃ q ∈ t.packets, q.id = r.id ∧ q.st = .done ∧ q.status = 0x0A)

/-! ### The scheduler (5 R110 to R132) -/

/-- R110 to R112, R116 to R119, R124 and R125: the lease is granted with a new epoch while none is held, or to a claim that goes before the one it
was granted on, and renewed by its holder's epoch; a bind record takes words
while its entry is PENDING; a commit under the present epoch binds the frond if the record passes, or completes its work with the
failed check, and the entry's bytes stay; a commit after an almanac's tick S − 4 is late; fronds start at their tick, items take free contexts with their pc, wid and g1 to g4, and at the tick after a frond's end, or its abort,
its resources are free, what an aborted one still has to complete going on. That a later claim of lower rank takes the lease from the one
granted, with a new epoch, is the model's (log 68). -/
def Obligations.FrondsAndLease : Prop :=
  ∀ (s : State) (i word fr c k : Nat) (v : Word) (die : BitVec 8) (epoch : BitVec 32),
    let h := s.hub
    let e := s.slot i
    let f := s.frond fr
    let free : Prop := h.holder = 0xFF
    let may : Prop := die ≠ 0xFF ∧ (free ∨ s.outranks die.toNat = true)
    let late : Prop := e.kind = .almanac ∧ (e.start.toNat - 4) * 1024 < s.now
    let does (x : Instr) (ok : State → Prop) : Prop := ∃ t, exec x s = .next t ∧ KeepsRegsAndMemory s t ∧ ok t
    let logs (x : Instr) (a : Nat) : Prop := (s.die 0).log.length < 64 → does x (fun t => ∃ y, (t.die 0).log = (s.die 0).log ++ [y] ∧
      y.kind = 0x0A ∧ y.addr = BitVec.ofNat 64 a ∧ t.hub = h)
    let refused (x : Instr) : Prop := (s.die 0).log.length < 64 → does x (fun t => ∃ y, (t.die 0).log = (s.die 0).log ++ [y] ∧
      y.kind = 0x0A ∧ y.addr = 0x100 ∧ y.srccore = 0xFFFF ∧ y.srcdie = die.toNat ∧ t.hub = h)
    (let grants (x : Instr) : Prop := does x (fun t => t.hub.holder = die.toNat ∧ t.hub.epoch = (h.epoch + 1) % 2 ^ 32 ∧
        t.hub.queue = h.queue ++ [.leader die.toNat ((h.epoch + 1) % 2 ^ 32)])
      let renews : Prop := die ≠ 0xFF ∧ h.holder = die.toNat ∧ h.epoch = epoch.toNat
      (may → grants (.leaseClaim die)) ∧ (¬ may → refused (.leaseClaim die)) ∧
      (renews → exec (.leaseRenew die epoch) s = .next s) ∧ (¬ renews → may → grants (.leaseRenew die epoch)) ∧
      (¬ renews → ¬ may → refused (.leaseRenew die epoch))) ∧
    does .leaseExpiry (fun t => t.hub.holder = 0xFF ∧ t.hub.epoch = h.epoch) ∧
    (i < 256 → word < 8 → (e.st = .pending → does (.bindRecordWrite i word v) (fun t => (t.slot i).word word = v ∧
        (t.slot i).st = .pending ∧ ∀ n, n ≠ word → (t.slot i).word n = e.word n)) ∧
      (e.st ≠ .pending → logs (.bindRecordWrite i word v) (0x10000 + 64 * i + 8 * word))) ∧
    (i < 256 → v.getLsbD 0 = true → v.toNat / 2 % 2 ^ 31 = 0 → e.st = .pending → ¬ free → v.toNat / 2 ^ 32 = h.epoch →
      (e.word 7).toNat = h.epoch → s.entryStarted i = true → h.role = none → h.ckpt = none →
      (late → does (.commit i v) (fun t => (t.slot i).st = .free ∧
        ∀ p ∈ s.packets, p.entry = some i → ∃ q ∈ t.packets, q.id = p.id ∧ q.st = .done ∧ q.status = 0x0E)) ∧
      (∀ aux, ¬ late → s.checkRecord e = .error aux → does (.commit i v) (fun t => (t.slot i).st = .free ∧
        (∀ n, (t.slot i).word n = e.word n) ∧
        ∀ p ∈ s.packets, p.entry = some i → ∃ q ∈ t.packets, q.id = p.id ∧ q.st = .done ∧ q.status = 0x12 ∧ q.aux = aux)) ∧
      (∀ cores t', s.checkRecord e = .ok (cores, t') → e.kind = .launch → does (.commit i v) (fun t =>
        let n := e.field 2 2
        let x := t.frond n
        (t.slot i).st = .bound ∧ (t.slot i).frond = n ∧ x.bound = true ∧ x.started = false ∧ x.cores = cores ∧
          x.world = e.world ∧ x.ctxm = e.field 8 1 ∧ x.start = (s.now + 4096 + 1023) / 1024 ∧
          x.pending = idRanges e.wbase.toNat e.wcnt.toNat ∧ s.linkSlotsFor cores (e.field 9 1) = some x.linkSlots ∧
          s.memSlotsFor cores (e.field 10 1) = some x.memSlots ∧ ∀ d ∈ cores, (t.core d).windows = t'))) ∧
    (i < 256 → v.toNat / 2 ^ 32 ≠ h.epoch → logs (.commit i v) (0x14000 + 8 * i)) ∧
    (e.st = .pending → e.kind = .almanac → (e.start.toNat - 4) * 1024 < s.now → does (.almanacBindDeadline i) (fun t =>
      (t.slot i).st = .free ∧ ∀ p ∈ s.packets, p.entry = some i → ∃ q ∈ t.packets, q.id = p.id ∧ q.st = .done ∧ q.status = 0x0E)) ∧
    (f.bound = true → f.started = false → f.kind = .almanac → f.start * 1024 ≤ s.now →
      does (.almanacStart fr) (fun t => (t.frond fr).started = true ∧ (t.frond fr).base = s.now)) ∧
    (s.startDue fr = true → does (.frondStart fr) (fun t => (t.frond fr).started = true ∧ (f.freezeEnd ≤ s.now →
      t.dtime fr = (f.start : Int) * 1024 - f.base - f.frozen))) ∧
    (∀ a, (s.core c).armedAt = some a → (s.ctx c 0).record = [] → ∃ t, exec (.armedStart c) s = .next t ∧
      (t.core c).armedAt = none ∧ (t.core c).running = some 0 ∧ (t.core c).nextIssue = s.now ∧ (t.ctx c 0).st = .running ∧
      (∀ j, j ≠ 0 → (s.core c).running = some j → (∃ x ∈ (s.core c).ctxs, x.1 = j) → (t.ctx c j).st = .ready) ∧
      KeepsRegsAndMemory s t) ∧
    (f.bound = true → f.ended = false → f.abort = none → f.kind = .almanac → (∃ d ∈ f.cores, d ∉ f.halted) → ∀ n, f.limit = some n →
      n * 1024 ≤ s.now → ∃ t, exec (.almanacLimitExpiry fr) s = .next t ∧ (t.frond fr).abort = some (0x11, 0) ∧ ∀ a, t.byte a = s.byte a) ∧
    (s.itemDue fr = true → f.rlev = 0 → ∀ n m, f.pending = [(n, 1)] → (s.freeCtxs fr).head? = some (c, k) → m = (s.slot f.entry).launch.entry →
      ∃ t, exec (.itemStart fr) s = .next t ∧ (∀ a, t.byte a = s.byte a) ∧
        let x := t.ctx c k
        let y := s.ctx c k
        x.st = .ready ∧ x.wid = BitVec.ofNat 64 n ∧ x.wlay = f.wlay ∧
        x.point = .entry (m.toNat / 2 ^ 24) (m.toNat / 2 ^ 16 % 2 ^ 8) 1 ∧
        (∀ j, SMap.get 0 x.g j = if 1 ≤ j ∧ j ≤ 4 then f.args.getD (j - 1) 0 else SMap.get 0 y.g j) ∧
        x.a = y.a ∧ x.p = y.p ∧ x.v = y.v ∧ x.m = y.m ∧ x.y = y.y ∧
        (t.frond fr).pending = [] ∧ (t.frond fr).running = f.running ++ [n] ∧
        ∀ d j, (d, j) ≠ (c, k) → t.ctx d j = s.ctx d j) ∧
    (f.bound = true → f.ended = true ∨ f.abort.isSome = true → f.endedAt < s.now → s.now % 1024 = 0 → does (.frondEnd fr) (fun t =>
      (t.frond fr).bound = false ∧ (∀ n, n ≠ fr → n ≠ 1024 + s.seqno → t.frond n = s.frond n) ∧
      (f.ended = false → t.frond (1024 + s.seqno) = { f with bound := false, released := true })))

/-! ### Reset, boot, interface states, roles and errors (1, 3, 4, 6) -/

/-- R28 to R32, R35, R42, R60 to R62, R72, R82, R83, R136, R137, R139 and R140: reset, boot to BOOT's end and then, as stage 2 starts, to CONFIG, the frame
tick, the interface's own transitions, the steps of a role change, and the errors of a core: a correctable one is logged and freezes its
fronds for 128 cycles, an uncorrectable one fences the core, which is released once its log entries are gone. That stage 2 starts at the
next frame tick is the model's (log 39), as are that memory which nothing has written reads as zero, so that all of it does after a RESET
(log 1), that an uncorrectable read marks the whole 64-bit word it names (log 31), and what the opaque forms of a signed header and of a
certificate say (log 5). -/
def Obligations.BootRolesAndErrors : Prop :=
  ∀ (s : State) (flash : Flash) (d c : Nat) (a v : Word) (req : Requester) (r : RoleChange),
    let h := s.hub
    let x := s.die d
    let does (i : Instr) (ok : State → Prop) : Prop := ∃ t, exec i s = .next t ∧ KeepsRegsAndMemory s t ∧ ok t
    let logged (t : State) (die kind : Nat) (addr : Word) : Prop := (s.die die).log.length < 64 →
      ∃ e, (t.die die).log = (s.die die).log ++ [e] ∧ e.kind = kind ∧ e.addr = addr ∧ e.tick = s.gtick
    let stage (k : Nat) : Option Image := loadImage h.floor flash k
    let images : List Nat := stage2Images ++ mgmtDies.map mgmtStage
    (∃ t, exec .reset s = .next t ∧ t.hub.ifs = .reset ∧ t.hub.floor = h.floor ∧ t.worlds = [] ∧ t.fronds = [] ∧ t.cores = [] ∧
      t.mem = [] ∧ t.calendar = [] ∧ t.posted = [] ∧ t.now = 0 ∧ t.gtick = 0) ∧
    (h.ifs = .reset →
      (stage 0 = none → does (.resetRelease flash) (fun t => t.hub.ifs = .fault ∧ t.hub.bst = 1 ∧ ∀ n, SMap.get 0 t.hub.msl n = 0)) ∧
      (∀ i, stage 0 = some i →
        (manifestOk h.floor flash.manifest = false → does (.resetRelease flash) (fun t => t.hub.ifs = .fault ∧ t.hub.bst = 2 ∧
          SMap.get 0 t.hub.msl 0 = sha384 (leBytes 48 0 ++ leBytes 48 (sha384 i.body).toNat))) ∧
        (manifestOk h.floor flash.manifest = true →
          (∀ key, key = deriveScalar labelIdk flash.manifest.identityPolicy →
            let known : Prop := publicKey key = flash.certKey ∧ Config.certifiedKey flash.cert = flash.certKey
            (¬ known → does (.resetRelease flash) (fun t => t.hub.ifs = .fault ∧ t.hub.bst = 3)) ∧
            (known → (∃ k ∈ images, stage k = none) → does (.resetRelease flash) (fun t => t.hub.ifs = .fault ∧ t.hub.bst = 1)) ∧
            (known → (∀ k ∈ images, stage k ≠ none) →
              ((∃ y ∈ endpoints, y.1 = 0 ∧ (s.booted flash y.1 y.2).ok = false) → does (.resetRelease flash) (fun t =>
                t.hub.ifs = .fault ∧ t.hub.bst = 4)) ∧
              ((∀ y ∈ endpoints, y.1 = 0 → (s.booted flash y.1 y.2).ok = true) → does (.resetRelease flash) (fun t =>
                t.hub.ifs = .boot ∧ t.hub.bst = 0 ∧ t.hub.booting = true ∧ t.hub.ssecLocked = true ∧ t.hub.idk = key ∧
                ∀ y ∈ endpoints, (t.die y.1).ep y.2 = s.booted flash y.1 y.2 ∧
                  (8 ≤ y.1 → (s.booted flash y.1 y.2).ok = false → (t.die y.1).st = .fenced ∧ Event.linkcal y.1 y.2 ∈ t.hub.queue)))))))) ∧
    (h.ifs = .boot → h.booting = true → s.now % frameCycles = 0 → s.now ≠ 0 → s.hubEvent = some s.startStage2 ∧
      let t := s.startStage2
      t.hub.ifs = .config ∧ t.hub.booting = false ∧ t.hub.holder = 0 ∧ t.hub.epoch = 1 ∧ (t.world 0).st = .ready ∧
        (t.queueAt 0 0).present = true ∧ (∀ w, w ≠ 0 → (t.world w).st = .empty) ∧ KeepsRegsAndMemory s t) ∧
    (h.ifs ≠ .reset → does .frameTick (fun t => t.gtick = s.gtick + 1 ∧ t.now = s.now)) ∧
    (h.ifs = .locked → h.lockTick = some s.gtick → does .enterRun (fun t => t.hub.ifs = .run ∧ t.hub.lockTick = none)) ∧
    (h.ifs = .drain → (∀ w ∈ s.worlds, w.1 ≠ 0 → w.2.st = .empty) → does .interfaceDrainComplete (fun t => t.hub.ifs = .config)) ∧
    (h.role = some r → 8 ≤ d → d < 40 →
      (r.step = 1 → s.roleDrained r = true → s.leaves r d = true → does .roleDrainComplete (fun t => (t.die d).st = .flushing ∧
        ∃ q, t.hub.role = some q ∧ 2 ≤ q.step ∧ q.since = s.gtick.toNat)) ∧
      (r.step = 1 → r.accepted + r.deadline ≤ s.gtick.toNat → ∃ t, exec .drainDeadlineExpiry s = .next t ∧ t.hub.role = none ∧
        (x.st = .draining → (t.die d).st = x.prior) ∧ (∀ k, t.part k = s.part k) ∧
        ∀ p ∈ s.packets, p.id = r.packet → p.entry = none → ∃ q ∈ t.packets, q.id = p.id ∧ q.st = .done ∧ q.status = 7) ∧
      (x.st = .flushing → s.flushed d = true → does (.flushComplete d) (fun t => (t.die d).st = .zeroing)) ∧
      (x.st = .zeroing → ∃ t, exec (.zeroiseComplete d) s = .next t ∧ (t.die d).st = .enumerating ∧
        (∀ b, 0xF000000000 + (d - 8) * 0x8000000 ≤ b → b < 0xF000000000 + (d - 7) * 0x8000000 → t.byte b = 0) ∧
        ∀ j < 16, (t.core (16 * (d - 8) + j)).ctxs = [] ∧ (t.core (16 * (d - 8) + j)).powered = false ∧
          ∀ b < 0x200000, t.byte (bufAddr (16 * (d - 8) + j) .wb b) = 0) ∧
      (x.st = .enumerating → does (.reenumerateComplete d) (fun t => (t.die d).st = .enumerating ∧ (t.die d).enumerated = true ∧
        (roleAt (r.newPart s.part ((d - 8) / 8)) ((d - 8) % 8) = some .compute → ∀ j < 16, (t.core (16 * (d - 8) + j)).powered = true))) ∧
      (r.step = 6 → ∃ t, exec .roleChangeCommit s = .next t ∧ t.hub.role = none ∧ t.hub.profile = r.profile ∧
        (∀ k < 4, t.part k = if r.mask / 2 ^ k % 2 = 1 then r.parts.getD k 0 else s.part k) ∧
        (s.leaves r d = true → (t.die d).chgn = (x.chgn + 1) % 2 ^ 32 ∧
          (t.die d).st = (roleAt (t.part ((d - 8) / 8)) ((d - 8) % 8)).getD .off) ∧ ∀ b, t.byte b = s.byte b) ∧
      (2 ≤ r.step → r.step < 6 → s.leaves r d = true → does (.layerFence d a) (fun t => (t.die d).st = .fenced ∧ logged t d 0x0B a ∧
        ∃ q, t.hub.role = some q ∧ q.fault = true))) ∧
    (∃ t, exec (.scratchpadCorrectableError c a) s = .next t ∧ logged t (coreDie c) 1 a ∧ KeepsRegsAndMemory s t ∧
      (∀ e ∈ s.fronds, e.2 = s.frond e.1 → e.2.bound = true → e.2.ended = false → e.2.abort = none → e.2.started = true → c ∈ e.2.cores →
        (∀ e' ∈ s.fronds, e'.1 = e.1 → e' = e) → s.fronds.Nodup →
        (t.frond e.1).frozen = e.2.frozen + 128 ∧ (t.frond e.1).freezeEnd = Max.max s.now e.2.freezeEnd + 128)) ∧
    (∀ i kind, (i, kind) ∈ [(Instr.scratchpadUncorrectableError c a, 2), (.copyParityError c a, 8)] →
      ∃ t, exec i s = .next t ∧ logged t (coreDie c) kind a ∧ (t.core c).fenced = true ∧ (∀ b, t.byte b = s.byte b) ∧
        ∀ n, (s.frond n).bound = true → (s.frond n).ended = false → (s.frond n).abort = none → (s.frond n).freezeEnd ≤ s.now →
          c ∈ (s.frond n).cores → (t.frond n).abort = some (0x10, kind)) ∧
    (∀ i, i ∈ [Instr.nearTierUncorrectable a req, .layerPoolUncorrectable a req, .farTierUncorrectable a req] →
      ∃ t, exec i s = .next t ∧ 8 * (a.toNat / 8) ∈ t.faulty ∧ logged t (addrDie a.toNat) (readCode a.toNat) (BitVec.ofNat 64 a.toNat) ∧
        (∀ b, t.byte b = s.byte b) ∧ (∀ id p, req = .packet id → s.packet id = some p → p.status = 0 →
          ∃ q, t.packet id = some q ∧ q.status = 0x10 ∧ q.aux = readCode a.toNat) ∧
        ∀ core ctx n, req = .ctx core ctx n → (s.frond n).bound = true → (s.frond n).ended = false → (s.frond n).abort = none →
          (s.frond n).freezeEnd ≤ s.now → (t.frond n).abort = some (0x10, readCode a.toNat)) ∧
    (8 ≤ d → c < 16 → let k := 16 * (d - 8) + c
      ((s.core k).fenced = true → x.lost = 0 → (∀ e ∈ x.log, e.srccore ≠ k) → d < 40 → ∃ t, exec (.coreRelease d c) s = .next t ∧
        (t.core k).fenced = false ∧ (t.core k).ctxs = [] ∧ (t.core k).granted = (s.core k).granted ∧
        ∀ b < 0x200000, t.byte (bufAddr k .wb b) = 0) ∧
      ((s.core k).fenced = false → does (.coreRelease d c) (fun t => t.core k = s.core k ∧
        logged t d 0x0A (BitVec.ofNat 64 (2 ^ 24 * d + (0x60 + 8 * c)))))) ∧
    does (.lostevClear d v) (fun t => (t.die d).lost = if v.toNat % 2 ^ 32 = 2 ^ 32 - 1 then 0 else x.lost)

/-! ### Links, runs and operations from outside (2) -/

/-- R39 to R44, R51, R52, R54 and R59: a delay is written while the register is open and refused otherwise; a calibration that fails fences what hangs on its link;
a flit that cannot be corrected is discarded, counted and logged, and its frond aborted or its transaction ended with error; a port
drops the modes it does not have and answers other operations as unsupported; a CXL link that goes down ends its accesses with error. That
an H endpoint which fails in CONFIG outside a role change brings FAULT (log 62), that the outcome follows the present delay at once
(log 63), the place and the codes of a port's split (log 8), and that a delay other than 0 is refused at an endpoint without a tick
(log 34), are the model's. -/
def Obligations.LinksAndFlits : Prop :=
  ∀ (s : State) (d e f id : Nat) (v a : Word) (raw marg : BitVec 8) (late : Bool) (o : FlitOutcome),
    let ep := (s.die d).ep e
    let does (i : Instr) (ok : State → Prop) : Prop := ∃ t, exec i s = .next t ∧ KeepsRegsAndMemory s t ∧ ok t
    let logged (t : State) (die kind : Nat) (addr : Word) : Prop := (s.die die).log.length < 64 →
      ∃ y, (t.die die).log = (s.die die).log ++ [y] ∧ y.kind = kind ∧ y.addr = addr
    let tick : Prop := (1 ≤ d ∧ d < 5 ∧ e = 1) ∨ (5 ≤ d ∧ e = 0)
    let counts (t : State) : Prop := ((t.die d).ep e).corr = (if o = .corrected then min (ep.corr + 1) (2 ^ 32 - 1) else ep.corr) ∧
      ((t.die d).ep e).unc = if o = .bad then min (ep.unc + 1) (2 ^ 16 - 1) else ep.unc
    (hasEndpoint d e = true → s.skewOpen = true →
      (tick ∨ v.toNat % 64 = 0 → does (.lskewWrite d e v) (fun t => ((t.die d).ep e).dly = v.toNat % 64 ∧
        ((t.die d).ep e).busy = (ep.busy || v.getLsbD 16))) ∧
      does (.linkCalibration d e) (fun t => ((t.die d).ep e).busy = true ∧ ((t.die d).ep e).ok = false)) ∧
    (s.skewOpen = false ∨ hasEndpoint d e = false ∨ (¬ tick ∧ v.toNat % 64 ≠ 0) →
      does (.lskewWrite d e v) (fun t => logged t d 0x0A (BitVec.ofNat 64 (2 ^ 24 * d + (0x800 + 16 * e))))) ∧
    (s.skewOpen = false ∨ hasEndpoint d e = false →
      does (.linkCalibration d e) (fun t => logged t d 0x0A (BitVec.ofNat 64 (2 ^ 24 * d + (0x800 + 16 * e))))) ∧
    (hasEndpoint d e = true → ep.busy = true →
      let ok := late = false ∧ 1 ≤ marg.toNat ∧ (tick → raw.toNat + ep.dly = if s.hub.profile = 0x16 then 80 else 64)
      (ok → does (.linkCalibrationDone d e raw marg late) (fun t => ((t.die d).ep e).ok = true ∧ ((t.die d).ep e).busy = false ∧
        ((t.die d).ep e).marg = marg.toNat ∧ t.hub = s.hub)) ∧
      (¬ ok → does (.linkCalibrationDone d e raw marg late) (fun t => ((t.die d).ep e).ok = false ∧
        (d = 0 → t.hub.ifs = .fault ∧ t.hub.bst = 4) ∧ (d ≠ 0 → t.hub.queue = s.hub.queue ++ [.linkcal d e] ∧ t.hub.ifs = s.hub.ifs) ∧
        (8 ≤ d → (t.die d).st = .fenced) ∧ (1 ≤ d → d < 5 → ∀ j < 8, (t.die (8 * d + j)).st = .fenced)))) ∧
    (hasEndpoint d e = true → does (.lstatClear d e v) (fun t =>
      ((t.die d).ep e).corr = (if v.toNat % 2 ^ 32 = 2 ^ 32 - 1 then 0 else ep.corr) ∧
      ((t.die d).ep e).unc = if v.toNat / 2 ^ 32 % 2 ^ 16 = 2 ^ 16 - 1 then 0 else ep.unc)) ∧
    (o ≠ .bad → does (.timedFlitArrival d e o f id a) (fun t => counts t ∧ t.calendar = s.calendar ∧
      ∃ n, (t.die d).flits = (s.die d).flits ++ [(id, n)])) ∧
    (o = .bad → (s.frond f).bound = true → (s.frond f).ended = false → (s.frond f).abort = none → (s.frond f).freezeEnd ≤ s.now →
      ∃ t, exec (.timedFlitArrival d e o f id a) s = .next t ∧ counts t ∧ logged t d 6 a ∧ (∀ y ∈ t.calendar, y.id ≠ id) ∧
        (t.frond f).abort = some (0x10, 6) ∧ ∀ b, t.byte b = s.byte b) ∧
    ((∀ x, s.timed id = some x → x.due ≤ s.now) → does (.timedFlitRelease d id) (fun t =>
      (t.die d).flits = (s.die d).flits.filter (fun y => decide (y.1 ≠ id)))) ∧
    (∀ x, s.access id = some x → o = .bad → does (.untimedFlitArrival d e o id) (fun t => counts t ∧
      t.access id = some { x with act := if x.done = none ∧ x.act.writes = true then .void else .read [], err := true, done := none } ∧
      logged t d 7 (BitVec.ofNat 64 (x.act.touches.headD 0)))) ∧
    (o ≠ .bad → does (.untimedFlitArrival d e o id) (fun t => counts t ∧ t.posted = s.posted)) ∧
    (∀ port mode other, let lanes := 2 ^ ((SMap.get 0 s.hub.cfg (0x300 + 8 * (port / 4))).toNat % 4)
      (s.hub.ifs = .reset ∨ lanes ≤ port % 4 → exec (.uePacketReceive port ⟨mode, other⟩) s = .next s) ∧
      (s.hub.ifs = .boot ∨ s.hub.ifs = .fault → other = true → exec (.uePacketReceive port ⟨mode, other⟩) s = .next s) ∧
      (s.hub.ifs ≠ .reset → (other = true → s.hub.ifs ≠ .boot ∧ s.hub.ifs ≠ .fault) → port % 4 < lanes →
        (mode = .uud ∨ mode = .rudi → does (.uePacketReceive port ⟨mode, other⟩) (fun t =>
          SMap.get 0 t.hub.refused (port / 4) = SMap.get 0 s.hub.refused (port / 4) + 1 ∧ t.hub.sent = s.hub.sent)) ∧
        (mode = .rud ∨ mode = .rod → does (.uePacketReceive port ⟨mode, other⟩) (fun t => t.hub.refused = s.hub.refused ∧
          t.hub.sent = if other then s.hub.sent ++ [.unsupported] else s.hub.sent)))) ∧
    (∀ port, d = 5 ∨ d = 6 → port < 2 → s.migrations = [] → does (.cxlLinkDown d port) (fun t =>
      SMap.get false t.hub.offline (2 * (d - 5) + port) = true ∧ t.hub.queue = s.hub.queue ++ [.cxlDown d port] ∧
      ∀ x ∈ s.posted, x.done = none → (∃ pa ∈ x.act.touches, s.cxlPort pa = some (2 * (d - 5) + port)) →
        { x with act := if x.act.writes then .void else .read [], err := true } ∈ t.posted))

/-- R54 to R56, R62, R81 and R82: an operation from outside is posted to its home, in one part for each line that its bytes lie in, or
answered with an access error where the world is EMPTY or an address does not translate, as unsupported where it is too long, and not at
all while the device answers its status window alone; the status window answers in every state but RESET; a run under the present key
whose number is new is released in order, a stale or replayed one is counted; a run is closed under the next number and kept until it is
acknowledged; no run is taken or sent while the status window alone answers. That the last sequence number is left to a barrier run is the
model's (log 59). -/
def Obligations.OperationsFromOutside : Prop :=
  ∀ (s : State) (w peer n pa : Nat) (va x cmp : Word) (packets : List (List Byte)) (pas : List Nat) (run : Run),
    let h := s.hub
    let dm := h.domain
    let p := SMap.get {} dm.peers peer
    let does (i : Instr) (ok : State → Prop) : Prop := ∃ t, exec i s = .next t ∧ KeepsRegsAndMemory s t ∧ ok t
    let answers (i : Instr) (r : Reply) : Prop := does i (fun t => t.hub.sent = h.sent ++ [r] ∧ t.posted = s.posted)
    let serves : Prop := h.ifs = .config ∨ h.ifs = .locked ∨ h.ifs = .run ∨ h.ifs = .drain
    let posts (i : Instr) (ok : List Access → Prop) : Prop := does i (fun t => ∃ ys, t.accesses = s.accesses ++ ys ∧
      (∀ y ∈ ys, y.world = w) ∧ ok ys ∧ t.hub.sent = h.sent)
    let windows := (s.world w).windows
    let up : Prop := serves ∧ (s.world w).st ≠ .empty ∧ w < 256
    let bytes := packets.flatten
    let short : Prop := bytes.length ≤ 65536 ∧ ∀ p ∈ packets, p.length ≤ 4096
    let parts (l : List Host.Cell) (gs : List (List Host.Cell)) (ys : List Access) : Prop := gs.flatten = l ∧
      (∀ g ∈ gs, g ≠ [] ∧ ∀ c ∈ g, ∀ c' ∈ g, lineOf c.1 = lineOf c'.1) ∧
      (∀ (i : Nat) g g', gs[i]? = some g → gs[i + 1]? = some g' → ∀ c ∈ g, ∀ c' ∈ g', lineOf c.1 ≠ lineOf c'.1) ∧
      ys.map Access.home = gs.map (fun g => homeNode (g.headD (0, 0)).1)
    let atomics : List (Instr × Act) := [(.fetchAndAdd w va x, .atomic pa 8 .add x 0), (.compareAndSwap w va cmp x, .atomic pa 8 .cas cmp x),
      (.swap w va x, .atomic pa 8 .swap x 0)]
    (up → short → bytes ≠ [] →
      (pas.length = bytes.length → (∀ i < bytes.length, translate windows (va.toNat + i) 1 .wr = pas[i]?) →
        posts (.put w va packets) (fun ys => ∃ gs op, parts (pas.zip bytes) gs ys ∧
          ys.map Access.act = gs.map (fun g => Act.write { cells := g }) ∧ ∀ y ∈ ys, y.owed = .host op 0)) ∧
      ((∃ i < bytes.length, translate windows (va.toNat + i) 1 .wr = none) → answers (.put w va packets) .accessError)) ∧
    (up → n ≠ 0 → n ≤ 65536 →
      (pas.length = n → (∀ i < n, translate windows (va.toNat + i) 1 .rd = pas[i]?) →
        posts (.get w va n) (fun ys => ∃ gs op, parts (pas.map (fun a => (a, 0))) gs ys ∧
          ys.map Access.act = gs.map (fun g => Act.read (g.zipIdx.map (fun c => { dst := c.2, src := c.1.1 }))) ∧
          ∀ (i : Nat) y, ys[i]? = some y → y.owed = .host op (gs.take i).flatten.length)) ∧
      ((∃ i < n, translate windows (va.toNat + i) 1 .rd = none) → answers (.get w va n) .accessError)) ∧
    (up → (bytes = [] → (∀ p ∈ packets, p.length ≤ 4096) → answers (.put w va packets) .done) ∧ answers (.get w va 0) (.bytes []) ∧
      (65536 < bytes.length ∨ (∃ p ∈ packets, 4096 < p.length) → answers (.put w va packets) .unsupported) ∧
      (65536 < n → answers (.get w va n) .unsupported)) ∧
    (up → va.toNat % 8 = 0 → ∀ i ∈ atomics,
      (translate windows va.toNat 8 .atm = some pa → posts i.1 (fun ys => ∃ y op, ys = [y] ∧ y.act = i.2 ∧ y.home = homeNode pa ∧
        y.owed = .host op 0)) ∧
      (translate windows va.toNat 8 .atm = none → answers i.1 .accessError)) ∧
    (¬ serves → w < 256 → exec (.put w va packets) s = .next s ∧ exec (.get w va n) s = .next s ∧ ∀ i ∈ atomics, exec i.1 s = .next s) ∧
    (serves → w < 256 → (s.world w).st = .empty → (short → bytes ≠ [] → answers (.put w va packets) .accessError) ∧
      (n ≤ 65536 → n ≠ 0 → answers (.get w va n) .accessError) ∧ ∀ i ∈ atomics, answers i.1 .accessError) ∧
    (h.ifs ≠ .reset → ∃ l, answers .statusWindowGet (.statusWindow l) ∧ l.length = 8 ∧ l[1]? = some s.gtick ∧
      ∃ v, l[0]? = some v ∧ (h.bst < 256 → h.profile < 256 → h.qerr < 2 ^ 32 → v.toNat % 256 = h.ifs.code ∧ v.toNat / 2 ^ 8 % 256 = h.bst ∧
        v.toNat / 2 ^ 16 % 256 = h.profile ∧ v.toNat / 2 ^ 32 = h.qerr)) ∧
    (h.ifs = .reset → exec .statusWindowGet s = .next s) ∧
    (¬ serves → exec (.runReceive peer (.run run)) s = .next s ∧ exec (.runReceive peer (.ack x)) s = .next s ∧
      exec (.runIdleClose peer) s = .next s) ∧
    (serves → dm.formed = true → p.present = true →
      (run.kgen.toNat ≠ dm.kgen → does (.runReceive peer (.run run)) (fun t =>
        (SMap.get {} t.hub.domain.peers peer).stale = p.stale + 1 ∧ t.hub.sent = h.sent)) ∧
      (∀ plain, run.kgen.toNat = dm.kgen → 1 ≤ run.nfl.toNat → run.nfl.toNat ≤ 64 → run.flits.length = 64 * run.nfl.toNat → run.rsv = 0 →
        gcmOpen (dm.runKey peer dm.self) (runIv dm.kgen run.seq.toNat)
          (leBytes 8 run.seq.toNat ++ leBytes 4 run.kgen.toNat ++ leBytes 1 run.nfl.toNat ++ leBytes 1 run.flg.toNat ++ leBytes 2 0)
          run.flits run.tag = some plain →
        (run.seq.toNat ∈ p.seen → run.flg.toNat < 2 → does (.runReceive peer (.run run)) (fun t =>
          (SMap.get {} t.hub.domain.peers peer).replays = p.replays + 1 ∧ t.hub.sent = h.sent ++ [.runAck peer run.seq.toNat] ∧
          t.posted = s.posted)) ∧
        (run.seq.toNat ∉ p.seen → p.seen.length < 256 →
          (run.flg = 1 → does (.runReceive peer (.run run)) (fun t => t.hub.sent = h.sent ++ [.runAck peer run.seq.toNat] ∧
            run.seq.toNat ∈ (SMap.get {} t.hub.domain.peers peer).seen ∧ (SMap.get {} t.hub.domain.peers peer).barrierSeen = true)) ∧
          (∀ op l y k o moves pl, run.flg = 0 → Config.runMessages plain = [.reply op w true l] → s.access op = some y → y.done = none →
            y.act = .fabric peer k o moves pl → does (.runReceive peer (.run run)) (fun t =>
              t.access op = some { y with done := some ((moves.map Move.dst).zip l, 0) })))) ∧
      does (.runReceive peer (.ack x)) (fun t =>
        (SMap.get {} t.hub.domain.peers peer).runs = p.runs.filter (fun q => decide (q.seq ≠ x.toNat))) ∧
      (peer ≠ dm.self → s.mayClose peer = true →
        (p.rekeyAsked = false → p.sendSeq + 1 < 2 ^ 64 → does (.runIdleClose peer) (fun t => let q := SMap.get {} t.hub.domain.peers peer
          q.sendSeq = p.sendSeq + 1 ∧ ∃ c tag ops, t.hub.sent = h.sent ++ [.run peer p.sendSeq dm.kgen 0 c tag] ∧
            q.runs = p.runs ++ [{ seq := p.sendSeq, kgen := dm.kgen, flg := 0, flits := c, tag := tag, ops := ops }] ∧
            c.length % 64 = 0 ∧ c.length ≤ 64 * Max.max 1 (Min.min dm.runlen 64))) ∧
        (p.rekeyAsked = true ∨ 2 ^ 64 ≤ p.sendSeq + 1 →
          (dm.coordinator ≠ dm.self → does (.runIdleClose peer) (fun t => (SMap.get {} t.hub.domain.peers peer).sendSeq = p.sendSeq ∧
            t.hub.sent = h.sent ++
            [.control dm.coordinator (SMap.get {} dm.peers dm.coordinator).session .rekeyAsk])) ∧
          (dm.coordinator = dm.self → dm.phase = .idle → does (.runIdleClose peer) (fun t => t.hub.domain.phase = .quiesce ∧
            t.hub.domain.target = dm.kgen + 1)))) ∧
      (∀ q ∈ p.runs, (∀ q' ∈ p.runs, q'.seq = q.seq → q' = q) → does (.runRetryExhausted ⟨peer, q.seq⟩) (fun t =>
        t.hub.queue = h.queue ++ [.peerUnreachable peer] ∧ q ∉ (SMap.get {} t.hub.domain.peers peer).runs ∧
        ∀ y ∈ s.posted, (y.id ∉ q.ops → y ∈ t.posted) ∧ (y.id ∈ q.ops → y.done = none → ∀ m k o moves pl, y.act = .fabric m k o moves pl →
          { y with act := .read [], err := true } ∈ t.posted))))


/-! ### SPDM, channels, loads, re-keys and checkpoints (3, 4, 15) -/

/-- R63 to R66: the responder answers each request in its connection's state, outside a session where R65 asks it, and with ERROR elsewhere; a transcript
grows by what was exchanged, and what is signed is signed over the transcript with the alias key; a session is established by the right MAC and
ended on request; while the security engine serves another connection's signature, a request that nothing else is wrong with draws Busy. The
bytes that a transcript takes for a message, and the form of the bodies, are the model's (log 5), and so are the order of the checks, the
fall back to AFTER_VERSION where nothing offered is the device's, and DecryptError for a wrong MAC (log 40). -/
def Obligations.AttestationAnswers : Prop :=
  ∀ (s : State) (c n slot off len index : Nat) (nonce : Word) (busy : Bool) (l : List Byte) (algs : List SpdmAlg) (mac : BitVec 384)
    (code : BitVec 8),
    let h := s.hub
    let x := SMap.get {} h.conns c
    let y := SMap.get {} h.sessions n
    let up : Prop := (h.ifs = .config ∨ h.ifs = .locked ∨ h.ifs = .run ∨ h.ifs = .drain) ∧ c < 16
    let errs (i : Instr) (e : SpdmErr) : Prop := exec i s = .next (s.answer (.spdmError c e))
    let answers (i : Instr) (r : Reply) (ok : State → Prop) : Prop :=
      ((∃ d, h.signing = some d ∧ d ≠ c) → errs i .busy) ∧ (¬ (∃ d, h.signing = some d ∧ d ≠ c) →
        ∃ t, exec i s = .next t ∧ KeepsRegsAndMemory s t ∧ t.hub.sent = h.sent ++ [r] ∧ ok t)
    let becomes (i : Instr) (r : Reply) (z : Conn) : Prop := answers i r (fun t => SMap.get {} t.hub.conns c = z)
    let signs (i : Instr) (r : Reply) (z : Conn) : Prop := answers i r (fun t => SMap.get {} t.hub.conns c = z ∧ t.hub.signing = some c)
    let sign (m : List Byte) : List Byte := ecdsaSign h.alk (sha384 m)
    let version : List Byte := [0x84, 0x04, 0x12]
    let digest := leBytes 48 (sha384 h.chain).toNat
    let piece := (h.chain.drop off).take (min len 1024)
    let block (i : Nat) : List Byte := leBytes 1 i ++ [0x01] ++ leBytes 2 51 ++ [Config.rawDigestType] ++ leBytes 2 48 ++
      leBytes 48 (SMap.get 0 h.msl (i - 1)).toNat
    let measured : Option (List Byte) := if index = 0 then some [32] else if index ≤ 32 then some (block index)
      else if index = 0xFF then some ((List.range 32).flatMap (fun i => block (i + 1))) else none
    let chosen := ([SpdmAlg.sha384, .brainpoolP384, .p384, .aes256Gcm, .spdmSchedule].filter algs.contains).map SpdmAlg.code
    let inside : Prop := y.live = true ∧ y.conn = c ∧ y.established = true
    up → errs (.spdmUnsupportedRequest c code) .unsupportedRequest ∧ errs (.getVersion c true) .unexpectedRequest ∧
      answers (.getVersion c false) (.spdm c .version [0x12]) (fun t =>
        SMap.get {} t.hub.conns c = { st := .afterVersion, a := version } ∧ ∀ e ∈ t.hub.sessions, ¬ (e.2.live = true ∧ e.2.conn = c)) ∧
      (∀ i ∈ [Instr.getCapabilities ⟨c, some n⟩, .negotiateAlgorithms ⟨c, some n⟩ algs, .getDigests ⟨c, some n⟩, .getCertificate ⟨c, some n⟩ slot off len,
        .challenge ⟨c, some n⟩ slot nonce busy, .keyExchange ⟨c, some n⟩ slot l busy], errs i .unexpectedRequest) ∧
      (if x.st = .afterVersion then becomes (.getCapabilities ⟨c, none⟩) (.spdm c .capabilities (leBytes 4 0x2D6))
          { x with st := .afterCaps, a := version ++ [0xE1, 0x61] ++ leBytes 4 0x2D6 }
        else errs (.getCapabilities ⟨c, none⟩) .unexpectedRequest) ∧
      (if x.st = .afterCaps then
          (chosen ≠ [] → becomes (.negotiateAlgorithms ⟨c, none⟩ algs) (.spdm c .algorithms chosen)
            { x with st := .negotiated, a := x.a ++ [0xE3] ++ algs.map SpdmAlg.code ++ [0x63] ++ chosen }) ∧
          (chosen = [] → becomes (.negotiateAlgorithms ⟨c, none⟩ algs) (.spdmError c .negotiationFail) { x with st := .afterVersion })
        else errs (.negotiateAlgorithms ⟨c, none⟩ algs) .unexpectedRequest) ∧
      (x.st ≠ .negotiated → ∀ i ∈ [Instr.getDigests ⟨c, none⟩, .getCertificate ⟨c, none⟩ slot off len, .challenge ⟨c, none⟩ slot nonce busy,
        .getMeasurements c none slot index true nonce busy, .keyExchange ⟨c, none⟩ slot l busy], errs i .unexpectedRequest) ∧
      (x.st = .negotiated →
        becomes (.getDigests ⟨c, none⟩) (.spdm c .digests digest) { x with digests := true, b := x.b ++ [0x81, 0x01] ++ digest } ∧
        (slot ≠ 0 → ∀ i ∈ [Instr.getCertificate ⟨c, none⟩ slot off len, .challenge ⟨c, none⟩ slot nonce busy], errs i .invalidRequest) ∧
        becomes (.getCertificate ⟨c, none⟩ 0 off len) (.spdm c .certificate piece)
          { x with b := x.b ++ [0x82] ++ leBytes 1 0 ++ leBytes 2 off ++ leBytes 2 len ++ [0x02] ++ piece } ∧
        errs (.challenge ⟨c, none⟩ 0 nonce true) .busy ∧
        (∃ own, own.length = 8 ∧ signs (.challenge ⟨c, none⟩ 0 nonce false)
          (.spdm c .challengeAuth (digest ++ own ++ sign (x.a ++ x.b ++ (x.c ++ [0x83] ++ leBytes 1 0 ++ leBytes 8 nonce.toNat ++ [0x03] ++ (digest ++ own)))))
          { x with b := [], c := [] }) ∧
        (x.digests = false → errs (.keyExchange ⟨c, none⟩ 0 l false) .unexpectedRequest) ∧
        (x.digests = true →
          (slot ≠ 0 → errs (.keyExchange ⟨c, none⟩ slot l busy) .invalidRequest) ∧
          ((∀ m < 64, (SMap.get {} h.sessions m).live = true) → errs (.keyExchange ⟨c, none⟩ 0 l busy) .sessionLimitExceeded) ∧
          (n < 64 → y.live = false → (∀ m < n, (SMap.get {} h.sessions m).live = true) → errs (.keyExchange ⟨c, none⟩ 0 l true) .busy ∧
            ∃ own, let rsp := leBytes 2 n ++ own
              let th := x.a ++ digest ++ [0xE4] ++ leBytes 1 0 ++ l ++ [0x64] ++ rsp
              answers (.keyExchange ⟨c, none⟩ 0 l false) (.spdm c .keyExchangeRsp (rsp ++ sign th))
                (fun t => let z := SMap.get {} t.hub.sessions n; z.live = true ∧ z.conn = c ∧ z.established = false ∧ z.th = th ++ sign th ∧ t.hub.signing = some c)))) ∧
      (∀ o : Option Nat, (o = none ∧ x.st = .negotiated) ∨ (o = some n ∧ inside) →
        (slot ≠ 0 ∨ measured = none → errs (.getMeasurements c o slot index true nonce busy) .invalidRequest) ∧
        (∀ m, measured = some m →
          let l1 (b : Bool) := x.l1 ++ [0xE0] ++ leBytes 1 0 ++ leBytes 1 index ++ leBytes 1 b.toNat ++ leBytes 8 nonce.toNat ++ [0x60] ++ m
          errs (.getMeasurements c o 0 index true nonce true) .busy ∧
          signs (.getMeasurements c o 0 index true nonce false) (.spdm c .measurements (m ++ sign (l1 true))) { x with l1 := [] } ∧
          becomes (.getMeasurements c o 0 index false nonce false) (.spdm c .measurements m) { x with l1 := l1 false })) ∧
      (¬ inside → errs (.getMeasurements c (some n) slot index true nonce busy) .unexpectedRequest) ∧
      (if y.live = true ∧ y.conn = c ∧ y.established = false then
          (mac = hmac384 (leBytes 48 y.secret.toNat) y.th → answers (.finish c n mac) (.spdm c .finishRsp []) (fun t =>
            (SMap.get {} t.hub.sessions n).established = true ∧ (SMap.get {} t.hub.sessions n).live = true)) ∧
          (mac ≠ hmac384 (leBytes 48 y.secret.toNat) y.th → errs (.finish c n mac) .decryptError)
        else errs (.finish c n mac) .unexpectedRequest) ∧
      (if inside then
          answers (.endSession c n) (.spdm c .endSessionAck []) (fun t =>
            (∀ e ∈ t.hub.sessions, e.1 ≠ n) ∧ ∀ e ∈ t.hub.channels, e.2.session = n → e.2.closing = true)
        else errs (.endSession c n) .unexpectedRequest)

/-- R67 to R71, R84 and R86: a channel is opened over an established session for a world whose credential is right; a message is accepted where its
header, its counter and its tag are, and raises the channel's counts where they are not; what an accepted one asks for is done in order; a lapsed
heartbeat tears down the world that holds work, and holds the keys of another; a hold that ends tears down too. That a host's message of
kind 5 asks for the status reply, and the reply's form, are the model's (log 43); so are that a put's payload begins with its 8-byte address
(log 10), that a header which its channel does not take is refused without counting as a wrong tag, and that a closed channel first does what
it has accepted (log 41), and that what a torn-down world still had posted is made void at its home (log 42). -/
def Obligations.ChannelsAndHeartbeats : Prop :=
  ∀ (s : State) (m : ChMsg) (plain body : List Byte) (n pa : Nat),
    let h := s.hub
    let ch := m.chid.toNat
    let k := SMap.get {} h.channels ch
    let of (t : State) : Channel := SMap.get {} t.hub.channels ch
    let up : Prop := h.ifs = .config ∨ h.ifs = .locked ∨ h.ifs = .run ∨ h.ifs = .drain
    let does (i : Instr) (ok : State → Prop) : Prop := ∃ t, exec i s = .next t ∧ KeepsRegsAndMemory s t ∧ ok t
    let kinds : List (Instr × Byte) := [(.channelPut m, 1), (.commandPacketMessage m, 2), (.tailWrite m, 3), (.heartbeat m, 4), (.channelPut m, 5),
      (.channelClose m, 6)]
    let head : Prop := k.dead = false ∧ k.closing = false ∧ k.world = m.world.toNat ∧ m.rsv0 = 0 ∧ m.rsv1 = 0 ∧ m.len.toNat = m.body.length ∧
      m.body.length ≤ 65536 ∧ m.ctr.toNat < 0x80000000 ∧ ∀ l, k.last = some l → l.toNat < m.ctr.toNat
    let opened : Option (List Byte) := gcmOpen k.key (BitVec.ofNat 96 (k.salt.toNat * 2 ^ 32 + m.ctr.toNat))
      (leBytes 4 m.ctr.toNat ++ [m.chid, m.world, m.kind, m.rsv0] ++ leBytes 4 m.len.toNat ++ leBytes 4 m.rsv1.toNat) m.body m.tag
    let num (lo len : Nat) : Nat := leNat ((plain.drop lo).take len)
    let windows := (s.world k.world).windows
    let q := num 0 2
    let x := s.queueAt k.world q
    (up → k.live = true →
      (∀ i ∈ kinds, m.kind = i.2 → ¬ head → does i.1 (fun t => of t = { k with refused := k.refused + 1 })) ∧
      (∀ i ∈ kinds, m.kind = i.2 → head → opened = none → does i.1 (fun t => (of t).refused = k.refused + 1 ∧ (of t).fails = k.fails + 1 ∧
        (of t).last = k.last ∧ ((of t).dead = true ↔ 3 ≤ k.fails + 1))) ∧
      (head → opened = some plain →
        let used (t : State) : Prop := (of t).last = some m.ctr ∧ ((of t).dead = true ↔ m.ctr.toNat = 0x7FFFFFFF) ∧ (of t).fails = k.fails
        (∀ op, k.busy = some op →
          (m.kind = 1 → does (.channelPut m) (fun t => used t ∧ (of t).jobs = k.jobs ++ [.put (BitVec.ofNat 64 (num 0 8)) (plain.drop 8)])) ∧
          (m.kind = 2 → plain.length = 8 + 64 * n → 1 ≤ n → n ≤ 1023 → num 2 6 = 0 →
            does (.commandPacketMessage m) (fun t => used t ∧ (of t).jobs = k.jobs ++ [.packets q (plain.drop 8)])) ∧
          (m.kind = 3 → plain.length = 8 → num 2 2 = 0 →
            does (.tailWrite m) (fun t => used t ∧ (of t).jobs = k.jobs ++ [.tail q (BitVec.ofNat 32 (num 4 4))]))) ∧
        (k.busy = none → k.jobs = [] →
          (m.kind = 1 → plain.length = 9 → translate windows (BitVec.ofNat 64 (num 0 8)).toNat 1 .wr = some pa →
            does (.channelPut m) (fun t => used t ∧ ∃ y, t.accesses = s.accesses ++ [y] ∧ y.world = k.world ∧
              y.act = .write { cells := [(pa, plain.getD 8 0)] })) ∧
          (m.kind = 2 → plain.length = 8 + 64 * n → 1 ≤ n → n ≤ 1023 → num 2 6 = 0 → q < 16 → x.present = true →
            does (.commandPacketMessage m) (fun t => used t ∧ (of t).jobs = [.tail q (x.tail + BitVec.ofNat 32 n)] ∧
              ∃ acts, t.accesses = s.accesses ++ acts ∧ ∀ i < 64 * n, ∀ p, translate windows
                (x.base.toNat + 64 * ((x.tail.toNat + i / 64) % 2 ^ x.log2n) + i % 64) 1 .wr = some p →
                ∃ y ∈ acts, ∃ w, y.act = .write w ∧ (p, plain.getD (8 + i) 0) ∈ w.cells)) ∧
          (m.kind = 3 → plain.length = 8 → num 2 2 = 0 → does (.tailWrite m) (fun t => used t ∧
            let v := BitVec.ofNat 32 (num 4 4)
            if q < 16 ∧ x.present = true then
              (2 ^ x.log2n < (v - x.head).toNat → (t.queueAt k.world q).error = true ∧ (t.queueAt k.world q).tail = x.tail) ∧
              ((v - x.head).toNat ≤ 2 ^ x.log2n → (v - x.head).toNat < (x.tail - x.head).toNat → t.queueAt k.world q = x ∧
                t.hub.queue = h.queue ++ [.qback k.world q]) ∧
              ((v - x.head).toNat ≤ 2 ^ x.log2n → (x.tail - x.head).toNat ≤ (v - x.head).toNat →
                t.queueAt k.world q = { x with tail := v } ∧ t.hub.queue = h.queue)
            else t.hub.queue = h.queue ++ [.qnone k.world q] ∧ t.worlds = s.worlds))) ∧
        (m.kind = 4 → does (.heartbeat m) (fun t => used t ∧ (SMap.get {} t.hub.sessions k.session).beat = true)) ∧
        (m.kind = 5 → m.ctr.toNat ≠ 0x7FFFFFFF → does (.channelPut m) (fun t => (of t).last = some m.ctr ∧ (of t).devCtr = k.devCtr + 1 ∧
          ((of t).dead = true ↔ k.devCtr = 0xFFFFFFFF#32) ∧
          let told := leBytes 48 (s.world k.world).wmr.toNat ++ leBytes 48 (sha384 h.chain).toNat
          let l := told ++ ecdsaSign h.alk (sha384 told)
          let len : BitVec 32 := BitVec.ofNat 32 l.length
          let c := gcmSeal k.key (BitVec.ofNat 96 (k.salt.toNat * 2 ^ 32 + k.devCtr.toNat))
            (leBytes 4 k.devCtr.toNat ++ [m.chid, m.world, 5, 0] ++ leBytes 4 len.toNat ++ leBytes 4 0) l
          t.hub.sent = h.sent ++ [.channel
            { ctr := k.devCtr, chid := m.chid, world := m.world, kind := 5, rsv0 := 0, len := len, rsv1 := 0, body := c.1, tag := c.2 }])) ∧
        (m.kind = 6 → does (.channelClose m) (fun t => (∀ e ∈ t.hub.channels, e.1 = ch → e.2.closing = true) ∧
          (k.busy ≠ none ∨ k.jobs ≠ [] → (of t).jobs = k.jobs ++ [.close]) ∧
          (k.busy = none → k.jobs = [] → (∀ e ∈ h.channels, e.1 = ch → e.2 = k) → ∀ e ∈ t.hub.channels, e.1 ≠ ch))))) ∧
    (let y := SMap.get {} h.sessions n
     let b := BitVec.ofNat 512 (leNat body)
     let f (lo : Nat) : Nat := b.toNat / 2 ^ (8 * lo) % 256
     let z := SMap.get {} h.channels (f 28)
     up → y.live = true → y.established = true → body.length = 64 → packetOk b = true → f 0 = 0x0D → f 24 = 3 → (s.world (f 25)).st ≠ .empty →
      z.live = false →
      (b.toNat / 2 ^ 384 % 2 ^ 128 = (s.world (f 25)).cred.toNat → does (.worldOpen n body) (fun t =>
        let c := SMap.get {} t.hub.channels (f 28)
        c.live = true ∧ c.dead = false ∧ c.session = n ∧ c.world = f 25 ∧ c.last = none ∧ (t.world (f 25)).hold = false ∧
          (SMap.get {} t.hub.sessions n).period = (if f 27 = 0 then 10 else f 27) ∧ t.hub.sent = h.sent ++ [.done] ∧
          c.key.toNat = leNat ((leBytes 48 (hmac384 (leBytes 48 y.secret.toNat)
            ([0x63, 0x68, 0x61, 0x6E, 0x20, 0x6B, 0x65, 0x79] ++ leBytes 1 (f 28))).toNat).take 32) % 2 ^ 256)) ∧
      (b.toNat / 2 ^ 384 % 2 ^ 128 ≠ (s.world (f 25)).cred.toNat → exec (.worldOpen n body) s = .next (s.answer .accessError))) ∧
    (let y := SMap.get {} h.sessions n
     let gone (t : State) (w : Nat) : Prop := t.world w = {} ∧ t.hub.queue = h.queue ++ [.worldlost w] ∧ (∀ e ∈ t.fronds, e.2.world = w → e.2.ended = true) ∧
       (∀ p ∈ t.packets, p.world ≠ w) ∧ ∀ a ∈ t.posted, a.world ≠ w ∨ a.act = .void
     (∀ e, h.channels = [e] → e.2.live = true → e.2.closing = false → e.2.session = n → y.live = true → s.now % frameCycles = 0 → let w := e.2.world
      (y.beat = true → does (.heartbeatTimeout n) (fun t => SMap.get {} t.hub.sessions n = { y with beat := false } ∧ t.hub.channels = h.channels)) ∧
      (y.beat = false → w ≠ 0 → (∃ f ∈ s.fronds, f.2.bound = true ∧ f.2.world = w) → ∃ t, exec (.heartbeatTimeout n) s = .next t ∧ gone t w) ∧
      (y.beat = false → w = 0 ∨ s.holdsWork w = false → does (.heartbeatTimeout n) (fun t =>
        (∀ c ∈ t.hub.channels, c.2.closing = true) ∧ (e.2.jobs = [] → e.2.busy = none → t.hub.channels = []) ∧ ((t.world w).hold = true ↔ w ≠ 0) ∧ (t.world w).st = (s.world w).st))) ∧
     ((s.world n).hold = true → ∃ t, exec (.keyHoldExpiry n) s = .next t ∧ gone t n) ∧
     ((s.world n).hold = false → exec (.keyHoldExpiry n) s = .next s))

/-- R74, R75, R78 to R80, R107 to R109 and R345: a load that fails empties its world, and one whose header, signature and pages are right
measures them and enters them in the code page table; its later steps write the microprograms and the data, place the pages in one core after
the other, and make the world READY; a re-key goes through its phases, and what was held leaves when it ends; a
checkpoint saves at its barrier tick, streams, sends its blob and ends, and gives up where its budget runs out; a restore takes the image it is
given, and a world whose key unwraps is there again with the lines of its windows decrypted. The model's are: what the stream leaves out, and
the form of the blob (log 20); how the failures of a load are ordered within a step (log 46); the form of the re-key's messages, that the
new secret goes out at Switch, and that another re-key follows where a member goes that holds it (log 45); and how the lines of another world
read that a partial write leaves behind (log 12). -/
def Obligations.LoadsRekeysAndCheckpoints : Prop :=
  ∀ (s : State) (w c k id : Nat) (v : Byte) (file : List Byte) (secret : BitVec 256) (q : Checkpoint) (blob : Blob),
    let h := s.hub
    let d := h.domain
    let does (i : Instr) (ok : State → Prop) : Prop := ∃ t, exec i s = .next t ∧ KeepsRegsAndMemory s t ∧ ok t
    let stays (i : Instr) : Prop := exec i s = .next s
    let failed (t : State) (code : Nat) : Prop := t.world w = {} ∧ t.hub.queue = h.queue ++ [.loadfail w code] ∧
      ∀ n, (s.core n).granted = true → (s.core n).world = w → (t.core n).granted = false ∧ (t.core n).ctxs = []
    let fails (code : Nat) : Prop := ∃ t, exec (.measuredLoad w file) s = .next t ∧ failed t code
    -- loads, to step 7
    ((s.world w).st = .loading → (s.world w).load = none →
      (sectionsOf file = none → fails 1) ∧
      (∀ l, sectionsOf file = some l → (∀ r ∈ records 32 (bodyOf l 0x0A), recNat r 2 1 = 4) →
        ((l.find? (fun x => decide (x.ty = 0x0C))).bind (sigOk file) = none → fails 2) ∧
        (∀ key, (l.find? (fun x => decide (x.ty = 0x0C))).bind (sigOk file) = some key →
          decide (recNat file 6 2 % 2 = 1) ≠ (s.world w).confidential → fails 3) ∧
        (∀ key hd img dh data, (l.find? (fun x => decide (x.ty = 0x0C))).bind (sigOk file) = some key →
          decide (recNat file 6 2 % 2 = 1) = (s.world w).confidential → (∀ x ∈ l, x.ty ∈ [1, 2, 7, 0x0C]) →
          headedOf codeSize (bodyOf l 1) = some [(hd, img)] → headedOf sizeAt8 (bodyOf l 7) = some [(dh, data)] →
          let p : LoadPage := { page := recNat hd 0 8, sealed := false, proc := recNat hd 12 4, image := img }
          (pageOk (bodyOf l 2) p = false → fails 4) ∧
          (pageOk (bodyOf l 2) p = true → ∃ t, exec (.measuredLoad w file) s = .next t ∧
            let ext (a b : BitVec 384) : BitVec 384 := sha384 (leBytes 48 a.toNat ++ leBytes 48 b.toNat)
            let y := t.world w
            y.st = .loading ∧ y.step = 7 ∧ y.load = some { mprg := none, recs := [(recNat dh 0 8, data)], pages := [p] } ∧
              y.wmr = ext (ext (ext (s.world w).wmr (sha384 key)) (sha384 img)) (sha384 (bodyOf l 7)) ∧ t.hub.queue = h.queue ∧
              ∃ x, y.cpt = (s.world w).cpt ++ [x] ∧ x.page = recNat hd 0 8 ∧ x.loaded = true ∧ x.sealed = false ∧
                (t.image x).map BitVec.toNat = (List.range (img.length / 4)).map (fun i => recNat img (4 * i) 4) ∧
                KeepsOthers s t 0 ((List.range img.length).map (x.addr + ·)))))) ∧
    ((s.world w).st ≠ .loading → stays (.measuredLoad w file)) ∧
    -- its later steps
    (∀ l, (s.world w).load = some l → let t := s.loadNext w
      (∀ n ∈ s.grantOf w, (s.core n).fenced = false) →
      (l.cores = none →
        (∀ b, l.mprg = some b → mprgOf b = none → failed t 9) ∧
        (l.mprg = none → ∀ va data, l.recs = [(va, data)] →
          ((∃ i < data.length, translate (s.world w).windows (va + i) 1 .wr = none) → failed t 8) ∧
          (∀ g, (∀ i < data.length, translate (s.world w).windows (va + i) 1 .wr = some (g + i)) → (∀ p ∈ l.pages, p.sealed = false) →
            (t.world w).step = 8 ∧ (t.world w).load = some { l with cores := some (s.grantOf w) } ∧ (∀ n, t.core n = s.core n) ∧
              (∀ i < data.length, t.byte (g + i) = data.getD i 0) ∧ KeepsOthers s t w ((List.range data.length).map (g + ·))))) ∧
      (l.cores = some [] → t = s.updWorld w (fun x => { x with st := .ready, step := 9, load := none })) ∧
      (∀ n r p, l.cores = some (n :: r) → n ∈ s.grantOf w → l.pages = [p] →
        let syl := syllablesOf p.image
        let full : Prop := (s.core n).freeFrames.length < 1 + versionNcont syl
        (full → p.sealed = true → failed t 10) ∧
        (¬ (full ∧ p.sealed = true) → (t.world w).load = some { l with cores := some r } ∧ t.mem = s.mem ∧
          (∀ m, m ≠ n → t.core m = s.core m) ∧
          (full → t.core n = s.core n) ∧ (¬ full → t.core n = (s.core n).place p.page p.sealed syl)))) ∧
    ((s.world w).load ≠ none → (∃ n ∈ s.grantOf w, (s.core n).fenced = true ∧ ∃ e ∈ (s.core n).dir, e.2.sealed = true) →
      failed (s.loadNext w) 10) ∧
    -- this package is admitted to another's domain
    (∀ number self kgen timeout key session members, (h.ifs = .config ∨ h.ifs = .locked ∨ h.ifs = .run ∨ h.ifs = .drain) →
      d.formed = false → self ≠ k → does (.rekeyRequest ⟨k, .enrol number self kgen timeout key session members⟩) (fun t =>
        let e := t.hub.domain
        e.formed = true ∧ e.number = number ∧ e.self = self ∧ e.coordinator = k ∧ e.kgen = kgen ∧ e.secret = key ∧ e.timeout = timeout ∧
          e.phase = .idle ∧ ∀ m, (SMap.get {} e.peers m).present = true ↔ m = k ∨ (m ∈ members ∧ m ≠ self))) ∧
    -- re-keys
    (d.formed = true →
      let p := SMap.get {} d.peers k
      let lead : Prop := d.coordinator = d.self
      let others := (d.peers.filter (fun e => e.2.present && decide (e.1 ≠ d.self))).map Prod.fst
      let left := others.filter (fun m => decide (m ≠ k))
      let each (l : List Nat) (c : Control) : List Reply := l.map (fun m => .control m (SMap.get {} d.peers m).session c)
      let home (c : Control) : List Reply := if d.coordinator = d.self then [] else
        [.control d.coordinator (SMap.get {} d.peers d.coordinator).session c]
      let told : List Reply := if d.coordinator = d.self then each left (.members left) else []
      let peer (t : State) (m : Nat) : Peer := SMap.get {} t.hub.domain.peers m
      let drained : Prop := (∀ a ∈ s.posted, ∀ x, a.request = some x → a.done ≠ none ∨ ∃ y ∈ d.held, runOp y.2 = runOp x.2) ∧
        ∀ e ∈ d.peers, e.2.queued = []
      let quiet (t : State) (target : Nat) : Prop := t.hub.domain.phase = .quiesce ∧ t.hub.domain.target = target ∧ t.hub.domain.kgen = d.kgen ∧
        t.hub.domain.next = none
      let again (t : State) : Prop := t.hub.domain.again = true ↔ d.again = true ∨ d.phase = .switching ∨ d.phase = .switched
      (lead → p.present = true → k ≠ d.self →
        (d.phase = .idle → does (.rekeyRequest ⟨k, .ask⟩) (fun t => quiet t (d.kgen + 1) ∧
            t.hub.sent = h.sent ++ each others (.quiesce d.kgen d.timeout)) ∧
          does (.rekeyRequest ⟨k, .leave⟩) (fun t => quiet t (d.kgen + 1) ∧ (peer t k).present = false ∧
            t.hub.sent = h.sent ++ told ++ each left (.quiesce d.kgen d.timeout))) ∧
        (d.phase ≠ .idle → does (.rekeyRequest ⟨k, .leave⟩) (fun t => t.hub.domain.phase = d.phase ∧ (peer t k).present = false ∧ again t ∧
            t.hub.sent = h.sent ++ told) ∧
          does (.rekeyDrained ⟨d.number, k⟩) (fun t => (peer t k).drained = true) ∧
          does (.rekeySwitched ⟨d.number, k⟩ secret) (fun t => (peer t k).switched = true ∧ t.hub.domain.kgen = d.kgen))) ∧
      (d.phase ≠ .idle → stays (.rekeyRequest ⟨k, .ask⟩)) ∧
      (¬ lead → p.present = true → k ≠ d.self →
        (∀ n, k = d.coordinator → does (.rekeyRequest ⟨k, .quiesce n⟩) (fun t => quiet t (if d.phase = .idle then d.kgen + 1 else d.target) ∧
          t.hub.domain.timeout = n ∧ t.hub.sent = h.sent)) ∧
        (∀ l, k = d.coordinator → does (.rekeyRequest ⟨k, .members l⟩) (fun t => t.hub.domain.phase = d.phase ∧ t.hub.sent = h.sent ∧
          ∀ m, m ≠ d.self → (SMap.get {} d.peers m).present = true → ((peer t m).present = true ↔ m ∈ l ∨ m = k))) ∧
        (∀ n l, k ≠ d.coordinator → stays (.rekeyRequest ⟨k, .quiesce n⟩) ∧ stays (.rekeyRequest ⟨k, .members l⟩))) ∧
      (d.phase = .quiesce →
        (drained → does (.rekeyDrained ⟨d.number, d.self⟩) (fun t => t.hub.domain = { d with phase := .drained } ∧
          t.hub.sent = h.sent ++ home (.drained d.kgen))) ∧
        (¬ drained → stays (.rekeyDrained ⟨d.number, d.self⟩))) ∧
      (d.phase = .drained → ∀ e, d.peers = [e] → e.2.present = true → e.1 ≠ d.self →
        (lead → e.2.drained = false → stays (.rekeySwitch d.number)) ∧
        (¬ lead ∨ e.2.drained = true → does (.rekeySwitch d.number) (fun t => t.hub.domain.phase = .switching ∧ t.hub.domain.kgen = d.kgen ∧
          (peer t e.1).sendSeq = e.2.sendSeq + 1 ∧ ∃ key cells tag,
            (¬ lead → t.hub.sent = h.sent ++ [.run e.1 e.2.sendSeq d.kgen 1 cells tag] ∧ t.hub.domain.next = none) ∧
            (lead → t.hub.domain.next = some key ∧ t.hub.sent = h.sent ++ [.control e.1 e.2.session (.secret d.target key),
              .control e.1 e.2.session (.switch d.target), .run e.1 e.2.sendSeq d.kgen 1 cells tag])))) ∧
      (d.phase = .switching →
        ((∀ m ∈ others, (SMap.get {} d.peers m).barrierSeen = true ∧ (SMap.get {} d.peers m).runs = []) →
          (d.target < 2 ^ 32 → does (.rekeySwitched ⟨d.number, d.self⟩ secret) (fun t => t.hub.domain.phase = .switched ∧
            t.hub.domain.kgen = d.target ∧ t.hub.domain.secret = d.next.getD secret ∧ (∀ e ∈ t.hub.domain.peers, e.2.sendSeq = 0 ∧ e.2.seen = []) ∧
            t.hub.sent = h.sent ++ home (.switched d.target))) ∧
          (2 ^ 32 ≤ d.target → does (.rekeySwitched ⟨d.number, d.self⟩ secret) (fun t => t.hub.domain.formed = false ∧
            t.hub.queue = h.queue ++ [.domainDissolved d.number]))) ∧
        (∀ m ∈ others, (SMap.get {} d.peers m).barrierSeen = false ∨ (SMap.get {} d.peers m).runs ≠ [] →
          stays (.rekeySwitched ⟨d.number, d.self⟩ secret))) ∧
      (d.phase = .switched →
        let all : Prop := lead → ∀ m ∈ others, (SMap.get {} d.peers m).switched = true
        (all → ¬ lead ∨ d.again = false → does (.rekeyResume d.number) (fun t => t.hub.domain.phase = .idle ∧
          t.hub.domain.held = [] ∧ t.hub.sent = h.sent ++ (if d.coordinator = d.self then each others (.resume d.kgen) else []) ∧
          ∀ m, (peer t m).queued = (SMap.get {} d.peers m).queued ++ (d.held.filter (fun x => decide (x.1 = m))).map Prod.snd)) ∧
        (all → lead → d.again = true → does (.rekeyResume d.number) (fun t => quiet t (d.kgen + 1) ∧ t.hub.domain.again = false ∧
          t.hub.sent = h.sent ++ each others (.quiesce d.kgen d.timeout) ∧ ∀ x ∈ d.held, x ∈ t.hub.domain.held)) ∧
        (lead → (∃ m ∈ others, (SMap.get {} d.peers m).switched = false) → stays (.rekeyResume d.number))) ∧
      (d.phase ≠ .idle → k ≠ d.self → p.present = true → k ≠ d.coordinator → does (.rekeyPhaseTimeout d.number k) (fun t =>
        (peer t k).present = false ∧ (peer t k).queued = [] ∧ t.hub.domain.phase = d.phase ∧ again t ∧ t.hub.sent = h.sent ++ told ∧
          ∀ a ∈ s.posted, a.done = none → (∃ add sync moves pl, a.act = .fabric k add sync moves pl) →
            { a with act := .read [], err := true } ∈ t.posted)) ∧
      (d.phase ≠ .idle → k ≠ d.self → p.present = true → k = d.coordinator → does (.rekeyPhaseTimeout d.number k) (fun t =>
        quiet t d.target ∧ t.hub.domain.coordinator ≤ d.self ∧ (peer t k).present = false ∧
          (t.hub.domain.coordinator = d.self → t.hub.sent = h.sent ++ each left (.quiesce d.kgen d.timeout)))) ∧
      (d.phase ≠ .idle → k = d.self → does (.rekeyPhaseTimeout d.number k) (fun t => t.hub.domain.formed = false ∧
        t.hub.queue = h.queue ++ [.domainDissolved d.number]))) ∧
    -- checkpoints
    (h.ckpt = some q →
      (q.step = 2 → s.now % frameCycles = 0 → s.ckptQuiet = true → does .checkpointBarrier (fun t => ∃ r, t.hub.ckpt = some r ∧ r.step = 3 ∧
        (∀ a b st, (a, b, st) ∈ r.kept → (st = .trapped ∨ st = .preempted) ∧ ∃ e ∈ s.cores, e.1 = a ∧ ∃ x ∈ e.2.ctxs, x.1 = b ∧ x.2.st = st) ∧ r.packet = q.packet)) ∧
      (q.step = 2 → s.ckptQuiet = false → stays .checkpointBarrier) ∧
      (q.step = 2 → q.began + q.budget ≤ s.gtick.toNat → ∃ t, exec .checkpointBudgetExpiry s = .next t ∧ t.hub.ckpt = none ∧
        ∀ p ∈ s.packets, p.id = q.packet → p.entry = none → ∃ r ∈ t.packets, r.id = p.id ∧ r.st = .done ∧ r.status = 7) ∧
      (q.step = 2 → s.gtick.toNat < q.began + q.budget → stays .checkpointBudgetExpiry) ∧
      (q.step = 3 → q.kept = [(c, k, (s.ctx c k).st)] →
        ((s.core c).fenced = false → s.drained c k = true → ∃ t, exec .checkpointSaveDone s = .next t ∧
          (∃ r, t.hub.ckpt = some r ∧ r.step = 4 ∧ r.kept = q.kept) ∧ (t.ctx c k).st = .saved ∧ (t.ctx c k).savedAt = some (s.core c).savebase) ∧
        ((s.core c).fenced = false → s.drained c k = false → stays .checkpointSaveDone) ∧
        ((s.core c).fenced = true → ∃ t, exec .checkpointSaveDone s = .next t ∧ (∃ r, t.hub.ckpt = some r ∧ r.step = 4 ∧ r.kept = []) ∧
          t.ctx c k = s.ctx c k)) ∧
      (q.step = 4 → does (.checkpointStreamDone true) (fun t => ∃ r b, t.hub.ckpt = some r ∧ r.step = 5 ∧ r.sinkOk = true ∧
          t.hub.sent = h.sent ++ s.streamed r ++ [.blob b (ecdsaSign h.alk (sha384 (blobBytes b)))] ∧ b.gtick = s.gtick ∧ b.profile = h.profile ∧
          b.partition = (List.range 4).map s.part ∧ b.msl = (List.range 32).map (SMap.get 0 h.msl) ∧ b.cxlOff = r.cxlOff ∧
          b.worlds.map BlobWorld.world = (s.worlds.filter (fun e => decide (e.2.st ≠ .empty))).map Prod.fst ∧
          (∀ p, p ∈ r.cxlOff ↔ p < 4 ∧ q.incx = true ∧ SMap.get false h.offline p = true) ∧
          ∀ y ∈ s.streamed r, ∃ port a cells, y = .stream port q.peer a cells ∧ (∀ e ∈ cells, e.1 < 65536 ∧ e.2 ≠ 0) ∧
            (q.pmask % 256 ≠ 0 → q.pmask.testBit port = true)) ∧
        does (.checkpointStreamDone false) (fun t => (∃ r, t.hub.ckpt = some r ∧ r.step = 5 ∧ r.sinkOk = false) ∧ t.hub.sent = h.sent)) ∧
      (q.step = 5 → q.kept = [] → ∃ t, exec .checkpointBlobDone s = .next t ∧ t.hub.ckpt = none ∧
        ∀ p ∈ s.packets, p.id = q.packet → p.entry = none → ∃ r ∈ t.packets, r.id = p.id ∧ r.st = .done ∧
          (q.sinkOk = false → r.status = 0x13) ∧
          (q.sinkOk = true → q.cxlOff ≠ [] ∨ (q.incx = true ∧ ∃ e ∈ h.offline, e.2 = true) → r.status = 0x14) ∧
          (q.sinkOk = true → q.cxlOff = [] → q.incx = false ∨ (∀ e ∈ h.offline, e.2 = false) → r.status = 0))) ∧
    ((h.ifs = .config ∨ h.ifs = .locked ∨ h.ifs = .run ∨ h.ifs = .drain) → h.ckpt = none → blob.profile = h.profile →
      blob.partition = (List.range 4).map s.part → blob.mem = [(id, v)] →
      (blob.worlds = [] → ∃ t, exec (.checkpointRestore blob) s = .next t ∧ t.byte id = v ∧ (∀ b, b ≠ id → t.byte b = s.byte b) ∧
        t.worlds = s.worlds) ∧
      (∀ b, blob.worlds = [b] → b.world ≠ 0 → (s.world b.world).st = .empty → b.grant = [] →
        (∀ key, keyUnwrap h.slk b.wrapped = some key → ∃ t, exec (.checkpointRestore blob) s = .next t ∧
          let y := t.world b.world
          let n := id / 64
          y.st = (if b.st = 1 then .loading else if b.st = 3 then .draining else .ready) ∧ y.key = some key ∧ y.wmr = b.wmr ∧ y.cred = b.cred ∧
            y.confidential = b.confidential ∧ y.step = b.step ∧ ((∀ e ∈ y.windows, e.2.v = false) → t.byte id = v) ∧
            (v ≠ 0 → encrypted (64 * n) = true → (∃ e ∈ y.windows, e.2.v = true ∧ e.2.pbase ≤ 64 * n ∧ 64 * n < e.2.pbase + (e.2.size + 1) * 0x200000) →
              ∀ i < 64, t.byte (64 * n + i) = (xtsDecrypt key (64 * n) ((s.setByte id v).bytes (64 * n) 64)).getD i 0)) ∧
        (keyUnwrap h.slk b.wrapped = none → ∃ t, exec (.checkpointRestore blob) s = .next t ∧ t.byte id = v ∧ t.worlds = s.worlds)))


/-! ### One role change at a time (1), the step, decoding, reset and the whole machine (13, 14, 16) -/

/-- R26: a partition command that comes while another is in progress completes with BUSY, status 1, and changes nothing else: the
change in progress stays the one it was. -/
def Obligations.OnePartitionCommand : Prop :=
  ∀ (s : State) (id : Nat) (p : Packet) (r : RoleChange), s.packet id = some p → p.st = .running → pkOpc p.bits = 7 → p.acted = false →
    s.hub.role = some r → ∃ t q, exec (.partition id) s = .next t ∧ t = { s with packets := t.packets } ∧ t.hub.role = some r ∧
      t.packet id = some q ∧ q = { p with st := .done, status := 1, aux := 0 } ∧
      ∀ n, n ≠ id → t.packet n = s.packet n

/-- A step from outside that is waiting is taken first, and it is `exec` of it on the state without it (log 2): the first, or one that R53 lets
overtake those before it. R145, R283 and R304: where
nothing else is due, and a running context stands inside a page at a bundle that decodes and that no whole-bundle check stops, the step is
`exec` of its slots' instructions in slot order, each on the state the earlier one leaves; when all have gone on, the context goes to the
next bundle. An empty bundle, a block, a trap and an entry at a landing are other cases. The order in which events, bundles and untimed
actions are taken within a cycle is the model's (log 2). -/
def Obligations.StepRunsInstructions : Prop :=
  (∀ (s : State) (i : Instr) (r : List Instr), s.inbox = i :: r → (r = [] ∨ ∀ j ∈ i :: r, unordered j = false) →
    step s = exec i { s with inbox := r }) ∧
  (∀ s : State, s.inbox ≠ [] → ∃ (n : Nat) (i : Instr) (t : State), s.inbox[n]? = some i ∧ step s = exec i t ∧
    t = { s with inbox := s.inbox.eraseIdx n, fresh := t.fresh } ∧ (unordered i = true ∨ ∀ j ∈ s.inbox.take n, unordered j = true)) ∧
  ∀ (s t : State) (c k page base land o : Nat) (b : Bundle), s.inbox = [] → s.freshStep = none → s.beforeIssue = none → s.issuer? = some (c, k) →
    (s.ctx c k).point = .inside page base land o → pinnedOk ((s.core c).pageLcd base) ((s.core c).pagePfd base) ((s.core c).pageTag base) (s.tag c) = true →
    o / 32 < (s.core c).pageLen base → bit ((s.core c).pageSyl base o) 31 = true →
    decodeBundle ((s.core c).pageSyl base o) ((List.range 18).map (fun i => (s.core c).pageSyl base (o + 1 + i))) (32 - o % 32) = .ok b →
    b.slots ≠ [] → let u := { s with curCore := c, curCtx := k }.updCtx c k (fun x => { x with point := .inside page base land o })
    u.bundleStop b = none → RunsAll (b.slots.map Prod.snd) (u.updCtx c k (fun x => { x with wait := [] })) t →
    step s = .next ((t.finish b.len).fallThrough c k)

/-- R350 to R363: a bundle whose header names slots holds, in slot order, the instruction that each slot's map reads from its own syllables, and is
as long as its header says. R352, R362 and R363: a slot whose start bit is set or whose OP its map does not list is refused, whatever its
other bits; a bundle is refused at slot index 15 where its header's bits 17:0 are not zero, where it is a landing without QT, and where it
does not fit its packet. -/
def Obligations.BundlesAndReservedEncodings : Prop :=
  (∀ (h : Syllable) (ws : List Syllable) (room : Nat) (b : Bundle), decodeBundle h ws room = .ok b →
    b.slots.map Prod.fst = Slot.all.filter (fun x => bit h (30 - x.index)) ∧
    b.len = 1 + ((b.slots.map Prod.fst).map Slot.syllables).sum ∧ b.len ≤ room ∧ b.lnd = bit h 19 ∧ b.qt = bit h 18 ∧
    ∀ pre x post, b.slots = pre ++ x :: post → let n := ((pre.map Prod.fst).map Slot.syllables).sum
      decodeSlot x.1.kind (ws.getD n 0) (if x.1.syllables = 2 then ws.getD (n + 1) 0 else 0) = .ok x.2) ∧
  (∀ (k : SlotKind) (w0 w1 : Syllable) (i : Instr), decodeSlot k w0 w1 = .ok i → k ≠ .U →
    bit w0 31 = false ∧ (k ∉ [SlotKind.C, .I, .S] → bit w1 31 = false) ∧ let op := (fld w0 25 6).toNat
    op ∈ (match k with
      | .C => [1, 2, 3, 4, 5, 6, 7, 8, 9, 0x0A, 0x0B, 0x0C, 0x0D, 0x0E, 0x10, 0x11, 0x12, 0x13, 0x14, 0x15, 0x16, 0x18]
      | .I => List.range' 1 0x26 ++ [0x28, 0x29, 0x2A, 0x2B, 0x30, 0x31, 0x32, 0x33]
      | .V => List.range' 1 0x19 ++ [0x20, 0x21, 0x22, 0x30]
      | .X => List.range' 1 0x14 ++ [0x18, 0x19, 0x1A, 0x1B, 0x20, 0x21, 0x22, 0x23, 0x24, 0x30, 0x31]
      | .M | .Y => [1, 2, 3, 4, 5, 6]
      | .L => [1, 2, 3, 4, 5, 8, 9, 0x0A, 0x0B]
      | .S => [1, 2]
      | .K => [1, 2, 3, 4, 6, 7, 8, 9, 0x0A, 0x0B]
      | .U => [])) ∧
  (∀ (h : Syllable) (ws : List Syllable) (room : Nat),
    (fld h 0 18 ≠ 0#18 ∨ (bit h 19 = true ∧ bit h 18 = false) ∨ room < bundleLen h → decodeBundle h ws room = .error 15))

/-- R356 to R361, R185, R244, R429, R443 and R456: words of the manual's own listings decode to the instructions that the listings write beside them. -/
def Obligations.DecodedWords : Prop :=
  decodeSlot .C 0x28060400#32 0 = .ok (.rdsys 0 12 .wid) ∧ decodeSlot .C 0x1C040000#32 0 = .ok (.fence 0 .d) ∧
  decodeSlot .I 0x02628210#32 0 = .ok (.add 3 5 1 2) ∧ decodeSlot .I 0x22079814#32 0 = .ok (.shli 0 15 12 20) ∧
  decodeSlot .V 0x02128C00#32 0x01008800#32 = .ok (.vadd 0 .w1024 .i32 6 .rne (.v 1 0) (.v 2 1)) ∧
  decodeSlot .X 0x09205000#32 0x21000000#32 = .ok (.exp2R 9 .w256 40 (.v 33 0)) ∧
  decodeSlot .M 0x04000400#32 0 = .ok (.mrep 0 2) ∧ decodeSlot .L 0x0A1E1606#32 0x40#32 = .ok (.atom 0 .b64 .xb 5 .or 6 0 0x40) ∧
  decodeSlot .S 0x0210C000#32 0 = .ok (.spStV 0 3 0) ∧ decodeSlot .K 0x02062200#32 0 = .ok (.cpyTl 0 3 1 false .ab 0 0) ∧
  decodeSlot .Y 0x04064004#32 0x001F0063#32 = .ok (.ysetd 0 3 1 4 0 31 99) ∧
  decodeSlot .U 0 0x10020000#32 = .ok (.uDrain false 1 false .cb 0 false)

/-- R350 to R361: every well-formed slot instruction or microinstruction, with every operand at every value its encoding admits, decodes from its encoding
in its own map to itself. -/
def Obligations.EncodingsDecode : Prop :=
  ∀ (i : Instr) (k : SlotKind), i.wf = true → i.kind = some k →
    match encode i with
    | [w0] => ∀ w1, decodeSlot k w0 w1 = .ok i
    | [w0, w1] => decodeSlot k w0 w1 = .ok i
    | _ => False

/-- R350 to R362: what a map reads from syllables is a well-formed instruction of that map, and its encoding gives the syllables back: no bit of a legal
encoding is without meaning. -/
def Obligations.DecodingLosesNothing : Prop :=
  ∀ (k : SlotKind) (w0 w1 : Syllable) (i : Instr), decodeSlot k w0 w1 = .ok i →
    i.wf = true ∧ i.kind = some k ∧ encode i = if k = .C ∨ k = .I ∨ k = .S then [w0] else [w0, w1]

/-- R60, R72, R82, R114 and R125: after reset the interface is in RESET, no world but EMPTY ones, no frond and no packet exists, every slot-table entry is
FREE, the measurement slots read zero, and every context is IDLE with its registers zero; memory's form is canonical. That memory that
nothing has written reads zero is the model's (log 1). -/
def Obligations.ResetValues : Prop :=
  let s := State.reset
  s.hub.ifs = .reset ∧ s.gtick = 0 ∧ s.packets = [] ∧ s.fronds = [] ∧ s.posted = [] ∧ s.calendar = [] ∧ Memory.wf s.mem ∧
  (∀ w, (s.world w).st = .empty) ∧ (∀ e, (s.slot e).st = .free) ∧ (∀ n, SMap.get 0 s.hub.msl n = 0) ∧ (∀ b, s.byte b = 0) ∧
  (∀ d, (s.die d).log = [] ∧ (s.die d).lost = 0) ∧
  ∀ c k, (s.core c).granted = false ∧ (s.ctx c k).st = .idle ∧ (∀ r, (s.ctx c k).gr r = 0 ∧ (s.ctx c k).vr r = 0)

/-- R280 and R286: no step of the machine ends it: a trap, an error, a refusal and the interface state FAULT are all next states. -/
def Obligations.EveryStepGoesOn : Prop := ∀ s : State, Goes s

/-- Every step keeps memory in its canonical form: addresses strictly rising, and no byte listed that reads as an unlisted one (log 1). -/
def Obligations.MemoryFormKept : Prop :=
  ∀ s t : State, Memory.wf s.mem → step s = .next t → Memory.wf t.mem
end

