-- ==== Sys2Proof/Laws/Crypto.lean ====
section
/-! SUPPORT. What the cryptographic functions undo: AES-256 decrypts what it encrypted, a sealed text opens, a wrapped key unwraps, and
a line of memory deciphers to itself. -/

namespace Sys2Proof.Machine

/-! ### Bytes -/

@[simp] theorem leBytes_length (n v : Nat) : (leBytes n v).length = n := by
  induction n generalizing v with
  | zero => rfl
  | succ n ih => simp [leBytes, ih]
@[simp] theorem beBytes_length (n v : Nat) : (beBytes n v).length = n := by simp [beBytes]
theorem leNat_leBytes (n v : Nat) : leNat (leBytes n v) = v % 256 ^ n := by
  induction n generalizing v with
  | zero => simp [leBytes, leNat, Nat.mod_one]
  | succ n ih => simp [leBytes, leNat, ih, pow_succ', Nat.mod_mul]
@[simp] theorem xorBytes_length (a b : List Byte) : (xorBytes a b).length = min a.length b.length := by simp [xorBytes]
theorem xorBytes_xorBytes (a b : List Byte) (h : a.length ≤ b.length) : xorBytes (xorBytes a b) b = a := by
  induction a generalizing b with
  | nil => simp [xorBytes]
  | cons x a ih =>
    cases b with
    | nil => simp at h
    | cons y b => simpa [xorBytes, BitVec.xor_assoc] using ih b (by simpa using h)
theorem bytesBy_nil (n : Nat) (h : 0 < n) : bytesBy n [] = [] := by
  simp [bytesBy, Nat.div_eq_of_lt (Nat.sub_lt h Nat.one_pos)]
theorem bytesBy_cons (n : Nat) (l : List Byte) (h : 0 < n) (hl : l ≠ []) : bytesBy n l = l.take n :: bytesBy n (l.drop n) := by
  have hp : 0 < l.length := List.length_pos_iff.mpr hl
  have hd : (l.length + n - 1) / n = (l.length - n + n - 1) / n + 1 := by
    rcases Nat.lt_or_ge l.length n with hn | hn
    · rw [Nat.sub_eq_zero_of_le hn.le, Nat.div_eq_of_lt (by omega : 0 + n - 1 < n)]
      exact Nat.div_eq_of_lt_le (by omega) (by omega)
    · rw [← Nat.add_div_right _ h]; congr 1; omega
  simp only [bytesBy, hd, List.length_drop, List.range_succ_eq_map, List.map_cons, List.map_map, Nat.mul_zero, List.drop_zero]
  congr 1
  apply List.map_congr_left
  intro i _
  simp [List.drop_drop, Nat.mul_succ, Nat.add_comm]

/-! ### AES-256 -/

theorem xtime_xor (a b : Byte) : xtime (a ^^^ b) = xtime a ^^^ xtime b := by
  revert a b
  simp only [xtime, BitVec.shiftLeft_xor_distrib, BitVec.getLsbD_xor]
  intro a b
  cases a.getLsbD 7 <;> cases b.getLsbD 7 <;> simp [BitVec.xor_assoc]
  exact BitVec.xor_comm _ _
theorem gfMul_xor (c a b : Byte) : gfMul c (a ^^^ b) = gfMul c a ^^^ gfMul c b := by
  have h : ∀ n k (a b : Byte), gfMulBits n k (a ^^^ b) = gfMulBits n k a ^^^ gfMulBits n k b := by
    intro n
    induction n with
    | zero => simp [gfMulBits]
    | succ n ih =>
      intro k a b
      simp only [gfMulBits, xtime_xor, ih]
      split_ifs
      · simp
      · ac_rfl
      · rfl
  exact h 8 _ a b
/-- The table is the substitution of the standard: the inverse in the field, and an affine map. -/
theorem subByte_inverse : ∀ b : Byte, ∃ v : Byte, (if b = 0 then v = 0 else gfMul b v = 1) ∧
    subByte b = v ^^^ v.rotateLeft 1 ^^^ v.rotateLeft 2 ^^^ v.rotateLeft 3 ^^^ v.rotateLeft 4 ^^^ 0x63 := by
  intro b
  refine ⟨(let c := unsubByte 0x63; let w := subByte b ^^^ 0x63; c ^^^ w.rotateLeft 1 ^^^ w.rotateLeft 3 ^^^ w.rotateLeft 6), ?_⟩
  revert b
  decide +kernel
theorem unsubByte_subByte : ∀ b : Byte, unsubByte (subByte b) = b := by decide +kernel
/-- The columns' matrix times its inverse, on one byte. -/
theorem mixByte : ∀ a : Byte,
    gfMul 14#8 (gfMul 2#8 a) ^^^ gfMul 11#8 (gfMul 1#8 a) ^^^ gfMul 13#8 (gfMul 1#8 a) ^^^ gfMul 9#8 (gfMul 3#8 a) = a ∧
    gfMul 14#8 (gfMul 3#8 a) ^^^ gfMul 11#8 (gfMul 2#8 a) ^^^ gfMul 13#8 (gfMul 1#8 a) ^^^ gfMul 9#8 (gfMul 1#8 a) = 0#8 ∧
    gfMul 14#8 (gfMul 1#8 a) ^^^ gfMul 11#8 (gfMul 3#8 a) ^^^ gfMul 13#8 (gfMul 2#8 a) ^^^ gfMul 9#8 (gfMul 1#8 a) = 0#8 ∧
    gfMul 14#8 (gfMul 1#8 a) ^^^ gfMul 11#8 (gfMul 1#8 a) ^^^ gfMul 13#8 (gfMul 3#8 a) ^^^ gfMul 9#8 (gfMul 2#8 a) = 0#8 := by decide +kernel
/-- One row of the product, on a column. -/
theorem mixRow (a b c d : Byte) :
    0#8 ^^^ gfMul 14#8 (0#8 ^^^ gfMul 2#8 a ^^^ gfMul 3#8 b ^^^ gfMul 1#8 c ^^^ gfMul 1#8 d) ^^^ gfMul 11#8 (0#8 ^^^ gfMul 1#8 a ^^^ gfMul 2#8 b ^^^ gfMul 3#8 c ^^^ gfMul 1#8 d) ^^^
      gfMul 13#8 (0#8 ^^^ gfMul 1#8 a ^^^ gfMul 1#8 b ^^^ gfMul 2#8 c ^^^ gfMul 3#8 d) ^^^ gfMul 9#8 (0#8 ^^^ gfMul 3#8 a ^^^ gfMul 1#8 b ^^^ gfMul 1#8 c ^^^ gfMul 2#8 d) = a := by
  simp only [BitVec.zero_xor, gfMul_xor]
  rw [show ∀ a1 b1 c1 d1 a2 b2 c2 d2 a3 b3 c3 d3 a4 b4 c4 d4 : Byte, (a1 ^^^ b1 ^^^ c1 ^^^ d1) ^^^ (a2 ^^^ b2 ^^^ c2 ^^^ d2) ^^^
      (a3 ^^^ b3 ^^^ c3 ^^^ d3) ^^^ (a4 ^^^ b4 ^^^ c4 ^^^ d4) = (a1 ^^^ a2 ^^^ a3 ^^^ a4) ^^^ (b1 ^^^ b2 ^^^ b3 ^^^ b4) ^^^
      (c1 ^^^ c2 ^^^ c3 ^^^ c4) ^^^ (d1 ^^^ d2 ^^^ d3 ^^^ d4) by intros; ac_rfl,
    (mixByte a).1, (mixByte b).2.1, (mixByte c).2.2.1, (mixByte d).2.2.2]
  simp
theorem mixRow1 (a b c d : Byte) :
    0#8 ^^^ gfMul 9#8 (0#8 ^^^ gfMul 2#8 a ^^^ gfMul 3#8 b ^^^ gfMul 1#8 c ^^^ gfMul 1#8 d) ^^^
      gfMul 14#8 (0#8 ^^^ gfMul 1#8 a ^^^ gfMul 2#8 b ^^^ gfMul 3#8 c ^^^ gfMul 1#8 d) ^^^
      gfMul 11#8 (0#8 ^^^ gfMul 1#8 a ^^^ gfMul 1#8 b ^^^ gfMul 2#8 c ^^^ gfMul 3#8 d) ^^^
      gfMul 13#8 (0#8 ^^^ gfMul 3#8 a ^^^ gfMul 1#8 b ^^^ gfMul 1#8 c ^^^ gfMul 2#8 d) = b :=
  Eq.trans (by ac_rfl) (mixRow b c d a)
theorem mixRow2 (a b c d : Byte) :
    0#8 ^^^ gfMul 13#8 (0#8 ^^^ gfMul 2#8 a ^^^ gfMul 3#8 b ^^^ gfMul 1#8 c ^^^ gfMul 1#8 d) ^^^
      gfMul 9#8 (0#8 ^^^ gfMul 1#8 a ^^^ gfMul 2#8 b ^^^ gfMul 3#8 c ^^^ gfMul 1#8 d) ^^^
      gfMul 14#8 (0#8 ^^^ gfMul 1#8 a ^^^ gfMul 1#8 b ^^^ gfMul 2#8 c ^^^ gfMul 3#8 d) ^^^
      gfMul 11#8 (0#8 ^^^ gfMul 3#8 a ^^^ gfMul 1#8 b ^^^ gfMul 1#8 c ^^^ gfMul 2#8 d) = c :=
  Eq.trans (by ac_rfl) (mixRow c d a b)
theorem mixRow3 (a b c d : Byte) :
    0#8 ^^^ gfMul 11#8 (0#8 ^^^ gfMul 2#8 a ^^^ gfMul 3#8 b ^^^ gfMul 1#8 c ^^^ gfMul 1#8 d) ^^^
      gfMul 13#8 (0#8 ^^^ gfMul 1#8 a ^^^ gfMul 2#8 b ^^^ gfMul 3#8 c ^^^ gfMul 1#8 d) ^^^
      gfMul 9#8 (0#8 ^^^ gfMul 1#8 a ^^^ gfMul 1#8 b ^^^ gfMul 2#8 c ^^^ gfMul 3#8 d) ^^^
      gfMul 14#8 (0#8 ^^^ gfMul 3#8 a ^^^ gfMul 1#8 b ^^^ gfMul 1#8 c ^^^ gfMul 2#8 d) = d :=
  Eq.trans (by ac_rfl) (mixRow d a b c)
/-- A list of sixteen is its sixteen bytes. -/
theorem sixteen (l : List Byte) (h : l.length = 16) : l = (List.range 16).map (fun i => l.getD i 0) := by
  refine List.ext_getElem (by simp [h]) fun i h1 h2 => ?_
  simp [List.getElem?_eq_getElem h1]
@[simp] theorem shiftRows_length (m : Nat) (l : List Byte) : (shiftRows m l).length = 16 := by simp [shiftRows]
@[simp] theorem mixColumns_length (c l : List Byte) : (mixColumns c l).length = 16 := by simp [mixColumns]
theorem shiftRows_shiftRows (l : List Byte) (h : l.length = 16) : shiftRows 3 (shiftRows 1 l) = l := by
  rw [sixteen l h]; rfl
theorem mixColumns_mixColumns (l : List Byte) (h : l.length = 16) : mixColumns [14, 11, 13, 9] (mixColumns [2, 3, 1, 1] l) = l := by
  rw [sixteen l h]
  generalize (fun i => l.getD i 0) = x
  simp only [mixColumns, List.range, List.range.loop, List.map, List.foldl, List.cons.injEq, and_true]
  exact ⟨mixRow _ _ _ _, mixRow1 _ _ _ _, mixRow2 _ _ _ _, mixRow3 _ _ _ _, mixRow _ _ _ _, mixRow1 _ _ _ _, mixRow2 _ _ _ _, mixRow3 _ _ _ _,
    mixRow _ _ _ _, mixRow1 _ _ _ _, mixRow2 _ _ _ _, mixRow3 _ _ _ _, mixRow _ _ _ _, mixRow1 _ _ _ _, mixRow2 _ _ _ _, mixRow3 _ _ _ _⟩

theorem map_unsub_sub (l : List Byte) : (l.map subByte).map unsubByte = l := by
  simp [Function.comp_def, unsubByte_subByte]
/-- The steps of a round undone: the key's, the columns', and the rows' with the substitution. -/
theorem undoKey (m : Nat) (l k : List Byte) (h : k.length = 16) : xorBytes (xorBytes (shiftRows m l) k) k = shiftRows m l :=
  xorBytes_xorBytes _ _ (by simp [h])
theorem undoMix (m : Nat) (l k : List Byte) (h : k.length = 16) :
    mixColumns [14, 11, 13, 9] (xorBytes (xorBytes (mixColumns [2, 3, 1, 1] (shiftRows m l)) k) k) = shiftRows m l := by
  rw [xorBytes_xorBytes _ _ (by simp [h]), mixColumns_mixColumns _ (by simp)]
theorem undoSub (l k : List Byte) (hl : l.length = 16) (h : k.length = 16) :
    (shiftRows 3 (shiftRows 1 ((xorBytes l k).map subByte))).map unsubByte = xorBytes l k := by
  rw [shiftRows_shiftRows _ (by simp [hl, h]), map_unsub_sub]
/-- A list of fifteen is its fifteen entries. -/
theorem fifteen {α : Type} (l : List α) (h : l.length = 15) : ∃ a b c d e f g i j k m n o p q, l = [a, b, c, d, e, f, g, i, j, k, m, n, o, p, q] := by
  match l, h with
  | [a, b, c, d, e, f, g, i, j, k, m, n, o, p, q], _ => exact ⟨a, b, c, d, e, f, g, i, j, k, m, n, o, p, q, rfl⟩
theorem aesDecrypt_aesEncrypt (key block : List Byte) (h : (aesKeys key).map List.length = List.replicate 15 16) (hb : block.length = 16) :
    aesDecrypt key (aesEncrypt key block) = block := by
  have hl : (aesKeys key).length = 15 := by simpa using congrArg List.length h
  obtain ⟨a, b, c, d, e, f, g, i, j, k, m, n, o, p, q, hk⟩ := fifteen _ hl
  rw [hk] at h
  simp only [List.map, List.replicate, List.cons.injEq, and_true] at h
  obtain ⟨ha, hb', hc, hd, he, hf, hg, hi, hj, hk', hm, hn, ho, hp, hq⟩ := h
  simp only [aesDecrypt, aesEncrypt, hk, List.reverse, List.reverseAux, List.zipIdx, List.foldl, Nat.reduceEqDiff, Nat.reduceAdd, reduceIte]
  rw [undoKey _ _ _ hq]
  simp only [undoSub, undoMix, mixColumns_length, hb, ha, hb', hc, hd, he, hf, hg, hi, hj, hk', hm, hn, ho, hp]
  exact xorBytes_xorBytes _ _ (by simp [hb, ha])
theorem aesEncrypt_length (key block : List Byte) (h : (aesKeys key).map List.length = List.replicate 15 16) :
    (aesEncrypt key block).length = 16 := by
  have hl : (aesKeys key).length = 15 := by simpa using congrArg List.length h
  obtain ⟨a, b, c, d, e, f, g, i, j, k, m, n, o, p, q, hk⟩ := fifteen _ hl
  rw [hk] at h
  simp only [List.map, List.replicate, List.cons.injEq, and_true] at h
  simp [aesEncrypt, hk, List.zipIdx, h]
theorem bytesBy_length (n : Nat) (l : List Byte) (h : 0 < n) (k : Nat) (hl : l.length = n * k) :
    (bytesBy n l).length = k ∧ ∀ x ∈ bytesBy n l, x.length = n := by
  induction k generalizing l with
  | zero => simp [List.eq_nil_of_length_eq_zero (by simpa using hl), bytesBy_nil n h]
  | succ k ih =>
    have hn : l ≠ [] := by rintro rfl; simp at hl; omega
    have := ih (l.drop n) (by rw [List.length_drop, hl, Nat.mul_succ]; omega)
    rw [bytesBy_cons n l h hn]
    refine ⟨by simp [this.1], fun x hx => ?_⟩
    rcases List.mem_cons.mp hx with rfl | hx
    · rw [List.length_take, hl, Nat.mul_succ]; omega
    · exact this.2 x hx
theorem aesWord_length (w : List (List Byte)) (n : Nat) (hw : w.length = 8 + n) (h : ∀ x ∈ w, x.length = 4) : (aesWord w n).length = 4 := by
  have g (i : Nat) (hi : i < 8 + n) : (w.getD i []).length = 4 := by
    rw [List.getD_eq_getElem _ _ (by omega)]; exact h _ (List.getElem_mem _)
  rw [aesWord, xorBytes_length, g _ (by omega)]
  have e := g (n + 7) (by omega)
  generalize w.getD (n + 7) [] = t at e
  match t, e with
  | [a, b, c, d], _ => split_ifs <;> simp
theorem aesWords_length (w : List (List Byte)) (n m : Nat) (hw : w.length = 8 + n) (h : ∀ x ∈ w, x.length = 4) :
    ((List.range' n m).foldl (fun w n => w ++ [aesWord w n]) w).length = 8 + n + m ∧
      ∀ x ∈ (List.range' n m).foldl (fun w n => w ++ [aesWord w n]) w, x.length = 4 := by
  induction m generalizing n w with
  | zero => exact ⟨by simpa using hw, by simpa using h⟩
  | succ m ih =>
    have := ih (w ++ [aesWord w n]) (n + 1) (by simp [hw]; omega) (fun x hx => by
      rcases List.mem_append.mp hx with hx | hx
      · exact h x hx
      · rw [List.mem_singleton.mp hx, aesWord_length w n hw h])
    exact ⟨by rw [List.range'_succ, List.foldl_cons, this.1]; omega, this.2⟩
/-- A key of 32 bytes has fifteen round keys of sixteen bytes. -/
theorem aesKeys_lengths (key : List Byte) (h : key.length = 32) : (aesKeys key).map List.length = List.replicate 15 16 := by
  obtain ⟨h1, h2⟩ := bytesBy_length 4 key (by omega) 8 h
  obtain ⟨h3, h4⟩ := aesWords_length _ 0 52 h1 h2
  rw [aesKeys, List.range_eq_range']
  generalize (List.range' 0 52).foldl (fun w n => w ++ [aesWord w n]) (bytesBy 4 key) = w at h3 h4
  refine List.ext_getElem (by simp) fun i hi _ => ?_
  have g (k : Nat) (hk : k < 60) : (w.getD k []).length = 4 := by
    rw [List.getD_eq_getElem _ _ (by omega)]; exact h4 _ (List.getElem_mem _)
  have hi : i < 15 := by simpa using hi
  have e : (w.drop (4 * i)).take 4 = [w.getD (4 * i) [], w.getD (4 * i + 1) [], w.getD (4 * i + 2) [], w.getD (4 * i + 3) []] := by
    refine List.ext_getElem (by simp; omega) fun j hj _ => ?_
    have : j < 4 := by simp at hj; omega
    simp only [List.getElem_take, List.getElem_drop]
    interval_cases j <;> exact (List.getD_eq_getElem _ _ (by omega)).symm
  have r : (List.replicate 15 16)[i]'‹_› = 16 := by simp only [List.getElem_replicate]
  simp only [List.getElem_map, List.getElem_range, r, e, List.flatten_cons, List.flatten_nil, List.length_append, List.length_nil,
    g _ (show 4 * i < 60 by omega), g _ (show 4 * i + 1 < 60 by omega), g _ (show 4 * i + 2 < 60 by omega), g _ (show 4 * i + 3 < 60 by omega)]

/-! ### GCM, XTS and key wrap -/

@[simp] theorem keyBytes_length (k : BitVec 256) : (keyBytes k).length = 32 := by simp [keyBytes]
@[simp] theorem aes_length (key block : List Byte) (h : key.length = 32) : (aesEncrypt key block).length = 16 :=
  aesEncrypt_length _ _ (aesKeys_lengths _ h)
theorem aes_round (key block : List Byte) (h : key.length = 32) (hb : block.length = 16) : aesDecrypt key (aesEncrypt key block) = block :=
  aesDecrypt_aesEncrypt _ _ (aesKeys_lengths _ h) hb
/-- A text under a stream of blocks, from the block of a number on, and the text back. -/
theorem stream_stream (e : Nat → List Byte) (he : ∀ n, (e n).length = 16) (m : Nat) (t : List Byte) (n : Nat) (h : t.length ≤ m) :
    let f (n : Nat) (t : List Byte) := ((bytesBy 16 t).zipIdx n).flatMap (fun x => xorBytes x.1 (e x.2))
    (f n t).length = t.length ∧ f n (f n t) = t := by
  intro f
  induction m using Nat.strong_induction_on generalizing t n with
  | _ m ih =>
    by_cases ht : t = []
    · subst ht; simp [f, bytesBy_nil]
    · have hp := List.length_pos_iff.mpr ht
      have fc (u : List Byte) (hu : u ≠ []) (k : Nat) : f k u = xorBytes (u.take 16) (e k) ++ f (k + 1) (u.drop 16) := by
        simp only [f]; rw [bytesBy_cons 16 u (by omega) hu]; simp
      obtain ⟨h1, h2⟩ := ih (m - 1) (by omega) (t.drop 16) (n + 1) (by simp; omega)
      have hl : (xorBytes (t.take 16) (e n)).length = min 16 t.length := by simp [he]
      have hlen : (f n t).length = t.length := by rw [fc t ht, List.length_append, hl, h1]; simp; omega
      refine ⟨hlen, ?_⟩
      have hne : f n t ≠ [] := by intro h0; rw [h0] at hlen; simp at hlen; omega
      rw [fc (f n t) hne, fc t ht]
      rcases Nat.lt_or_ge t.length 16 with hs | hs
      · have hd : t.drop 16 = [] := List.drop_of_length_le hs.le
        have hz : ∀ k, f k [] = [] := fun k => by simp [f, bytesBy_nil]
        have h16 : (xorBytes (t.take 16) (e n)).length ≤ 16 := by omega
        rw [hd, hz, List.append_nil, List.take_of_length_le h16, List.drop_of_length_le h16, hz, List.append_nil,
          xorBytes_xorBytes _ _ (by simp [he]), List.take_of_length_le hs.le]
      · have hl' : (xorBytes (t.take 16) (e n)).length = 16 := by omega
        rw [List.take_left' hl', List.drop_left' hl', h2, xorBytes_xorBytes _ _ (by simp [he]), List.take_append_drop]
theorem gcmText_length (key iv t : List Byte) (h : key.length = 32) : (gcmText key iv t).length = t.length :=
  (stream_stream (fun n => aesEncrypt key (iv ++ beBytes 4 (n + 2))) (fun n => by simp [h]) _ t 0 le_rfl).1
theorem gcmText_gcmText (key iv t : List Byte) (h : key.length = 32) : gcmText key iv (gcmText key iv t) = t :=
  (stream_stream (fun n => aesEncrypt key (iv ++ beBytes 4 (n + 2))) (fun n => by simp [h]) _ t 0 le_rfl).2
/-- What is sealed opens. -/
theorem gcmOpen_gcmSeal (key : BitVec 256) (iv : BitVec 96) (aad t : List Byte) :
    gcmOpen key iv aad (gcmSeal key iv aad t).1 (gcmSeal key iv aad t).2 = some t := by
  simp [gcmOpen, gcmSeal, gcmText_gcmText]
@[simp] theorem gcmSeal_length (key : BitVec 256) (iv : BitVec 96) (aad t : List Byte) : (gcmSeal key iv aad t).1.length = t.length := by
  simp [gcmSeal, gcmText_length]
/-- A ciphertext opens under the tag that is right for it alone. -/
theorem gcmOpen_isSome (key : BitVec 256) (iv : BitVec 96) (aad c : List Byte) (tag : BitVec 128) :
    (gcmOpen key iv aad c tag).isSome = true ↔ tag = BitVec.ofNat 128 (leNat (gcmTag (keyBytes key) (beBytes 12 iv.toNat) aad c)) := by
  simp only [gcmOpen]; split_ifs with h
  · simp [h]
  · simp [Ne.symm h]
/-- A step of wrapping undone. -/
theorem unwrapStep_wrapStep (kek : List Byte) (a r : List Byte) (rs : List (List Byte)) (t : Nat) (hk : kek.length = 32) (ha : a.length = 8)
    (hr : r.length = 8) : unwrapStep kek (wrapStep kek (a, r :: rs) t) t = (a, r :: rs) := by
  have hb : (aesEncrypt kek (a ++ r)).length = 16 := aes_length _ _ hk
  simp only [wrapStep, unwrapStep, List.reverse_append, List.reverse_cons, List.reverse_nil, List.nil_append, List.singleton_append]
  rw [xorBytes_xorBytes _ _ (by simp [hb]), List.take_append_drop, aes_round _ _ hk (by simp [ha, hr]), List.take_left' ha, List.drop_left' ha,
    List.reverse_reverse]
theorem wrapStep_lengths (kek : List Byte) (x : List Byte × List (List Byte)) (t : Nat) (hk : kek.length = 32) (h : x.1.length = 8 ∧ x.2.length = 8 ∧
    ∀ r ∈ x.2, r.length = 8) : let y := wrapStep kek x t; y.1.length = 8 ∧ y.2.length = 8 ∧ ∀ r ∈ y.2, r.length = 8 := by
  obtain ⟨a, rs⟩ := x
  cases rs with
  | nil => simp at h
  | cons r rs =>
    have hb : (aesEncrypt kek (a ++ r)).length = 16 := aes_length _ _ hk
    refine ⟨by simp [wrapStep, hb], by simpa [wrapStep] using h.2.1, fun y hy => ?_⟩
    rcases List.mem_append.mp hy with hy | hy
    · exact h.2.2 y (List.mem_cons_of_mem _ hy)
    · simp [List.mem_singleton.mp hy, hb]
theorem unwrap_wrap (kek : List Byte) (ts : List Nat) (x : List Byte × List (List Byte)) (hk : kek.length = 32) (h : x.1.length = 8 ∧ x.2.length = 8 ∧
    ∀ r ∈ x.2, r.length = 8) : ts.reverse.foldl (unwrapStep kek) (ts.foldl (wrapStep kek) x) = x ∧
      (let y := ts.foldl (wrapStep kek) x; y.1.length = 8 ∧ y.2.length = 8 ∧ ∀ r ∈ y.2, r.length = 8) := by
  induction ts generalizing x with
  | nil => exact ⟨rfl, h⟩
  | cons t ts ih =>
    obtain ⟨h1, h2⟩ := ih _ (wrapStep_lengths kek x t hk h)
    refine ⟨?_, h2⟩
    simp only [List.reverse_cons, List.foldl_append, List.foldl_cons, List.foldl_nil, h1]
    obtain ⟨a, rs⟩ := x
    cases rs with
    | nil => simp at h
    | cons r rs => exact unwrapStep_wrapStep kek a r rs t hk h.1 (h.2.2 r List.mem_cons_self)
theorem flatten_bytesBy (n : Nat) (h : 0 < n) (m : Nat) (l : List Byte) (hl : l.length ≤ m) : (bytesBy n l).flatten = l := by
  induction m using Nat.strong_induction_on generalizing l with
  | _ m ih =>
    by_cases hn : l = []
    · simp [hn, bytesBy_nil n h]
    · have hp := List.length_pos_iff.mpr hn
      rw [bytesBy_cons n l h hn, List.flatten_cons, ih (m - n) (by omega) _ (by simp; omega), List.take_append_drop]
theorem bytesBy_flatten (n : Nat) (h : 0 < n) (l : List (List Byte)) (hl : ∀ x ∈ l, x.length = n) : bytesBy n l.flatten = l := by
  induction l with
  | nil => simp [bytesBy_nil n h]
  | cons x l ih =>
    have hx := hl x List.mem_cons_self
    rw [List.flatten_cons, bytesBy_cons n _ h (by intro h0; simp [← List.length_eq_zero_iff, hx] at h0; omega), List.take_left' hx,
      List.drop_left' hx, ih (fun y hy => hl y (List.mem_cons_of_mem _ hy))]
theorem keyUnwrap_of (kek : BitVec 256) (key : BitVec 512) (y : List Byte × List (List Byte)) (h4 : y.1.length = 8) (h5 : y.2.length = 8)
    (h6 : ∀ r ∈ y.2, r.length = 8) (h : (List.range 48).foldl (fun x i => unwrapStep (keyBytes kek) x (48 - i)) y =
      (List.replicate 8 0xA6#8, bytesBy 8 (leBytes 64 key.toNat))) : keyUnwrap kek (y.1 ++ y.2.flatten) = some key := by
  have hf : y.2.flatten.length = 64 := by
    rw [List.length_flatten, List.map_congr_left (g := fun _ => 8) h6]; simp [h5]
  have hl : (y.1 ++ y.2.flatten).length = 72 := by rw [List.length_append, h4, hf]
  unfold keyUnwrap
  rw [List.take_left' h4, List.drop_left' h4, bytesBy_flatten 8 (by omega) _ h6, Prod.mk.eta, h]
  rw [if_pos ⟨hl, rfl⟩, flatten_bytesBy 8 (by omega) _ _ le_rfl, leNat_leBytes]
  have e : (256 : Nat) ^ 64 = 2 ^ 512 := (pow_mul 2 8 64).symm
  rw [e, Nat.mod_eq_of_lt key.isLt, BitVec.ofNat_toNat, BitVec.setWidth_eq]
/-- A key that was wrapped unwraps. -/
theorem keyUnwrap_keyWrap (kek : BitVec 256) (key : BitVec 512) : keyUnwrap kek (keyWrap kek key) = some key := by
  obtain ⟨h1, h2⟩ := bytesBy_length 8 (leBytes 64 key.toNat) (by omega) 8 (by simp)
  obtain ⟨h3, h4, h5, h6⟩ := unwrap_wrap (keyBytes kek) ((List.range 48).map (· + 1)) (List.replicate 8 0xA6#8, bytesBy 8 (leBytes 64 key.toNat)) (by simp)
    ⟨by simp, h1, h2⟩
  have r : ((List.range 48).map (· + 1)).reverse = (List.range 48).map (48 - ·) := by decide
  rw [r] at h3
  simp only [List.foldl_map] at h3 h4 h5 h6
  exact keyUnwrap_of kek key _ h4 h5 h6 h3
/-- A line that was encrypted deciphers to itself. -/
theorem xtsDecrypt_xtsEncrypt (key : BitVec 512) (pa : Nat) (l : List Byte) (hl : l.length = 64) : xtsDecrypt key pa (xtsEncrypt key pa l) = l := by
  obtain ⟨h1, h2⟩ := bytesBy_length 16 l (by omega) 4 (by simp [hl])
  have hk : (leBytes 32 key.toNat).length = 32 := by simp
  have ht : (xtsTweaks key pa).length = 4 ∧ ∀ t ∈ xtsTweaks key pa, t.length = 16 := by simp [xtsTweaks]
  have hf := flatten_bytesBy 16 (by omega) _ l le_rfl
  simp only [xtsDecrypt, xtsEncrypt, xtsLine]
  generalize bytesBy 16 l = b at h1 h2 hf
  generalize xtsTweaks key pa = t at ht
  match b, t, h1, ht with
  | [a, b, c, d], [w, x, y, z], _, ⟨_, ht⟩ =>
    simp only [List.mem_cons, List.not_mem_nil, or_false, forall_eq_or_imp, forall_eq] at h2 ht
    obtain ⟨ha, hb, hc, hd⟩ := h2
    obtain ⟨hw, hx, hy, hz⟩ := ht
    have e (u v : List Byte) (hu : u.length = 16) (hv : v.length = 16) : (xorBytes (aesEncrypt (leBytes 32 key.toNat) (xorBytes u v)) v).length = 16 := by
      simp [hv, aes_length _ _ hk]
    have g (u v : List Byte) (hu : u.length = 16) (hv : v.length = 16) : xorBytes (aesDecrypt (leBytes 32 key.toNat)
        (xorBytes (xorBytes (aesEncrypt (leBytes 32 key.toNat) (xorBytes u v)) v) v)) v = u := by
      rw [xorBytes_xorBytes _ v (by simp [hv, aes_length _ _ hk]), aes_round _ _ hk (by simp [hu, hv]), xorBytes_xorBytes _ _ (by omega)]
    simp only [List.zip_cons_cons, List.zip_nil_left, List.flatMap_cons, List.flatMap_nil, List.append_nil]
    have q := bytesBy_flatten 16 (by omega) [_, _, _, _] (by
      simp only [List.mem_cons, List.not_mem_nil, or_false, forall_eq_or_imp, forall_eq]
      exact ⟨e a w ha hw, e b x hb hx, e c y hc hy, e d z hd hz⟩)
    simp only [List.flatten_cons, List.flatten_nil, List.append_nil] at q
    rw [q]
    simp only [List.zip_cons_cons, List.zip_nil_left, List.flatMap_cons, List.flatMap_nil, List.append_nil, g a w ha hw, g b x hb hx, g c y hc hy, g d z hd hz]
    simpa using hf

end Sys2Proof.Machine
end

