-- ==== Sys2Proof/Laws/SMap.lean ====
section
/-! SUPPORT. Sparse maps: reading after writing, and that every operation keeps the canonical form. -/

namespace Sys2Proof.Machine

variable {α : Type}

theorem SMap.get_erase_self (d : α) (m : SMap α) (k : Nat) : SMap.get d (SMap.erase m k) k = d := by
  induction m with
  | nil => rfl
  | cons e r ih =>
    obtain ⟨j, x⟩ := e
    by_cases h : j = k <;> simp [SMap.erase, SMap.get, h, ih]

theorem SMap.get_erase_ne (d : α) (m : SMap α) {k j : Nat} (h : j ≠ k) :
    SMap.get d (SMap.erase m k) j = SMap.get d m j := by
  induction m with
  | nil => rfl
  | cons e r ih =>
    obtain ⟨i, x⟩ := e
    by_cases hi : i = k
    · have : i ≠ j := by omega
      simp [SMap.erase, SMap.get, hi, ih]
      omega
    · by_cases hj : i = j
      · subst hj; simp [SMap.erase, SMap.get, hi]
      · simp [SMap.erase, SMap.get, hi, hj, ih]

theorem SMap.keys_erase (m : SMap α) (k : Nat) : ∀ e ∈ SMap.erase m k, e.1 ≠ k := by
  induction m with
  | nil => simp [SMap.erase]
  | cons e r ih =>
    obtain ⟨j, x⟩ := e
    by_cases h : j = k
    · simpa [SMap.erase, h] using ih
    · simp only [SMap.erase, h, if_false, List.mem_cons]
      rintro y (rfl | hy)
      · exact h
      · exact ih y hy

theorem SMap.get_insert_ne (d : α) (m : SMap α) {k j : Nat} (x : α) (h : j ≠ k) :
    SMap.get d (SMap.insert m k x) j = SMap.get d m j := by
  induction m with
  | nil => simp [SMap.insert, SMap.get, Ne.symm h]
  | cons e r ih =>
    obtain ⟨i, y⟩ := e
    by_cases hi : k < i
    · simp [SMap.insert, SMap.get, hi, Ne.symm h]
    · by_cases hj : i = j
      · subst hj; simp [SMap.insert, SMap.get, hi]
      · simp [SMap.insert, SMap.get, hi, hj, ih]

theorem SMap.get_insert_self (d : α) (m : SMap α) (k : Nat) (x : α) (h : ∀ e ∈ m, e.1 ≠ k) :
    SMap.get d (SMap.insert m k x) k = x := by
  induction m with
  | nil => simp [SMap.insert, SMap.get]
  | cons e r ih =>
    obtain ⟨i, y⟩ := e
    have hi : i ≠ k := h (i, y) (by simp)
    have hr := ih (fun e he => h e (by simp [he]))
    by_cases hk : k < i <;> simp [SMap.insert, SMap.get, hk, hi, hr]

@[simp] theorem SMap.get_set_self (d : α) (m : SMap α) (k : Nat) (x : α) : SMap.get d (SMap.set m k x) k = x :=
  SMap.get_insert_self d _ k x (SMap.keys_erase m k)

theorem SMap.get_set_ne (d : α) (m : SMap α) {k j : Nat} (x : α) (h : j ≠ k) :
    SMap.get d (SMap.set m k x) j = SMap.get d m j := by
  rw [SMap.set, SMap.get_insert_ne d _ x h, SMap.get_erase_ne d m h]

/-- Reading after writing a record. -/
theorem SMap.get_set (d : α) (m : SMap α) (k j : Nat) (x : α) :
    SMap.get d (SMap.set m k x) j = if j = k then x else SMap.get d m j := by
  by_cases h : j = k
  · subst h; simp
  · simp [h, SMap.get_set_ne d m x h]

@[simp] theorem SMap.get_upd_self (d : α) (m : SMap α) (k : Nat) (f : α → α) :
    SMap.get d (SMap.upd d m k f) k = f (SMap.get d m k) := SMap.get_set_self d m k _

theorem SMap.get_upd_ne (d : α) (m : SMap α) {k j : Nat} (f : α → α) (h : j ≠ k) :
    SMap.get d (SMap.upd d m k f) j = SMap.get d m j := SMap.get_set_ne d m _ h

/-- Reading after changing a record. -/
theorem SMap.get_upd (d : α) (m : SMap α) (k j : Nat) (f : α → α) :
    SMap.get d (SMap.upd d m k f) j = if j = k then f (SMap.get d m k) else SMap.get d m j :=
  SMap.get_set d m k j _

@[simp] theorem SMap.get_put_self [DecidableEq α] (d : α) (m : SMap α) (k : Nat) (x : α) :
    SMap.get d (SMap.put d m k x) k = x := by
  by_cases h : x = d
  · simp [SMap.put, h, SMap.get_erase_self]
  · simp [SMap.put, h, SMap.get_insert_self d _ k x (SMap.keys_erase m k)]

theorem SMap.get_put_ne [DecidableEq α] (d : α) (m : SMap α) {k j : Nat} (x : α) (h : j ≠ k) :
    SMap.get d (SMap.put d m k x) j = SMap.get d m j := by
  by_cases hx : x = d
  · simp [SMap.put, hx, SMap.get_erase_ne d m h]
  · simp [SMap.put, hx, SMap.get_insert_ne d _ x h, SMap.get_erase_ne d m h]

/-- Reading after writing a key. -/
theorem SMap.get_put [DecidableEq α] (d : α) (m : SMap α) (k j : Nat) (x : α) :
    SMap.get d (SMap.put d m k x) j = if j = k then x else SMap.get d m j := by
  by_cases h : j = k
  · subst h; simp
  · simp [h, SMap.get_put_ne d m x h]

/-! ### The canonical form -/

/-- The canonical form as a statement about the list. -/
theorem SMap.wf_iff [DecidableEq α] (d : α) (m : SMap α) :
    SMap.wf d m = true ↔ m.Pairwise (fun a b => a.1 < b.1) ∧ ∀ e ∈ m, e.2 ≠ d := by
  induction m with
  | nil => simp [SMap.wf]
  | cons e r ih =>
    obtain ⟨j, x⟩ := e
    cases r with
    | nil => simp [SMap.wf]
    | cons e' r' =>
      obtain ⟨k, y⟩ := e'
      simp only [SMap.wf, Bool.and_eq_true, decide_eq_true_eq, ih]
      constructor
      · rintro ⟨⟨hx, hj⟩, hp, hd⟩
        refine ⟨List.pairwise_cons.2 ⟨?_, hp⟩, ?_⟩
        · intro a ha
          rcases List.mem_cons.1 ha with rfl | ha'
          · exact hj
          · exact Nat.lt_trans hj ((List.pairwise_cons.1 hp).1 a ha')
        · intro e he
          rcases List.mem_cons.1 he with rfl | he'
          · exact hx
          · exact hd e he'
      · rintro ⟨hp, hd⟩
        have hc := List.pairwise_cons.1 hp
        exact ⟨⟨hd (j, x) (by simp), hc.1 (k, y) (by simp)⟩, hc.2, fun e he => hd e (by simp [he])⟩

theorem SMap.erase_eq_filter (m : SMap α) (k : Nat) : SMap.erase m k = m.filter (fun e => decide (e.1 ≠ k)) := by
  induction m with
  | nil => rfl
  | cons e r ih =>
    obtain ⟨j, x⟩ := e
    by_cases h : j = k <;> simp [SMap.erase, h, ih]

/-- A filter keeps the form. -/
theorem SMap.wf_filter [DecidableEq α] (d : α) (m : SMap α) (q : Nat × α → Bool) (h : SMap.wf d m = true) :
    SMap.wf d (m.filter q) = true := by
  rw [SMap.wf_iff] at h ⊢
  exact ⟨h.1.filter q, fun e he => h.2 e (List.mem_filter.1 he).1⟩

theorem SMap.wf_erase [DecidableEq α] (d : α) (m : SMap α) (k : Nat) (h : SMap.wf d m = true) :
    SMap.wf d (SMap.erase m k) = true := by
  rw [SMap.erase_eq_filter]
  exact SMap.wf_filter d m _ h

theorem SMap.mem_insert (m : SMap α) (k : Nat) (x : α) : ∀ e ∈ SMap.insert m k x, e = (k, x) ∨ e ∈ m := by
  induction m with
  | nil => simp [SMap.insert]
  | cons e r ih =>
    obtain ⟨j, y⟩ := e
    by_cases h : k < j
    · simp [SMap.insert, h]
    · simp only [SMap.insert, h, if_false, List.mem_cons]
      rintro z (rfl | hz)
      · simp
      · rcases ih z hz with h1 | h1 <;> simp [h1]

theorem SMap.wf_insert [DecidableEq α] (d : α) (m : SMap α) (k : Nat) (x : α) (hx : x ≠ d)
    (hk : ∀ e ∈ m, e.1 ≠ k) (h : SMap.wf d m = true) : SMap.wf d (SMap.insert m k x) = true := by
  rw [SMap.wf_iff] at h ⊢
  refine ⟨?_, fun e he => ?_⟩
  · have h1 := h.1
    clear h
    induction m with
    | nil => simp [SMap.insert]
    | cons e r ih =>
      obtain ⟨j, y⟩ := e
      have hc := List.pairwise_cons.1 h1
      by_cases hj : k < j
      · simp only [SMap.insert, hj, if_true]
        refine List.pairwise_cons.2 ⟨fun a ha => ?_, h1⟩
        rcases List.mem_cons.1 ha with rfl | ha'
        · exact hj
        · exact Nat.lt_trans hj (hc.1 a ha')
      · simp only [SMap.insert, hj, if_false]
        refine List.pairwise_cons.2 ⟨fun a ha => ?_, ih (fun e he => hk e (by simp [he])) hc.2⟩
        rcases SMap.mem_insert r k x a ha with rfl | ha'
        · have : j ≠ k := hk (j, y) (by simp)
          simp only
          omega
        · exact hc.1 a ha'
  · rcases SMap.mem_insert m k x e he with rfl | he'
    · exact hx
    · exact h.2 e he'

/-- Writing keeps the form. -/
theorem SMap.wf_put [DecidableEq α] (d : α) (m : SMap α) (k : Nat) (x : α) (h : SMap.wf d m = true) :
    SMap.wf d (SMap.put d m k x) = true := by
  by_cases hx : x = d
  · simp [SMap.put, hx, SMap.wf_erase d m k h]
  · simp only [SMap.put, hx, if_false]
    exact SMap.wf_insert d _ k x hx (SMap.keys_erase m k) (SMap.wf_erase d m k h)

theorem SMap.get_filter (d : α) (m : SMap α) (q : Nat → Bool) (k : Nat) :
    SMap.get d (m.filter (fun e => q e.1)) k = if q k then SMap.get d m k else d := by
  induction m with
  | nil => simp [SMap.get]
  | cons e r ih =>
    obtain ⟨j, x⟩ := e
    by_cases hq : q j <;> by_cases hj : j = k <;> simp_all [SMap.get]

end Sys2Proof.Machine
end

