-- ==== Sys2Proof/Laws/State.lean ====
section
/-! SUPPORT. The state's record updates: what each named update leaves as it was, and what a core, a context, a frond, a world, a die
and a byte read after an update. -/

namespace Sys2Proof.Machine

/-! ### What an update leaves as it was -/

@[simp] theorem State.updCore_now (s : State) (c : Nat) (f : Core → Core) : (s.updCore c f).now = s.now := rfl
@[simp] theorem State.updCore_gtick (s : State) (c : Nat) (f : Core → Core) : (s.updCore c f).gtick = s.gtick := rfl
@[simp] theorem State.updCore_curCore (s : State) (c : Nat) (f : Core → Core) : (s.updCore c f).curCore = s.curCore := rfl
@[simp] theorem State.updCore_curCtx (s : State) (c : Nat) (f : Core → Core) : (s.updCore c f).curCtx = s.curCtx := rfl
@[simp] theorem State.updCore_fresh (s : State) (c : Nat) (f : Core → Core) : (s.updCore c f).fresh = s.fresh := rfl
@[simp] theorem State.updCore_seqno (s : State) (c : Nat) (f : Core → Core) : (s.updCore c f).seqno = s.seqno := rfl
@[simp] theorem State.updCore_inbox (s : State) (c : Nat) (f : Core → Core) : (s.updCore c f).inbox = s.inbox := rfl
@[simp] theorem State.updCore_mem (s : State) (c : Nat) (f : Core → Core) : (s.updCore c f).mem = s.mem := rfl
@[simp] theorem State.updCore_tags (s : State) (c : Nat) (f : Core → Core) : (s.updCore c f).tags = s.tags := rfl
@[simp] theorem State.updCore_clk (s : State) (c : Nat) (f : Core → Core) : (s.updCore c f).clk = s.clk := rfl
@[simp] theorem State.updCore_applied (s : State) (c : Nat) (f : Core → Core) : (s.updCore c f).applied = s.applied := rfl
@[simp] theorem State.updCore_posted (s : State) (c : Nat) (f : Core → Core) : (s.updCore c f).posted = s.posted := rfl
@[simp] theorem State.updCore_calendar (s : State) (c : Nat) (f : Core → Core) : (s.updCore c f).calendar = s.calendar := rfl
@[simp] theorem State.updCore_faulty (s : State) (c : Nat) (f : Core → Core) : (s.updCore c f).faulty = s.faulty := rfl
@[simp] theorem State.updCore_owner (s : State) (c : Nat) (f : Core → Core) : (s.updCore c f).owner = s.owner := rfl
@[simp] theorem State.updCore_fronds (s : State) (c : Nat) (f : Core → Core) : (s.updCore c f).fronds = s.fronds := rfl
@[simp] theorem State.updCore_worlds (s : State) (c : Nat) (f : Core → Core) : (s.updCore c f).worlds = s.worlds := rfl
@[simp] theorem State.updCore_dies (s : State) (c : Nat) (f : Core → Core) : (s.updCore c f).dies = s.dies := rfl
@[simp] theorem State.updCore_packets (s : State) (c : Nat) (f : Core → Core) : (s.updCore c f).packets = s.packets := rfl
@[simp] theorem State.updCore_hub (s : State) (c : Nat) (f : Core → Core) : (s.updCore c f).hub = s.hub := rfl

@[simp] theorem State.updCtx_now (s : State) (c k : Nat) (f : Ctx → Ctx) : (s.updCtx c k f).now = s.now := rfl
@[simp] theorem State.updCtx_gtick (s : State) (c k : Nat) (f : Ctx → Ctx) : (s.updCtx c k f).gtick = s.gtick := rfl
@[simp] theorem State.updCtx_curCore (s : State) (c k : Nat) (f : Ctx → Ctx) : (s.updCtx c k f).curCore = s.curCore := rfl
@[simp] theorem State.updCtx_curCtx (s : State) (c k : Nat) (f : Ctx → Ctx) : (s.updCtx c k f).curCtx = s.curCtx := rfl
@[simp] theorem State.updCtx_fresh (s : State) (c k : Nat) (f : Ctx → Ctx) : (s.updCtx c k f).fresh = s.fresh := rfl
@[simp] theorem State.updCtx_seqno (s : State) (c k : Nat) (f : Ctx → Ctx) : (s.updCtx c k f).seqno = s.seqno := rfl
@[simp] theorem State.updCtx_inbox (s : State) (c k : Nat) (f : Ctx → Ctx) : (s.updCtx c k f).inbox = s.inbox := rfl
@[simp] theorem State.updCtx_mem (s : State) (c k : Nat) (f : Ctx → Ctx) : (s.updCtx c k f).mem = s.mem := rfl
@[simp] theorem State.updCtx_tags (s : State) (c k : Nat) (f : Ctx → Ctx) : (s.updCtx c k f).tags = s.tags := rfl
@[simp] theorem State.updCtx_clk (s : State) (c k : Nat) (f : Ctx → Ctx) : (s.updCtx c k f).clk = s.clk := rfl
@[simp] theorem State.updCtx_applied (s : State) (c k : Nat) (f : Ctx → Ctx) : (s.updCtx c k f).applied = s.applied := rfl
@[simp] theorem State.updCtx_posted (s : State) (c k : Nat) (f : Ctx → Ctx) : (s.updCtx c k f).posted = s.posted := rfl
@[simp] theorem State.updCtx_calendar (s : State) (c k : Nat) (f : Ctx → Ctx) : (s.updCtx c k f).calendar = s.calendar := rfl
@[simp] theorem State.updCtx_faulty (s : State) (c k : Nat) (f : Ctx → Ctx) : (s.updCtx c k f).faulty = s.faulty := rfl
@[simp] theorem State.updCtx_owner (s : State) (c k : Nat) (f : Ctx → Ctx) : (s.updCtx c k f).owner = s.owner := rfl
@[simp] theorem State.updCtx_fronds (s : State) (c k : Nat) (f : Ctx → Ctx) : (s.updCtx c k f).fronds = s.fronds := rfl
@[simp] theorem State.updCtx_worlds (s : State) (c k : Nat) (f : Ctx → Ctx) : (s.updCtx c k f).worlds = s.worlds := rfl
@[simp] theorem State.updCtx_dies (s : State) (c k : Nat) (f : Ctx → Ctx) : (s.updCtx c k f).dies = s.dies := rfl
@[simp] theorem State.updCtx_packets (s : State) (c k : Nat) (f : Ctx → Ctx) : (s.updCtx c k f).packets = s.packets := rfl
@[simp] theorem State.updCtx_hub (s : State) (c k : Nat) (f : Ctx → Ctx) : (s.updCtx c k f).hub = s.hub := rfl

@[simp] theorem State.updCur_now (s : State) (f : Ctx → Ctx) : (s.updCur f).now = s.now := rfl
@[simp] theorem State.updCur_gtick (s : State) (f : Ctx → Ctx) : (s.updCur f).gtick = s.gtick := rfl
@[simp] theorem State.updCur_curCore (s : State) (f : Ctx → Ctx) : (s.updCur f).curCore = s.curCore := rfl
@[simp] theorem State.updCur_curCtx (s : State) (f : Ctx → Ctx) : (s.updCur f).curCtx = s.curCtx := rfl
@[simp] theorem State.updCur_fresh (s : State) (f : Ctx → Ctx) : (s.updCur f).fresh = s.fresh := rfl
@[simp] theorem State.updCur_seqno (s : State) (f : Ctx → Ctx) : (s.updCur f).seqno = s.seqno := rfl
@[simp] theorem State.updCur_inbox (s : State) (f : Ctx → Ctx) : (s.updCur f).inbox = s.inbox := rfl
@[simp] theorem State.updCur_mem (s : State) (f : Ctx → Ctx) : (s.updCur f).mem = s.mem := rfl
@[simp] theorem State.updCur_tags (s : State) (f : Ctx → Ctx) : (s.updCur f).tags = s.tags := rfl
@[simp] theorem State.updCur_clk (s : State) (f : Ctx → Ctx) : (s.updCur f).clk = s.clk := rfl
@[simp] theorem State.updCur_applied (s : State) (f : Ctx → Ctx) : (s.updCur f).applied = s.applied := rfl
@[simp] theorem State.updCur_posted (s : State) (f : Ctx → Ctx) : (s.updCur f).posted = s.posted := rfl
@[simp] theorem State.updCur_calendar (s : State) (f : Ctx → Ctx) : (s.updCur f).calendar = s.calendar := rfl
@[simp] theorem State.updCur_faulty (s : State) (f : Ctx → Ctx) : (s.updCur f).faulty = s.faulty := rfl
@[simp] theorem State.updCur_owner (s : State) (f : Ctx → Ctx) : (s.updCur f).owner = s.owner := rfl
@[simp] theorem State.updCur_fronds (s : State) (f : Ctx → Ctx) : (s.updCur f).fronds = s.fronds := rfl
@[simp] theorem State.updCur_worlds (s : State) (f : Ctx → Ctx) : (s.updCur f).worlds = s.worlds := rfl
@[simp] theorem State.updCur_dies (s : State) (f : Ctx → Ctx) : (s.updCur f).dies = s.dies := rfl
@[simp] theorem State.updCur_packets (s : State) (f : Ctx → Ctx) : (s.updCur f).packets = s.packets := rfl
@[simp] theorem State.updCur_hub (s : State) (f : Ctx → Ctx) : (s.updCur f).hub = s.hub := rfl

@[simp] theorem State.updFrond_now (s : State) (n : Nat) (f : Frond → Frond) : (s.updFrond n f).now = s.now := rfl
@[simp] theorem State.updFrond_gtick (s : State) (n : Nat) (f : Frond → Frond) : (s.updFrond n f).gtick = s.gtick := rfl
@[simp] theorem State.updFrond_curCore (s : State) (n : Nat) (f : Frond → Frond) : (s.updFrond n f).curCore = s.curCore := rfl
@[simp] theorem State.updFrond_curCtx (s : State) (n : Nat) (f : Frond → Frond) : (s.updFrond n f).curCtx = s.curCtx := rfl
@[simp] theorem State.updFrond_fresh (s : State) (n : Nat) (f : Frond → Frond) : (s.updFrond n f).fresh = s.fresh := rfl
@[simp] theorem State.updFrond_seqno (s : State) (n : Nat) (f : Frond → Frond) : (s.updFrond n f).seqno = s.seqno := rfl
@[simp] theorem State.updFrond_inbox (s : State) (n : Nat) (f : Frond → Frond) : (s.updFrond n f).inbox = s.inbox := rfl
@[simp] theorem State.updFrond_mem (s : State) (n : Nat) (f : Frond → Frond) : (s.updFrond n f).mem = s.mem := rfl
@[simp] theorem State.updFrond_tags (s : State) (n : Nat) (f : Frond → Frond) : (s.updFrond n f).tags = s.tags := rfl
@[simp] theorem State.updFrond_clk (s : State) (n : Nat) (f : Frond → Frond) : (s.updFrond n f).clk = s.clk := rfl
@[simp] theorem State.updFrond_applied (s : State) (n : Nat) (f : Frond → Frond) : (s.updFrond n f).applied = s.applied := rfl
@[simp] theorem State.updFrond_posted (s : State) (n : Nat) (f : Frond → Frond) : (s.updFrond n f).posted = s.posted := rfl
@[simp] theorem State.updFrond_calendar (s : State) (n : Nat) (f : Frond → Frond) : (s.updFrond n f).calendar = s.calendar := rfl
@[simp] theorem State.updFrond_faulty (s : State) (n : Nat) (f : Frond → Frond) : (s.updFrond n f).faulty = s.faulty := rfl
@[simp] theorem State.updFrond_owner (s : State) (n : Nat) (f : Frond → Frond) : (s.updFrond n f).owner = s.owner := rfl
@[simp] theorem State.updFrond_cores (s : State) (n : Nat) (f : Frond → Frond) : (s.updFrond n f).cores = s.cores := rfl
@[simp] theorem State.updFrond_worlds (s : State) (n : Nat) (f : Frond → Frond) : (s.updFrond n f).worlds = s.worlds := rfl
@[simp] theorem State.updFrond_dies (s : State) (n : Nat) (f : Frond → Frond) : (s.updFrond n f).dies = s.dies := rfl
@[simp] theorem State.updFrond_packets (s : State) (n : Nat) (f : Frond → Frond) : (s.updFrond n f).packets = s.packets := rfl
@[simp] theorem State.updFrond_hub (s : State) (n : Nat) (f : Frond → Frond) : (s.updFrond n f).hub = s.hub := rfl

@[simp] theorem State.updWorld_now (s : State) (w : Nat) (f : World → World) : (s.updWorld w f).now = s.now := rfl
@[simp] theorem State.updWorld_gtick (s : State) (w : Nat) (f : World → World) : (s.updWorld w f).gtick = s.gtick := rfl
@[simp] theorem State.updWorld_curCore (s : State) (w : Nat) (f : World → World) : (s.updWorld w f).curCore = s.curCore := rfl
@[simp] theorem State.updWorld_curCtx (s : State) (w : Nat) (f : World → World) : (s.updWorld w f).curCtx = s.curCtx := rfl
@[simp] theorem State.updWorld_fresh (s : State) (w : Nat) (f : World → World) : (s.updWorld w f).fresh = s.fresh := rfl
@[simp] theorem State.updWorld_seqno (s : State) (w : Nat) (f : World → World) : (s.updWorld w f).seqno = s.seqno := rfl
@[simp] theorem State.updWorld_inbox (s : State) (w : Nat) (f : World → World) : (s.updWorld w f).inbox = s.inbox := rfl
@[simp] theorem State.updWorld_mem (s : State) (w : Nat) (f : World → World) : (s.updWorld w f).mem = s.mem := rfl
@[simp] theorem State.updWorld_tags (s : State) (w : Nat) (f : World → World) : (s.updWorld w f).tags = s.tags := rfl
@[simp] theorem State.updWorld_clk (s : State) (w : Nat) (f : World → World) : (s.updWorld w f).clk = s.clk := rfl
@[simp] theorem State.updWorld_applied (s : State) (w : Nat) (f : World → World) : (s.updWorld w f).applied = s.applied := rfl
@[simp] theorem State.updWorld_posted (s : State) (w : Nat) (f : World → World) : (s.updWorld w f).posted = s.posted := rfl
@[simp] theorem State.updWorld_calendar (s : State) (w : Nat) (f : World → World) : (s.updWorld w f).calendar = s.calendar := rfl
@[simp] theorem State.updWorld_faulty (s : State) (w : Nat) (f : World → World) : (s.updWorld w f).faulty = s.faulty := rfl
@[simp] theorem State.updWorld_owner (s : State) (w : Nat) (f : World → World) : (s.updWorld w f).owner = s.owner := rfl
@[simp] theorem State.updWorld_cores (s : State) (w : Nat) (f : World → World) : (s.updWorld w f).cores = s.cores := rfl
@[simp] theorem State.updWorld_fronds (s : State) (w : Nat) (f : World → World) : (s.updWorld w f).fronds = s.fronds := rfl
@[simp] theorem State.updWorld_dies (s : State) (w : Nat) (f : World → World) : (s.updWorld w f).dies = s.dies := rfl
@[simp] theorem State.updWorld_packets (s : State) (w : Nat) (f : World → World) : (s.updWorld w f).packets = s.packets := rfl
@[simp] theorem State.updWorld_hub (s : State) (w : Nat) (f : World → World) : (s.updWorld w f).hub = s.hub := rfl

@[simp] theorem State.updDie_now (s : State) (d : Nat) (f : Die → Die) : (s.updDie d f).now = s.now := rfl
@[simp] theorem State.updDie_gtick (s : State) (d : Nat) (f : Die → Die) : (s.updDie d f).gtick = s.gtick := rfl
@[simp] theorem State.updDie_curCore (s : State) (d : Nat) (f : Die → Die) : (s.updDie d f).curCore = s.curCore := rfl
@[simp] theorem State.updDie_curCtx (s : State) (d : Nat) (f : Die → Die) : (s.updDie d f).curCtx = s.curCtx := rfl
@[simp] theorem State.updDie_fresh (s : State) (d : Nat) (f : Die → Die) : (s.updDie d f).fresh = s.fresh := rfl
@[simp] theorem State.updDie_seqno (s : State) (d : Nat) (f : Die → Die) : (s.updDie d f).seqno = s.seqno := rfl
@[simp] theorem State.updDie_inbox (s : State) (d : Nat) (f : Die → Die) : (s.updDie d f).inbox = s.inbox := rfl
@[simp] theorem State.updDie_mem (s : State) (d : Nat) (f : Die → Die) : (s.updDie d f).mem = s.mem := rfl
@[simp] theorem State.updDie_tags (s : State) (d : Nat) (f : Die → Die) : (s.updDie d f).tags = s.tags := rfl
@[simp] theorem State.updDie_clk (s : State) (d : Nat) (f : Die → Die) : (s.updDie d f).clk = s.clk := rfl
@[simp] theorem State.updDie_applied (s : State) (d : Nat) (f : Die → Die) : (s.updDie d f).applied = s.applied := rfl
@[simp] theorem State.updDie_posted (s : State) (d : Nat) (f : Die → Die) : (s.updDie d f).posted = s.posted := rfl
@[simp] theorem State.updDie_calendar (s : State) (d : Nat) (f : Die → Die) : (s.updDie d f).calendar = s.calendar := rfl
@[simp] theorem State.updDie_faulty (s : State) (d : Nat) (f : Die → Die) : (s.updDie d f).faulty = s.faulty := rfl
@[simp] theorem State.updDie_owner (s : State) (d : Nat) (f : Die → Die) : (s.updDie d f).owner = s.owner := rfl
@[simp] theorem State.updDie_cores (s : State) (d : Nat) (f : Die → Die) : (s.updDie d f).cores = s.cores := rfl
@[simp] theorem State.updDie_fronds (s : State) (d : Nat) (f : Die → Die) : (s.updDie d f).fronds = s.fronds := rfl
@[simp] theorem State.updDie_worlds (s : State) (d : Nat) (f : Die → Die) : (s.updDie d f).worlds = s.worlds := rfl
@[simp] theorem State.updDie_packets (s : State) (d : Nat) (f : Die → Die) : (s.updDie d f).packets = s.packets := rfl
@[simp] theorem State.updDie_hub (s : State) (d : Nat) (f : Die → Die) : (s.updDie d f).hub = s.hub := rfl

@[simp] theorem State.updHub_now (s : State) (f : Hub → Hub) : (s.updHub f).now = s.now := rfl
@[simp] theorem State.updHub_gtick (s : State) (f : Hub → Hub) : (s.updHub f).gtick = s.gtick := rfl
@[simp] theorem State.updHub_curCore (s : State) (f : Hub → Hub) : (s.updHub f).curCore = s.curCore := rfl
@[simp] theorem State.updHub_curCtx (s : State) (f : Hub → Hub) : (s.updHub f).curCtx = s.curCtx := rfl
@[simp] theorem State.updHub_fresh (s : State) (f : Hub → Hub) : (s.updHub f).fresh = s.fresh := rfl
@[simp] theorem State.updHub_seqno (s : State) (f : Hub → Hub) : (s.updHub f).seqno = s.seqno := rfl
@[simp] theorem State.updHub_inbox (s : State) (f : Hub → Hub) : (s.updHub f).inbox = s.inbox := rfl
@[simp] theorem State.updHub_mem (s : State) (f : Hub → Hub) : (s.updHub f).mem = s.mem := rfl
@[simp] theorem State.updHub_tags (s : State) (f : Hub → Hub) : (s.updHub f).tags = s.tags := rfl
@[simp] theorem State.updHub_clk (s : State) (f : Hub → Hub) : (s.updHub f).clk = s.clk := rfl
@[simp] theorem State.updHub_applied (s : State) (f : Hub → Hub) : (s.updHub f).applied = s.applied := rfl
@[simp] theorem State.updHub_posted (s : State) (f : Hub → Hub) : (s.updHub f).posted = s.posted := rfl
@[simp] theorem State.updHub_calendar (s : State) (f : Hub → Hub) : (s.updHub f).calendar = s.calendar := rfl
@[simp] theorem State.updHub_faulty (s : State) (f : Hub → Hub) : (s.updHub f).faulty = s.faulty := rfl
@[simp] theorem State.updHub_owner (s : State) (f : Hub → Hub) : (s.updHub f).owner = s.owner := rfl
@[simp] theorem State.updHub_cores (s : State) (f : Hub → Hub) : (s.updHub f).cores = s.cores := rfl
@[simp] theorem State.updHub_fronds (s : State) (f : Hub → Hub) : (s.updHub f).fronds = s.fronds := rfl
@[simp] theorem State.updHub_worlds (s : State) (f : Hub → Hub) : (s.updHub f).worlds = s.worlds := rfl
@[simp] theorem State.updHub_dies (s : State) (f : Hub → Hub) : (s.updHub f).dies = s.dies := rfl
@[simp] theorem State.updHub_packets (s : State) (f : Hub → Hub) : (s.updHub f).packets = s.packets := rfl

@[simp] theorem State.updSlot_now (s : State) (i : Nat) (f : Entry → Entry) : (s.updSlot i f).now = s.now := rfl
@[simp] theorem State.updSlot_gtick (s : State) (i : Nat) (f : Entry → Entry) : (s.updSlot i f).gtick = s.gtick := rfl
@[simp] theorem State.updSlot_curCore (s : State) (i : Nat) (f : Entry → Entry) : (s.updSlot i f).curCore = s.curCore := rfl
@[simp] theorem State.updSlot_curCtx (s : State) (i : Nat) (f : Entry → Entry) : (s.updSlot i f).curCtx = s.curCtx := rfl
@[simp] theorem State.updSlot_fresh (s : State) (i : Nat) (f : Entry → Entry) : (s.updSlot i f).fresh = s.fresh := rfl
@[simp] theorem State.updSlot_seqno (s : State) (i : Nat) (f : Entry → Entry) : (s.updSlot i f).seqno = s.seqno := rfl
@[simp] theorem State.updSlot_inbox (s : State) (i : Nat) (f : Entry → Entry) : (s.updSlot i f).inbox = s.inbox := rfl
@[simp] theorem State.updSlot_mem (s : State) (i : Nat) (f : Entry → Entry) : (s.updSlot i f).mem = s.mem := rfl
@[simp] theorem State.updSlot_tags (s : State) (i : Nat) (f : Entry → Entry) : (s.updSlot i f).tags = s.tags := rfl
@[simp] theorem State.updSlot_clk (s : State) (i : Nat) (f : Entry → Entry) : (s.updSlot i f).clk = s.clk := rfl
@[simp] theorem State.updSlot_applied (s : State) (i : Nat) (f : Entry → Entry) : (s.updSlot i f).applied = s.applied := rfl
@[simp] theorem State.updSlot_posted (s : State) (i : Nat) (f : Entry → Entry) : (s.updSlot i f).posted = s.posted := rfl
@[simp] theorem State.updSlot_calendar (s : State) (i : Nat) (f : Entry → Entry) : (s.updSlot i f).calendar = s.calendar := rfl
@[simp] theorem State.updSlot_faulty (s : State) (i : Nat) (f : Entry → Entry) : (s.updSlot i f).faulty = s.faulty := rfl
@[simp] theorem State.updSlot_owner (s : State) (i : Nat) (f : Entry → Entry) : (s.updSlot i f).owner = s.owner := rfl
@[simp] theorem State.updSlot_cores (s : State) (i : Nat) (f : Entry → Entry) : (s.updSlot i f).cores = s.cores := rfl
@[simp] theorem State.updSlot_fronds (s : State) (i : Nat) (f : Entry → Entry) : (s.updSlot i f).fronds = s.fronds := rfl
@[simp] theorem State.updSlot_worlds (s : State) (i : Nat) (f : Entry → Entry) : (s.updSlot i f).worlds = s.worlds := rfl
@[simp] theorem State.updSlot_dies (s : State) (i : Nat) (f : Entry → Entry) : (s.updSlot i f).dies = s.dies := rfl
@[simp] theorem State.updSlot_packets (s : State) (i : Nat) (f : Entry → Entry) : (s.updSlot i f).packets = s.packets := rfl

@[simp] theorem State.tell_now (s : State) (e : Event) : (s.tell e).now = s.now := rfl
@[simp] theorem State.tell_gtick (s : State) (e : Event) : (s.tell e).gtick = s.gtick := rfl
@[simp] theorem State.tell_curCore (s : State) (e : Event) : (s.tell e).curCore = s.curCore := rfl
@[simp] theorem State.tell_curCtx (s : State) (e : Event) : (s.tell e).curCtx = s.curCtx := rfl
@[simp] theorem State.tell_fresh (s : State) (e : Event) : (s.tell e).fresh = s.fresh := rfl
@[simp] theorem State.tell_seqno (s : State) (e : Event) : (s.tell e).seqno = s.seqno := rfl
@[simp] theorem State.tell_inbox (s : State) (e : Event) : (s.tell e).inbox = s.inbox := rfl
@[simp] theorem State.tell_mem (s : State) (e : Event) : (s.tell e).mem = s.mem := rfl
@[simp] theorem State.tell_tags (s : State) (e : Event) : (s.tell e).tags = s.tags := rfl
@[simp] theorem State.tell_clk (s : State) (e : Event) : (s.tell e).clk = s.clk := rfl
@[simp] theorem State.tell_applied (s : State) (e : Event) : (s.tell e).applied = s.applied := rfl
@[simp] theorem State.tell_posted (s : State) (e : Event) : (s.tell e).posted = s.posted := rfl
@[simp] theorem State.tell_calendar (s : State) (e : Event) : (s.tell e).calendar = s.calendar := rfl
@[simp] theorem State.tell_faulty (s : State) (e : Event) : (s.tell e).faulty = s.faulty := rfl
@[simp] theorem State.tell_owner (s : State) (e : Event) : (s.tell e).owner = s.owner := rfl
@[simp] theorem State.tell_cores (s : State) (e : Event) : (s.tell e).cores = s.cores := rfl
@[simp] theorem State.tell_fronds (s : State) (e : Event) : (s.tell e).fronds = s.fronds := rfl
@[simp] theorem State.tell_worlds (s : State) (e : Event) : (s.tell e).worlds = s.worlds := rfl
@[simp] theorem State.tell_dies (s : State) (e : Event) : (s.tell e).dies = s.dies := rfl
@[simp] theorem State.tell_packets (s : State) (e : Event) : (s.tell e).packets = s.packets := rfl

@[simp] theorem State.answer_now (s : State) (r : Reply) : (s.answer r).now = s.now := rfl
@[simp] theorem State.answer_gtick (s : State) (r : Reply) : (s.answer r).gtick = s.gtick := rfl
@[simp] theorem State.answer_curCore (s : State) (r : Reply) : (s.answer r).curCore = s.curCore := rfl
@[simp] theorem State.answer_curCtx (s : State) (r : Reply) : (s.answer r).curCtx = s.curCtx := rfl
@[simp] theorem State.answer_fresh (s : State) (r : Reply) : (s.answer r).fresh = s.fresh := rfl
@[simp] theorem State.answer_seqno (s : State) (r : Reply) : (s.answer r).seqno = s.seqno := rfl
@[simp] theorem State.answer_inbox (s : State) (r : Reply) : (s.answer r).inbox = s.inbox := rfl
@[simp] theorem State.answer_mem (s : State) (r : Reply) : (s.answer r).mem = s.mem := rfl
@[simp] theorem State.answer_tags (s : State) (r : Reply) : (s.answer r).tags = s.tags := rfl
@[simp] theorem State.answer_clk (s : State) (r : Reply) : (s.answer r).clk = s.clk := rfl
@[simp] theorem State.answer_applied (s : State) (r : Reply) : (s.answer r).applied = s.applied := rfl
@[simp] theorem State.answer_posted (s : State) (r : Reply) : (s.answer r).posted = s.posted := rfl
@[simp] theorem State.answer_calendar (s : State) (r : Reply) : (s.answer r).calendar = s.calendar := rfl
@[simp] theorem State.answer_faulty (s : State) (r : Reply) : (s.answer r).faulty = s.faulty := rfl
@[simp] theorem State.answer_owner (s : State) (r : Reply) : (s.answer r).owner = s.owner := rfl
@[simp] theorem State.answer_cores (s : State) (r : Reply) : (s.answer r).cores = s.cores := rfl
@[simp] theorem State.answer_fronds (s : State) (r : Reply) : (s.answer r).fronds = s.fronds := rfl
@[simp] theorem State.answer_worlds (s : State) (r : Reply) : (s.answer r).worlds = s.worlds := rfl
@[simp] theorem State.answer_dies (s : State) (r : Reply) : (s.answer r).dies = s.dies := rfl
@[simp] theorem State.answer_packets (s : State) (r : Reply) : (s.answer r).packets = s.packets := rfl

@[simp] theorem State.bump_now (s : State) : (s.bump).now = s.now := rfl
@[simp] theorem State.bump_gtick (s : State) : (s.bump).gtick = s.gtick := rfl
@[simp] theorem State.bump_curCore (s : State) : (s.bump).curCore = s.curCore := rfl
@[simp] theorem State.bump_curCtx (s : State) : (s.bump).curCtx = s.curCtx := rfl
@[simp] theorem State.bump_fresh (s : State) : (s.bump).fresh = s.fresh := rfl
@[simp] theorem State.bump_inbox (s : State) : (s.bump).inbox = s.inbox := rfl
@[simp] theorem State.bump_mem (s : State) : (s.bump).mem = s.mem := rfl
@[simp] theorem State.bump_tags (s : State) : (s.bump).tags = s.tags := rfl
@[simp] theorem State.bump_clk (s : State) : (s.bump).clk = s.clk := rfl
@[simp] theorem State.bump_applied (s : State) : (s.bump).applied = s.applied := rfl
@[simp] theorem State.bump_posted (s : State) : (s.bump).posted = s.posted := rfl
@[simp] theorem State.bump_calendar (s : State) : (s.bump).calendar = s.calendar := rfl
@[simp] theorem State.bump_faulty (s : State) : (s.bump).faulty = s.faulty := rfl
@[simp] theorem State.bump_owner (s : State) : (s.bump).owner = s.owner := rfl
@[simp] theorem State.bump_cores (s : State) : (s.bump).cores = s.cores := rfl
@[simp] theorem State.bump_fronds (s : State) : (s.bump).fronds = s.fronds := rfl
@[simp] theorem State.bump_worlds (s : State) : (s.bump).worlds = s.worlds := rfl
@[simp] theorem State.bump_dies (s : State) : (s.bump).dies = s.dies := rfl
@[simp] theorem State.bump_packets (s : State) : (s.bump).packets = s.packets := rfl
@[simp] theorem State.bump_hub (s : State) : (s.bump).hub = s.hub := rfl

@[simp] theorem State.setByte_now (s : State) (pa : Nat) (b : Byte) : (s.setByte pa b).now = s.now := rfl
@[simp] theorem State.setByte_gtick (s : State) (pa : Nat) (b : Byte) : (s.setByte pa b).gtick = s.gtick := rfl
@[simp] theorem State.setByte_curCore (s : State) (pa : Nat) (b : Byte) : (s.setByte pa b).curCore = s.curCore := rfl
@[simp] theorem State.setByte_curCtx (s : State) (pa : Nat) (b : Byte) : (s.setByte pa b).curCtx = s.curCtx := rfl
@[simp] theorem State.setByte_fresh (s : State) (pa : Nat) (b : Byte) : (s.setByte pa b).fresh = s.fresh := rfl
@[simp] theorem State.setByte_seqno (s : State) (pa : Nat) (b : Byte) : (s.setByte pa b).seqno = s.seqno := rfl
@[simp] theorem State.setByte_inbox (s : State) (pa : Nat) (b : Byte) : (s.setByte pa b).inbox = s.inbox := rfl
@[simp] theorem State.setByte_tags (s : State) (pa : Nat) (b : Byte) : (s.setByte pa b).tags = s.tags := rfl
@[simp] theorem State.setByte_clk (s : State) (pa : Nat) (b : Byte) : (s.setByte pa b).clk = s.clk := rfl
@[simp] theorem State.setByte_applied (s : State) (pa : Nat) (b : Byte) : (s.setByte pa b).applied = s.applied := rfl
@[simp] theorem State.setByte_posted (s : State) (pa : Nat) (b : Byte) : (s.setByte pa b).posted = s.posted := rfl
@[simp] theorem State.setByte_calendar (s : State) (pa : Nat) (b : Byte) : (s.setByte pa b).calendar = s.calendar := rfl
@[simp] theorem State.setByte_faulty (s : State) (pa : Nat) (b : Byte) : (s.setByte pa b).faulty = s.faulty := rfl
@[simp] theorem State.setByte_owner (s : State) (pa : Nat) (b : Byte) : (s.setByte pa b).owner = s.owner := rfl
@[simp] theorem State.setByte_cores (s : State) (pa : Nat) (b : Byte) : (s.setByte pa b).cores = s.cores := rfl
@[simp] theorem State.setByte_fronds (s : State) (pa : Nat) (b : Byte) : (s.setByte pa b).fronds = s.fronds := rfl
@[simp] theorem State.setByte_worlds (s : State) (pa : Nat) (b : Byte) : (s.setByte pa b).worlds = s.worlds := rfl
@[simp] theorem State.setByte_dies (s : State) (pa : Nat) (b : Byte) : (s.setByte pa b).dies = s.dies := rfl
@[simp] theorem State.setByte_packets (s : State) (pa : Nat) (b : Byte) : (s.setByte pa b).packets = s.packets := rfl
@[simp] theorem State.setByte_hub (s : State) (pa : Nat) (b : Byte) : (s.setByte pa b).hub = s.hub := rfl

@[simp] theorem State.tagLines_now (s : State) (l : List Host.Cell) (t : SMap Nat) : (s.tagLines l t).now = s.now := rfl
@[simp] theorem State.tagLines_gtick (s : State) (l : List Host.Cell) (t : SMap Nat) : (s.tagLines l t).gtick = s.gtick := rfl
@[simp] theorem State.tagLines_curCore (s : State) (l : List Host.Cell) (t : SMap Nat) : (s.tagLines l t).curCore = s.curCore := rfl
@[simp] theorem State.tagLines_curCtx (s : State) (l : List Host.Cell) (t : SMap Nat) : (s.tagLines l t).curCtx = s.curCtx := rfl
@[simp] theorem State.tagLines_fresh (s : State) (l : List Host.Cell) (t : SMap Nat) : (s.tagLines l t).fresh = s.fresh := rfl
@[simp] theorem State.tagLines_seqno (s : State) (l : List Host.Cell) (t : SMap Nat) : (s.tagLines l t).seqno = s.seqno := rfl
@[simp] theorem State.tagLines_inbox (s : State) (l : List Host.Cell) (t : SMap Nat) : (s.tagLines l t).inbox = s.inbox := rfl
@[simp] theorem State.tagLines_mem (s : State) (l : List Host.Cell) (t : SMap Nat) : (s.tagLines l t).mem = s.mem := rfl
@[simp] theorem State.tagLines_clk (s : State) (l : List Host.Cell) (t : SMap Nat) : (s.tagLines l t).clk = s.clk := rfl
@[simp] theorem State.tagLines_applied (s : State) (l : List Host.Cell) (t : SMap Nat) : (s.tagLines l t).applied = s.applied := rfl
@[simp] theorem State.tagLines_posted (s : State) (l : List Host.Cell) (t : SMap Nat) : (s.tagLines l t).posted = s.posted := rfl
@[simp] theorem State.tagLines_calendar (s : State) (l : List Host.Cell) (t : SMap Nat) : (s.tagLines l t).calendar = s.calendar := rfl
@[simp] theorem State.tagLines_faulty (s : State) (l : List Host.Cell) (t : SMap Nat) : (s.tagLines l t).faulty = s.faulty := rfl
@[simp] theorem State.tagLines_owner (s : State) (l : List Host.Cell) (t : SMap Nat) : (s.tagLines l t).owner = s.owner := rfl
@[simp] theorem State.tagLines_cores (s : State) (l : List Host.Cell) (t : SMap Nat) : (s.tagLines l t).cores = s.cores := rfl
@[simp] theorem State.tagLines_fronds (s : State) (l : List Host.Cell) (t : SMap Nat) : (s.tagLines l t).fronds = s.fronds := rfl
@[simp] theorem State.tagLines_worlds (s : State) (l : List Host.Cell) (t : SMap Nat) : (s.tagLines l t).worlds = s.worlds := rfl
@[simp] theorem State.tagLines_dies (s : State) (l : List Host.Cell) (t : SMap Nat) : (s.tagLines l t).dies = s.dies := rfl
@[simp] theorem State.tagLines_packets (s : State) (l : List Host.Cell) (t : SMap Nat) : (s.tagLines l t).packets = s.packets := rfl
@[simp] theorem State.tagLines_hub (s : State) (l : List Host.Cell) (t : SMap Nat) : (s.tagLines l t).hub = s.hub := rfl

@[simp] theorem State.zeroise_now (s : State) (lo n : Nat) : (s.zeroise lo n).now = s.now := rfl
@[simp] theorem State.zeroise_gtick (s : State) (lo n : Nat) : (s.zeroise lo n).gtick = s.gtick := rfl
@[simp] theorem State.zeroise_curCore (s : State) (lo n : Nat) : (s.zeroise lo n).curCore = s.curCore := rfl
@[simp] theorem State.zeroise_curCtx (s : State) (lo n : Nat) : (s.zeroise lo n).curCtx = s.curCtx := rfl
@[simp] theorem State.zeroise_fresh (s : State) (lo n : Nat) : (s.zeroise lo n).fresh = s.fresh := rfl
@[simp] theorem State.zeroise_seqno (s : State) (lo n : Nat) : (s.zeroise lo n).seqno = s.seqno := rfl
@[simp] theorem State.zeroise_inbox (s : State) (lo n : Nat) : (s.zeroise lo n).inbox = s.inbox := rfl
@[simp] theorem State.zeroise_tags (s : State) (lo n : Nat) : (s.zeroise lo n).tags = s.tags := rfl
@[simp] theorem State.zeroise_clk (s : State) (lo n : Nat) : (s.zeroise lo n).clk = s.clk := rfl
@[simp] theorem State.zeroise_applied (s : State) (lo n : Nat) : (s.zeroise lo n).applied = s.applied := rfl
@[simp] theorem State.zeroise_posted (s : State) (lo n : Nat) : (s.zeroise lo n).posted = s.posted := rfl
@[simp] theorem State.zeroise_calendar (s : State) (lo n : Nat) : (s.zeroise lo n).calendar = s.calendar := rfl
@[simp] theorem State.zeroise_faulty (s : State) (lo n : Nat) : (s.zeroise lo n).faulty = s.faulty := rfl
@[simp] theorem State.zeroise_cores (s : State) (lo n : Nat) : (s.zeroise lo n).cores = s.cores := rfl
@[simp] theorem State.zeroise_fronds (s : State) (lo n : Nat) : (s.zeroise lo n).fronds = s.fronds := rfl
@[simp] theorem State.zeroise_worlds (s : State) (lo n : Nat) : (s.zeroise lo n).worlds = s.worlds := rfl
@[simp] theorem State.zeroise_dies (s : State) (lo n : Nat) : (s.zeroise lo n).dies = s.dies := rfl
@[simp] theorem State.zeroise_packets (s : State) (lo n : Nat) : (s.zeroise lo n).packets = s.packets := rfl
@[simp] theorem State.zeroise_hub (s : State) (lo n : Nat) : (s.zeroise lo n).hub = s.hub := rfl

@[simp] theorem State.result_now (s : State) (f : RFile) (r w lat : Nat) (v : Option Vec) : (s.result f r w lat v).now = s.now := rfl
@[simp] theorem State.result_gtick (s : State) (f : RFile) (r w lat : Nat) (v : Option Vec) : (s.result f r w lat v).gtick = s.gtick := rfl
@[simp] theorem State.result_curCore (s : State) (f : RFile) (r w lat : Nat) (v : Option Vec) : (s.result f r w lat v).curCore = s.curCore := rfl
@[simp] theorem State.result_curCtx (s : State) (f : RFile) (r w lat : Nat) (v : Option Vec) : (s.result f r w lat v).curCtx = s.curCtx := rfl
@[simp] theorem State.result_fresh (s : State) (f : RFile) (r w lat : Nat) (v : Option Vec) : (s.result f r w lat v).fresh = s.fresh := rfl
@[simp] theorem State.result_inbox (s : State) (f : RFile) (r w lat : Nat) (v : Option Vec) : (s.result f r w lat v).inbox = s.inbox := rfl
@[simp] theorem State.result_mem (s : State) (f : RFile) (r w lat : Nat) (v : Option Vec) : (s.result f r w lat v).mem = s.mem := rfl
@[simp] theorem State.result_tags (s : State) (f : RFile) (r w lat : Nat) (v : Option Vec) : (s.result f r w lat v).tags = s.tags := rfl
@[simp] theorem State.result_clk (s : State) (f : RFile) (r w lat : Nat) (v : Option Vec) : (s.result f r w lat v).clk = s.clk := rfl
@[simp] theorem State.result_applied (s : State) (f : RFile) (r w lat : Nat) (v : Option Vec) : (s.result f r w lat v).applied = s.applied := rfl
@[simp] theorem State.result_posted (s : State) (f : RFile) (r w lat : Nat) (v : Option Vec) : (s.result f r w lat v).posted = s.posted := rfl
@[simp] theorem State.result_calendar (s : State) (f : RFile) (r w lat : Nat) (v : Option Vec) : (s.result f r w lat v).calendar = s.calendar := rfl
@[simp] theorem State.result_faulty (s : State) (f : RFile) (r w lat : Nat) (v : Option Vec) : (s.result f r w lat v).faulty = s.faulty := rfl
@[simp] theorem State.result_owner (s : State) (f : RFile) (r w lat : Nat) (v : Option Vec) : (s.result f r w lat v).owner = s.owner := rfl
@[simp] theorem State.result_fronds (s : State) (f : RFile) (r w lat : Nat) (v : Option Vec) : (s.result f r w lat v).fronds = s.fronds := rfl
@[simp] theorem State.result_worlds (s : State) (f : RFile) (r w lat : Nat) (v : Option Vec) : (s.result f r w lat v).worlds = s.worlds := rfl
@[simp] theorem State.result_dies (s : State) (f : RFile) (r w lat : Nat) (v : Option Vec) : (s.result f r w lat v).dies = s.dies := rfl
@[simp] theorem State.result_packets (s : State) (f : RFile) (r w lat : Nat) (v : Option Vec) : (s.result f r w lat v).packets = s.packets := rfl
@[simp] theorem State.result_hub (s : State) (f : RFile) (r w lat : Nat) (v : Option Vec) : (s.result f r w lat v).hub = s.hub := rfl

@[simp] theorem State.schedule_now (s : State) (due core : Nat) (a : TAct) : (s.schedule due core a).now = s.now := rfl
@[simp] theorem State.schedule_gtick (s : State) (due core : Nat) (a : TAct) : (s.schedule due core a).gtick = s.gtick := rfl
@[simp] theorem State.schedule_curCore (s : State) (due core : Nat) (a : TAct) : (s.schedule due core a).curCore = s.curCore := rfl
@[simp] theorem State.schedule_curCtx (s : State) (due core : Nat) (a : TAct) : (s.schedule due core a).curCtx = s.curCtx := rfl
@[simp] theorem State.schedule_fresh (s : State) (due core : Nat) (a : TAct) : (s.schedule due core a).fresh = s.fresh := rfl
@[simp] theorem State.schedule_inbox (s : State) (due core : Nat) (a : TAct) : (s.schedule due core a).inbox = s.inbox := rfl
@[simp] theorem State.schedule_mem (s : State) (due core : Nat) (a : TAct) : (s.schedule due core a).mem = s.mem := rfl
@[simp] theorem State.schedule_tags (s : State) (due core : Nat) (a : TAct) : (s.schedule due core a).tags = s.tags := rfl
@[simp] theorem State.schedule_clk (s : State) (due core : Nat) (a : TAct) : (s.schedule due core a).clk = s.clk := rfl
@[simp] theorem State.schedule_applied (s : State) (due core : Nat) (a : TAct) : (s.schedule due core a).applied = s.applied := rfl
@[simp] theorem State.schedule_posted (s : State) (due core : Nat) (a : TAct) : (s.schedule due core a).posted = s.posted := rfl
@[simp] theorem State.schedule_faulty (s : State) (due core : Nat) (a : TAct) : (s.schedule due core a).faulty = s.faulty := rfl
@[simp] theorem State.schedule_owner (s : State) (due core : Nat) (a : TAct) : (s.schedule due core a).owner = s.owner := rfl
@[simp] theorem State.schedule_cores (s : State) (due core : Nat) (a : TAct) : (s.schedule due core a).cores = s.cores := rfl
@[simp] theorem State.schedule_fronds (s : State) (due core : Nat) (a : TAct) : (s.schedule due core a).fronds = s.fronds := rfl
@[simp] theorem State.schedule_worlds (s : State) (due core : Nat) (a : TAct) : (s.schedule due core a).worlds = s.worlds := rfl
@[simp] theorem State.schedule_dies (s : State) (due core : Nat) (a : TAct) : (s.schedule due core a).dies = s.dies := rfl
@[simp] theorem State.schedule_packets (s : State) (due core : Nat) (a : TAct) : (s.schedule due core a).packets = s.packets := rfl
@[simp] theorem State.schedule_hub (s : State) (due core : Nat) (a : TAct) : (s.schedule due core a).hub = s.hub := rfl

@[simp] theorem State.scheduleFor_now (s : State) (due core ctx frond ord : Nat) (a : TAct) : (s.scheduleFor due core ctx frond ord a).now = s.now := rfl
@[simp] theorem State.scheduleFor_gtick (s : State) (due core ctx frond ord : Nat) (a : TAct) : (s.scheduleFor due core ctx frond ord a).gtick = s.gtick := rfl
@[simp] theorem State.scheduleFor_curCore (s : State) (due core ctx frond ord : Nat) (a : TAct) : (s.scheduleFor due core ctx frond ord a).curCore = s.curCore := rfl
@[simp] theorem State.scheduleFor_curCtx (s : State) (due core ctx frond ord : Nat) (a : TAct) : (s.scheduleFor due core ctx frond ord a).curCtx = s.curCtx := rfl
@[simp] theorem State.scheduleFor_fresh (s : State) (due core ctx frond ord : Nat) (a : TAct) : (s.scheduleFor due core ctx frond ord a).fresh = s.fresh := rfl
@[simp] theorem State.scheduleFor_inbox (s : State) (due core ctx frond ord : Nat) (a : TAct) : (s.scheduleFor due core ctx frond ord a).inbox = s.inbox := rfl
@[simp] theorem State.scheduleFor_mem (s : State) (due core ctx frond ord : Nat) (a : TAct) : (s.scheduleFor due core ctx frond ord a).mem = s.mem := rfl
@[simp] theorem State.scheduleFor_tags (s : State) (due core ctx frond ord : Nat) (a : TAct) : (s.scheduleFor due core ctx frond ord a).tags = s.tags := rfl
@[simp] theorem State.scheduleFor_clk (s : State) (due core ctx frond ord : Nat) (a : TAct) : (s.scheduleFor due core ctx frond ord a).clk = s.clk := rfl
@[simp] theorem State.scheduleFor_applied (s : State) (due core ctx frond ord : Nat) (a : TAct) : (s.scheduleFor due core ctx frond ord a).applied = s.applied := rfl
@[simp] theorem State.scheduleFor_posted (s : State) (due core ctx frond ord : Nat) (a : TAct) : (s.scheduleFor due core ctx frond ord a).posted = s.posted := rfl
@[simp] theorem State.scheduleFor_faulty (s : State) (due core ctx frond ord : Nat) (a : TAct) : (s.scheduleFor due core ctx frond ord a).faulty = s.faulty := rfl
@[simp] theorem State.scheduleFor_owner (s : State) (due core ctx frond ord : Nat) (a : TAct) : (s.scheduleFor due core ctx frond ord a).owner = s.owner := rfl
@[simp] theorem State.scheduleFor_cores (s : State) (due core ctx frond ord : Nat) (a : TAct) : (s.scheduleFor due core ctx frond ord a).cores = s.cores := rfl
@[simp] theorem State.scheduleFor_fronds (s : State) (due core ctx frond ord : Nat) (a : TAct) : (s.scheduleFor due core ctx frond ord a).fronds = s.fronds := rfl
@[simp] theorem State.scheduleFor_worlds (s : State) (due core ctx frond ord : Nat) (a : TAct) : (s.scheduleFor due core ctx frond ord a).worlds = s.worlds := rfl
@[simp] theorem State.scheduleFor_dies (s : State) (due core ctx frond ord : Nat) (a : TAct) : (s.scheduleFor due core ctx frond ord a).dies = s.dies := rfl
@[simp] theorem State.scheduleFor_packets (s : State) (due core ctx frond ord : Nat) (a : TAct) : (s.scheduleFor due core ctx frond ord a).packets = s.packets := rfl
@[simp] theorem State.scheduleFor_hub (s : State) (due core ctx frond ord : Nat) (a : TAct) : (s.scheduleFor due core ctx frond ord a).hub = s.hub := rfl

@[simp] theorem State.unschedule_now (s : State) (id : Nat) : (s.unschedule id).now = s.now := rfl
@[simp] theorem State.unschedule_gtick (s : State) (id : Nat) : (s.unschedule id).gtick = s.gtick := rfl
@[simp] theorem State.unschedule_curCore (s : State) (id : Nat) : (s.unschedule id).curCore = s.curCore := rfl
@[simp] theorem State.unschedule_curCtx (s : State) (id : Nat) : (s.unschedule id).curCtx = s.curCtx := rfl
@[simp] theorem State.unschedule_fresh (s : State) (id : Nat) : (s.unschedule id).fresh = s.fresh := rfl
@[simp] theorem State.unschedule_seqno (s : State) (id : Nat) : (s.unschedule id).seqno = s.seqno := rfl
@[simp] theorem State.unschedule_inbox (s : State) (id : Nat) : (s.unschedule id).inbox = s.inbox := rfl
@[simp] theorem State.unschedule_mem (s : State) (id : Nat) : (s.unschedule id).mem = s.mem := rfl
@[simp] theorem State.unschedule_tags (s : State) (id : Nat) : (s.unschedule id).tags = s.tags := rfl
@[simp] theorem State.unschedule_clk (s : State) (id : Nat) : (s.unschedule id).clk = s.clk := rfl
@[simp] theorem State.unschedule_applied (s : State) (id : Nat) : (s.unschedule id).applied = s.applied := rfl
@[simp] theorem State.unschedule_posted (s : State) (id : Nat) : (s.unschedule id).posted = s.posted := rfl
@[simp] theorem State.unschedule_faulty (s : State) (id : Nat) : (s.unschedule id).faulty = s.faulty := rfl
@[simp] theorem State.unschedule_owner (s : State) (id : Nat) : (s.unschedule id).owner = s.owner := rfl
@[simp] theorem State.unschedule_cores (s : State) (id : Nat) : (s.unschedule id).cores = s.cores := rfl
@[simp] theorem State.unschedule_fronds (s : State) (id : Nat) : (s.unschedule id).fronds = s.fronds := rfl
@[simp] theorem State.unschedule_worlds (s : State) (id : Nat) : (s.unschedule id).worlds = s.worlds := rfl
@[simp] theorem State.unschedule_dies (s : State) (id : Nat) : (s.unschedule id).dies = s.dies := rfl
@[simp] theorem State.unschedule_packets (s : State) (id : Nat) : (s.unschedule id).packets = s.packets := rfl
@[simp] theorem State.unschedule_hub (s : State) (id : Nat) : (s.unschedule id).hub = s.hub := rfl

@[simp] theorem State.takeTrap_now (s : State) (c k cause : Nat) (x n : Word) : (s.takeTrap c k cause x n).now = s.now := rfl
@[simp] theorem State.takeTrap_gtick (s : State) (c k cause : Nat) (x n : Word) : (s.takeTrap c k cause x n).gtick = s.gtick := rfl
@[simp] theorem State.takeTrap_curCore (s : State) (c k cause : Nat) (x n : Word) : (s.takeTrap c k cause x n).curCore = s.curCore := rfl
@[simp] theorem State.takeTrap_curCtx (s : State) (c k cause : Nat) (x n : Word) : (s.takeTrap c k cause x n).curCtx = s.curCtx := rfl
@[simp] theorem State.takeTrap_fresh (s : State) (c k cause : Nat) (x n : Word) : (s.takeTrap c k cause x n).fresh = s.fresh := rfl
@[simp] theorem State.takeTrap_seqno (s : State) (c k cause : Nat) (x n : Word) : (s.takeTrap c k cause x n).seqno = s.seqno := rfl
@[simp] theorem State.takeTrap_inbox (s : State) (c k cause : Nat) (x n : Word) : (s.takeTrap c k cause x n).inbox = s.inbox := rfl
@[simp] theorem State.takeTrap_mem (s : State) (c k cause : Nat) (x n : Word) : (s.takeTrap c k cause x n).mem = s.mem := rfl
@[simp] theorem State.takeTrap_tags (s : State) (c k cause : Nat) (x n : Word) : (s.takeTrap c k cause x n).tags = s.tags := rfl
@[simp] theorem State.takeTrap_clk (s : State) (c k cause : Nat) (x n : Word) : (s.takeTrap c k cause x n).clk = s.clk := rfl
@[simp] theorem State.takeTrap_applied (s : State) (c k cause : Nat) (x n : Word) : (s.takeTrap c k cause x n).applied = s.applied := rfl
@[simp] theorem State.takeTrap_posted (s : State) (c k cause : Nat) (x n : Word) : (s.takeTrap c k cause x n).posted = s.posted := rfl
@[simp] theorem State.takeTrap_calendar (s : State) (c k cause : Nat) (x n : Word) : (s.takeTrap c k cause x n).calendar = s.calendar := rfl
@[simp] theorem State.takeTrap_faulty (s : State) (c k cause : Nat) (x n : Word) : (s.takeTrap c k cause x n).faulty = s.faulty := rfl
@[simp] theorem State.takeTrap_owner (s : State) (c k cause : Nat) (x n : Word) : (s.takeTrap c k cause x n).owner = s.owner := rfl
@[simp] theorem State.takeTrap_fronds (s : State) (c k cause : Nat) (x n : Word) : (s.takeTrap c k cause x n).fronds = s.fronds := rfl
@[simp] theorem State.takeTrap_worlds (s : State) (c k cause : Nat) (x n : Word) : (s.takeTrap c k cause x n).worlds = s.worlds := rfl
@[simp] theorem State.takeTrap_dies (s : State) (c k cause : Nat) (x n : Word) : (s.takeTrap c k cause x n).dies = s.dies := rfl
@[simp] theorem State.takeTrap_packets (s : State) (c k cause : Nat) (x n : Word) : (s.takeTrap c k cause x n).packets = s.packets := rfl

@[simp] theorem State.block_now (s : State) (c k : Nat) (w : List Wait) : (s.block c k w).now = s.now := rfl
@[simp] theorem State.block_gtick (s : State) (c k : Nat) (w : List Wait) : (s.block c k w).gtick = s.gtick := rfl
@[simp] theorem State.block_curCore (s : State) (c k : Nat) (w : List Wait) : (s.block c k w).curCore = s.curCore := rfl
@[simp] theorem State.block_curCtx (s : State) (c k : Nat) (w : List Wait) : (s.block c k w).curCtx = s.curCtx := rfl
@[simp] theorem State.block_fresh (s : State) (c k : Nat) (w : List Wait) : (s.block c k w).fresh = s.fresh := rfl
@[simp] theorem State.block_seqno (s : State) (c k : Nat) (w : List Wait) : (s.block c k w).seqno = s.seqno := rfl
@[simp] theorem State.block_inbox (s : State) (c k : Nat) (w : List Wait) : (s.block c k w).inbox = s.inbox := rfl
@[simp] theorem State.block_mem (s : State) (c k : Nat) (w : List Wait) : (s.block c k w).mem = s.mem := rfl
@[simp] theorem State.block_tags (s : State) (c k : Nat) (w : List Wait) : (s.block c k w).tags = s.tags := rfl
@[simp] theorem State.block_clk (s : State) (c k : Nat) (w : List Wait) : (s.block c k w).clk = s.clk := rfl
@[simp] theorem State.block_applied (s : State) (c k : Nat) (w : List Wait) : (s.block c k w).applied = s.applied := rfl
@[simp] theorem State.block_posted (s : State) (c k : Nat) (w : List Wait) : (s.block c k w).posted = s.posted := rfl
@[simp] theorem State.block_calendar (s : State) (c k : Nat) (w : List Wait) : (s.block c k w).calendar = s.calendar := rfl
@[simp] theorem State.block_faulty (s : State) (c k : Nat) (w : List Wait) : (s.block c k w).faulty = s.faulty := rfl
@[simp] theorem State.block_owner (s : State) (c k : Nat) (w : List Wait) : (s.block c k w).owner = s.owner := rfl
@[simp] theorem State.block_fronds (s : State) (c k : Nat) (w : List Wait) : (s.block c k w).fronds = s.fronds := rfl
@[simp] theorem State.block_worlds (s : State) (c k : Nat) (w : List Wait) : (s.block c k w).worlds = s.worlds := rfl
@[simp] theorem State.block_dies (s : State) (c k : Nat) (w : List Wait) : (s.block c k w).dies = s.dies := rfl
@[simp] theorem State.block_packets (s : State) (c k : Nat) (w : List Wait) : (s.block c k w).packets = s.packets := rfl
@[simp] theorem State.block_hub (s : State) (c k : Nat) (w : List Wait) : (s.block c k w).hub = s.hub := rfl

@[simp] theorem State.resume_now (s : State) (c k : Nat) : (s.resume c k).now = s.now := rfl
@[simp] theorem State.resume_gtick (s : State) (c k : Nat) : (s.resume c k).gtick = s.gtick := rfl
@[simp] theorem State.resume_curCore (s : State) (c k : Nat) : (s.resume c k).curCore = s.curCore := rfl
@[simp] theorem State.resume_curCtx (s : State) (c k : Nat) : (s.resume c k).curCtx = s.curCtx := rfl
@[simp] theorem State.resume_fresh (s : State) (c k : Nat) : (s.resume c k).fresh = s.fresh := rfl
@[simp] theorem State.resume_seqno (s : State) (c k : Nat) : (s.resume c k).seqno = s.seqno := rfl
@[simp] theorem State.resume_inbox (s : State) (c k : Nat) : (s.resume c k).inbox = s.inbox := rfl
@[simp] theorem State.resume_mem (s : State) (c k : Nat) : (s.resume c k).mem = s.mem := rfl
@[simp] theorem State.resume_tags (s : State) (c k : Nat) : (s.resume c k).tags = s.tags := rfl
@[simp] theorem State.resume_clk (s : State) (c k : Nat) : (s.resume c k).clk = s.clk := rfl
@[simp] theorem State.resume_applied (s : State) (c k : Nat) : (s.resume c k).applied = s.applied := rfl
@[simp] theorem State.resume_posted (s : State) (c k : Nat) : (s.resume c k).posted = s.posted := rfl
@[simp] theorem State.resume_calendar (s : State) (c k : Nat) : (s.resume c k).calendar = s.calendar := rfl
@[simp] theorem State.resume_faulty (s : State) (c k : Nat) : (s.resume c k).faulty = s.faulty := rfl
@[simp] theorem State.resume_owner (s : State) (c k : Nat) : (s.resume c k).owner = s.owner := rfl
@[simp] theorem State.resume_fronds (s : State) (c k : Nat) : (s.resume c k).fronds = s.fronds := rfl
@[simp] theorem State.resume_worlds (s : State) (c k : Nat) : (s.resume c k).worlds = s.worlds := rfl
@[simp] theorem State.resume_dies (s : State) (c k : Nat) : (s.resume c k).dies = s.dies := rfl
@[simp] theorem State.resume_packets (s : State) (c k : Nat) : (s.resume c k).packets = s.packets := rfl
@[simp] theorem State.resume_hub (s : State) (c k : Nat) : (s.resume c k).hub = s.hub := rfl

@[simp] theorem State.take_now (s : State) (c k : Nat) : (s.take c k).now = s.now := rfl
@[simp] theorem State.take_gtick (s : State) (c k : Nat) : (s.take c k).gtick = s.gtick := rfl
@[simp] theorem State.take_curCore (s : State) (c k : Nat) : (s.take c k).curCore = s.curCore := rfl
@[simp] theorem State.take_curCtx (s : State) (c k : Nat) : (s.take c k).curCtx = s.curCtx := rfl
@[simp] theorem State.take_fresh (s : State) (c k : Nat) : (s.take c k).fresh = s.fresh := rfl
@[simp] theorem State.take_seqno (s : State) (c k : Nat) : (s.take c k).seqno = s.seqno := rfl
@[simp] theorem State.take_inbox (s : State) (c k : Nat) : (s.take c k).inbox = s.inbox := rfl
@[simp] theorem State.take_mem (s : State) (c k : Nat) : (s.take c k).mem = s.mem := rfl
@[simp] theorem State.take_tags (s : State) (c k : Nat) : (s.take c k).tags = s.tags := rfl
@[simp] theorem State.take_clk (s : State) (c k : Nat) : (s.take c k).clk = s.clk := rfl
@[simp] theorem State.take_applied (s : State) (c k : Nat) : (s.take c k).applied = s.applied := rfl
@[simp] theorem State.take_posted (s : State) (c k : Nat) : (s.take c k).posted = s.posted := rfl
@[simp] theorem State.take_calendar (s : State) (c k : Nat) : (s.take c k).calendar = s.calendar := rfl
@[simp] theorem State.take_faulty (s : State) (c k : Nat) : (s.take c k).faulty = s.faulty := rfl
@[simp] theorem State.take_owner (s : State) (c k : Nat) : (s.take c k).owner = s.owner := rfl
@[simp] theorem State.take_fronds (s : State) (c k : Nat) : (s.take c k).fronds = s.fronds := rfl
@[simp] theorem State.take_worlds (s : State) (c k : Nat) : (s.take c k).worlds = s.worlds := rfl
@[simp] theorem State.take_dies (s : State) (c k : Nat) : (s.take c k).dies = s.dies := rfl
@[simp] theorem State.take_packets (s : State) (c k : Nat) : (s.take c k).packets = s.packets := rfl
@[simp] theorem State.take_hub (s : State) (c k : Nat) : (s.take c k).hub = s.hub := rfl

@[simp] theorem State.idle_now (s : State) (c k : Nat) : (s.idle c k).now = s.now := rfl
@[simp] theorem State.idle_gtick (s : State) (c k : Nat) : (s.idle c k).gtick = s.gtick := rfl
@[simp] theorem State.idle_curCore (s : State) (c k : Nat) : (s.idle c k).curCore = s.curCore := rfl
@[simp] theorem State.idle_curCtx (s : State) (c k : Nat) : (s.idle c k).curCtx = s.curCtx := rfl
@[simp] theorem State.idle_fresh (s : State) (c k : Nat) : (s.idle c k).fresh = s.fresh := rfl
@[simp] theorem State.idle_seqno (s : State) (c k : Nat) : (s.idle c k).seqno = s.seqno := rfl
@[simp] theorem State.idle_inbox (s : State) (c k : Nat) : (s.idle c k).inbox = s.inbox := rfl
@[simp] theorem State.idle_mem (s : State) (c k : Nat) : (s.idle c k).mem = s.mem := rfl
@[simp] theorem State.idle_tags (s : State) (c k : Nat) : (s.idle c k).tags = s.tags := rfl
@[simp] theorem State.idle_clk (s : State) (c k : Nat) : (s.idle c k).clk = s.clk := rfl
@[simp] theorem State.idle_applied (s : State) (c k : Nat) : (s.idle c k).applied = s.applied := rfl
@[simp] theorem State.idle_posted (s : State) (c k : Nat) : (s.idle c k).posted = s.posted := rfl
@[simp] theorem State.idle_calendar (s : State) (c k : Nat) : (s.idle c k).calendar = s.calendar := rfl
@[simp] theorem State.idle_faulty (s : State) (c k : Nat) : (s.idle c k).faulty = s.faulty := rfl
@[simp] theorem State.idle_owner (s : State) (c k : Nat) : (s.idle c k).owner = s.owner := rfl
@[simp] theorem State.idle_fronds (s : State) (c k : Nat) : (s.idle c k).fronds = s.fronds := rfl
@[simp] theorem State.idle_worlds (s : State) (c k : Nat) : (s.idle c k).worlds = s.worlds := rfl
@[simp] theorem State.idle_dies (s : State) (c k : Nat) : (s.idle c k).dies = s.dies := rfl
@[simp] theorem State.idle_packets (s : State) (c k : Nat) : (s.idle c k).packets = s.packets := rfl
@[simp] theorem State.idle_hub (s : State) (c k : Nat) : (s.idle c k).hub = s.hub := rfl

@[simp] theorem State.fill_now (s : State) (c k rid : Nat) (v : Vec) : (s.fill c k rid v).now = s.now := rfl
@[simp] theorem State.fill_gtick (s : State) (c k rid : Nat) (v : Vec) : (s.fill c k rid v).gtick = s.gtick := rfl
@[simp] theorem State.fill_curCore (s : State) (c k rid : Nat) (v : Vec) : (s.fill c k rid v).curCore = s.curCore := rfl
@[simp] theorem State.fill_curCtx (s : State) (c k rid : Nat) (v : Vec) : (s.fill c k rid v).curCtx = s.curCtx := rfl
@[simp] theorem State.fill_fresh (s : State) (c k rid : Nat) (v : Vec) : (s.fill c k rid v).fresh = s.fresh := rfl
@[simp] theorem State.fill_seqno (s : State) (c k rid : Nat) (v : Vec) : (s.fill c k rid v).seqno = s.seqno := rfl
@[simp] theorem State.fill_inbox (s : State) (c k rid : Nat) (v : Vec) : (s.fill c k rid v).inbox = s.inbox := rfl
@[simp] theorem State.fill_mem (s : State) (c k rid : Nat) (v : Vec) : (s.fill c k rid v).mem = s.mem := rfl
@[simp] theorem State.fill_tags (s : State) (c k rid : Nat) (v : Vec) : (s.fill c k rid v).tags = s.tags := rfl
@[simp] theorem State.fill_clk (s : State) (c k rid : Nat) (v : Vec) : (s.fill c k rid v).clk = s.clk := rfl
@[simp] theorem State.fill_applied (s : State) (c k rid : Nat) (v : Vec) : (s.fill c k rid v).applied = s.applied := rfl
@[simp] theorem State.fill_posted (s : State) (c k rid : Nat) (v : Vec) : (s.fill c k rid v).posted = s.posted := rfl
@[simp] theorem State.fill_calendar (s : State) (c k rid : Nat) (v : Vec) : (s.fill c k rid v).calendar = s.calendar := rfl
@[simp] theorem State.fill_faulty (s : State) (c k rid : Nat) (v : Vec) : (s.fill c k rid v).faulty = s.faulty := rfl
@[simp] theorem State.fill_owner (s : State) (c k rid : Nat) (v : Vec) : (s.fill c k rid v).owner = s.owner := rfl
@[simp] theorem State.fill_fronds (s : State) (c k rid : Nat) (v : Vec) : (s.fill c k rid v).fronds = s.fronds := rfl
@[simp] theorem State.fill_worlds (s : State) (c k rid : Nat) (v : Vec) : (s.fill c k rid v).worlds = s.worlds := rfl
@[simp] theorem State.fill_dies (s : State) (c k rid : Nat) (v : Vec) : (s.fill c k rid v).dies = s.dies := rfl
@[simp] theorem State.fill_packets (s : State) (c k rid : Nat) (v : Vec) : (s.fill c k rid v).packets = s.packets := rfl
@[simp] theorem State.fill_hub (s : State) (c k rid : Nat) (v : Vec) : (s.fill c k rid v).hub = s.hub := rfl

@[simp] theorem State.deliver_now (s : State) (c k q ord : Nat) (e : QEntry) : (s.deliver c k q ord e).now = s.now := rfl
@[simp] theorem State.deliver_gtick (s : State) (c k q ord : Nat) (e : QEntry) : (s.deliver c k q ord e).gtick = s.gtick := rfl
@[simp] theorem State.deliver_curCore (s : State) (c k q ord : Nat) (e : QEntry) : (s.deliver c k q ord e).curCore = s.curCore := rfl
@[simp] theorem State.deliver_curCtx (s : State) (c k q ord : Nat) (e : QEntry) : (s.deliver c k q ord e).curCtx = s.curCtx := rfl
@[simp] theorem State.deliver_fresh (s : State) (c k q ord : Nat) (e : QEntry) : (s.deliver c k q ord e).fresh = s.fresh := rfl
@[simp] theorem State.deliver_seqno (s : State) (c k q ord : Nat) (e : QEntry) : (s.deliver c k q ord e).seqno = s.seqno := rfl
@[simp] theorem State.deliver_inbox (s : State) (c k q ord : Nat) (e : QEntry) : (s.deliver c k q ord e).inbox = s.inbox := rfl
@[simp] theorem State.deliver_mem (s : State) (c k q ord : Nat) (e : QEntry) : (s.deliver c k q ord e).mem = s.mem := rfl
@[simp] theorem State.deliver_tags (s : State) (c k q ord : Nat) (e : QEntry) : (s.deliver c k q ord e).tags = s.tags := rfl
@[simp] theorem State.deliver_clk (s : State) (c k q ord : Nat) (e : QEntry) : (s.deliver c k q ord e).clk = s.clk := rfl
@[simp] theorem State.deliver_applied (s : State) (c k q ord : Nat) (e : QEntry) : (s.deliver c k q ord e).applied = s.applied := rfl
@[simp] theorem State.deliver_posted (s : State) (c k q ord : Nat) (e : QEntry) : (s.deliver c k q ord e).posted = s.posted := rfl
@[simp] theorem State.deliver_calendar (s : State) (c k q ord : Nat) (e : QEntry) : (s.deliver c k q ord e).calendar = s.calendar := rfl
@[simp] theorem State.deliver_faulty (s : State) (c k q ord : Nat) (e : QEntry) : (s.deliver c k q ord e).faulty = s.faulty := rfl
@[simp] theorem State.deliver_owner (s : State) (c k q ord : Nat) (e : QEntry) : (s.deliver c k q ord e).owner = s.owner := rfl
@[simp] theorem State.deliver_fronds (s : State) (c k q ord : Nat) (e : QEntry) : (s.deliver c k q ord e).fronds = s.fronds := rfl
@[simp] theorem State.deliver_worlds (s : State) (c k q ord : Nat) (e : QEntry) : (s.deliver c k q ord e).worlds = s.worlds := rfl
@[simp] theorem State.deliver_dies (s : State) (c k q ord : Nat) (e : QEntry) : (s.deliver c k q ord e).dies = s.dies := rfl
@[simp] theorem State.deliver_packets (s : State) (c k q ord : Nat) (e : QEntry) : (s.deliver c k q ord e).packets = s.packets := rfl
@[simp] theorem State.deliver_hub (s : State) (c k q ord : Nat) (e : QEntry) : (s.deliver c k q ord e).hub = s.hub := rfl

@[simp] theorem State.owe_now (s : State) (q n : Nat) : (s.owe q n).now = s.now := rfl
@[simp] theorem State.owe_gtick (s : State) (q n : Nat) : (s.owe q n).gtick = s.gtick := rfl
@[simp] theorem State.owe_curCore (s : State) (q n : Nat) : (s.owe q n).curCore = s.curCore := rfl
@[simp] theorem State.owe_curCtx (s : State) (q n : Nat) : (s.owe q n).curCtx = s.curCtx := rfl
@[simp] theorem State.owe_fresh (s : State) (q n : Nat) : (s.owe q n).fresh = s.fresh := rfl
@[simp] theorem State.owe_seqno (s : State) (q n : Nat) : (s.owe q n).seqno = s.seqno := rfl
@[simp] theorem State.owe_inbox (s : State) (q n : Nat) : (s.owe q n).inbox = s.inbox := rfl
@[simp] theorem State.owe_mem (s : State) (q n : Nat) : (s.owe q n).mem = s.mem := rfl
@[simp] theorem State.owe_tags (s : State) (q n : Nat) : (s.owe q n).tags = s.tags := rfl
@[simp] theorem State.owe_clk (s : State) (q n : Nat) : (s.owe q n).clk = s.clk := rfl
@[simp] theorem State.owe_applied (s : State) (q n : Nat) : (s.owe q n).applied = s.applied := rfl
@[simp] theorem State.owe_posted (s : State) (q n : Nat) : (s.owe q n).posted = s.posted := rfl
@[simp] theorem State.owe_calendar (s : State) (q n : Nat) : (s.owe q n).calendar = s.calendar := rfl
@[simp] theorem State.owe_faulty (s : State) (q n : Nat) : (s.owe q n).faulty = s.faulty := rfl
@[simp] theorem State.owe_owner (s : State) (q n : Nat) : (s.owe q n).owner = s.owner := rfl
@[simp] theorem State.owe_fronds (s : State) (q n : Nat) : (s.owe q n).fronds = s.fronds := rfl
@[simp] theorem State.owe_worlds (s : State) (q n : Nat) : (s.owe q n).worlds = s.worlds := rfl
@[simp] theorem State.owe_dies (s : State) (q n : Nat) : (s.owe q n).dies = s.dies := rfl
@[simp] theorem State.owe_packets (s : State) (q n : Nat) : (s.owe q n).packets = s.packets := rfl
@[simp] theorem State.owe_hub (s : State) (q n : Nat) : (s.owe q n).hub = s.hub := rfl

/-! ### Reading after an update -/

theorem State.core_updCore (s : State) (c d : Nat) (f : Core → Core) :
    (s.updCore c f).core d = if d = c then f (s.core c) else s.core d := SMap.get_upd ({} : Core) s.cores c d f
@[simp] theorem State.core_updCore_self (s : State) (c : Nat) (f : Core → Core) : (s.updCore c f).core c = f (s.core c) := by
  simp [State.core_updCore]
theorem Core.ctx_updCtx (x : Core) (k j : Nat) (f : Ctx → Ctx) :
    (x.updCtx k f).ctx j = if j = k then f (x.ctx k) else x.ctx j := SMap.get_upd ({} : Ctx) x.ctxs k j f
@[simp] theorem Core.ctx_updCtx_self (x : Core) (k : Nat) (f : Ctx → Ctx) : (x.updCtx k f).ctx k = f (x.ctx k) := by
  simp [Core.ctx_updCtx]
/-- A context after a context has been changed. -/
theorem State.ctx_updCtx (s : State) (c k d j : Nat) (f : Ctx → Ctx) :
    (s.updCtx c k f).ctx d j = if d = c ∧ j = k then f (s.ctx c k) else s.ctx d j := by
  by_cases h : d = c
  · subst h
    simp [State.updCtx, State.ctx, Core.ctx_updCtx]
  · simp [State.updCtx, State.ctx, State.core_updCore, h]
@[simp] theorem State.ctx_updCtx_self (s : State) (c k : Nat) (f : Ctx → Ctx) : (s.updCtx c k f).ctx c k = f (s.ctx c k) := by
  simp [State.ctx_updCtx]
@[simp] theorem State.cur_updCur (s : State) (f : Ctx → Ctx) : (s.updCur f).cur = f s.cur :=
  State.ctx_updCtx_self s s.curCore s.curCtx f
theorem State.ctx_updCur (s : State) (d j : Nat) (f : Ctx → Ctx) :
    (s.updCur f).ctx d j = if d = s.curCore ∧ j = s.curCtx then f s.cur else s.ctx d j :=
  State.ctx_updCtx s s.curCore s.curCtx d j f
theorem State.frond_updFrond (s : State) (n m : Nat) (f : Frond → Frond) :
    (s.updFrond n f).frond m = if m = n then f (s.frond n) else s.frond m := SMap.get_upd ({} : Frond) s.fronds n m f
theorem State.world_updWorld (s : State) (w v : Nat) (f : World → World) :
    (s.updWorld w f).world v = if v = w then f (s.world w) else s.world v := SMap.get_upd ({} : World) s.worlds w v f
theorem State.die_updDie (s : State) (d e : Nat) (f : Die → Die) :
    (s.updDie d f).die e = if e = d then f (s.die d) else s.die e := SMap.get_upd ({} : Die) s.dies d e f
theorem State.slot_updSlot (s : State) (i j : Nat) (f : Entry → Entry) :
    (s.updSlot i f).slot j = if j = i then f (s.slot i) else s.slot j := SMap.get_upd ({} : Entry) s.hub.slots i j f
theorem State.byte_setByte (s : State) (a b : Nat) (x : Byte) : (s.setByte a x).byte b = if b = a then x else s.byte b :=
  SMap.get_put 0 s.mem a b x
@[simp] theorem State.updHub_hub (s : State) (f : Hub → Hub) : (s.updHub f).hub = f s.hub := rfl

/-- A change of one context that keeps its registers keeps every register and every byte. -/
theorem State.ctx_of_cores_eq {s t : State} (h : t.cores = s.cores) (c k : Nat) : t.ctx c k = s.ctx c k := by
  simp [State.ctx, State.core, h]
theorem State.byte_of_mem_eq {s t : State} (h : t.mem = s.mem) (a : Nat) : t.byte a = s.byte a := by
  simp [State.byte, h]

/-! ### What the writers of memory change -/

/-- Writing cells changes memory alone. -/
theorem State.writeCells_eq (s : State) (l : List Host.Cell) : s.writeCells l = { s with mem := (s.writeCells l).mem } := by
  induction l generalizing s with
  | nil => rfl
  | cons c r ih => exact ih (s.setByte c.1 c.2)
/-- A fold of writes changes memory alone. -/
theorem State.foldl_writeCells_eq {α : Type} (g : State → α → List Host.Cell) (l : List α) (s : State) :
    l.foldl (fun t n => t.writeCells (g s n)) s = { s with mem := (l.foldl (fun t n => t.writeCells (g s n)) s).mem } := by
  suffices h : ∀ t : State, l.foldl (fun t n => t.writeCells (g s n)) t = { t with mem := (l.foldl (fun t n => t.writeCells (g s n)) t).mem } from h s
  induction l with
  | nil => intro t; rfl
  | cons a r ih =>
    intro t
    rw [List.foldl_cons, ih (t.writeCells (g s a)), State.writeCells_eq t]
/-- Memory as a world sees it differs from the state in memory alone (R204). -/
theorem State.seenBy_eq (s : State) (w : Nat) (l : List Nat) : s.seenBy w l = { s with mem := (s.seenBy w l).mem } :=
  State.foldl_writeCells_eq
    (fun s n => lineCells n (lineSeen (s.world (SMap.get 0 s.owner n - 1)).key (s.world w).key n (s.lineBytes n))) _ s
/-- A world sees its own lines, and those that nobody has written, as they stand. -/
theorem State.seenBy_of_own (s : State) (w : Nat) (l : List Nat) (h : ∀ n ∈ linesOf l, s.foreign w n = false) : s.seenBy w l = s := by
  have e : (linesOf l).filter (s.foreign w) = [] := List.filter_eq_nil_iff.mpr (fun n hn => by simp [h n hn])
  simp [State.seenBy, e]
/-- A world's write changes memory and the owners of lines (R204). -/
theorem State.claim_eq (s : State) (w : Nat) (l : List Nat) :
    s.claim w l = { s with mem := (s.seenBy w l).mem, owner := (s.claim w l).owner } := by
  unfold State.claim
  rw [State.seenBy_eq]
/-- A timed write of a world changes memory, its tags and the owners of its lines (R170, R204). -/
theorem State.landAs_eq (s : State) (w : Nat) (l : List Host.Cell) :
    s.landAs w l = { s with mem := (s.landAs w l).mem, tags := (s.landAs w l).tags, owner := (s.claim w (l.map Prod.fst)).owner } := by
  unfold State.landAs State.timedWrite State.tagLines
  rw [State.writeCells_eq, State.claim_eq]
@[simp] theorem State.entry_freed_bind (e : Entry) : e.freed.bind = e.bind := rfl
@[simp] theorem State.entry_freed_st (e : Entry) : e.freed.st = .free := rfl

/-- What the manager is told and what is answered touches no core. -/
@[simp] theorem State.core_tell (s : State) (e : Event) (c : Nat) : (s.tell e).core c = s.core c := rfl
@[simp] theorem State.ctx_tell (s : State) (e : Event) (c k : Nat) : (s.tell e).ctx c k = s.ctx c k := rfl
@[simp] theorem State.core_answer (s : State) (r : Reply) (c : Nat) : (s.answer r).core c = s.core c := rfl
@[simp] theorem State.core_updHub (s : State) (f : Hub → Hub) (c : Nat) : (s.updHub f).core c = s.core c := rfl
/-- A trap's notice is all that the hub sees of it (R280). -/
@[simp] theorem State.takeTrap_hub (s : State) (c k cause : Nat) (x n : Word) :
    (s.takeTrap c k cause x n).hub = { s.hub with queue := s.hub.queue ++ [.trapNotice c k] } := rfl

end Sys2Proof.Machine
end

