-- ==== Sys2Proof/Laws/Memory.lean ====
section
/-! SUPPORT. Memory: every operation that writes it keeps its canonical form, and what a byte reads after each. -/

namespace Sys2Proof.Machine

/-! ### The canonical form -/

theorem State.reset_wf : Memory.wf State.reset.mem := rfl
theorem State.setByte_wf {s : State} (a : Nat) (b : Byte) (h : Memory.wf s.mem) : Memory.wf (s.setByte a b).mem :=
  SMap.wf_put 0 s.mem a b h
theorem State.writeCells_wf {s : State} (l : List Host.Cell) (h : Memory.wf s.mem) : Memory.wf (s.writeCells l).mem := by
  induction l generalizing s with
  | nil => exact h
  | cons c r ih => exact ih (State.setByte_wf c.1 c.2 h)
theorem State.timedWrite_mem (s : State) (l : List Host.Cell) : (s.timedWrite l).mem = (s.writeCells l).mem := rfl
theorem State.timedWrite_wf {s : State} (l : List Host.Cell) (h : Memory.wf s.mem) : Memory.wf (s.timedWrite l).mem :=
  State.writeCells_wf l h
theorem State.store_wf {s : State} (a n v : Nat) (h : Memory.wf s.mem) : Memory.wf (s.store a n v).mem := State.writeCells_wf _ h
theorem State.zeroise_wf {s : State} (lo n : Nat) (h : Memory.wf s.mem) : Memory.wf (s.zeroise lo n).mem :=
  SMap.wf_filter 0 s.mem _ h
theorem State.zeroiseCore_wf {s : State} (c : Nat) (h : Memory.wf s.mem) : Memory.wf (s.zeroiseCore c).mem :=
  SMap.wf_filter 0 s.mem _ h
theorem State.foldl_writeCells_wf (f : Nat → List Host.Cell) (r : List Nat) (s : State) (h : Memory.wf s.mem) :
    Memory.wf (r.foldl (fun t n => t.writeCells (f n)) s).mem := by
  induction r generalizing s with
  | nil => exact h
  | cons n r ih => exact ih _ (State.writeCells_wf (f n) h)
theorem State.seenBy_wf {s : State} (w : Nat) (l : List Nat) (h : Memory.wf s.mem) : Memory.wf (s.seenBy w l).mem :=
  State.foldl_writeCells_wf (fun n => lineCells n
    (lineSeen (s.world (SMap.get 0 s.owner n - 1)).key (s.world w).key n (s.lineBytes n))) _ s h
theorem State.claim_wf {s : State} (w : Nat) (l : List Nat) (h : Memory.wf s.mem) : Memory.wf (s.claim w l).mem := State.seenBy_wf w l h
theorem State.landAs_wf {s : State} (w : Nat) (l : List Host.Cell) (h : Memory.wf s.mem) : Memory.wf (s.landAs w l).mem :=
  State.timedWrite_wf l (State.claim_wf w _ h)

/-! ### What a byte reads -/

/-- Writing cells leaves every byte that none of them names. -/
theorem State.byte_writeCells_of_not_mem (s : State) (l : List Host.Cell) (a : Nat) (h : ∀ c ∈ l, c.1 ≠ a) :
    (s.writeCells l).byte a = s.byte a := by
  induction l generalizing s with
  | nil => rfl
  | cons c r ih =>
    have h1 : c.1 ≠ a := h c (List.mem_cons_self ..)
    have h2 := ih (s.setByte c.1 c.2) (fun d hd => h d (List.mem_cons_of_mem _ hd))
    rw [State.byte_setByte, if_neg (Ne.symm h1)] at h2
    exact h2
/-- A byte that a cell names reads the last such cell. -/
theorem State.byte_writeCells_append (s : State) (l : List Host.Cell) (a : Nat) (b : Byte) :
    (s.writeCells (l ++ [(a, b)])).byte a = b := by
  have e : s.writeCells (l ++ [(a, b)]) = (s.writeCells l).setByte a b := by simp [State.writeCells, List.foldl_append]
  rw [e, State.byte_setByte, if_pos rfl]
@[simp] theorem State.byte_timedWrite (s : State) (l : List Host.Cell) (a : Nat) : (s.timedWrite l).byte a = (s.writeCells l).byte a := rfl
/-- A zeroised range reads zero, and no other byte changes. -/
theorem State.byte_zeroise (s : State) (lo n a : Nat) :
    (s.zeroise lo n).byte a = if lo ≤ a ∧ a < lo + n then 0 else s.byte a := by
  have e := SMap.get_filter (0 : Byte) s.mem (fun k => decide (¬ (lo ≤ k ∧ k < lo + n))) a
  unfold State.byte State.zeroise
  rw [e]
  by_cases h : lo ≤ a ∧ a < lo + n <;> simp [h]
/-- Storing n bytes leaves every byte outside them. -/
theorem State.byte_store_of_outside (s : State) (a n v b : Nat) (h : b < a ∨ a + n ≤ b) : (s.store a n v).byte b = s.byte b := by
  refine State.byte_writeCells_of_not_mem s _ b (fun c hc => ?_)
  simp only [cellsAt, List.mem_map, List.mem_range] at hc
  obtain ⟨i, hi, rfl⟩ := hc
  show a + i ≠ b
  omega

end Sys2Proof.Machine
end

