-- ==== Sys2Proof/Laws/PerInstr.lean ====
section
/-! SUPPORT. Per instruction: how many syllables its encoding has, by the map it belongs to (R144, R244); an event has none. -/

namespace Sys2Proof.Laws.EncodedLength

/-- Syllables of an instruction of a map. -/
def syllables : Option SlotKind → Nat
  | none => 0
  | some .C | some .I | some .S => 1
  | some .V | some .X | some .M | some .L | some .K | some .Y | some .U => 2

/-- The encoding has as many syllables as the map says. -/
def Statement (i : Instr) : Prop := (encode i).length = syllables i.kind

theorem br : ∀ x0 x1, Statement (.br x0 x1) := by intros; rfl
theorem brx : ∀ x0 x1, Statement (.brx x0 x1) := by intros; rfl
theorem call : ∀ x0 x1 x2 x3, Statement (.call x0 x1 x2 x3) := by intros; rfl
theorem lsetup : ∀ x0 x1 x2 x3, Statement (.lsetup x0 x1 x2 x3) := by intros; rfl
theorem lend : ∀ x0, Statement (.lend x0) := by intros; rfl
theorem lquit : ∀ x0 x1, Statement (.lquit x0 x1) := by intros; rfl
theorem callx : ∀ x0 x1 x2 x3, Statement (.callx x0 x1 x2 x3) := by intros; rfl
theorem ret : ∀ x0 x1, Statement (.ret x0 x1) := by intros; rfl
theorem barL : ∀ x0 x1, Statement (.barL x0 x1) := by intros; rfl
theorem tkalign : ∀ x0 x1, Statement (.tkalign x0 x1) := by intros; rfl
theorem childLaunch : ∀ x0 x1 x2 x3, Statement (.childLaunch x0 x1 x2 x3) := by intros; rfl
theorem sigDec : ∀ x0 x1 x2 x3, Statement (.sigDec x0 x1 x2 x3) := by intros; rfl
theorem sigWait : ∀ x0 x1 x2 x3, Statement (.sigWait x0 x1 x2 x3) := by intros; rfl
theorem fence : ∀ x0 x1, Statement (.fence x0 x1) := by intros; rfl
theorem cwait : ∀ x0 x1 x2, Statement (.cwait x0 x1 x2) := by intros; rfl
theorem swait : ∀ x0 x1 x2, Statement (.swait x0 x1 x2) := by intros; rfl
theorem softwareTrap : ∀ x0 x1, Statement (.softwareTrap x0 x1) := by intros; rfl
theorem halt : ∀ x0, Statement (.halt x0) := by intros; rfl
theorem rdsys : ∀ x0 x1 x2, Statement (.rdsys x0 x1 x2) := by intros; rfl
theorem wrsys : ∀ x0 x1 x2, Statement (.wrsys x0 x1 x2) := by intros; rfl
theorem wfe : ∀ x0, Statement (.wfe x0) := by intros; rfl
theorem saSealC : ∀ x0 x1 x2, Statement (.saSealC x0 x1 x2) := by intros; rfl
theorem saSealG : ∀ x0 x1 x2, Statement (.saSealG x0 x1 x2) := by intros; rfl
theorem saSealP : ∀ x0 x1 x2, Statement (.saSealP x0 x1 x2) := by intros; rfl
theorem add : ∀ x0 x1 x2 x3, Statement (.add x0 x1 x2 x3) := by intros; rfl
theorem sub : ∀ x0 x1 x2 x3, Statement (.sub x0 x1 x2 x3) := by intros; rfl
theorem adds : ∀ x0 x1 x2 x3 x4, Statement (.adds x0 x1 x2 x3 x4) := by intros; rfl
theorem subs : ∀ x0 x1 x2 x3 x4, Statement (.subs x0 x1 x2 x3 x4) := by intros; rfl
theorem mul : ∀ x0 x1 x2 x3, Statement (.mul x0 x1 x2 x3) := by intros; rfl
theorem mulh : ∀ x0 x1 x2 x3, Statement (.mulh x0 x1 x2 x3) := by intros; rfl
theorem mulhn : ∀ x0 x1 x2 x3, Statement (.mulhn x0 x1 x2 x3) := by intros; rfl
theorem div : ∀ x0 x1 x2 x3 x4, Statement (.div x0 x1 x2 x3 x4) := by intros; rfl
theorem rem : ∀ x0 x1 x2 x3 x4, Statement (.rem x0 x1 x2 x3 x4) := by intros; rfl
theorem addi : ∀ x0 x1 x2 x3, Statement (.addi x0 x1 x2 x3) := by intros; rfl
theorem xori : ∀ x0 x1 x2 x3, Statement (.xori x0 x1 x2 x3) := by intros; rfl
theorem andi : ∀ x0 x1 x2 x3, Statement (.andi x0 x1 x2 x3) := by intros; rfl
theorem ori : ∀ x0 x1 x2 x3, Statement (.ori x0 x1 x2 x3) := by intros; rfl
theorem and : ∀ x0 x1 x2 x3, Statement (.and x0 x1 x2 x3) := by intros; rfl
theorem or : ∀ x0 x1 x2 x3, Statement (.or x0 x1 x2 x3) := by intros; rfl
theorem xor : ∀ x0 x1 x2 x3, Statement (.xor x0 x1 x2 x3) := by intros; rfl
theorem shli : ∀ x0 x1 x2 x3, Statement (.shli x0 x1 x2 x3) := by intros; rfl
theorem shri : ∀ x0 x1 x2 x3, Statement (.shri x0 x1 x2 x3) := by intros; rfl
theorem srai : ∀ x0 x1 x2 x3, Statement (.srai x0 x1 x2 x3) := by intros; rfl
theorem roti : ∀ x0 x1 x2 x3, Statement (.roti x0 x1 x2 x3) := by intros; rfl
theorem shl : ∀ x0 x1 x2 x3, Statement (.shl x0 x1 x2 x3) := by intros; rfl
theorem shr : ∀ x0 x1 x2 x3, Statement (.shr x0 x1 x2 x3) := by intros; rfl
theorem sra : ∀ x0 x1 x2 x3, Statement (.sra x0 x1 x2 x3) := by intros; rfl
theorem rot : ∀ x0 x1 x2 x3, Statement (.rot x0 x1 x2 x3) := by intros; rfl
theorem bfx : ∀ x0 x1 x2 x3, Statement (.bfx x0 x1 x2 x3) := by intros; rfl
theorem bfxs : ∀ x0 x1 x2 x3, Statement (.bfxs x0 x1 x2 x3) := by intros; rfl
theorem bfi : ∀ x0 x1 x2 x3, Statement (.bfi x0 x1 x2 x3) := by intros; rfl
theorem fsh : ∀ x0 x1 x2 x3, Statement (.fsh x0 x1 x2 x3) := by intros; rfl
theorem popc : ∀ x0 x1 x2, Statement (.popc x0 x1 x2) := by intros; rfl
theorem clz : ∀ x0 x1 x2, Statement (.clz x0 x1 x2) := by intros; rfl
theorem ctz : ∀ x0 x1 x2, Statement (.ctz x0 x1 x2) := by intros; rfl
theorem min : ∀ x0 x1 x2 x3 x4, Statement (.min x0 x1 x2 x3 x4) := by intros; rfl
theorem max : ∀ x0 x1 x2 x3 x4, Statement (.max x0 x1 x2 x3 x4) := by intros; rfl
theorem cmp : ∀ x0 x1 x2 x3 x4, Statement (.cmp x0 x1 x2 x3 x4) := by intros; rfl
theorem cmpi : ∀ x0 x1 x2 x3 x4, Statement (.cmpi x0 x1 x2 x3 x4) := by intros; rfl
theorem sel : ∀ x0 x1 x2 x3 x4, Statement (.sel x0 x1 x2 x3 x4) := by intros; rfl
theorem movi : ∀ x0 x1 x2, Statement (.movi x0 x1 x2) := by intros; rfl
theorem andn : ∀ x0 x1 x2 x3, Statement (.andn x0 x1 x2 x3) := by intros; rfl
theorem pand : ∀ x0 x1 x2 x3, Statement (.pand x0 x1 x2 x3) := by intros; rfl
theorem por : ∀ x0 x1 x2 x3, Statement (.por x0 x1 x2 x3) := by intros; rfl
theorem pxor : ∀ x0 x1 x2 x3, Statement (.pxor x0 x1 x2 x3) := by intros; rfl
theorem pandn : ∀ x0 x1 x2 x3, Statement (.pandn x0 x1 x2 x3) := by intros; rfl
theorem lea : ∀ x0 x1 x2 x3, Statement (.lea x0 x1 x2 x3) := by intros; rfl
theorem movm : ∀ x0 x1 x2, Statement (.movm x0 x1 x2) := by intros; rfl
theorem movg : ∀ x0 x1 x2, Statement (.movg x0 x1 x2) := by intros; rfl
theorem leaa : ∀ x0 x1 x2 x3, Statement (.leaa x0 x1 x2 x3) := by intros; rfl
theorem spStG : ∀ x0 x1 x2, Statement (.spStG x0 x1 x2) := by intros; rfl
theorem spStV : ∀ x0 x1 x2, Statement (.spStV x0 x1 x2) := by intros; rfl
theorem spLdG : ∀ x0 x1 x2, Statement (.spLdG x0 x1 x2) := by intros; rfl
theorem spLdV : ∀ x0 x1 x2, Statement (.spLdV x0 x1 x2) := by intros; rfl
theorem vadd : ∀ x0 x1 x2 x3 x4 x5 x6, Statement (.vadd x0 x1 x2 x3 x4 x5 x6) := by intros; rfl
theorem vsub : ∀ x0 x1 x2 x3 x4 x5 x6, Statement (.vsub x0 x1 x2 x3 x4 x5 x6) := by intros; rfl
theorem vmul : ∀ x0 x1 x2 x3 x4 x5 x6, Statement (.vmul x0 x1 x2 x3 x4 x5 x6) := by intros; rfl
theorem vfma : ∀ x0 x1 x2 x3 x4 x5 x6 x7, Statement (.vfma x0 x1 x2 x3 x4 x5 x6 x7) := by intros; rfl
theorem vfnma : ∀ x0 x1 x2 x3 x4 x5 x6 x7, Statement (.vfnma x0 x1 x2 x3 x4 x5 x6 x7) := by intros; rfl
theorem vadds : ∀ x0 x1 x2 x3 x4 x5, Statement (.vadds x0 x1 x2 x3 x4 x5) := by intros; rfl
theorem vsubs : ∀ x0 x1 x2 x3 x4 x5, Statement (.vsubs x0 x1 x2 x3 x4 x5) := by intros; rfl
theorem vmin : ∀ x0 x1 x2 x3 x4 x5, Statement (.vmin x0 x1 x2 x3 x4 x5) := by intros; rfl
theorem vmax : ∀ x0 x1 x2 x3 x4 x5, Statement (.vmax x0 x1 x2 x3 x4 x5) := by intros; rfl
theorem vabs : ∀ x0 x1 x2 x3 x4, Statement (.vabs x0 x1 x2 x3 x4) := by intros; rfl
theorem vneg : ∀ x0 x1 x2 x3 x4, Statement (.vneg x0 x1 x2 x3 x4) := by intros; rfl
theorem vand : ∀ x0 x1 x2 x3 x4, Statement (.vand x0 x1 x2 x3 x4) := by intros; rfl
theorem vor : ∀ x0 x1 x2 x3 x4, Statement (.vor x0 x1 x2 x3 x4) := by intros; rfl
theorem vxor : ∀ x0 x1 x2 x3 x4, Statement (.vxor x0 x1 x2 x3 x4) := by intros; rfl
theorem vandn : ∀ x0 x1 x2 x3 x4, Statement (.vandn x0 x1 x2 x3 x4) := by intros; rfl
theorem vshl : ∀ x0 x1 x2 x3 x4 x5, Statement (.vshl x0 x1 x2 x3 x4 x5) := by intros; rfl
theorem vshr : ∀ x0 x1 x2 x3 x4 x5, Statement (.vshr x0 x1 x2 x3 x4 x5) := by intros; rfl
theorem vsra : ∀ x0 x1 x2 x3 x4 x5, Statement (.vsra x0 x1 x2 x3 x4 x5) := by intros; rfl
theorem vshli : ∀ x0 x1 x2 x3 x4 x5, Statement (.vshli x0 x1 x2 x3 x4 x5) := by intros; rfl
theorem vshri : ∀ x0 x1 x2 x3 x4 x5, Statement (.vshri x0 x1 x2 x3 x4 x5) := by intros; rfl
theorem vsrai : ∀ x0 x1 x2 x3 x4 x5, Statement (.vsrai x0 x1 x2 x3 x4 x5) := by intros; rfl
theorem vcmp : ∀ x0 x1 x2 x3 x4 x5 x6, Statement (.vcmp x0 x1 x2 x3 x4 x5 x6) := by intros; rfl
theorem vsel : ∀ x0 x1 x2 x3 x4 x5, Statement (.vsel x0 x1 x2 x3 x4 x5) := by intros; rfl
theorem vcvt : ∀ x0 x1 x2 x3 x4 x5 x6 x7, Statement (.vcvt x0 x1 x2 x3 x4 x5 x6 x7) := by intros; rfl
theorem vdup : ∀ x0 x1 x2 x3 x4, Statement (.vdup x0 x1 x2 x3 x4) := by intros; rfl
theorem vrsum : ∀ x0 x1 x2 x3 x4, Statement (.vrsum x0 x1 x2 x3 x4) := by intros; rfl
theorem vrmax : ∀ x0 x1 x2 x3 x4, Statement (.vrmax x0 x1 x2 x3 x4) := by intros; rfl
theorem vrmin : ∀ x0 x1 x2 x3 x4, Statement (.vrmin x0 x1 x2 x3 x4) := by intros; rfl
theorem saAdd : ∀ x0 x1 x2 x3 x4, Statement (.saAdd x0 x1 x2 x3 x4) := by intros; rfl
theorem expF : ∀ x0 x1 x2 x3, Statement (.expF x0 x1 x2 x3) := by intros; rfl
theorem expR : ∀ x0 x1 x2 x3, Statement (.expR x0 x1 x2 x3) := by intros; rfl
theorem exp2F : ∀ x0 x1 x2 x3, Statement (.exp2F x0 x1 x2 x3) := by intros; rfl
theorem exp2R : ∀ x0 x1 x2 x3, Statement (.exp2R x0 x1 x2 x3) := by intros; rfl
theorem log2F : ∀ x0 x1 x2 x3, Statement (.log2F x0 x1 x2 x3) := by intros; rfl
theorem log2R : ∀ x0 x1 x2 x3, Statement (.log2R x0 x1 x2 x3) := by intros; rfl
theorem rcpF : ∀ x0 x1 x2 x3, Statement (.rcpF x0 x1 x2 x3) := by intros; rfl
theorem rcpR : ∀ x0 x1 x2 x3, Statement (.rcpR x0 x1 x2 x3) := by intros; rfl
theorem rsqF : ∀ x0 x1 x2 x3, Statement (.rsqF x0 x1 x2 x3) := by intros; rfl
theorem rsqR : ∀ x0 x1 x2 x3, Statement (.rsqR x0 x1 x2 x3) := by intros; rfl
theorem sqrtF : ∀ x0 x1 x2 x3, Statement (.sqrtF x0 x1 x2 x3) := by intros; rfl
theorem sqrtR : ∀ x0 x1 x2 x3, Statement (.sqrtR x0 x1 x2 x3) := by intros; rfl
theorem tanhF : ∀ x0 x1 x2 x3, Statement (.tanhF x0 x1 x2 x3) := by intros; rfl
theorem tanhR : ∀ x0 x1 x2 x3, Statement (.tanhR x0 x1 x2 x3) := by intros; rfl
theorem sigmF : ∀ x0 x1 x2 x3, Statement (.sigmF x0 x1 x2 x3) := by intros; rfl
theorem sigmR : ∀ x0 x1 x2 x3, Statement (.sigmR x0 x1 x2 x3) := by intros; rfl
theorem sinF : ∀ x0 x1 x2 x3, Statement (.sinF x0 x1 x2 x3) := by intros; rfl
theorem sinR : ∀ x0 x1 x2 x3, Statement (.sinR x0 x1 x2 x3) := by intros; rfl
theorem cosF : ∀ x0 x1 x2 x3, Statement (.cosF x0 x1 x2 x3) := by intros; rfl
theorem cosR : ∀ x0 x1 x2 x3, Statement (.cosR x0 x1 x2 x3) := by intros; rfl
theorem xpack : ∀ x0 x1 x2 x3 x4 x5 x6, Statement (.xpack x0 x1 x2 x3 x4 x5 x6) := by intros; rfl
theorem xunpack : ∀ x0 x1 x2 x3 x4 x5 x6, Statement (.xunpack x0 x1 x2 x3 x4 x5 x6) := by intros; rfl
theorem xscale : ∀ x0 x1 x2 x3 x4 x5, Statement (.xscale x0 x1 x2 x3 x4 x5) := by intros; rfl
theorem xmaxe : ∀ x0 x1 x2 x3 x4 x5 x6, Statement (.xmaxe x0 x1 x2 x3 x4 x5 x6) := by intros; rfl
theorem xperm : ∀ x0 x1 x2 x3 x4 x5, Statement (.xperm x0 x1 x2 x3 x4 x5) := by intros; rfl
theorem xrot : ∀ x0 x1 x2 x3 x4 x5, Statement (.xrot x0 x1 x2 x3 x4 x5) := by intros; rfl
theorem xzip : ∀ x0 x1 x2 x3 x4 x5 x6, Statement (.xzip x0 x1 x2 x3 x4 x5 x6) := by intros; rfl
theorem xunzip : ∀ x0 x1 x2 x3 x4 x5 x6, Statement (.xunzip x0 x1 x2 x3 x4 x5 x6) := by intros; rfl
theorem xtrans : ∀ x0 x1 x2 x3 x4 x5, Statement (.xtrans x0 x1 x2 x3 x4 x5) := by intros; rfl
theorem saNrd : ∀ x0 x1 x2 x3 x4 x5, Statement (.saNrd x0 x1 x2 x3 x4 x5) := by intros; rfl
theorem saSax : ∀ x0 x1, Statement (.saSax x0 x1) := by intros; rfl
theorem mcall : ∀ x0 x1, Statement (.mcall x0 x1) := by intros; rfl
theorem mrep : ∀ x0 x1, Statement (.mrep x0 x1) := by intros; rfl
theorem mprog : ∀ x0 x1 x2 x3, Statement (.mprog x0 x1 x2 x3) := by intros; rfl
theorem mprogT : ∀ x0 x1 x2 x3, Statement (.mprogT x0 x1 x2 x3) := by intros; rfl
theorem mwb : ∀ x0 x1, Statement (.mwb x0 x1) := by intros; rfl
theorem mstat : ∀ x0 x1, Statement (.mstat x0 x1) := by intros; rfl
theorem mdrain : ∀ x0 x1, Statement (.mdrain x0 x1) := by intros; rfl
theorem uaLd : ∀ x0 x1 x2 x3 x4, Statement (.uaLd x0 x1 x2 x3 x4) := by intros; rfl
theorem ubLd : ∀ x0 x1 x2, Statement (.ubLd x0 x1 x2) := by intros; rfl
theorem uStep : ∀ x0 x1 x2 x3 x4, Statement (.uStep x0 x1 x2 x3 x4) := by intros; rfl
theorem uDrain : ∀ x0 x1 x2 x3 x4 x5, Statement (.uDrain x0 x1 x2 x3 x4 x5) := by intros; rfl
theorem uLoop : ∀ x0 x1 x2, Statement (.uLoop x0 x1 x2) := by intros; rfl
theorem uAddp : ∀ x0 x1 x2, Statement (.uAddp x0 x1 x2) := by intros; rfl
theorem uEnd : Statement .uEnd := rfl
theorem ld : ∀ x0 x1 x2 x3 x4 x5, Statement (.ld x0 x1 x2 x3 x4 x5) := by intros; rfl
theorem st : ∀ x0 x1 x2 x3 x4 x5 x6, Statement (.st x0 x1 x2 x3 x4 x5 x6) := by intros; rfl
theorem lds : ∀ x0 x1 x2 x3 x4 x5 x6, Statement (.lds x0 x1 x2 x3 x4 x5 x6) := by intros; rfl
theorem sts : ∀ x0 x1 x2 x3 x4 x5, Statement (.sts x0 x1 x2 x3 x4 x5) := by intros; rfl
theorem atom : ∀ x0 x1 x2 x3 x4 x5 x6 x7, Statement (.atom x0 x1 x2 x3 x4 x5 x6 x7) := by intros; rfl
theorem gld : ∀ x0 x1 x2 x3 x4, Statement (.gld x0 x1 x2 x3 x4) := by intros; rfl
theorem gst : ∀ x0 x1 x2 x3 x4 x5, Statement (.gst x0 x1 x2 x3 x4 x5) := by intros; rfl
theorem gatom : ∀ x0 x1 x2 x3 x4 x5 x6, Statement (.gatom x0 x1 x2 x3 x4 x5 x6) := by intros; rfl
theorem mcst : ∀ x0 x1 x2 x3 x4 x5 x6 x7, Statement (.mcst x0 x1 x2 x3 x4 x5 x6 x7) := by intros; rfl
theorem cpyTl : ∀ x0 x1 x2 x3 x4 x5 x6, Statement (.cpyTl x0 x1 x2 x3 x4 x5 x6) := by intros; rfl
theorem cpyUt : ∀ x0 x1 x2 x3 x4 x5 x6 x7, Statement (.cpyUt x0 x1 x2 x3 x4 x5 x6 x7) := by intros; rfl
theorem cpyAdd : ∀ x0 x1 x2 x3 x4 x5 x6 x7, Statement (.cpyAdd x0 x1 x2 x3 x4 x5 x6 x7) := by intros; rfl
theorem cpyBc : ∀ x0 x1 x2 x3 x4 x5, Statement (.cpyBc x0 x1 x2 x3 x4 x5) := by intros; rfl
theorem cpyEv : ∀ x0 x1 x2 x3 x4 x5, Statement (.cpyEv x0 x1 x2 x3 x4 x5) := by intros; rfl
theorem cpyRs : ∀ x0 x1 x2 x3 x4 x5, Statement (.cpyRs x0 x1 x2 x3 x4 x5) := by intros; rfl
theorem cpyPut : ∀ x0 x1 x2 x3 x4 x5 x6, Statement (.cpyPut x0 x1 x2 x3 x4 x5 x6) := by intros; rfl
theorem cpyGet : ∀ x0 x1 x2 x3 x4 x5 x6, Statement (.cpyGet x0 x1 x2 x3 x4 x5 x6) := by intros; rfl
theorem coll : ∀ x0 x1 x2 x3 x4 x5 x6 x7, Statement (.coll x0 x1 x2 x3 x4 x5 x6 x7) := by intros; rfl
theorem mig : ∀ x0 x1 x2 x3, Statement (.mig x0 x1 x2 x3) := by intros; rfl
theorem yclr : ∀ x0 x1, Statement (.yclr x0 x1) := by intros; rfl
theorem ysetd : ∀ x0 x1 x2 x3 x4 x5 x6, Statement (.ysetd x0 x1 x2 x3 x4 x5 x6) := by intros; rfl
theorem yseto : ∀ x0 x1 x2 x3, Statement (.yseto x0 x1 x2 x3) := by intros; rfl
theorem ysetf : ∀ x0 x1 x2 x3 x4 x5, Statement (.ysetf x0 x1 x2 x3 x4 x5) := by intros; rfl
theorem ysetb : ∀ x0 x1 x2, Statement (.ysetb x0 x1 x2) := by intros; rfl
theorem ycpy : ∀ x0 x1 x2, Statement (.ycpy x0 x1 x2) := by intros; rfl
theorem freezeEnd : ∀ x0, Statement (.freezeEnd x0) := by intros; rfl
theorem errorResponseArrival : ∀ x0, Statement (.errorResponseArrival x0) := by intros; rfl
theorem timedFlitRelease : ∀ x0 x1, Statement (.timedFlitRelease x0 x1) := by intros; rfl
theorem packetConsume : ∀ x0 x1, Statement (.packetConsume x0 x1) := by intros; rfl
theorem packetStart : ∀ x0, Statement (.packetStart x0) := by intros; rfl
theorem packetComplete : ∀ x0, Statement (.packetComplete x0) := by intros; rfl
theorem nop : ∀ x0, Statement (.nop x0) := by intros; rfl
theorem launch : ∀ x0, Statement (.launch x0) := by intros; rfl
theorem almanac : ∀ x0, Statement (.almanac x0) := by intros; rfl
theorem pred : ∀ x0, Statement (.pred x0) := by intros; rfl
theorem sigdec : ∀ x0, Statement (.sigdec x0) := by intros; rfl
theorem sigwait : ∀ x0, Statement (.sigwait x0) := by intros; rfl
theorem sigwaitReevaluate : ∀ x0, Statement (.sigwaitReevaluate x0) := by intros; rfl
theorem sigwaitTimeout : ∀ x0, Statement (.sigwaitTimeout x0) := by intros; rfl
theorem copy : ∀ x0, Statement (.copy x0) := by intros; rfl
theorem partition : ∀ x0, Statement (.partition x0) := by intros; rfl
theorem checkpoint : ∀ x0, Statement (.checkpoint x0) := by intros; rfl
theorem loadkey : ∀ x0, Statement (.loadkey x0) := by intros; rfl
theorem eraseload : ∀ x0, Statement (.eraseload x0) := by intros; rfl
theorem domrekey : ∀ x0, Statement (.domrekey x0) := by intros; rfl
theorem ifstLock : ∀ x0, Statement (.ifstLock x0) := by intros; rfl
theorem ifstUnlock : ∀ x0, Statement (.ifstUnlock x0) := by intros; rfl
theorem ifstRelease : ∀ x0, Statement (.ifstRelease x0) := by intros; rfl
theorem cfgwr : ∀ x0, Statement (.cfgwr x0) := by intros; rfl
theorem cfgrd : ∀ x0, Statement (.cfgrd x0) := by intros; rfl
theorem configRegisterWrite : ∀ x0 x1, Statement (.configRegisterWrite x0 x1) := by intros; rfl
theorem worldCreate : ∀ x0 x1, Statement (.worldCreate x0 x1) := by intros; rfl
theorem worldDrain : ∀ x0, Statement (.worldDrain x0) := by intros; rfl
theorem worldDrainComplete : ∀ x0, Statement (.worldDrainComplete x0) := by intros; rfl
theorem worldGrant : ∀ x0, Statement (.worldGrant x0) := by intros; rfl
theorem measure : ∀ x0, Statement (.measure x0) := by intros; rfl
theorem queueCreate : ∀ x0, Statement (.queueCreate x0) := by intros; rfl
theorem queueReset : ∀ x0, Statement (.queueReset x0) := by intros; rfl
theorem queueDestroy : ∀ x0, Statement (.queueDestroy x0) := by intros; rfl
theorem almanacBindDeadline : ∀ x0, Statement (.almanacBindDeadline x0) := by intros; rfl
theorem almanacStart : ∀ x0, Statement (.almanacStart x0) := by intros; rfl
theorem armedStart : ∀ x0, Statement (.armedStart x0) := by intros; rfl
theorem almanacLimitExpiry : ∀ x0, Statement (.almanacLimitExpiry x0) := by intros; rfl
theorem frondStart : ∀ x0, Statement (.frondStart x0) := by intros; rfl
theorem itemStart : ∀ x0, Statement (.itemStart x0) := by intros; rfl
theorem frondEnd : ∀ x0, Statement (.frondEnd x0) := by intros; rfl
theorem barrierTimeout : ∀ x0 x1, Statement (.barrierTimeout x0 x1) := by intros; rfl
theorem waitTimeout : ∀ x0 x1, Statement (.waitTimeout x0 x1) := by intros; rfl
theorem resultLanding : ∀ x0 x1 x2, Statement (.resultLanding x0 x1 x2) := by intros; rfl
theorem queueDelivery : ∀ x0, Statement (.queueDelivery x0) := by intros; rfl
theorem bankWakeDone : ∀ x0 x1 x2, Statement (.bankWakeDone x0 x1 x2) := by intros; rfl
theorem timedWriteLanding : ∀ x0, Statement (.timedWriteLanding x0) := by intros; rfl
theorem timedReadSample : ∀ x0, Statement (.timedReadSample x0) := by intros; rfl
theorem untimedApply : ∀ x0, Statement (.untimedApply x0) := by intros; rfl
theorem untimedServe : ∀ x0, Statement (.untimedServe x0) := by intros; rfl
theorem untimedAtomic : ∀ x0, Statement (.untimedAtomic x0) := by intros; rfl
theorem fenceComplete : ∀ x0 x1, Statement (.fenceComplete x0 x1) := by intros; rfl
theorem multicastLanding : ∀ x0, Statement (.multicastLanding x0) := by intros; rfl
theorem timedChunkLanding : ∀ x0, Statement (.timedChunkLanding x0) := by intros; rfl
theorem untimedChunkComplete : ∀ x0 x1 x2 x3, Statement (.untimedChunkComplete x0 x1 x2 x3) := by intros; rfl
theorem pushArrival : ∀ x0, Statement (.pushArrival x0) := by intros; rfl
theorem migrationWritesApplied : ∀ x0 x1 x2, Statement (.migrationWritesApplied x0 x1 x2) := by intros; rfl
theorem drainRowLanding : ∀ x0, Statement (.drainRowLanding x0) := by intros; rfl
theorem saFold : ∀ x0, Statement (.saFold x0) := by intros; rfl
theorem saGroupSum : ∀ x0, Statement (.saGroupSum x0) := by intros; rfl
theorem saPlaneArrival : ∀ x0, Statement (.saPlaneArrival x0) := by intros; rfl
theorem contextSaveDone : ∀ x0 x1, Statement (.contextSaveDone x0 x1) := by intros; rfl
theorem landingEntry : ∀ x0 x1, Statement (.landingEntry x0 x1) := by intros; rfl
theorem tkalignRelease : ∀ x0 x1, Statement (.tkalignRelease x0 x1) := by intros; rfl
theorem sigWaitRepost : ∀ x0 x1, Statement (.sigWaitRepost x0 x1) := by intros; rfl
theorem contextRestoreDone : ∀ x0 x1, Statement (.contextRestoreDone x0 x1) := by intros; rfl
theorem emptyBundle : ∀ x0 x1, Statement (.emptyBundle x0 x1) := by intros; rfl
theorem illegalEncoding : ∀ x0, Statement (.illegalEncoding x0) := by intros; rfl
theorem resetRelease : ∀ x0, Statement (.resetRelease x0) := by intros; rfl
theorem frameTick : Statement .frameTick := rfl
theorem enterRun : Statement .enterRun := rfl
theorem interfaceDrainComplete : Statement .interfaceDrainComplete := rfl
theorem roleDrainComplete : Statement .roleDrainComplete := rfl
theorem flushComplete : ∀ x0, Statement (.flushComplete x0) := by intros; rfl
theorem zeroiseComplete : ∀ x0, Statement (.zeroiseComplete x0) := by intros; rfl
theorem reenumerateComplete : ∀ x0, Statement (.reenumerateComplete x0) := by intros; rfl
theorem roleChangeCommit : Statement .roleChangeCommit := rfl
theorem drainDeadlineExpiry : Statement .drainDeadlineExpiry := rfl
theorem layerFence : ∀ x0 x1, Statement (.layerFence x0 x1) := by intros; rfl
theorem scratchpadCorrectableError : ∀ x0 x1, Statement (.scratchpadCorrectableError x0 x1) := by intros; rfl
theorem scratchpadUncorrectableError : ∀ x0 x1, Statement (.scratchpadUncorrectableError x0 x1) := by intros; rfl
theorem nearTierUncorrectable : ∀ x0 x1, Statement (.nearTierUncorrectable x0 x1) := by intros; rfl
theorem layerPoolUncorrectable : ∀ x0 x1, Statement (.layerPoolUncorrectable x0 x1) := by intros; rfl
theorem farTierUncorrectable : ∀ x0 x1, Statement (.farTierUncorrectable x0 x1) := by intros; rfl
theorem copyParityError : ∀ x0 x1, Statement (.copyParityError x0 x1) := by intros; rfl
theorem coreRelease : ∀ x0 x1, Statement (.coreRelease x0 x1) := by intros; rfl
theorem lskewWrite : ∀ x0 x1 x2, Statement (.lskewWrite x0 x1 x2) := by intros; rfl
theorem linkCalibration : ∀ x0 x1, Statement (.linkCalibration x0 x1) := by intros; rfl
theorem linkCalibrationDone : ∀ x0 x1 x2 x3 x4, Statement (.linkCalibrationDone x0 x1 x2 x3 x4) := by intros; rfl
theorem lstatClear : ∀ x0 x1 x2, Statement (.lstatClear x0 x1 x2) := by intros; rfl
theorem lostevClear : ∀ x0 x1, Statement (.lostevClear x0 x1) := by intros; rfl
theorem timedFlitArrival : ∀ x0 x1 x2 x3 x4 x5, Statement (.timedFlitArrival x0 x1 x2 x3 x4 x5) := by intros; rfl
theorem untimedFlitArrival : ∀ x0 x1 x2 x3, Statement (.untimedFlitArrival x0 x1 x2 x3) := by intros; rfl
theorem uePacketReceive : ∀ x0 x1, Statement (.uePacketReceive x0 x1) := by intros; rfl
theorem put : ∀ x0 x1 x2, Statement (.put x0 x1 x2) := by intros; rfl
theorem get : ∀ x0 x1 x2, Statement (.get x0 x1 x2) := by intros; rfl
theorem fetchAndAdd : ∀ x0 x1 x2, Statement (.fetchAndAdd x0 x1 x2) := by intros; rfl
theorem compareAndSwap : ∀ x0 x1 x2 x3, Statement (.compareAndSwap x0 x1 x2 x3) := by intros; rfl
theorem swap : ∀ x0 x1 x2, Statement (.swap x0 x1 x2) := by intros; rfl
theorem statusWindowGet : Statement .statusWindowGet := rfl
theorem runReceive : ∀ x0 x1, Statement (.runReceive x0 x1) := by intros; rfl
theorem runIdleClose : ∀ x0, Statement (.runIdleClose x0) := by intros; rfl
theorem runRetryExhausted : ∀ x0, Statement (.runRetryExhausted x0) := by intros; rfl
theorem cxlLinkDown : ∀ x0 x1, Statement (.cxlLinkDown x0 x1) := by intros; rfl
theorem getVersion : ∀ x0 x1, Statement (.getVersion x0 x1) := by intros; rfl
theorem getCapabilities : ∀ x0, Statement (.getCapabilities x0) := by intros; rfl
theorem negotiateAlgorithms : ∀ x0 x1, Statement (.negotiateAlgorithms x0 x1) := by intros; rfl
theorem getDigests : ∀ x0, Statement (.getDigests x0) := by intros; rfl
theorem getCertificate : ∀ x0 x1 x2 x3, Statement (.getCertificate x0 x1 x2 x3) := by intros; rfl
theorem challenge : ∀ x0 x1 x2 x3, Statement (.challenge x0 x1 x2 x3) := by intros; rfl
theorem getMeasurements : ∀ x0 x1 x2 x3 x4 x5 x6, Statement (.getMeasurements x0 x1 x2 x3 x4 x5 x6) := by intros; rfl
theorem keyExchange : ∀ x0 x1 x2 x3, Statement (.keyExchange x0 x1 x2 x3) := by intros; rfl
theorem finish : ∀ x0 x1 x2, Statement (.finish x0 x1 x2) := by intros; rfl
theorem endSession : ∀ x0 x1, Statement (.endSession x0 x1) := by intros; rfl
theorem spdmUnsupportedRequest : ∀ x0 x1, Statement (.spdmUnsupportedRequest x0 x1) := by intros; rfl
theorem channelPut : ∀ x0, Statement (.channelPut x0) := by intros; rfl
theorem commandPacketMessage : ∀ x0, Statement (.commandPacketMessage x0) := by intros; rfl
theorem tailWrite : ∀ x0, Statement (.tailWrite x0) := by intros; rfl
theorem heartbeat : ∀ x0, Statement (.heartbeat x0) := by intros; rfl
theorem channelClose : ∀ x0, Statement (.channelClose x0) := by intros; rfl
theorem heartbeatTimeout : ∀ x0, Statement (.heartbeatTimeout x0) := by intros; rfl
theorem keyHoldExpiry : ∀ x0, Statement (.keyHoldExpiry x0) := by intros; rfl
theorem measuredLoad : ∀ x0 x1, Statement (.measuredLoad x0 x1) := by intros; rfl
theorem rekeyDrained : ∀ x0, Statement (.rekeyDrained x0) := by intros; rfl
theorem rekeySwitch : ∀ x0, Statement (.rekeySwitch x0) := by intros; rfl
theorem rekeySwitched : ∀ x0 x1, Statement (.rekeySwitched x0 x1) := by intros; rfl
theorem rekeyResume : ∀ x0, Statement (.rekeyResume x0) := by intros; rfl
theorem rekeyPhaseTimeout : ∀ x0 x1, Statement (.rekeyPhaseTimeout x0 x1) := by intros; rfl
theorem checkpointBarrier : Statement .checkpointBarrier := rfl
theorem checkpointBudgetExpiry : Statement .checkpointBudgetExpiry := rfl
theorem checkpointSaveDone : Statement .checkpointSaveDone := rfl
theorem checkpointStreamDone : ∀ x0, Statement (.checkpointStreamDone x0) := by intros; rfl
theorem checkpointBlobDone : Statement .checkpointBlobDone := rfl
theorem domform : ∀ x0 x1, Statement (.domform x0 x1) := by intros; rfl
theorem worldOpen : ∀ x0 x1, Statement (.worldOpen x0 x1) := by intros; rfl
theorem leaseClaim : ∀ x0, Statement (.leaseClaim x0) := by intros; rfl
theorem leaseRenew : ∀ x0 x1, Statement (.leaseRenew x0 x1) := by intros; rfl
theorem leaseExpiry : Statement .leaseExpiry := rfl
theorem bindRecordWrite : ∀ x0 x1 x2, Statement (.bindRecordWrite x0 x1 x2) := by intros; rfl
theorem commit : ∀ x0 x1, Statement (.commit x0 x1) := by intros; rfl
theorem migrationCopyDone : ∀ x0 x1 x2 x3, Statement (.migrationCopyDone x0 x1 x2 x3) := by intros; rfl
theorem contextPreempt : ∀ x0 x1, Statement (.contextPreempt x0 x1) := by intros; rfl
theorem contextResume : ∀ x0 x1, Statement (.contextResume x0 x1) := by intros; rfl
theorem contextSave : ∀ x0 x1, Statement (.contextSave x0 x1) := by intros; rfl
theorem contextRestore : ∀ x0 x1, Statement (.contextRestore x0 x1) := by intros; rfl
theorem instructionStoreWrite : ∀ x0 x1 x2 x3, Statement (.instructionStoreWrite x0 x1 x2 x3) := by intros; rfl
theorem directoryWrite : ∀ x0 x1 x2, Statement (.directoryWrite x0 x1 x2) := by intros; rfl
theorem freinoEntryTrap : ∀ x0 x1, Statement (.freinoEntryTrap x0 x1) := by intros; rfl
theorem reset : Statement .reset := rfl
theorem rekeyRequest : ∀ x0, Statement (.rekeyRequest x0) := by intros; rfl
theorem checkpointRestore : ∀ x0, Statement (.checkpointRestore x0) := by intros; rfl

end Sys2Proof.Laws.EncodedLength
end

