-- ==== Sys2Proof/Laws/Slots.lean ====
section
/-! SUPPORT. What the operations that every slot shares can do: the guard and the in-flight limit, results put in flight, a slot's
own checks, traps and blocks. -/

namespace Sys2Proof.Machine

/-! ### What stays the same -/

theorem sameRegs_refl (x : Ctx) : SameRegs x x := ⟨rfl, rfl, rfl, rfl, rfl, rfl, rfl, rfl, rfl, rfl, rfl, rfl, rfl, rfl, rfl, rfl⟩
theorem sameRegs_trans {x y z : Ctx} (h : SameRegs x y) (k : SameRegs y z) : SameRegs x z :=
  ⟨k.g.trans h.g, k.a.trans h.a, k.p.trans h.p, k.v.trans h.v, k.m.trans h.m, k.lay.trans h.lay, k.ltrip.trans h.ltrip,
    k.lpass.trans h.lpass, k.lrot.trans h.lrot, k.wid.trans h.wid, k.wlay.trans h.wlay, k.tslc.trans h.tslc,
    k.xcause.trans h.xcause, k.xval.trans h.xval, k.xtok.trans h.xtok, k.xcnt.trans h.xcnt⟩
theorem keeps_refl (s : State) : KeepsRegsAndMemory s s := ⟨fun _ _ => sameRegs_refl _, fun _ => rfl⟩
theorem keeps_trans {s t u : State} (h : KeepsRegsAndMemory s t) (k : KeepsRegsAndMemory t u) : KeepsRegsAndMemory s u :=
  ⟨fun c i => sameRegs_trans (h.1 c i) (k.1 c i), fun a => (k.2 a).trans (h.2 a)⟩
/-- A change of neither the cores nor memory keeps every register and every byte. -/
theorem keeps_of_eq {s t : State} (h : t.cores = s.cores) (k : t.mem = s.mem) : KeepsRegsAndMemory s t :=
  ⟨fun c i => by rw [State.ctx_of_cores_eq h]; exact sameRegs_refl _, fun a => State.byte_of_mem_eq k a⟩
/-- A change of one context that keeps its registers. -/
theorem keeps_updCtx (s : State) (c k : Nat) (f : Ctx → Ctx) (h : SameRegs (s.ctx c k) (f (s.ctx c k))) :
    KeepsRegsAndMemory s (s.updCtx c k f) := by
  refine ⟨fun d j => ?_, fun _ => rfl⟩
  rw [State.ctx_updCtx]
  split
  · rename_i e; obtain ⟨rfl, rfl⟩ := e; exact h
  · exact sameRegs_refl _

/-! ### Results in flight (R12, R153) -/

/-- A result put in flight is one more of the present context, numbered by the counter. -/
theorem State.result_eq (s : State) (f : RFile) (r w lat : Nat) (v : Option Vec) :
    ∃ x : Result, s.result f r w lat v = { s.updCur (fun c => { c with inflight := c.inflight ++ [x] }) with seqno := s.seqno + 1 } ∧
      x.id = s.seqno ∧ x.due = s.now + lat ∧ x.file = f ∧ x.reg = r ∧ x.width = w ∧ x.value = v ∧ x.old = none :=
  ⟨_, rfl, rfl, rfl, rfl, rfl, rfl, rfl, rfl⟩
theorem State.result_keeps (s : State) (f : RFile) (r w lat : Nat) (v : Option Vec) : KeepsRegsAndMemory s (s.result f r w lat v) :=
  keeps_trans (t := s.updCur (fun c => { c with inflight := c.inflight ++
      [{ id := s.seqno, due := s.now + lat, file := f, reg := r, width := w, value := v }] }))
    (keeps_updCtx s s.curCore s.curCtx _ ⟨rfl, rfl, rfl, rfl, rfl, rfl, rfl, rfl, rfl, rfl, rfl, rfl, rfl, rfl, rfl, rfl⟩)
    (keeps_of_eq rfl rfl)
theorem State.toG_keeps (s : State) (r : BitVec 6) (lat : Nat) (v : Word) : KeepsRegsAndMemory s (s.toG r lat v) := by
  unfold State.toG; split
  · exact keeps_refl s
  · exact s.result_keeps ..
theorem State.toP_keeps (s : State) (r : BitVec 4) (lat : Nat) (b : Bool) : KeepsRegsAndMemory s (s.toP r lat b) := by
  unfold State.toP; split
  · exact keeps_refl s
  · exact s.result_keeps ..
theorem State.toA_keeps (s : State) (r : BitVec 4) (lat : Nat) (v : Word) : KeepsRegsAndMemory s (s.toA r lat v) := s.result_keeps ..
theorem State.toV_keeps (s : State) (r : BitVec 6) (w lat : Nat) (v : Vec) : KeepsRegsAndMemory s (s.toV r w lat v) := s.result_keeps ..
theorem State.toM_keeps (s : State) (r lat : Nat) (v : Word) : KeepsRegsAndMemory s (s.toM r lat v) := s.result_keeps ..

/-! ### Scalar slots (R372) -/

/-- A scalar slot answers: its own effect, the state as it was under a false guard, or the trap of the in-flight limit. -/
theorem runScalar_cases (s : State) (p : BitVec 4) (n : Nat) (body : State → State) :
    (s.cur.pr p = false ∧ runScalar s p n body = .next s) ∨
    (s.cur.pr p = true ∧ 256 < s.cur.inFlight + n ∧ runScalar s p n body = .next (s.takeTrap s.curCore s.curCtx 0x16 256 0)) ∨
    (Opens s p n ∧ runScalar s p n body = .next (body s)) := by
  unfold runScalar
  by_cases hp : s.cur.pr p = true
  · by_cases h2 : 256 < s.cur.inFlight + n
    · exact .inr (.inl ⟨hp, h2, by simp [hp, h2]⟩)
    · exact .inr (.inr ⟨⟨hp, by omega⟩, by simp [hp, h2]⟩)
  · exact .inl ⟨by simpa using hp, by simp [hp]⟩
theorem runScalar_opens {s : State} {p : BitVec 4} {n : Nat} (body : State → State) (h : Opens s p n) :
    runScalar s p n body = .next (body s) := by
  have := h.2
  simp [runScalar, h.1, this]
theorem writeG_opens {s : State} {p : BitVec 4} {gd : BitVec 6} (lat : Nat) (v : Word) (h : Opens s p (countG gd)) :
    writeG s p gd lat v = .next (s.toG gd lat v) := runScalar_opens _ h
theorem writeP_opens {s : State} {p pd : BitVec 4} (b : Bool) (h : Opens s p (countP pd)) :
    writeP s p pd b = .next (s.toP pd (latInt s.t16) b) := runScalar_opens _ h

/-! ### The other slots (R283, R352) -/

/-- Where nothing stands before it, a slot comes to its own effect. -/
theorem runSlot_fires {s : State} {i : Instr} {p : BitVec 4} (body : State → Eff) (h : Fires s i p) :
    runSlot s i p body = settle s (body s) := by
  obtain ⟨h1, h2, h3, h4⟩ := h
  have : ¬ 256 < s.cur.inFlight + resultsOf i := by omega
  simp [runSlot, h1, h2, h3, this]
/-- A slot answers a next state, whatever its own effect. -/
theorem settle_next (s : State) (e : Eff) : ∃ t, settle s e = .next t := by
  unfold settle; split <;> exact ⟨_, rfl⟩
theorem runSlot_next (s : State) (i : Instr) (p : BitVec 4) (body : State → Eff) : ∃ t, runSlot s i p body = .next t := by
  unfold runSlot
  split
  · exact ⟨_, rfl⟩
  · split
    · exact ⟨_, rfl⟩
    · split
      · split
        · exact ⟨_, rfl⟩
        · exact settle_next ..
      · exact ⟨_, rfl⟩
@[simp] theorem settle_none (s t : State) : settle s (t, none) = .next t := rfl
@[simp] theorem settle_trap (s t : State) (cause : Nat) (x n : Word) :
    settle s (t, some (.trap cause x n)) = .next (s.takeTrap s.curCore s.curCtx cause x n) := rfl

/-! ### Traps (R280 to R282) -/

/-- A trap changes the core it is taken on alone. -/
theorem State.takeTrap_core_ne (s : State) {c d : Nat} (k cause : Nat) (x n : Word) (h : d ≠ c) :
    (s.takeTrap c k cause x n).core d = s.core d := by
  simp [State.takeTrap, State.core_updCore, h]
theorem Core.leave_ctx (x : Core) (k now j : Nat) : (x.leave k now).ctx j = x.ctx j := by
  unfold Core.leave; split <;> rfl
/-- What the trapped context holds. -/
theorem State.takeTrap_ctx_self (s : State) (c k cause : Nat) (x n : Word) :
    (s.takeTrap c k cause x n).ctx c k = { (s.ctx c k).suspend s.now .trapped with
      xcause := BitVec.ofNat 64 (cause % 256), xval := x, xtok := (s.ctx c k).point.token, xcnt := n } := by
  unfold State.takeTrap State.ctx
  rw [State.core_updCore_self, Core.leave_ctx, Core.ctx_updCtx_self, State.core_tell]
/-- Other contexts stay as they are. -/
theorem State.takeTrap_ctx_ne (s : State) {c k d j : Nat} (cause : Nat) (x n : Word) (h : ¬ (d = c ∧ j = k)) :
    (s.takeTrap c k cause x n).ctx d j = s.ctx d j := by
  by_cases e : d = c
  · subst e
    have hj : j ≠ k := fun e => h ⟨rfl, e⟩
    unfold State.takeTrap State.ctx
    rw [State.core_updCore_self, Core.leave_ctx, Core.ctx_updCtx, if_neg hj, State.core_tell]
  · simp [State.ctx, State.takeTrap_core_ne s k cause x n e]

end Sys2Proof.Machine
end

