-- ==== Sys2Proof/Tests/Slice0.lean ====
section
/-! SUPPORT. Tests: ill-formed terms that the check refuses, words of the manual that decode to what stands beside them, worked
figures of the manual, and for each statement a state that meets its hypotheses. -/

set_option Elab.async false

namespace Sys2Proof.Tests

open Sys2Proof Sys2Proof.Machine

/-! ### Ill-formed terms: one for each check of `Instr.Wf` -/

theorem test_wf_refuses_dies : ∀ i ∈ ([.flushComplete 7, .flushComplete 40, .zeroiseComplete 7, .reenumerateComplete 40,
    .layerFence 7 0, .coreRelease 7 0, .coreRelease 8 16, .lskewWrite 7 0 0, .lskewWrite 40 0 0, .linkCalibration 7 0,
    .linkCalibrationDone 7 0 0 0 false, .lstatClear 7 0 0, .lostevClear 40 0, .timedFlitArrival 7 0 .good 0 0 0,
    .timedFlitRelease 7 0, .untimedFlitArrival 7 0 .good 0, .uePacketReceive 32 ⟨.rud, false⟩, .cxlLinkDown 4 0,
    .cxlLinkDown 5 2] : List Instr), i.wf = false := by decide

theorem test_wf_refuses_cores : ∀ i ∈ ([.scratchpadCorrectableError 512 0, .scratchpadUncorrectableError 512 0,
    .copyParityError 512 0, .freezeEnd 384, .armedStart 512, .almanacStart 384, .almanacLimitExpiry 384, .frondStart 384,
    .itemStart 384, .frondEnd 384, .barrierTimeout 512 0, .barrierTimeout 0 4, .waitTimeout 0 4, .resultLanding 0 4 0,
    .bankWakeDone 0 0 0, .bankWakeDone 0 0 4, .bankWakeDone 0 4 1, .fenceComplete 512 0, .untimedChunkComplete 0 4 0 0,
    .migrationWritesApplied 0 4 0, .migrationCopyDone 0 4 0 none, .contextPreempt 0 4, .contextResume 0 4,
    .contextSave 512 0, .contextSaveDone 0 4, .contextRestore 0 4, .contextRestoreDone 512 0,
    .instructionStoreWrite 512 0 0 0, .instructionStoreWrite 0 64 0 0, .instructionStoreWrite 0 0 1024 0,
    .directoryWrite 0 64 0, .landingEntry 0 4, .freinoEntryTrap 512 0, .tkalignRelease 0 4,
    .sigWaitRepost 0 4] : List Instr), i.wf = false := by decide

theorem test_wf_refuses_numbers : ∀ i ∈ ([.put 256 0 [], .get 256 0 0, .fetchAndAdd 256 0 0, .compareAndSwap 256 0 0 0,
    .swap 256 0 0, .runReceive 64 (.ack 0), .runIdleClose 64, .runRetryExhausted ⟨64, 0⟩, .rekeyRequest ⟨64, .ask⟩,
    .getVersion 16 false, .getCapabilities ⟨16, none⟩, .negotiateAlgorithms ⟨16, none⟩ [], .getDigests ⟨16, none⟩, .getCertificate ⟨16, none⟩ 0 0 0,
    .challenge ⟨16, none⟩ 0 0 false, .getMeasurements 16 none 0 0 false 0 false, .keyExchange ⟨16, none⟩ 0 [] false, .finish 16 0 0,
    .endSession 16 0, .spdmUnsupportedRequest 16 0, .heartbeatTimeout 64, .keyHoldExpiry 256, .measuredLoad 256 [],
    .packetConsume 256 0, .packetConsume 0 16, .worldDrainComplete 256, .worldOpen 64 [], .almanacBindDeadline 256,
    .bindRecordWrite 256 0 0, .bindRecordWrite 0 8 0, .commit 256 0, .emptyBundle true false,
    .illegalEncoding 11] : List Instr), i.wf = false := by decide

theorem test_wf_refuses_scalar_forms : ∀ i ∈ ([.barL 0 7, .childLaunch 0 0 0 1, .mrep 0 0, .uLoop 0 0 0,
    .cpyBc 0 0 0 .ab 0 1, .ysetd 0 0 5 0 0 0 0, .ysetd 0 0 0 1 0 0 0, .ysetd 0 0 0 0 1 0 0, .ysetd 0 0 1 0 0 0 4096,
    .ysetd 0 0 1 0 0 64 0, .ld 0 .w256 .wb (.v 0) 0 0, .st 0 .w256 .sb 0 0 0 0, .st 0 .w256 .ab 0 6 0 0,
    .lds 0 .b8 .spb 0 false 0 0, .sts 0 .b8 .wb 0 0 0, .atom 0 .b32 .ab 0 .add 0 0 0, .atom 0 .b16 .lb 0 .add 0 0 0,
    .atom 0 .b64 .xb 0 .cas 1 0 0, .gst 0 .w256 0 6 0 0, .gatom 0 .b8 0 .add 0 0 0, .gatom 0 .b32 0 .cas 1 0 0,
    .mcst 0 .w256 0 7 0 0 0 0] : List Instr), i.wf = false := by decide

theorem test_wf_refuses_vector_formats : ∀ i ∈ ([.vadd 0 .w256 .t8 0 .rne (.v 0 0) (.v 0 0),
    .vadd 0 .w256 .i32 0 .rtz (.v 0 0) (.v 0 0), .vsub 0 .w256 .i8 0 .rup (.v 0 0) (.v 0 0),
    .vmul 0 .w256 .e8 0 .rne (.v 0 0) (.v 0 0), .vfma 0 .w256 .i32 0 .rne (.v 0 0) (.v 0 0) (.v 0 0),
    .vfnma 0 .w256 .t6 0 .rne (.v 0 0) (.v 0 0) (.v 0 0), .vadds 0 .w256 .f32 0 (.v 0 0) (.v 0 0),
    .vsubs 0 .w256 .bf16 0 (.v 0 0) (.v 0 0), .vmin 0 .w256 .t8 0 (.v 0 0) (.v 0 0), .vmax 0 .w256 .e8 0 (.v 0 0) (.v 0 0),
    .vabs 0 .w256 .n8 0 (.v 0 0), .vneg 0 .w256 .t6 0 (.v 0 0), .vshl 0 .w256 .f16 0 (.v 0 0) (.v 0 0),
    .vshr 0 .w256 .t8 0 (.v 0 0) (.v 0 0), .vsra 0 .w256 .n32 0 (.v 0 0) (.v 0 0), .vshli 0 .w256 .i8 0 8 (.v 0 0),
    .vshri 0 .w256 .f32 0 0 (.v 0 0), .vshri 0 .w256 .n32 0 32 (.v 0 0), .vsrai 0 .w256 .n8 0 0 (.v 0 0),
    .vsrai 0 .w256 .i16 0 16 (.v 0 0), .vcmp 0 .w256 .t8 0 .eq (.v 0 0) (.v 0 0), .vcvt 0 .w256 .f32 0 .rne false .f32 (.v 0 0),
    .vcvt 0 .w256 .e8 0 .rne false .f32 (.v 0 0), .vcvt 0 .w256 .f32 0 .rne false .e8 (.v 0 0),
    .vcvt 0 .w256 .i8 0 .rne true .f32 (.v 0 0), .vdup 0 .w256 .t6 0 0, .vrsum 0 .w256 .t8 0 (.v 0 0),
    .vrmax 0 .w256 .e8 0 (.v 0 0), .vrmin 0 .w256 .t6 0 (.v 0 0), .saAdd 0 .w256 .i32 0 (.v 0 0)] : List Instr),
    i.wf = false := by decide

theorem test_wf_refuses_ports : ∀ i ∈ ([.vadd 0 .w256 .f32 0 .rne (.v 0 6) (.v 0 0), .vadd 0 .w256 .f32 0 .rne (.v 0 0) (.v 0 7),
    .vsub 0 .w256 .f32 0 .rne (.v 0 6) (.v 0 0), .vmul 0 .w256 .f32 0 .rne (.v 0 0) (.v 0 6),
    .vfma 0 .w256 .f32 0 .rne (.v 0 0) (.v 0 0) (.v 0 6), .vfnma 0 .w256 .f32 0 .rne (.v 0 6) (.v 0 0) (.v 0 0),
    .vadds 0 .w256 .i8 0 (.v 0 6) (.v 0 0), .vsubs 0 .w256 .i8 0 (.v 0 0) (.v 0 6), .vmin 0 .w256 .i8 0 (.v 0 6) (.v 0 0),
    .vmax 0 .w256 .i8 0 (.v 0 0) (.v 0 6), .vabs 0 .w256 .i8 0 (.v 0 6), .vneg 0 .w256 .i8 0 (.v 0 6),
    .vand 0 .w256 0 (.v 0 6) (.v 0 0), .vor 0 .w256 0 (.v 0 0) (.v 0 6), .vxor 0 .w256 0 (.v 0 6) (.v 0 0),
    .vandn 0 .w256 0 (.v 0 0) (.v 0 6), .vshl 0 .w256 .i8 0 (.v 0 6) (.v 0 0), .vshr 0 .w256 .i8 0 (.v 0 0) (.v 0 6),
    .vsra 0 .w256 .i8 0 (.v 0 6) (.v 0 0), .vshli 0 .w256 .i8 0 0 (.v 0 6), .vshri 0 .w256 .i8 0 0 (.v 0 6),
    .vsrai 0 .w256 .i8 0 0 (.v 0 6), .vcmp 0 .w256 .i8 0 .eq (.v 0 6) (.v 0 0), .vsel 0 .w256 0 (.v 0 0) (.v 0 0) (.v 0 6),
    .vcvt 0 .w256 .f32 0 .rne false .i8 (.v 0 6), .vrsum 0 .w256 .f32 0 (.v 0 6), .vrmax 0 .w256 .f32 0 (.v 0 6),
    .vrmin 0 .w256 .f32 0 (.v 0 6), .saAdd 0 .w256 .f32 0 (.v 0 6)] : List Instr), i.wf = false := by decide

theorem test_wf_refuses_wide_transcendentals : ∀ i ∈ ([.expF 0 .w1024 0 (.v 0 0), .expR 0 .w1024 0 (.v 0 0),
    .exp2F 0 .w1024 0 (.v 0 0), .exp2R 0 .w1024 0 (.v 0 0), .log2F 0 .w1024 0 (.v 0 0), .log2R 0 .w1024 0 (.v 0 0),
    .rcpF 0 .w1024 0 (.v 0 0), .rcpR 0 .w1024 0 (.v 0 0), .rsqF 0 .w1024 0 (.v 0 0), .rsqR 0 .w1024 0 (.v 0 0),
    .sqrtF 0 .w1024 0 (.v 0 0), .sqrtR 0 .w1024 0 (.v 0 0), .tanhF 0 .w1024 0 (.v 0 0), .tanhR 0 .w1024 0 (.v 0 0),
    .sigmF 0 .w1024 0 (.v 0 0), .sigmR 0 .w1024 0 (.v 0 0), .sinF 0 .w1024 0 (.v 0 0), .sinR 0 .w1024 0 (.v 0 0),
    .cosF 0 .w1024 0 (.v 0 0), .cosR 0 .w1024 0 (.v 0 0)] : List Instr), i.wf = false := by decide

theorem test_wf_refuses_transcendental_ports : ∀ i ∈ ([.expF 0 .w256 0 (.v 0 6), .expR 0 .w256 0 (.v 0 6),
    .exp2F 0 .w256 0 (.v 0 6), .exp2R 0 .w256 0 (.v 0 6), .log2F 0 .w256 0 (.v 0 6), .log2R 0 .w256 0 (.v 0 6),
    .rcpF 0 .w256 0 (.v 0 6), .rcpR 0 .w256 0 (.v 0 6), .rsqF 0 .w256 0 (.v 0 6), .rsqR 0 .w256 0 (.v 0 6),
    .sqrtF 0 .w256 0 (.v 0 6), .sqrtR 0 .w256 0 (.v 0 6), .tanhF 0 .w256 0 (.v 0 6), .tanhR 0 .w256 0 (.v 0 6),
    .sigmF 0 .w256 0 (.v 0 6), .sigmR 0 .w256 0 (.v 0 6), .sinF 0 .w256 0 (.v 0 6), .sinR 0 .w256 0 (.v 0 6),
    .cosF 0 .w256 0 (.v 0 6), .cosR 0 .w256 0 (.v 0 6)] : List Instr), i.wf = false := by decide

theorem test_wf_refuses_rearrangements : ∀ i ∈ ([.xpack 0 .w1024 .t8 0 .f32 (.v 0 0) 0, .xpack 0 .w256 .i8 0 .f32 (.v 0 0) 0,
    .xpack 0 .w256 .t8 0 .i8 (.v 0 0) 0, .xpack 0 .w256 .t8 0 .f32 (.v 0 6) 0, .xunpack 0 .w1024 .f32 0 .t8 (.v 0 0) 0,
    .xunpack 0 .w256 .t8 0 .t8 (.v 0 0) 0, .xunpack 0 .w256 .f32 0 .f32 (.v 0 0) 0, .xunpack 0 .w256 .f32 0 .t8 (.v 0 7) 0,
    .xscale 0 .w1024 .f32 0 (.v 0 0) 0, .xscale 0 .w256 .i8 0 (.v 0 0) 0, .xscale 0 .w256 .f32 0 (.v 0 6) 0,
    .xmaxe 0 .w1024 .f32 0 .t8 (.v 0 0) (.v 0 0), .xmaxe 0 .w256 .i8 0 .t8 (.v 0 0) (.v 0 0),
    .xmaxe 0 .w256 .f32 0 .i8 (.v 0 0) (.v 0 0), .xmaxe 0 .w256 .f32 0 .t8 (.v 0 6) (.v 0 0),
    .xmaxe 0 .w256 .f32 0 .t8 (.v 0 0) (.v 0 6), .xperm 0 .w1024 .i8 0 (.v 0 0) (.v 0 0), .xperm 0 .w256 .f32 0 (.v 0 0) (.v 0 0),
    .xperm 0 .w256 .i8 0 (.v 0 6) (.v 0 0), .xrot 0 .w1024 .i8 0 (.v 0 0) 0, .xrot 0 .w256 .n8 0 (.v 0 0) 0,
    .xrot 0 .w256 .i8 0 (.v 0 6) 0, .xzip 0 .w1024 .i8 0 false (.v 0 0) (.v 0 0), .xzip 0 .w256 .t8 0 false (.v 0 0) (.v 0 0),
    .xzip 0 .w256 .i8 0 false (.v 0 6) (.v 0 0), .xunzip 0 .w1024 .i8 0 false (.v 0 0) (.v 0 0),
    .xunzip 0 .w256 .f16 0 false (.v 0 0) (.v 0 0), .xunzip 0 .w256 .i8 0 false (.v 0 0) (.v 0 7),
    .xtrans 0 .w1024 .i8 0 1 (.v 0 0), .xtrans 0 .w256 .f32 0 1 (.v 0 0), .xtrans 0 .w256 .i64 0 3 (.v 0 0),
    .xtrans 0 .w512 .i8 0 7 (.v 0 0), .xtrans 0 .w256 .i8 0 1 (.v 0 6), .saNrd 0 .w1024 .f32 0 (.v 0 0) 0,
    .saNrd 0 .w256 .t8 0 (.v 0 0) 0, .saNrd 0 .w512 .i32 0 (.v 0 0) 0, .saNrd 0 .w256 .f32 0 (.v 0 6) 0] : List Instr),
    i.wf = false := by decide

/-! ### Words: each list holds words written out from the moulds of 16 R356 to R361, 8 R185, 11 R238, R244, R253, 12 R259,
R263, R264, R268, 13 R296, 14 R320 and 19 R429, R443, R456, with the instructions they stand for. -/

theorem test_words_C_1 : ∀ x ∈ ([
    (0x02770000, 0, .br 3 23), (0x04028000, 0, .brx 0 5), (0x060113C0, 0, .call 0 1 2 30),
    (0x08015200, 0, .lsetup 0 2 5 2), (0x0BE00000, 0, .lend 15), (0x0C3F0000, 0, .lquit 1 31),
    (0x0E5FC610, 0, .callx 2 63 17 33), (0x100F0000, 0, .ret 0 30), (0x12180000, 0, .barL 0 6),
    (0x141FF800, 0, .tkalign 0 1023), (0x16849030, 0, .childLaunch 4 9 8 6), (0x18040201, 0, .sigDec 0 8 8 1),
    (0x1A048220, 0, .sigWait 0 9 8 0x20), (0x1C000000, 0, .fence 0 .c), (0x1C040000, 0, .fence 0 .d),
    (0x1C080000, 0, .fence 0 .col), (0x1C0C0000, 0, .fence 0 .pkg), (0x1C100000, 0, .fence 0 .fab),
    (0x20047FF8, 0, .cwait 0 8 4095), (0x2203C010, 0, .swait 0 7 0x401), (0x24B7DDE0, 0, .softwareTrap 5 0xBEEF),
    (0x26000000, 0, .halt 0), (0x28060000, 0, .rdsys 0 12 .ltrip), (0x28060080, 0, .rdsys 0 12 .lpass),
    (0x28060100, 0, .rdsys 0 12 .lrot), (0x28060180, 0, .rdsys 0 12 .ctxid), (0x28060200, 0, .rdsys 0 12 .coreid),
    (0x28060280, 0, .rdsys 0 12 .dieid), (0x28060300, 0, .rdsys 0 12 .world), (0x28060380, 0, .rdsys 0 12 .prof)] : List (Syllable × Syllable × Instr)),
    decodeSlot .C x.1 x.2.1 = .ok x.2.2 := by decide

theorem test_words_C_2 : ∀ x ∈ ([
    (0x28060400, 0, .rdsys 0 12 .wid), (0x28060480, 0, .rdsys 0 12 .wlay), (0x28060500, 0, .rdsys 0 12 .tslc),
    (0x28060580, 0, .rdsys 0 12 .dtime), (0x28060600, 0, .rdsys 0 12 .gtick), (0x28060680, 0, .rdsys 0 12 .qst),
    (0x28060700, 0, .rdsys 0 12 .vbank), (0x28060800, 0, .rdsys 0 12 .xcause), (0x28060880, 0, .rdsys 0 12 .xval),
    (0x28060900, 0, .rdsys 0 12 .xtok), (0x28060980, 0, .rdsys 0 12 .xcnt), (0x2AC18100, 0, .wrsys 6 3 .lrot),
    (0x2C000000, 0, .wfe 0), (0x30008E00, 0, .saSealC 0 1 7), (0x30008E80, 0, .saSealG 0 1 7),
    (0x30008F00, 0, .saSealP 0 1 7)] : List (Syllable × Syllable × Instr)),
    decodeSlot .C x.1 x.2.1 = .ok x.2.2 := by decide

theorem test_words_I_1 : ∀ x ∈ ([
    (0x0230A460, 0, .add 1 33 18 12), (0x0430A460, 0, .sub 1 33 18 12), (0x0A30A460, 0, .mul 1 33 18 12),
    (0x0C30A460, 0, .mulh 1 33 18 12), (0x0E30A460, 0, .mulhn 1 33 18 12), (0x1C30A460, 0, .and 1 33 18 12),
    (0x1E30A460, 0, .or 1 33 18 12), (0x2030A460, 0, .xor 1 33 18 12), (0x2A30A460, 0, .shl 1 33 18 12),
    (0x2C30A460, 0, .shr 1 33 18 12), (0x2E30A460, 0, .sra 1 33 18 12), (0x3030A460, 0, .rot 1 33 18 12),
    (0x3230A460, 0, .bfx 1 33 18 12), (0x3430A460, 0, .bfxs 1 33 18 12), (0x3630A460, 0, .bfi 1 33 18 12),
    (0x3830A460, 0, .fsh 1 33 18 12), (0x4C30A460, 0, .andn 1 33 18 12), (0x0630A460, 0, .adds 1 33 18 12 false),
    (0x0630A461, 0, .adds 1 33 18 12 true), (0x0830A460, 0, .subs 1 33 18 12 false),
    (0x0830A461, 0, .subs 1 33 18 12 true), (0x1030A460, 0, .div 1 33 18 12 false), (0x1030A461, 0, .div 1 33 18 12 true),
    (0x1230A460, 0, .rem 1 33 18 12 false), (0x1230A461, 0, .rem 1 33 18 12 true), (0x4030A460, 0, .min 1 33 18 12 false),
    (0x4030A461, 0, .min 1 33 18 12 true), (0x4230A460, 0, .max 1 33 18 12 false), (0x4230A461, 0, .max 1 33 18 12 true),
    (0x1404D1F3, 0, .addi 0 9 40 0x1F3)] : List (Syllable × Syllable × Instr)),
    decodeSlot .I x.1 x.2.1 = .ok x.2.2 := by decide

theorem test_words_I_2 : ∀ x ∈ ([
    (0x1604D1F3, 0, .xori 0 9 40 0x1F3), (0x1804D1F3, 0, .andi 0 9 40 0x1F3), (0x1A04D1F3, 0, .ori 0 9 40 0x1F3),
    (0x2204D03F, 0, .shli 0 9 40 63), (0x2404D03F, 0, .shri 0 9 40 63), (0x2604D03F, 0, .srai 0 9 40 63),
    (0x2804D03F, 0, .roti 0 9 40 63), (0x3B24D000, 0, .popc 9 9 40), (0x3D24D000, 0, .clz 9 9 40),
    (0x3F24D000, 0, .ctz 9 9 40), (0x441C15A8, 0, .cmp 0 14 .eq 21 42), (0x461C1580, 0, .cmpi 0 14 .eq 21 0x80),
    (0x441C55A8, 0, .cmp 0 14 .ne 21 42), (0x461C5580, 0, .cmpi 0 14 .ne 21 0x80), (0x441C95A8, 0, .cmp 0 14 .lt 21 42),
    (0x461C9580, 0, .cmpi 0 14 .lt 21 0x80), (0x441CD5A8, 0, .cmp 0 14 .ge 21 42),
    (0x461CD580, 0, .cmpi 0 14 .ge 21 0x80), (0x441D15A8, 0, .cmp 0 14 .ltu 21 42),
    (0x461D1580, 0, .cmpi 0 14 .ltu 21 0x80), (0x441D55A8, 0, .cmp 0 14 .geu 21 42),
    (0x461D5580, 0, .cmpi 0 14 .geu 21 0x80), (0x48028C3E, 0, .sel 0 5 6 7 6), (0x4A02FFFE, 0, .movi 0 5 0x7FFE),
    (0x50F27800, 0, .pand 7 9 3 12), (0x52F27800, 0, .por 7 9 3 12), (0x54F27800, 0, .pxor 7 9 3 12),
    (0x56F27800, 0, .pandn 7 9 3 12), (0x600203FF, 0, .lea 0 1 1 0x1FF), (0x62180E00, 0, .movm 0 6 7)] : List (Syllable × Syllable × Instr)),
    decodeSlot .I x.1 x.2.1 = .ok x.2.2 := by decide

theorem test_words_I_3 : ∀ x ∈ ([
    (0x641EE800, 0, .movg 0 61 13), (0x6617B000, 0, .leaa 0 11 13 0x1000)] : List (Syllable × Syllable × Instr)),
    decodeSlot .I x.1 x.2.1 = .ok x.2.2 := by decide

theorem test_words_V_1 : ∀ x ∈ ([
    (0x02115200, 0x060CA800, .vadd 0 .w1024 .f16 41 .rne (.v 6 0) (.v 50 5)),
    (0x02115280, 0x060CA800, .vadd 0 .w1024 .f16 41 .rtz (.v 6 0) (.v 50 5)),
    (0x02115300, 0x060CA800, .vadd 0 .w1024 .f16 41 .rup (.v 6 0) (.v 50 5)),
    (0x02115380, 0x060CA800, .vadd 0 .w1024 .f16 41 .rdn (.v 6 0) (.v 50 5)),
    (0x04115200, 0x060CA800, .vsub 0 .w1024 .f16 41 .rne (.v 6 0) (.v 50 5)),
    (0x04115280, 0x060CA800, .vsub 0 .w1024 .f16 41 .rtz (.v 6 0) (.v 50 5)),
    (0x04115300, 0x060CA800, .vsub 0 .w1024 .f16 41 .rup (.v 6 0) (.v 50 5)),
    (0x04115380, 0x060CA800, .vsub 0 .w1024 .f16 41 .rdn (.v 6 0) (.v 50 5)),
    (0x06115200, 0x060CA800, .vmul 0 .w1024 .f16 41 .rne (.v 6 0) (.v 50 5)),
    (0x06115280, 0x060CA800, .vmul 0 .w1024 .f16 41 .rtz (.v 6 0) (.v 50 5)),
    (0x06115300, 0x060CA800, .vmul 0 .w1024 .f16 41 .rup (.v 6 0) (.v 50 5)),
    (0x06115380, 0x060CA800, .vmul 0 .w1024 .f16 41 .rdn (.v 6 0) (.v 50 5)),
    (0x0808D300, 0x060CAC78, .vfma 0 .w512 .bf16 41 .rup (.v 6 0) (.v 50 5) (.q 7 true)),
    (0x0A08D300, 0x060CAC78, .vfnma 0 .w512 .bf16 41 .rup (.v 6 0) (.v 50 5) (.q 7 true)),
    (0x0C4D5200, 0x060CA800, .vadds 2 .w512 .n64 41 (.v 6 0) (.v 50 5)),
    (0x0E4D5200, 0x060CA800, .vsubs 2 .w512 .n64 41 (.v 6 0) (.v 50 5)),
    (0x104D5200, 0x060CA800, .vmin 2 .w512 .n64 41 (.v 6 0) (.v 50 5)),
    (0x124D5200, 0x060CA800, .vmax 2 .w512 .n64 41 (.v 6 0) (.v 50 5)),
    (0x204D5200, 0x060CA800, .vshl 2 .w512 .n64 41 (.v 6 0) (.v 50 5)),
    (0x224D5200, 0x060CA800, .vshr 2 .w512 .n64 41 (.v 6 0) (.v 50 5)),
    (0x144B5200, 0x06000000, .vabs 2 .w512 .i64 41 (.v 6 0)), (0x164B5200, 0x06000000, .vneg 2 .w512 .i64 41 (.v 6 0)),
    (0x404B5200, 0x06000000, .vrsum 2 .w512 .i64 41 (.v 6 0)), (0x424B5200, 0x06000000, .vrmax 2 .w512 .i64 41 (.v 6 0)),
    (0x444B5200, 0x06000000, .vrmin 2 .w512 .i64 41 (.v 6 0)),
    (0x18485200, 0x060CA800, .vand 2 .w512 41 (.v 6 0) (.v 50 5)),
    (0x1A485200, 0x060CA800, .vor 2 .w512 41 (.v 6 0) (.v 50 5)),
    (0x1C485200, 0x060CA800, .vxor 2 .w512 41 (.v 6 0) (.v 50 5)),
    (0x1E485200, 0x060CA800, .vandn 2 .w512 41 (.v 6 0) (.v 50 5)),
    (0x2401D200, 0x060CA800, .vsra 0 .w256 .i8 41 (.v 6 0) (.v 50 5))] : List (Syllable × Syllable × Instr)),
    decodeSlot .V x.1 x.2.1 = .ok x.2.2 := by decide

theorem test_words_V_2 : ∀ x ∈ ([
    (0x2604520F, 0x06000000, .vshli 0 .w256 .n16 41 15 (.v 6 0)),
    (0x2804D21F, 0x06000000, .vshri 0 .w256 .n32 41 31 (.v 6 0)),
    (0x2A03523F, 0x06000000, .vsrai 0 .w256 .i64 41 63 (.v 6 0)),
    (0x2C03D200, 0x060CA800, .vcmp 0 .w256 .n8 41 .eq (.v 6 0) (.v 50 5)),
    (0x2C03D201, 0x060CA800, .vcmp 0 .w256 .n8 41 .ne (.v 6 0) (.v 50 5)),
    (0x2C03D202, 0x060CA800, .vcmp 0 .w256 .n8 41 .lt (.v 6 0) (.v 50 5)),
    (0x2C03D203, 0x060CA800, .vcmp 0 .w256 .n8 41 .le (.v 6 0) (.v 50 5)),
    (0x2C03D204, 0x060CA800, .vcmp 0 .w256 .n8 41 .gt (.v 6 0) (.v 50 5)),
    (0x2C03D205, 0x060CA800, .vcmp 0 .w256 .n8 41 .ge (.v 6 0) (.v 50 5)),
    (0x2E005200, 0x060CAC78, .vsel 0 .w256 41 (.v 6 0) (.v 50 5) (.q 7 true)),
    (0x3002D280, 0x06000000, .vcvt 0 .w256 .i32 41 .rtz false .f32 (.v 6 0)),
    (0x3001D215, 0x06000000, .vcvt 0 .w256 .i8 41 .rne true .i32 (.v 6 0)),
    (0x3216D200, 0x6E000000, .vdup 0 .w1024 .e8 41 55), (0x6010C200, 0x43000000, .saAdd 0 .w1024 .bf16 33 (.q 3 false))] : List (Syllable × Syllable × Instr)),
    decodeSlot .V x.1 x.2.1 = .ok x.2.2 := by decide

theorem test_words_X_1 : ∀ x ∈ ([
    (0x03285000, 0x32A00000, .expF 9 .w512 40 (.v 50 5)), (0x05285000, 0x32A00000, .expR 9 .w512 40 (.v 50 5)),
    (0x07285000, 0x32A00000, .exp2F 9 .w512 40 (.v 50 5)), (0x09285000, 0x32A00000, .exp2R 9 .w512 40 (.v 50 5)),
    (0x0B285000, 0x32A00000, .log2F 9 .w512 40 (.v 50 5)), (0x0D285000, 0x32A00000, .log2R 9 .w512 40 (.v 50 5)),
    (0x0F285000, 0x32A00000, .rcpF 9 .w512 40 (.v 50 5)), (0x11285000, 0x32A00000, .rcpR 9 .w512 40 (.v 50 5)),
    (0x13285000, 0x32A00000, .rsqF 9 .w512 40 (.v 50 5)), (0x15285000, 0x32A00000, .rsqR 9 .w512 40 (.v 50 5)),
    (0x17285000, 0x32A00000, .sqrtF 9 .w512 40 (.v 50 5)), (0x19285000, 0x32A00000, .sqrtR 9 .w512 40 (.v 50 5)),
    (0x1B285000, 0x32A00000, .tanhF 9 .w512 40 (.v 50 5)), (0x1D285000, 0x32A00000, .tanhR 9 .w512 40 (.v 50 5)),
    (0x1F285000, 0x32A00000, .sigmF 9 .w512 40 (.v 50 5)), (0x21285000, 0x32A00000, .sigmR 9 .w512 40 (.v 50 5)),
    (0x23285000, 0x32A00000, .sinF 9 .w512 40 (.v 50 5)), (0x25285000, 0x32A00000, .sinR 9 .w512 40 (.v 50 5)),
    (0x27285000, 0x32A00000, .cosF 9 .w512 40 (.v 50 5)), (0x29285000, 0x32A00000, .cosR 9 .w512 40 (.v 50 5)),
    (0x312E5002, 0x06018000, .xpack 9 .w512 .t6 40 .f16 (.v 6 0) 3),
    (0x3328D00B, 0x06018000, .xunpack 9 .w512 .bf16 40 .t8 (.v 6 0) 3),
    (0x35215000, 0x06018000, .xscale 9 .w256 .f16 40 (.v 6 0) 3),
    (0x3721500C, 0x060CA800, .xmaxe 9 .w256 .f16 40 .t6 (.v 6 0) (.v 50 5)),
    (0x41235000, 0x060CA800, .xperm 9 .w256 .i64 40 (.v 6 0) (.v 50 5)),
    (0x43235000, 0x06108000, .xrot 9 .w256 .i64 40 (.v 6 0) 33),
    (0x45225000, 0x060CA800, .xzip 9 .w256 .i16 40 false (.v 6 0) (.v 50 5)),
    (0x47225000, 0x060CA800, .xunzip 9 .w256 .i16 40 false (.v 6 0) (.v 50 5)),
    (0x45225001, 0x060CA800, .xzip 9 .w256 .i16 40 true (.v 6 0) (.v 50 5)),
    (0x47225001, 0x060CA800, .xunzip 9 .w256 .i16 40 true (.v 6 0) (.v 50 5))] : List (Syllable × Syllable × Instr)),
    decodeSlot .X x.1 x.2.1 = .ok x.2.2 := by decide

theorem test_words_X_2 : ∀ x ∈ ([
    (0x4929D006, 0x06000000, .xtrans 9 .w512 .i8 40 6 (.v 6 0)),
    (0x612DD000, 0x06108000, .saNrd 9 .w512 .t8 40 (.v 6 0) 33), (0x63204200, 0, .saSax 9 33)] : List (Syllable × Syllable × Instr)),
    decodeSlot .X x.1 x.2.1 = .ok x.2.2 := by decide

theorem test_words_M : ∀ x ∈ ([
    (0x023F8000, 0, .mcall 1 63), (0x043FFE00, 0, .mrep 1 4095), (0x06227FE0, 0x00500000, .mprog 1 4 1023 5),
    (0x062207E0, 0x40500000, .mprogT 1 4 63 5), (0x08248000, 0, .mwb 1 9), (0x0A380000, 0, .mstat 1 6),
    (0x0C380000, 0, .mdrain 1 6)] : List (Syllable × Syllable × Instr)),
    decodeSlot .M x.1 x.2.1 = .ok x.2.2 := by decide

theorem test_words_L : ∀ x ∈ ([
    (0x0209F400, 0x11FFFFFF, .ld 0 .w512 .ab (.v 61) 8 0x1FFFFFF), (0x020E0C40, 0x10000040, .ld 0 .w512 .xb (.q 3) 8 64),
    (0x0412F680, 0x10000040, .st 0 .w1024 .cb 61 5 8 64), (0x060CA040, 0x10000006, .lds 0 .b16 .lb 40 true 8 6),
    (0x0804A000, 0x10000007, .sts 0 .b8 .lb 40 8 7), (0x0A1EA004, 0x10000008, .atom 0 .b64 .xb 40 .add 4 8 8),
    (0x0A1EA084, 0x10000008, .atom 0 .b64 .xb 40 .swap 4 8 8), (0x0A1EA104, 0x10000008, .atom 0 .b64 .xb 40 .cas 4 8 8),
    (0x0A1EA184, 0x10000008, .atom 0 .b64 .xb 40 .and 4 8 8), (0x0A1EA204, 0x10000008, .atom 0 .b64 .xb 40 .or 4 8 8),
    (0x0A1EA284, 0x10000008, .atom 0 .b64 .xb 40 .xor 4 8 8), (0x0A1EA304, 0x10000008, .atom 0 .b64 .xb 40 .smax 4 8 8),
    (0x0A1EA384, 0x10000008, .atom 0 .b64 .xb 40 .umax 4 8 8), (0x10001C40, 0x10000020, .gld 0 .w256 (.q 7) 8 32),
    (0x1000FC00, 0x10000020, .gld 0 .w256 (.v 63) 8 32), (0x1200FC80, 0x10000020, .gst 0 .w256 63 1 8 32),
    (0x14101789, 0x10000004, .gatom 0 .b32 5 .umax 9 8 4), (0x160E0507, 0x1BFF7FC0, .mcst 0 .w512 1 2 7 13 511 0x7FC0)] : List (Syllable × Syllable × Instr)),
    decodeSlot .L x.1 x.2.1 = .ok x.2.2 := by decide

theorem test_words_S : ∀ x ∈ ([
    (0x0200C3FF, 0, .spStG 0 3 1023), (0x021F03F0, 0, .spStV 0 60 63), (0x0400C3FF, 0, .spLdG 0 3 1023),
    (0x041F0010, 0, .spLdV 0 60 1)] : List (Syllable × Syllable × Instr)),
    decodeSlot .S x.1 x.2.1 = .ok x.2.2 := by decide

theorem test_words_K : ∀ x ∈ ([
    (0x0216B200, 0x7FFE001F, .cpyTl 0 11 5 true .ab 0x3FFF 31),
    (0x0416A000, 0x0003FFFF, .cpyUt 0 11 5 false .wb 1 4095 31), (0x0616A801, 0x00040023, .cpyAdd 0 11 5 .lb .f32 2 1 3),
    (0x1416A401, 0x00040023, .coll 0 11 5 .cb (.add .f32) 2 1 3),
    (0x0616A802, 0x00040023, .cpyAdd 0 11 5 .lb .bf16 2 1 3),
    (0x1416A402, 0x00040023, .coll 0 11 5 .cb (.add .bf16) 2 1 3),
    (0x0616A803, 0x00040023, .cpyAdd 0 11 5 .lb .i32 2 1 3), (0x1416A403, 0x00040023, .coll 0 11 5 .cb (.add .i32) 2 1 3),
    (0x0616A804, 0x00040023, .cpyAdd 0 11 5 .lb .i64 2 1 3), (0x1416A404, 0x00040023, .coll 0 11 5 .cb (.add .i64) 2 1 3),
    (0x0616A805, 0x00040023, .cpyAdd 0 11 5 .lb .sa 2 1 3), (0x1416A405, 0x00040023, .coll 0 11 5 .cb (.add .sa) 2 1 3),
    (0x0816AC00, 0x0006001E, .cpyBc 0 11 5 .xb 3 30), (0x0C16B600, 0x00080000, .cpyEv 0 11 5 true .sb 4),
    (0x0E16A600, 0x00080000, .cpyRs 0 11 5 false .sb 4), (0x1016A200, 0x000A00C7, .cpyPut 0 11 5 .ab 5 6 7),
    (0x1216A000, 0x000A00C7, .cpyGet 0 11 5 .wb 5 6 7), (0x1416A400, 0x00040023, .coll 0 11 5 .cb .put 2 1 3),
    (0x1600A000, 0x00000120, .mig 0 5 .near 9), (0x1600A001, 0x00000120, .mig 0 5 .lp 9),
    (0x1600A002, 0x00000120, .mig 0 5 .cxl 9)] : List (Syllable × Syllable × Instr)),
    decodeSlot .K x.1 x.2.1 = .ok x.2.2 := by decide

theorem test_words_Y : ∀ x ∈ ([
    (0x027C0000, 0, .yclr 3 14), (0x047D2ABC, 0x403F0FFF, .ysetd 3 14 4 0x2ABC 1 63 0xFFF),
    (0x047C0000, 0x00FFFFFF, .ysetd 3 14 0 0 0 255 0xFFFF), (0x067D4520, 0, .yseto 3 14 40 41),
    (0x087D7000, 0x00A57F80, .ysetf 3 14 2 7 0xA5 0x7F80), (0x0A7DC000, 0, .ysetb 3 14 7), (0x0C7D2000, 0, .ycpy 3 14 9)] : List (Syllable × Syllable × Instr)),
    decodeSlot .Y x.1 x.2.1 = .ok x.2.2 := by decide

theorem test_words_U : ∀ x ∈ ([
    (0x045A400000000000, .uaLd .t8 true true 5 true), (0x0486000000000000, .uaLd .t6 false false 3 false),
    (0x092E000000000000, .ubLd .bf16 true 7), (0x0CD1000000000000, .uStep .t6 true false true true),
    (0x0C20000000000000, .uStep .t8 false true false false), (0x1013000000000000, .uDrain true 1 true .cb 0 false),
    (0x100C400000000000, .uDrain false 6 false .sb 0 false), (0x1000AA0000000000, .uDrain false 0 false .queue 5 true),
    (0x140001FFE0FFFFFF, .uLoop 3 1023 0xFFFFFF), (0x180800003F800000, .uAddp 4 63 0x800000), (0x1C00000000000000, .uEnd)] : List (BitVec 64 × Instr)), decodeU x.1 = some x.2 := by decide

/-- The microwords of 11's example. -/
theorem test_listing_microwords : ∀ x ∈ ([(0x0400000000000000, .uaLd .t8 false false 0 false), (0x0804000000000000, .ubLd .t8 false 2),
    (0x0C00000000000000, .uStep .t8 false false false false), (0x1C00000000000000, .uEnd),
    (0x1002000000000000, .uDrain false 1 false .cb 0 false)] : List (BitVec 64 × Instr)), decodeU x.1 = some x.2 := by decide

/-- Words that the listings of 8, 11 to 14 and 16 to 19 print. -/
theorem test_listing_words_a : ∀ x ∈ ([
    (.C, 0x12040000, 0, .barL 0 1), (.C, 0x04028000, 0, .brx 0 5), (.C, 0x060113C0, 0, .call 0 1 2 30),
    (.C, 0x20040000, 0, .cwait 0 8 0), (.C, 0x1C0C0000, 0, .fence 0 .pkg), (.C, 0x08015200, 0, .lsetup 0 2 5 2),
    (.C, 0x28060400, 0, .rdsys 0 12 .wid), (.C, 0x30000E80, 0, .saSealG 0 0 7), (.C, 0x18040201, 0, .sigDec 0 8 8 1),
    (.C, 0x1A048200, 0, .sigWait 0 9 8 0), (.I, 0x02628210, 0, .add 3 5 1 2), (.I, 0x16828007, 0, .xori 4 5 0 7),
    (.I, 0x320A0248, 0, .bfx 0 20 1 9), (.I, 0x60020200, 0, .lea 0 1 1 0), (.I, 0x4A048804, 0, .movi 0 9 0x804),
    (.I, 0x62180E00, 0, .movm 0 6 7), (.I, 0x22079814, 0, .shli 0 15 12 20),
    (.K, 0x0E002600, 0, .cpyRs 0 0 1 false .sb 0), (.K, 0x02062200, 0, .cpyTl 0 3 1 false .ab 0 0),
    (.K, 0x04024000, 0, .cpyUt 0 1 2 false .wb 0 0 0), (.L, 0x0A1E1606, 0x00000040, .atom 0 .b64 .xb 5 .or 6 0 0x40),
    (.L, 0x10100040, 0x0A000000, .gld 0 .w1024 (.q 0) 5 0), (.L, 0x12100800, 0x0C000000, .gst 0 .w1024 2 0 6 0)] : List (SlotKind × Syllable × Syllable × Instr)),
    decodeSlot x.1 x.2.1 x.2.2.1 = .ok x.2.2.2 := by decide

/-- Words that the listings of 8, 11 to 14 and 16 to 19 print. -/
theorem test_listing_words_b : ∀ x ∈ ([
    (.L, 0x02142000, 0x0000011C, .ld 0 .w1024 .lb (.v 8) 0 0x11C),
    (.L, 0x16060407, 0x1A000100, .mcst 0 .w256 1 0 7 13 0 0x100),
    (.L, 0x04140400, 0x00000120, .st 0 .w1024 .lb 1 0 0 0x120), (.M, 0x04000400, 0, .mrep 0 2),
    (.M, 0x08000000, 0, .mwb 0 0), (.S, 0x0400C000, 0, .spLdG 0 3 0), (.S, 0x0210C000, 0, .spStV 0 3 0),
    (.V, 0x1B004000, 0x40900000, .vor 8 .w256 32 (.q 0 true) (.q 0 false)),
    (.V, 0x60000000, 0x40000000, .saAdd 0 .w256 .f32 0 (.q 0 false)),
    (.V, 0x02128C00, 0x01008800, .vadd 0 .w1024 .i32 6 .rne (.v 1 0) (.v 2 1)),
    (.V, 0x32028200, 0x1C000000, .vdup 0 .w256 .i32 1 14), (.V, 0x400A8600, 0x02000000, .vrsum 0 .w512 .i32 3 (.v 2 0)),
    (.X, 0x09205000, 0x21000000, .exp2R 9 .w256 40 (.v 33 0)),
    (.X, 0x60008800, 0x03000000, .saNrd 0 .w256 .bf16 4 (.v 3 0) 0),
    (.X, 0x3608060B, 0x01008800, .xmaxe 0 .w512 .f32 3 .t8 (.v 1 0) (.v 2 1)),
    (.X, 0x300D8800, 0x01018000, .xpack 0 .w512 .t8 4 .f32 (.v 1 0) 3),
    (.X, 0x42018E00, 0x05038000, .xrot 0 .w256 .i8 7 (.v 5 0) 7),
    (.X, 0x3208100B, 0x04018000, .xunpack 0 .w512 .f32 8 .t8 (.v 4 0) 3),
    (.Y, 0x04000000, 0x007F007F, .ysetd 0 0 0 0 0 127 127), (.Y, 0x0A004000, 0, .ysetb 0 0 1),
    (.Y, 0x08001000, 0, .ysetf 0 0 0 1 0 0), (.Y, 0x060620A0, 0, .yseto 0 3 4 5),
    (.Y, 0x04064004, 0x001F0063, .ysetd 0 3 1 4 0 31 99)] : List (SlotKind × Syllable × Syllable × Instr)),
    decodeSlot x.1 x.2.1 x.2.2.1 = .ok x.2.2.2 := by decide

/-! ### States in which the hypotheses of the statements are met -/

/-- One window of 2 MiB at 0x1000_0000 with every permission, to the near tier of column 0. -/
def win : Window := { vbase := 0x10000000, pbase := 0, size := 0, v := true, rd := true, wr := true, atm := true }
/-- A context that runs an item inside page 64. -/
def ctx0 : Ctx :=
  { st := .running, point := .inside 64 0 0 32, item := some { frond := 0, wid := 0 }
    g := [(1, 0x20), (2, 0x10000000), (3, 0x8000000000000000), (4, 1)]
    a := [(1, 0x10000000)], p := 0x0002, v := [(1, 0x12345678), (2, 0xFFFFFFFF)]
    q := [(0, [.data 7, .data 9])] }
/-- Core 0 of column 0 in a world with one frond on it. -/
def core0 : Core :=
  { powered := true, granted := true, world := 1, logical := 0, running := some 0, windows := [(0, win)], ctxs := [(0, ctx0)] }
def frond0 : Frond := { bound := true, started := true, world := 1, cores := [0, 1], ctxm := 1, running := [0] }
def hub0 : Hub := { ifs := .run, profile := 0x12, partitions := [(0, 6), (1, 6), (2, 6), (3, 6)] }
def base : State :=
  { now := 5000, gtick := 4, seqno := 7, cores := [(0, core0)], fronds := [(0, frond0)], hub := hub0
    dies := [(8, { st := .compute })] }
/-- `base` with its context changed. -/
def on (f : Ctx → Ctx) : State := base.updCur f
/-- n results in flight. -/
def flying (n : Nat) : State :=
  on (fun c => { c with inflight := (List.range n).map (fun i => { id := i, due := 6000, file := .g, reg := 5, width := 64, value := some 0 }) })

/-- O1 to O6: the guard p0, a true p1, and 255 or 256 results in flight with a result, or a write of g0 or p0, to come. -/
theorem witness_opens : Opens base 0 1 ∧ Opens base 1 1 ∧ Opens (flying 255) 0 (countG 63) ∧ Opens (flying 256) 0 (countG 0) ∧
    Opens (flying 255) 1 (countP 15) ∧ Opens (flying 256) 1 (countP 0) ∧ Opens (flying 255) 0 1 ∧ ¬ Opens base 2 0 := by
  unfold Opens; decide +kernel

/-- The sources of O7 to O15: registers, a queue popped twice, and a queue peeked and popped. -/
theorem witness_offers : OffersAll base [(.v 1 0, 0x12345678), (.v 2 1, 0xFFFFFFFF)] ∧
    OffersAll base [(.q 0 false, 7), (.q 0 false, 9)] ∧ OffersAll base [(.q 0 true, 7), (.q 0 false, 7), (.v 63 5, 0)] ∧
    OffersAll base [(.v 0 0, 0)] ∧ OffersAll base [(.q 0 false, 7)] := by
  simp only [OffersAll, Offers]; decide +kernel

/-- O7 and O8: every form fires. -/
theorem witness_vector_arithmetic : ∀ i ∈ ([.vadd 0 .w1024 .i8 63 .rne (.v 1 0) (.v 2 1), .vsub 0 .w256 .n64 0 .rne (.q 0 false) (.q 0 false),
    .vmul 0 .w512 .i32 5 .rne (.v 1 0) (.v 2 1), .vadds 0 .w256 .i8 5 (.v 1 0) (.v 2 1), .vsubs 0 .w256 .n8 5 (.v 1 0) (.v 2 1),
    .vmin 0 .w256 .i64 5 (.v 1 0) (.v 2 1), .vmax 0 .w1024 .n16 5 (.v 1 0) (.v 2 1), .vadd 0 .w1024 .f32 63 .rdn (.v 1 0) (.v 2 1),
    .vsub 0 .w256 .bf16 0 .rup (.v 1 0) (.v 2 1), .vmul 0 .w512 .f16 5 .rtz (.q 0 true) (.q 0 false),
    .vfma 0 .w256 .f32 5 .rne (.q 0 true) (.q 0 false) (.v 63 5),
    .vfnma 0 .w1024 .f16 5 .rne (.v 1 0) (.v 2 1) (.v 2 1)] : List Instr), Fires base i 0 := by
  unfold Fires; decide +kernel

/-- O9 to O12. -/
theorem witness_vector_bits : ∀ i ∈ ([.vmin 0 .w256 .f32 5 (.v 1 0) (.v 2 1), .vmax 0 .w256 .bf16 5 (.q 0 false) (.q 0 false),
    .vabs 0 .w1024 .f16 5 (.v 1 0), .vneg 0 .w256 .f32 5 (.v 1 0), .vabs 0 .w256 .i8 5 (.v 1 0), .vneg 0 .w512 .i64 5 (.q 0 false),
    .vand 0 .w256 5 (.v 1 0) (.v 2 1), .vor 0 .w1024 5 (.v 1 0) (.v 2 1), .vxor 0 .w256 5 (.v 1 0) (.v 2 1),
    .vandn 0 .w512 5 (.q 0 false) (.q 0 false), .vsel 0 .w1024 5 (.q 0 true) (.q 0 false) (.v 63 5),
    .vshl 0 .w256 .n8 5 (.v 1 0) (.v 2 1), .vshr 0 .w256 .i16 5 (.v 1 0) (.v 2 1), .vsra 0 .w256 .i64 5 (.v 1 0) (.v 2 1),
    .vshli 0 .w256 .i8 5 7 (.v 1 0), .vshri 0 .w256 .n64 5 63 (.v 1 0), .vsrai 0 .w256 .i16 5 0 (.v 1 0),
    .vcmp 0 .w256 .f32 5 .ge (.v 1 0) (.v 2 1), .vcmp 0 .w256 .n8 5 .ne (.v 1 0) (.v 2 1), .vdup 0 .w1024 .e8 5 3,
    .vrsum 0 .w512 .f32 5 (.v 1 0), .vrmax 0 .w256 .i8 5 (.v 1 0), .vrmin 0 .w1024 .bf16 5 (.v 1 0),
    .vcvt 0 .w256 .i32 5 .rtz false .f32 (.v 1 0), .vcvt 0 .w1024 .t6 5 .rne false .f32 (.v 1 0),
    .vcvt 0 .w256 .n8 5 .rne true .i64 (.v 1 0), .vcvt 0 .w256 .f32 5 .rup false .t8 (.q 0 false)] : List Instr), Fires base i 0 := by
  unfold Fires; decide +kernel

/-- O13 and O14. -/
theorem witness_rearrange : ∀ i ∈ ([.xperm 0 .w256 .i8 5 (.v 1 0) (.v 2 1), .xzip 0 .w512 .i64 5 true (.v 1 0) (.v 2 1),
    .xunzip 0 .w256 .i64 5 false (.q 0 false) (.q 0 false), .xrot 0 .w256 .i16 5 (.v 1 0) 3, .xtrans 0 .w512 .i8 5 6 (.v 1 0),
    .xtrans 0 .w256 .i64 5 0 (.v 1 0), .xpack 0 .w256 .t8 5 .f32 (.v 1 0) 3, .xpack 0 .w512 .t6 5 .bf16 (.v 1 0) 4,
    .xunpack 0 .w512 .f16 5 .t6 (.v 1 0) 4, .xscale 0 .w256 .f32 5 (.v 1 0) 4,
    .xmaxe 0 .w512 .f32 5 .t8 (.v 1 0) (.v 2 1)] : List Instr), Fires base i 0 := by
  unfold Fires; decide +kernel
theorem witness_trans_rows : 2 ^ (6 : BitVec 3).toNat ∣ Width.bits .w512 / Fmt.bits .i8 ∧
    2 ^ (0 : BitVec 3).toNat ∣ Width.bits .w256 / Fmt.bits .i64 ∧ 2 ^ (2 : BitVec 3).toNat ∣ Width.bits .w256 / Fmt.bits .i64 := by decide

/-- O15: every transcendental form. -/
theorem witness_transcendentals : ∀ i ∈ ([.expF 0 .w256 5 (.v 1 0), .expR 0 .w512 5 (.v 1 0), .exp2F 0 .w256 5 (.v 1 0),
    .exp2R 0 .w256 5 (.q 0 false), .log2F 0 .w256 5 (.v 1 0), .log2R 0 .w256 5 (.v 1 0), .rcpF 0 .w256 5 (.v 1 0),
    .rcpR 0 .w256 5 (.v 1 0), .rsqF 0 .w256 5 (.v 1 0), .rsqR 0 .w256 5 (.v 1 0), .sqrtF 0 .w256 5 (.v 1 0),
    .sqrtR 0 .w256 5 (.v 1 0), .tanhF 0 .w256 5 (.v 1 0), .tanhR 0 .w256 5 (.v 1 0), .sigmF 0 .w256 5 (.v 1 0),
    .sigmR 0 .w256 5 (.v 1 0), .sinF 0 .w256 5 (.v 1 0), .sinR 0 .w256 5 (.v 1 0), .cosF 0 .w512 5 (.v 1 0),
    .cosR 0 .w256 5 (.v 1 0)] : List Instr), Fires base i 0 := by
  unfold Fires; decide +kernel

/-- O16: a false guard, a full set of results in flight, a sleeping bank, and none of them. -/
theorem witness_frames : base.cur.pr 2 = false ∧ guardOf (.add 2 5 1 2) = some 2 ∧ (Instr.add 2 5 1 2).kind = some .I ∧
    256 < (flying 256).cur.inFlight + resultsOf (.add 0 5 1 2) ∧ base.cur.inFlight + resultsOf (.cmp 0 1 .eq 1 2) ≤ 256 ∧
    sleeper (on (fun c => { c with bank1 := { st := .off, next := .off } })).cur (.vand 0 .w256 16 (.v 1 0) (.v 2 0)) = some 16 ∧
    sleeper base.cur (.vand 2 .w256 16 (.v 1 0) (.v 2 0)) = none ∧ (Instr.vand 2 .w256 16 (.v 1 0) (.v 2 0)).kind = some .V ∧
    isSa (.vand 2 .w256 16 (.v 1 0) (.v 2 0)) = false := by decide +kernel

/-- `base` with a region at SB offset 0: 32 elements, one row, SC −8, a group of `gsz` members, with or without a plane. -/
def withRegion (gsz : Nat) (ibp : Bool) : State :=
  ((((base.store (bufAddr 0 .sb 0) 8 (31 + 0xF8 * 2 ^ 26 + (gsz - 1) * 2 ^ 34 + 2 ^ 52 + if ibp then 2 ^ 51 else 0)).store
    (bufAddr 0 .sb 8) 8 (0x100 * 2 ^ 32)).store (bufAddr 0 .sb 80) 8 0xF80010).updCur (fun c => { c with v := [(1, 0x7F800000)] }))

/-- O17: an add of zeros fits at every place, and an infinity does not at the first; the last element of the row is reached. -/
theorem witness_stream_add : saFault ((withRegion 1 false).sb 0) 0 .add 8 1 2 = 0 ∧ (base.cur.gr 0).toNat = 0 ∧
    saFault ((withRegion 1 false).sb 0) (24 * 2 ^ 40) .add 8 1 2 = 0 ∧
    (∀ j < 8, toS48 (decodeF (ffmt .f32) (laneOf 32 0 j).toNat) (-8) = some 0) ∧ inS48 0 = true ∧
    toS48 (decodeF (ffmt .f32) (laneOf 32 0x7F800000 0).toNat) (-8) = none := by decide +kernel
theorem witness_stream_fires : ∀ i ∈ ([.saAdd 0 .w256 .f32 0 (.v 0 0), .saAdd 0 .w256 .f32 0 (.v 1 0), .saNrd 0 .w256 .f32 5 (.v 0 0) 0,
    .saNrd 0 .w512 .t8 5 (.v 0 0) 0, .saSax 0 0, .saSealC 0 0 4, .saSealP 0 0 4, .saSealG 0 0 4] : List Instr),
    Fires (withRegion 1 true) i 0 ∧ Fires (withRegion 2 false) i 0 := by
  unfold Fires; decide +kernel
theorem witness_stream_offers : OffersAll (withRegion 1 false) [(.v 0 0, 0)] ∧ OffersAll (withRegion 1 false) [(.v 1 0, 0x7F800000)] := by
  simp only [OffersAll, Offers]; decide +kernel

/-- O18 and O19: a read of a row of its own and of a group, in both shapes, and the exchange and the seals. -/
theorem witness_stream_checks : saFault ((withRegion 1 false).sbView 0 0) 0 .nrd 8 1 2 = 0 ∧
    saFault ((withRegion 2 false).sbView 0 0) 0 .nrd 32 1 2 = 0 ∧ (descAt ((withRegion 2 false).sb 0) 0).gsz = 2 ∧
    saFault ((withRegion 2 false).sbView 0 0) 0 .sax 0 1 2 = 0 ∧ saFault ((withRegion 1 true).sb 0) 0 .seal_ 0 1 2 = 0 ∧
    saFault ((withRegion 2 false).sb 0) 0 .sealG 0 1 2 = 0 ∧ (base.cur.gr 4).toNat % 2 ^ 14 = 1 := by decide +kernel

/-- O20: loads at the last place of their buffer, and one that stands past it; a queue with room and a full one. -/
theorem witness_loads : ∀ i ∈ ([.ld 0 .w256 .lb (.v 63) 0 196576, .ld 0 .w1024 .xb (.v 5) 0 2, .ld 0 .w512 .ab (.q 1) 0 64,
    .lds 0 .b64 .cb 5 true 0 262136, .lds 0 .b8 .xb 0 false 0 32768, .spLdG 0 5 1023, .spLdV 0 5 63] : List Instr), Fires base i 0 := by
  unfold Fires; decide +kernel
theorem witness_load_ranges : 196576 % 4 = 0 ∧ 196576 + Width.bits .w256 / 8 ≤ bufSize .lb ∧ ¬ 196577 + Width.bits .w256 / 8 ≤ bufSize .lb ∧
    262136 % szBytes .b64 = 0 ∧ 262136 + szBytes .b64 ≤ bufSize .cb ∧ ¬ 32768 + szBytes .b8 ≤ bufSize .xb ∧
    base.cur.count 1 + base.cur.owes 1 < 8 ∧
    ¬ (on (fun c => { c with owed := [(1, 8)] })).cur.count 1 + (on (fun c => { c with owed := [(1, 8)] })).cur.owes 1 < 8 := by decide +kernel

/-- O21: the stores, at the ends of their ranges, with an empty calendar. -/
theorem witness_stores : (∀ x ∈ base.calendar, x.id ≠ base.seqno) ∧
    (196480 % 4 = 0 ∧ 196480 + Width.bits .w1024 / 8 ≤ bufSize .lb) ∧ (32767 % szBytes .b8 = 0 ∧ 32767 + szBytes .b8 ≤ bufSize .xb) ∧
    globalAddr base (base.cur.gr 2 + (0x1FFFE0 : BitVec 25).setWidth 64) 32 32 .wr true = (0x1FFFE0, none) := by decide +kernel
theorem witness_stores_fire : ∀ i ∈ ([.st 0 .w1024 .lb 1 5 0 196480, .sts 0 .b8 .xb 3 0 32767, .gst 0 .w256 1 0 2 0x1FFFE0,
    .spStG 0 3 1023, .spStV 0 1 63] : List Instr), Fires base i 0 := by
  unfold Fires; decide +kernel

/-- O22: a multicast to both ranks, and one with a zero mask. -/
theorem witness_multicast : targetCores (base.frond base.cur.frond).cores 3 0 = some [0, 1] ∧
    targetCores (base.frond base.cur.frond).cores (base.cur.gr 0) 511 = some [] ∧
    targetCores (base.frond base.cur.frond).cores (base.cur.gr 4) 1 = some [1] ∧
    (base.cur.gr 0).toNat + 32736 + 32 ≤ bufSize .xb ∧ 32736 % 32 = 0 := by decide +kernel
theorem witness_multicast_fires : Fires base (.mcst 0 .w256 1 0 4 0 1 32736) 0 ∧ Fires base (.mcst 0 .w256 1 0 0 0 511 0) 0 := by
  unfold Fires; decide +kernel

/-- O23: an atomic at the end of LB, with and without a register for the old value. -/
theorem witness_atomic : (196600 % szBytes .b64 = 0 ∧ 196600 + szBytes .b64 ≤ bufSize .lb) ∧
    (∀ y ∈ base.calendar, y.id ≠ base.seqno ∧ y.id ≠ base.seqno + 1) ∧ Sz.isWord .b64 = true := by decide +kernel
theorem witness_atomic_fires : Fires base (.atom 0 .b64 .lb 5 .cas 4 0 196600) 0 ∧ Fires base (.atom 0 .b32 .xb 0 .smax 4 0 0) 0 := by
  unfold Fires; decide +kernel

/-- O24: a global read to a register and to a queue, an atomic, and addresses that do not translate. -/
theorem witness_global : globalAddr base (base.cur.gr 2 + (0x1FFF80 : BitVec 25).setWidth 64) 128 128 .rd true = (0x1FFF80, none) ∧
    globalAddr base (base.cur.gr 2 + (8 : BitVec 25).setWidth 64) 8 8 .atm false = (8, none) ∧
    base.cur.count 1 + base.cur.owes 1 < 8 ∧ base.cur.fences = [] ∧ base.cur.heldev = [] ∧
    translate base.me.windows 0x10200000 32 .rd = none ∧ translate base.me.windows 0 32 .wr = none := by decide +kernel
theorem witness_global_fires : ∀ i ∈ ([.gld 0 .w1024 (.v 5) 2 0x1FFF80, .gld 0 .w1024 (.q 1) 2 0x1FFF80, .gatom 0 .b64 1 .cas 4 2 8,
    .gld 0 .w256 (.v 5) 2 0x200000, .gst 0 .w256 5 0 0 0] : List Instr), Fires base i 0 := by
  unfold Fires; decide +kernel

/-- Page 64 in frame 0: landing 0 admits every entry and stands at offset 32; then an empty bundle, a bundle with `add g5, g1, g4`,
and empty bundles. -/
def page64 : SMap Syllable :=
  [(1, 0x120647FF), (2, 2), (8, 0x70020), (9, 0x70021), (32, 0x800C0000), (33, 0x80000000), (34, 0xA0000000), (35, 0x02028220), (36, 0x80000000),
   (37, 0x80000000), (38, 0x80000000)]
/-- `base` with page 64 resident, its context changed. -/
def paged (f : Ctx → Ctx) : State :=
  (base.updCore 0 (fun x => { x with istore := page64, dir := [(0, { page := 64, v := true, cur := true })] })).updCur f

/-- O25: tokens that are legal and not, near and far, return indices of 23 and 24, a loop that is active and one that is not. -/
theorem witness_transfers : (paged id).cur.staged = {} ∧ (paged id).me.inCurrent (paged id).cur.point = true ∧ (paged id).cur.point.page = 64 ∧
    base.me.inCurrent base.cur.point = false ∧ ((23 : BitVec 5).toNat ≤ 23 ∧ ¬ (24 : BitVec 5).toNat ≤ 23) ∧
    (BitVec.ofNat 64 (64 * 2 ^ 24 + 23 * 2 ^ 16) : Word).toNat % 2 ^ 16 = 0 ∧ (base.cur.gr 1).toNat % 2 ^ 16 ≠ 0 ∧
    base.cur.loop.active = false ∧ (on (fun c => { c with loop := { active := true } })).cur.loop.active = true := by decide +kernel
theorem witness_transfers_fire : ∀ i ∈ ([.br 0 23, .br 0 24, .brx 0 1, .brx 0 0, .ret 0 1, .call 0 0 24 30, .callx 0 0 23 30,
    .lquit 0 23] : List Instr), Fires (paged id) i 0 := by
  unfold Fires; decide +kernel

/-- A loop of two bundles at its last bundle, in its pass `k`. -/
def looping (k : Nat) : State := paged (fun c => { c with
  point := .inside 64 0 0 36, lpass := BitVec.ofNat 64 k, ltrip := 2, lrot := 31, loop := { active := true, first := 34, len := 2, pos := 1, stages := 1 } })
/-- O26: a body that the page holds, one that it does not, a trip count too large; a turn, a last turn and a misplaced `lend`. -/
theorem witness_loops : (paged id).cur.point = .inside 64 0 0 32 ∧ (paged id).me.walkBody 0 2 33 = (false, false) ∧
    (paged id).me.walkBody 0 16 33 ≠ (false, false) ∧ (paged id).cur.gr 1 = 0x20 ∧
    (on (fun c => { c with g := [(1, 0xFFFFFFFFFFFFFFF9)] })).cur.gr 1 = 0xFFFFFFFFFFFFFFF9 ∧
    (looping 0).cur.loop.pos + 1 = (looping 0).cur.loop.len ∧ (looping 0).cur.staged = {} ∧ (looping 1).cur.lpass = 1 ∧
    (paged id).cur.pr 15 = false ∧ (paged id).cur.loop.active = false := by decide +kernel
theorem witness_loops_fire : Fires (paged id) (.lsetup 0 1 7 1) 0 ∧ Fires (looping 0) (.lend 0) 0 ∧ Fires (looping 1) (.lend 0) 0 ∧
    Fires (paged id) (.lend 0) 0 := by
  unfold Fires; decide +kernel

/-- O27: a mask that is met and one that is not, a generation that is met and one that is not, the latch set and clear. -/
theorem witness_waits : base.cur.wait = [] ∧ BitVec.ofNat 64 (base.load (bufAddr 0 .xb 0) 8) &&& base.cur.gr 0 = base.cur.gr 0 ∧
    BitVec.ofNat 64 (base.load (bufAddr 0 .xb 32760) 8) &&& base.cur.gr 1 ≠ base.cur.gr 1 ∧
    (base.load (bufAddr 0 .xb 8) 4 + (2 ^ 32 - (base.cur.gr 0).toNat % 2 ^ 32)) % 2 ^ 32 < 2 ^ 31 ∧
    ¬ (base.load (bufAddr 0 .xb 32760) 4 + (2 ^ 32 - (base.cur.gr 4).toNat % 2 ^ 32)) % 2 ^ 32 < 2 ^ 31 ∧
    base.cur.latch = false ∧ (on (fun c => { c with latch := true })).cur.latch = true := by decide +kernel
theorem witness_waits_fire : ∀ i ∈ ([.cwait 0 0 0, .cwait 0 1 4095, .swait 0 0 0, .swait 0 4 2047, .wfe 0] : List Instr), Fires base i 0 := by
  unfold Fires; decide +kernel

/-- O28: signals that translate and that do not, in each phase of a wait, and a child launch with and without a register. -/
theorem witness_signals : base.cur.fences = [] ∧ base.cur.heldev = [] ∧ base.cur.sig = none ∧
    globalAddr base (base.cur.gr 2 + BitVec.ofNat 64 (8 * (511 : BitVec 9).toNat)) 8 8 .atm false = (4088, none) ∧
    globalAddr base (base.cur.gr 2 + BitVec.ofNat 64 (8 * (0 : BitVec 9).toNat)) 8 8 .rd false = (0, none) ∧
    translate base.me.windows (base.cur.gr 0 + BitVec.ofNat 64 (8 * (0 : BitVec 9).toNat)).toNat 8 .atm = none ∧
    (on (fun c => { c with sig := some .satisfied })).cur.sig = some .satisfied ∧
    (on (fun c => { c with sig := some (.posted 3) })).cur.sig = some (.posted 3) := by decide +kernel
theorem witness_signals_fire : ∀ i ∈ ([.sigDec 0 2 511 63, .sigDec 0 0 0 0, .sigWait 0 2 0 0x20, .childLaunch 0 5 2 4,
    .childLaunch 0 0 2 4] : List Instr), Fires base i 0 := by
  unfold Fires; decide +kernel
theorem witness_sig_wait_fires : Fires (on (fun c => { c with sig := some .satisfied })) (.sigWait 0 2 0 0) 0 ∧
    Fires (on (fun c => { c with sig := some (.posted 3) })) (.sigWait 0 2 0 0) 0 := by
  unfold Fires; decide +kernel

/-- O29: a barrier not yet reached, one that is open, an aligned wait, a trap, a halt and the fences. -/
theorem witness_barriers : base.cur.staged = {} ∧ base.cur.item = some { frond := 0, wid := 0 } ∧ (base.frond 0).rlev ≤ (0 : BitVec 3).toNat ∧
    base.cur.arrived = false ∧ base.cur.fences = [] ∧ base.cur.heldev = [] ∧
    (on (fun c => { c with arrived := true })).cur.arrived = true ∧ (on (fun c => { c with arrived := true })).barrierOpen 0 0 6 = true := by
  decide +kernel
theorem witness_barriers_fire : ∀ i ∈ ([.barL 0 0, .barL 0 6, .tkalign 0 1023, .softwareTrap 0 0xFFFF, .halt 0, .fence 0 .c,
    .fence 0 .d, .fence 0 .col, .fence 0 .pkg, .fence 0 .fab] : List Instr), Fires base i 0 := by
  unfold Fires; decide +kernel
theorem witness_open_barrier_fires : Fires (on (fun c => { c with arrived := true })) (.barL 0 6) 0 := by
  unfold Fires; decide +kernel

/-- O30: every writable register, a read-only one, both kinds of bank fields, and queue counts within four bits. -/
theorem witness_registers : base.cur.staged = {} ∧ (∀ q < 8, base.cur.count q < 16 ∧ base.cur.owes q < 16) ∧
    (¬ ∃ k ∈ [2, 4, 6], (base.cur.gr 1).toNat / 2 ^ k % 4 = 3) ∧
    ((on (fun c => { c with g := [(1, 0xC0)] })).cur.gr 1).toNat / 2 ^ 6 % 4 = 3 := by decide +kernel
theorem witness_registers_fire : ∀ r ∈ ([.ltrip, .lpass, .lrot, .xcause, .xval, .xtok, .xcnt, .ctxid, .qst, .vbank] : List SysReg),
    Fires base (.wrsys 0 1 r) 0 ∧ Opens base 0 (countG 63) := by
  unfold Fires Opens; decide +kernel

/-- `base` with an engine of core 0: routine 0 starts at word 5, which holds `u.end`. -/
def engine0 : Engine := { store := [(5, 0x1C00000000000000)], table := [(0, 0x8005), (1, 5)] }
def withEngine (e : Engine) (f : Ctx → Ctx) : State := (base.updCore 0 (fun x => { x with engine := e })).updCur f
def call3 : CallEnt := { id := 3, ctx := 0, frond := 0, issue := 4990, kind := .call 0 [0x100, 0, 0, 0, 0, 0, 0, 0] 2 }

/-- O32: a queue with one call, in its first run. -/
theorem witness_sequencer : (withEngine { engine0 with calls := [call3] } id).me.engine.nextCall = some call3 ∧
    (∀ y ∈ (withEngine { engine0 with calls := [call3] } id).me.engine.calls,
      y.due.all (fun d => decide (base.now < d)) = true ∧ (y.id = call3.id → y = call3)) := by decide +kernel

/-- O33: every form, with nothing queued, with one call queued, and with a repeat count armed. -/
theorem witness_matrix_fires : ∀ i ∈ ([.mrep 0 3, .mcall 0 0, .mcall 0 1, .mwb 0 1, .mdrain 0 0, .mstat 0 0, .mprog 0 0 0 1023,
    .mprog 0 4 0 0, .mprogT 0 0 63 0, .mprogT 0 0 63 1] : List Instr), Fires (withEngine engine0 id) i 0 ∧
      Fires (withEngine { engine0 with calls := [call3] } (fun c => { c with armed := 3 })) i 0 := by
  unfold Fires; decide +kernel
theorem witness_matrix_slot : engine0.mprogEnd ≤ base.now ∧ base.cur.armed = 0 ∧
    (withEngine engine0 (fun c => { c with armed := 3 })).cur.armed ≠ 0 ∧
    4 ≤ (List.filter (fun y : CallEnt => y.due.all (fun d => decide (base.now < d))) [call3, call3, call3, call3]).length ∧
    (SMap.get 0 engine0.table 0).getLsbD 15 = true ∧ (SMap.get 0 engine0.table 0).toNat / 2 ^ 10 % 32 = 0 ∧
    (SMap.get 0 engine0.table 1).getLsbD 15 = false ∧
    (∃ r m k, call3.kind = .call r m k) ∧ call3.due = none ∧ engine0.times.any = false ∧
    base.cur.count 0 + base.cur.owes 0 < 8 :=
  ⟨by decide +kernel, by decide +kernel, by decide +kernel, by decide +kernel, by decide +kernel, by decide +kernel, by decide +kernel,
    ⟨_, _, _, rfl⟩, rfl, rfl, by decide +kernel⟩
/-- Record 0: one row of 64 bytes; 1: reserved bits set; 2: one row of 256 bytes; 3: sixteen words; 4: one row of 2,048 bytes with
its origin 64 bytes before the array. Core 1 stands behind the window at 0x2000_0000. -/
def copying (f : Ctx → Ctx) : State :=
  ((withRegion 1 false).updCore 0 (fun x => { x with
    windows := [(0, win), (1, { vbase := 0x20000000, pbase := 0xF800200000, size := 0, v := true, rd := true, wr := true, atm := true })] })).updCur
  (fun c => f { c with
    y := [(0, 63 * 2 ^ 32 + 63 * 2 ^ 48), (1, 0xFF000000), (2, 255 * 2 ^ 32 + 255 * 2 ^ 48), (3, 2 + 15 * 2 ^ 32 + 15 * 2 ^ 48),
          (4, 1 + 1023 * 2 ^ 32 + 255 * 2 ^ 48 + 65504 * 2 ^ 56)]
    a := [(1, 0x10000000), (2, 0x20000000)]
    g := [(1, 0x8000000000000040), (2, 0x600000), (3, 0x8000000100600000), (4, 3), (7, 0x8000000000000042), (8, 0x8000000000000002), (9, 2), (10, 0x8000000000000000)] })
def row64 : Tile := (recTile ((copying id).cur.yr 0)).getD ⟨0, 0, [], [], [], [], 0, 0⟩
def row256 : Tile := (recTile ((copying id).cur.yr 2)).getD ⟨0, 0, [], [], [], [], 0, 0⟩
def words16 : Tile := (recTile ((copying id).cur.yr 3)).getD ⟨0, 0, [], [], [], [], 0, 0⟩

/-- O34: the records; memory, a buffer of this core and of core 1 as the other side; ports that are free and one that is held. -/
theorem witness_tiles : recTile ((copying id).cur.yr 0) = some row64 ∧ recTile ((copying id).cur.yr 2) = some row256 ∧
    recTile ((copying id).cur.yr 3) = some words16 ∧ recTile ((copying id).cur.yr 1) = none ∧
    (recTile ((copying id).cur.yr 4)).isSome = true ∧ row64.bytes = 64 ∧ row256.bytes = 256 ∧ words16.e = 4 := by decide +kernel
theorem witness_timed_memory : loadBuf .lb = true ∧ storeBuf .lb = true ∧ 196544 + row64.bytes ≤ bufSize .lb ∧ row64.bytes ≤ 262144 ∧
    gaddrBad row64 0x10000000 = false ∧ alignBad row64 0x10000000 true = false ∧ sideBad (copying id) row64 0x10000000 = false ∧
    translateBad (copying id) row64 0x10000000 .rd = none ∧ translateBad (copying id) row64 0x10000000 .wr = none ∧
    claimBad (copying id) 1 (0, true, 5000 + copyLat (copying id) row64 0x10000000) = false ∧ claimBad (copying id) 1 (0, false, 5000) = false ∧
    ((copying id).cur.ar 1).toInt = 0x10000000 ∧
    claimBad ((copying id).updCore 0 (fun x => { x with landPort := [(5000 + copyLat (copying id) row64 0x10000000, 0)] })) 1
      (0, true, 5000 + copyLat (copying id) row64 0x10000000) = true := by decide +kernel
theorem witness_timed_fires : ∀ i ∈ ([.cpyTl 0 1 1 false .lb 3071 0, .cpyTl 0 0 1 false .lb 3071 0, .cpyTl 0 0 1 true .lb 3071 0,
    .cpyTl 0 0 1 false .lb 0 2, .cpyTl 0 0 1 true .lb 0 3, .cpyBc 0 0 1 .lb 0 4, .cpyEv 0 0 1 false .sb 0, .cpyEv 0 2 1 true .sb 0,
    .cpyRs 0 0 1 false .sb 0, .cpyRs 0 2 1 true .sb 0] : List Instr), Fires (copying id) i 0 := by
  unfold Fires; decide +kernel
/-- g2 names XB of this core at offset 0, g3 XB of rank 1, and g4 with g5 the ranks 0 and 1. -/
theorem witness_timed_buffers : Buf.ofCode (((copying id).cur.gr 2).extractLsb' 20 3) = some .xb ∧
    Buf.ofCode (((copying id).cur.gr 3).extractLsb' 20 3) = some .xb ∧
    (∀ r ∈ ([2, 3] : List (BitVec 6)), let w := (copying id).cur.gr r
      w.getLsbD 19 = false ∧ w.toNat / 2 ^ 23 % 2 ^ 9 = 0 ∧ w.toNat / 2 ^ 41 % 2 ^ 22 = 0) ∧
    ((copying id).cur.gr 2).getLsbD 63 = false ∧ ((copying id).cur.gr 2).toNat / 2 ^ 32 % 2 ^ 9 = 0 ∧
    ((copying id).cur.gr 3).getLsbD 63 = true ∧ ((copying id).frond 0).cores[((copying id).cur.gr 3).toNat / 2 ^ 32 % 2 ^ 9]? = some 1 ∧
    gaddrBad row64 0 = false ∧ alignBad row64 0 true = false ∧ row64.range = some (0, 63) ∧
    claimBad (copying id) 1 (1, false, 5000) = false ∧ claimBad (copying id) 1 (1, true, 5024) = false ∧
    claimBad (copying id) 1 (0, true, 5024) = false ∧ claimBad (copying id) 1 (0, true, 5008) = false ∧
    ((copying id).cur.gr 5).toNat < 512 ∧ targetCores ((copying id).frond 0).cores 3 0 = some [0, 1] ∧
    row256.bytes = 64 + (descAt ((copying id).sb 0) 0).nrow * ((32 + 4 * (descAt ((copying id).sb 0) 0).nel + 63) / 64 * 64) ∧
    (descAt ((copying id).sb 0) 0).ok = true := by decide +kernel

/-- A domain of which this package is member 0 and a peer member 2. -/
def domain2 : Domain := { formed := true, number := 5, peers := [(2, { present := true })] }
def inDomain (f : Ctx → Ctx) : State := { copying f with hub := { hub0 with domain := domain2 } }
/-- O35: a tile in the near tier and one in core 1's scratchpad, a member of the domain with and without its sync word, and sixteen
copies outstanding. -/
theorem witness_untimed : (inDomain id).cur.fences = [] ∧ (inDomain id).cur.heldev = [] ∧ (inDomain id).cur.copies.length < 16 ∧
    16 ≤ (inDomain (fun c => { c with copies := (List.range 16).map (fun i => { id := i, cbm := 0, store := true, va := 0, chunks := [] }) })).cur.copies.length ∧
    32760 + (1 + 7) / 8 ≤ 32768 ∧ (row64.bytes + 511) / 512 = 1 ∧ gaddrBad row64 0x20000000 = false ∧
    windowCore (inDomain id) row64 0x10000000 = none ∧ windowCore (inDomain id) row64 0x20000000 = some 1 ∧
    translateBad (inDomain id) row64 0x10000000 .rd = none ∧ translateBad (inDomain id) row64 0x20000000 .wr = none ∧
    translateBad (inDomain id) words16 0x20000000 .atm = none ∧ translateBad (inDomain id) words16 0x10000000 .atm = none := by decide +kernel
/-- g0 is no sync reference, g1 names sync word 64, g7 to g9 name member 2, and g10 sync word 0 of a window. -/
theorem witness_untimed_references : (inDomain id).cur.gr 0 = 0 ∧ (inDomain id).cur.gr 1 = 0x8000000000000040 ∧
    (inDomain id).cur.gr 7 = 0x8000000000000042 ∧
    (inDomain id).cur.gr 8 = 0x8000000000000002 ∧ (inDomain id).cur.gr 9 = 2 ∧ (inDomain id).cur.gr 10 = 0x8000000000000000 ∧ (inDomain id).hub.domain.has 2 = true ∧ (inDomain id).hub.domain.has 0 = true := by decide +kernel
theorem witness_reference_fields : (0x8000000000000040 : Word).toNat / 2 ^ 15 % 2 ^ 48 = 0 ∧ (0x8000000000000040 : Word).toNat % 16 = 0 ∧
    (0x8000000000000040 : Word).getLsbD 63 = true ∧
    (∀ w ∈ ([0x8000000000000002, 2, 0x8000000000000042, 0x8000000000000000] : List Nat),
      w / 2 ^ 7 % 2 ^ 9 = 0 ∧ w / 2 ^ 31 % 2 ^ 32 = 0 ∧ w / 2 ^ 16 % 16 = 0) ∧
    (0x8000000000000042 : Word).getLsbD 6 = true ∧ (0x8000000000000002 : Word).getLsbD 6 = false ∧
    (0x8000000000000042 : Word).toNat % 2 ^ 6 = 2 := by decide +kernel
theorem witness_untimed_fires : ∀ i ∈ ([.cpyGet 0 0 1 .lb 0 4095 9, .cpyUt 0 0 1 false .lb 0 4095 0, .cpyUt 0 0 1 true .lb 0 0 0,
    .cpyUt 0 0 2 true .lb 0 0 1, .cpyAdd 0 3 1 .lb .f32 0 0 0, .cpyAdd 0 3 2 .lb .i32 0 0 1, .cpyPut 0 0 1 .lb 0 0 8,
    .coll 0 0 1 .lb .put 0 0 7, .coll 0 3 2 .lb (.add .f32) 0 0 10, .mig 0 1 .cxl 4095] : List Instr), Fires (inDomain id) i 0 := by
  unfold Fires; decide +kernel
theorem witness_mig : findWindow (inDomain id).me.windows ((inDomain id).cur.ar 1).toNat 0x200000 = some win ∧ win.vbase = ((inDomain id).cur.ar 1).toNat ∧
    win.size = 0 ∧ win.rd = true ∧ win.wr = true ∧ win.mig = false ∧
    findWindow (inDomain id).me.windows ((inDomain id).cur.ar 0).toNat 0x200000 = none := by decide +kernel

/-- O36: no Y write is on its way. -/
theorem witness_layout : base.cur.ywrites = [] := by decide +kernel
theorem witness_layout_fires : ∀ i ∈ ([.yclr 0 15, .ycpy 0 1 2, .ysetd 0 1 0 0 0 255 65535, .ysetd 0 1 4 16383 1 63 4095, .ysetd 0 1 1 0 0 0 0,
    .yseto 0 1 1 2, .ysetf 0 1 3 4 0 0xFFFF, .ysetb 0 1 7] : List Instr), Fires base i 0 := by
  unfold Fires; decide +kernel
/-- A call whose routine ends at once passes its checks, and one whose word is no microinstruction does not. -/
def onlyCall (e : Engine) : Engine := { Engine.project engineFuel { e with calls := [] } with
  run := none, calls := [{ id := 7, ctx := 0, frond := 0, issue := 5000, kind := .call 0 [0, 0, 0, 0, 0, 0, 0, 0] 1 }] }
theorem witness_walk : walkCall (withEngine engine0 id) 0 engineFuel (onlyCall engine0) [] = .ok [] ∧
    walkCall (withEngine engine0 id) 0 engineFuel (onlyCall { engine0 with store := [(5, 0xFC00000000000000)] }) [] = .error 1 :=
  ⟨by decide +kernel, by decide +kernel⟩

/-- A call whose routine drains one row to queue 0, where the queue has room and where it is full; nothing is frozen, and a store still being
written stops what would enter. -/
def piped : Engine := { store := [(5, 0x1002800000000000), (6, 0x1C00000000000000)], table := [(0, 0x8005)] }
theorem witness_walk_delivers : walkCall (withEngine piped id) 0 engineFuel (onlyCall piped) [] = .ok [(0, 1)] ∧
    (withEngine piped id).cur.count 0 + (withEngine piped id).cur.owes 0 + 1 ≤ 8 ∧
    (let s := withEngine piped (fun c => { c with q := [(0, List.replicate 8 (.data 0))] }); ¬ s.cur.count 0 + s.cur.owes 0 + 1 ≤ 8) ∧
    (withEngine piped id).frozen (withEngine piped id).cur.frond = false ∧ (withEngine piped id).me.engine.calls = [] ∧
    base.now < { piped with mprogEnd := 5001 }.mprogEnd ∧
    (withEngine { engine0 with calls := [call3] } id).me.engine.calls ≠ [] := by
  refine ⟨by decide +kernel, by decide +kernel, by decide +kernel, by decide +kernel, by decide +kernel, by decide, by decide +kernel⟩

/-- `base` with one action due now, made by context 0 of core 0. -/
def dueNow (a : TAct) (s : State) : State := { s with calendar := [{ id := 9, due := 5000, frond := 0, core := 0, ctx := 0, ord := 9, act := a }] }
def due9 (a : TAct) : Timed := { id := 9, due := 5000, frond := 0, core := 0, ctx := 0, ord := 9, act := a }

/-- O37: a result of each width that is due, a bank that wakes, an entry, samples, landings and a pair of rows out of range. -/
theorem witness_result_lands : (on (fun c => { c with inflight := [{ id := 9, due := 5000, file := .v, reg := 63, width := 256, value := some 5 }] })).cur.inflight.find?
      (fun q => decide (q.id = 9) && q.old.isNone) = some { id := 9, due := 5000, file := .v, reg := 63, width := 256, value := some 5 } ∧
    ∀ k, (base.cur.bankOf k).st = .on → (base.cur.bankOf k).next = .on := by
  refine ⟨by decide +kernel, fun k _ => ?_⟩
  simp only [Ctx.bankOf, show base.cur.bank1 = {} by decide +kernel, show base.cur.bank2 = {} by decide +kernel,
    show base.cur.bank3 = {} by decide +kernel, ite_self]
theorem witness_due : (dueNow (.deliver 0 0 (.data 5)) base).timed 9 = some (due9 (.deliver 0 0 (.data 5))) ∧
    (dueNow (.deliver 3 0 (.data 5)) base).timed 9 = some (due9 (.deliver 3 0 (.data 5))) ∧ base.keeps 0 0 0 = true ∧ base.keeps 0 0 3 = false ∧
    (dueNow (.sample 0 8 (.result 0 4)) base).timed 9 = some (due9 (.sample 0 8 (.result 0 4))) ∧ base.faulty = [] ∧
    (dueNow (.chunkLand [(0, 1), (1, 2)]) base).timed 9 = some (due9 (.chunkLand [(0, 1), (1, 2)])) ∧
    (dueNow (.write 0 [(0, 1), (1, 2)]) base).timed 9 = some (due9 (.write 0 [(0, 1), (1, 2)])) ∧
    (dueNow (.drainCb [(0, 1), (1, 2)]) base).timed 9 = some (due9 (.drainCb [(0, 1), (1, 2)])) ∧
    (([(0, 1), (1, 2)] : List Host.Cell).map Prod.fst).Nodup := by decide +kernel
theorem witness_chunk_read : let s : State := { base with calendar := [due9 (.chunkRead [{ dst := 64, src := 0 }] 10), { due9 (.chunkLand [(0, 1)]) with id := 10, due := 5020 }] }
    s.timed 9 = some (due9 (.chunkRead [{ dst := 64, src := 0 }] 10)) ∧
    s.timed 10 = some { due9 (.chunkLand [(0, 1)]) with id := 10, due := 5020 } ∧ s.faulty = [] ∧ s.fencedAt 0 = false := by decide +kernel
theorem witness_drain_overflow : let s := dueNow (.drainSb 0 0 0 0 [List.replicate 8 0x7F800000] 3) (withRegion 1 false)
    s.timed 9 = some (due9 (.drainSb 0 0 0 0 [List.replicate 8 0x7F800000] 3)) ∧
    (s.unschedule 9).addRows 0 0 0 0 [List.replicate 8 0x7F800000] = none ∧ (s.ctx 0 0).overflow = none ∧ s.keeps 0 0 0 = true := by
  decide +kernel

/-- O38: a region with a plane whose sums fit, a group sum alone in its cycle, a freeze with and without an abort held back, a hold
that ends and one that does not, and a read to be posted again. -/
theorem witness_fold : let s := dueNow (.fold 0 0 0 1) (withRegion 1 true)
    let d := descAt (s.sb 0) 0
    s.timed 9 = some (due9 (.fold 0 0 0 1)) ∧ d.ok = true ∧ d.ibp = true ∧ 0 < d.nrow ∧
    (s.byte (bufAddr 0 .sb (d.row 0 + 19))).getLsbD 1 = false ∧
    ∀ e < d.nel, inS48 (s48Val (sbNat (s.sb 0) (d.elem 0 e) 6) + s48Val (sbNat (s.sb 0) (d.delta 0 e) 6)) = true := by decide +kernel
theorem witness_group_sum : let s := dueNow (.gsum 0 2 0 1) base
    s.timed 9 = some (due9 (.gsum 0 2 0 1)) ∧ ∀ y ∈ s.calendar, y = due9 (.gsum 0 2 0 1) ∨ s.now < y.due := by decide +kernel
theorem witness_freeze_end : (base.frond 0).thawAbort = none ∧
    (let s : State := { base with fronds := [(0, { frond0 with thawAbort := some (0x10, 5) })] }
     (s.frond 0).thawAbort = some (0x10, 5) ∧ (s.frond 0).bound = true ∧ (s.frond 0).ended = false ∧ (s.frond 0).abort = none) := by decide +kernel
theorem witness_holds : ((on (fun c => { c with hold := some 5000 })).ctx 0 0).hold = some 5000 ∧
    ((on (fun c => { c with hold := some 5001 })).ctx 0 0).hold = some 5001 := by decide +kernel
def sigRead9 : Access := { id := 9, core := 0, ctx := 0, frond := 0, world := 1, node := 1, home := 1, act := .sigRead 64, owed := .sig 0 64 }
theorem witness_repost : let c := (on (fun c => { c with sig := some (.repost sigRead9) })).ctx 0 0
    c.sig = some (.repost sigRead9) ∧ c.fences = [] ∧ c.heldev = [] ∧ sigRead9.act.writes = false ∧ sigRead9.request = none := by decide +kernel
/-- Entries by a start and a return into page 64 and into a page that is not there, and an empty bundle with and without a result in flight. -/
theorem witness_entries : ((paged (fun c => { c with point := .entry 64 0 1 })).ctx 0 0).point = .entry 64 0 1 ∧
    ((paged id).core 0).current 64 = some 0 ∧ ((paged id).core 0).current 65 = none ∧ ((paged id).core 0).pageTag 0 = (paged id).tag 0 ∧
    ((paged id).core 0).pageSyl 0 (((paged id).core 0).landing 0 0).off = 0x800C0000 ∧
    ((paged id).core 0).pageSyl 0 (((paged id).core 0).landing 0 1).off = 0x80000000 ∧ ({ paged id with hub := { hub0 with profile := 0x16 } } : State).tag 0 ≠ 0x120647FF ∧
    (paged id).cur.flying 5000 = 0 ∧ (flying 3).cur.flying 5000 = 3 := by decide +kernel

/-- A plain access of core 0 to the near tier of column 0, which its home may take: `base` with it posted, and the memory's owner. -/
def access9 (a : Act) (o : Owed) : Access :=
  { id := 9, core := 0, ctx := 0, frond := 0, world := 1, node := 1, home := 1, tag := [(8, 1)], act := a, owed := o }
def posting (a : Access) (s : State) : State := { s with posted := [a] }
def pl9 : Payload := { cells := [(64, 1), (65, 2)] }
/-- O39: each kind of access may be taken and is not refused, and a write past the end of a compute pool is refused. -/
theorem witness_accesses : ∀ a ∈ ([.write pl9, .read [{ dst := bufAddr 0 .lb 0, src := 64 }], .atomic 64 8 .cas 1 2, .dec 64 1,
    .push none (some (bufAddr 1 .xb 64)) 2 { cells := [(bufAddr 1 .lb 0, 1), (bufAddr 1 .lb 1, 2)] }, .move 0x10000000 .cxl] : List Act),
    let x : Access := { access9 a (.mig 3) with tag := if a.writes then [(8, 1)] else [] }
    let s := posting x (base.updCore 1 (fun _ => { core0 with logical := 1, ctxs := [], running := none }))
    s.access 9 = some x ∧ x.done = none ∧ x.err = false ∧ s.faulty = [] ∧ s.refusal x = none ∧ (a.writes = true → s.canApply x = true) ∧ s.canServe x = true ∧
      s.migFrame 0 0x10000000 = some 0 := by
  decide +kernel
theorem witness_plain : (pl9.cells.map Prod.fst).Nodup ∧ pl9.srcs = [] ∧
    (∀ c ∈ ([(bufAddr 1 .lb 0, 1), (bufAddr 1 .lb 1, 2)] : List Host.Cell), c.1 + 1 ≤ bufAddr 1 .xb 64 ∨ bufAddr 1 .xb 64 + 16 ≤ c.1) := by
  decide +kernel
/-- An addend at the aperture of core 0 with region 0 in its directory. -/
def plane9 : Payload := { cells := cellsAt (spadBase 0 + 0x180000 + 0x140) 4 0 }
def planePush : Access := access9 (.push (some .sa) none 4 plane9) .none
def arrival : Arrival → Bool
  | .ok _ => true
  | _ => false
def planed : State :=
  posting planePush ((withRegion 1 true).updCore 0 (fun x => { x with inbound := [(0, 0)] }))
theorem witness_plane : planed.access 9 = some planePush ∧ planed.refusal planePush = none ∧ planed.canApply planePush = true ∧
    planed.canServe planePush = true ∧ plane9.srcs = [] ∧ plane9.cells ≠ [] ∧ planed.faulty = [] ∧
    arrival ((planed.mergeTags 1 (lineStarts (plane9.cells.map Prod.fst))).saArrive (pushCore none plane9) plane9.cells) = true := by decide +kernel
theorem witness_refused : let x := access9 (.write { cells := [(0xF007FFFFFF, 1)] }) .none
    let s := posting x base
    s.access 9 = some x ∧ s.refusal x = some 0xF007FFFFFF ∧ s.canApply x = true ∧ (s.die (addrDie 0xF007FFFFFF)).log.length < 64 := by decide +kernel
theorem witness_error_response : let x : Access := { access9 (.read []) (.store 64) with err := true }
    let s := posting x base
    s.access 9 = some x ∧ x.core < 512 ∧ s.keeps x.frond x.core x.ctx = true ∧ (s.ctx x.core x.ctx).remote = none := by decide +kernel
def copy3 : CopySt := { id := 3, cbm := 8, store := true, va := 0, chunks := [{ i := 2, waiting := 0 }] }
theorem witness_chunk : let c := (on (fun c => { c with copies := [copy3] })).ctx 0 0
    c.copies.find? (fun x => decide (x.id = 3)) = some copy3 ∧ c.chunk 3 2 = some { i := 2, waiting := 0 } := by decide +kernel
theorem witness_fence : let s := on (fun c => { c with fences := [{ id := 4, scope := .d, set := [3] }], heldev := [{ id := 5, fences := [4], ev := .arrive 0 }] })
    (s.ctx 0 0).fences = [{ id := 4, scope := .d, set := [3] }] ∧ s.pendingReq 0 0 3 = false := by decide +kernel
def migrating (m : MigSt) : State :=
  (base.updCore 0 (fun x => { x with windows := [(0, { win with mig := true })] })).updCur (fun c => { c with copies := [{ copy3 with mig := some m }] })
theorem witness_migration : (migrating { va := 0x10000000, tier := .cxl, marked := true }).migOf 0 0 3 = some { va := 0x10000000, tier := .cxl, marked := true } ∧
    (migrating { va := 0x10000000, tier := .cxl, marked := true, applied := true }).migOf 0 0 3 =
      some { va := 0x10000000, tier := .cxl, marked := true, applied := true } ∧
    (migrating { va := 0x10000000, tier := .cxl }).faulty = [] ∧ ((migrating { va := 0x10000000, tier := .cxl }).core 0).windows = [(0, { win with mig := true })] ∧
    (migrating { va := 0x10000000, tier := .cxl }).posted = [] := by decide +kernel
/-- A region of two rows of 64 elements, with SC −8, and a pair of rows of ones for it. -/
def twoRows : State := (((base.store (bufAddr 0 .sb 0) 8 (63 + 2 ^ 13 + 0xF8 * 2 ^ 26 + 2 ^ 52)).store (bufAddr 0 .sb 8) 8 (0x400 * 2 ^ 32)).store
  (bufAddr 0 .sb 80) 8 0xF80010).store (bufAddr 0 .sb 528) 8 0xF80010
def ones64 : List (BitVec 32) := List.replicate 64 0x3F800000
theorem witness_drain_rows : let x := due9 (.drainSb 0 0 0 0 [ones64, ones64] 3)
    let s := dueNow (.drainSb 0 0 0 0 [ones64, ones64] 3) twoRows
    s.timed 9 = some x ∧ ones64.length = 64 ∧ saFault (s.sb 0) (saPtr 0 0 0).toNat .add 64 2 1 = 0 ∧
    let d := descAt (s.sb 0) 0
    d.row 0 = 64 ∧ d.row 1 = 512 ∧ toS48 (decodeF f32Fmt ((0x3F800000 : BitVec 32)).toNat) d.sc = some 256 ∧ inS48 256 = true ∧
    ∀ i < 2, ∀ j < 64, ones64.getD j 0 = 0x3F800000 ∧ s48Val (sbNat (s.sb 0) (d.elem i j) 6) = 0 := by decide +kernel

/-- O40: a context in each state of R274, asked for nothing, and drained. -/
def inState (st : CtxState) (f : Ctx → Ctx) : State :=
  (base.updCore 0 (fun x => { x with savebase := 0x10000000 })).updCur (fun c => f { c with st := st, q := [], item := none })
theorem witness_context_states : (∀ st ∈ ([.idle, .ready, .running, .blocked, .trapped, .preempted, .saved] : List CtxState),
      ((inState st id).ctx 0 0).st = st ∧ ((inState st id).ctx 0 0).pre = none ∧ ((inState st id).ctx 0 0).saving = false ∧
      ((inState st id).ctx 0 0).restoring = false ∧ ((inState st id).ctx 0 0).preResume = false) ∧
    ((inState .saved id).core 0).fenced = false ∧
    ((inState .trapped id).updCore 0 (fun x => { x with fenced := true })).ctx 0 0 = (inState .trapped id).ctx 0 0 ∧
    (((inState .trapped id).updCore 0 (fun x => { x with fenced := true })).core 0).fenced = true ∧
    base.almanacOn 0 = none ∧ ((inState .saved id).core 0).savebase.toNat % 2 ^ 22 = 0 ∧ ((inState .saved id).die (coreDie 0)).log.length < 64 ∧
    ((inState .saved (fun c => { c with savedAt := some 0x10000000 })).ctx 0 0).savedAt = some ((inState .saved id).core 0).savebase := by
  decide +kernel
theorem witness_saving : let s := inState .preempted (fun c => { c with saving := true })
    (s.ctx 0 0).saving = true ∧ (s.core 0).fenced = false ∧ s.faulty = [] ∧ s.drained 0 0 = true ∧ SMap.wf 0 (s.ctx 0 0).g = true ∧
    ((inState .saved (fun c => { c with restoring := true })).ctx 0 0).restoring = true := by decide +kernel
/-- The area of a context that holds a few values lies within its 64 KiB. -/
theorem witness_area : ∀ b ∈ (inState .preempted (fun c => { c with saving := true })).ctxArea 0 0, b.1 < 0x10000 := by decide +kernel

/-- O41: a running context with results in flight; with one that has just landed, whose register held 5, and with a bank that left ON as it
landed, with 7 in v17. -/
def landed : State := on (fun c => { c with
  inflight := [{ id := 0, due := 5000, file := .g, reg := 5, width := 64, value := some 1, old := some 5 }], bank1 := { st := .off, left := some [(17, 7)] } })
theorem witness_trap : (0x14 : Nat) < 256 ∧ (∀ r ∈ ((flying 2).ctx 0 0).inflight, r.old = none) ∧ ((flying 2).core 0).running = some 0 ∧
    ((flying 2).ctx 0 0).point = .inside 64 0 0 32 ∧
    (∀ k ∈ [1, 2, 3], ((flying 2).ctx 0 0).bankOf k = {}) ∧ ((landed.ctx 0 0).bankOf 1).left = some [(17, 7)] ∧
    SMap.wf 0 ([(17, 7)] : SMap Vec) = true ∧ (∀ e ∈ ([(17, 7)] : SMap Vec), inBank 1 e.1 = true) ∧
    ((landed.ctx 0 0).bankOf 2).left = none ∧ ((landed.ctx 0 0).bankOf 3).left = none ∧
    let x := (landed.takeTrap 0 0 0x14 0 0).ctx 0 0
    SMap.get 0 x.g 5 = 5 ∧ SMap.get 0 x.v 17 = 7 ∧ x.bank1.st = .on := by decide +kernel

/-- O42: a free and a valid frame, a page that may be placed in the directory and one that may not, a context trapped at an entry of
a page that its world's table holds, and waits that began 65,536 frames ago. -/
theorem witness_pages : (SMap.get {} ((paged id).core 0).dir 1).v = false ∧ (SMap.get {} ((paged id).core 0).dir 0).v = true ∧
    ((base.updCore 0 (fun x => { x with istore := (0, 0x4D464350) :: page64, ctxs := [] })).core 0).dirOk 0 (2 ^ 40 + 2 ^ 41 + 64) = true ∧
    ((paged id).core 0).dirOk 0 (2 ^ 40 + 2 ^ 41 + 64) = false ∧ ((paged id).die (coreDie 0)).log.length < 64 := by decide +kernel
def imageCells : List Host.Cell := ((0, 0x4D464350) :: page64).flatMap (fun e => cellsAt (0x200000 + 4 * e.1) 4 e.2.toNat)
def trappedAt (sealed : Bool) : State :=
  { (on (fun c => { c with st := .trapped, xcause := 0x11, point := .entry 64 0 1 })).writeCells imageCells with
    worlds := [(1, { st := .ready, cpt := [{ page := 64, tag := 0x120647FF, addr := 0x200000, len := 2, loaded := true, sealed := sealed }] })] }
theorem witness_entry_trap : ((trappedAt false).ctx 0 0).st = .trapped ∧ ((trappedAt false).ctx 0 0).xcause = 0x11 ∧
    ((trappedAt false).ctx 0 0).point = .entry 64 0 1 ∧ (trappedAt false).tag 0 = 0x120647FF ∧ ((trappedAt false).core 0).dir = [] ∧
    ((trappedAt true).world 1).cpt.any (fun y => decide (y.page = 64 ∧ y.sealed = true)) = true ∧
    ((trappedAt false).frond ((trappedAt false).ctx 0 0).frond).bound = true ∧ ((trappedAt false).frond 0).ended = false ∧
    ((trappedAt false).frond 0).abort = none ∧ ((trappedAt false).frond 0).kind ≠ .almanac ∧ 1 + (((trappedAt false).image { page := 64, tag := 0x120647FF, addr := 0x200000, len := 2, loaded := true, sealed := false }).getD 2 0).toNat / 256 % 4 ≤
      ((List.range 64).filter (fun f => !(SMap.get {} ((trappedAt false).core 0).dir f).v)).length := by decide +kernel
theorem witness_timeouts : ∀ w ∈ ([.barrier 0, .cwait 0 1, .wfe, .sigWait] : List Wait),
    let s : State := { on (fun c => { c with st := .blocked, wait := [w] }) with gtick := 65540 }
    (s.ctx 0 0).st = .blocked ∧ 65536 ≤ s.gtick.toNat - (s.ctx 0 0).since.toNat ∧ (s.ctx 0 0).wait = [w] := by decide +kernel

/-- A packet's bytes as a number: values at byte offsets. -/
def pbits (l : List (Nat × Nat)) : BitVec 512 := BitVec.ofNat 512 (l.foldl (fun a x => a + x.2 * 2 ^ (8 * x.1)) 0)
def pkt (st : PktSt) (l : List (Nat × Nat)) : Packet := { id := 9, world := 1, queue := 0, bits := pbits l, st := st }
/-- A world that is ready, with the window of `win` and a queue at its start with one packet in it. -/
def world1 : World :=
  { st := .ready, windows := [(0, win)], queues := [(0, { present := true, base := 0x10000000, head := 0, tail := 1 })] }
/-- `base` with worlds 0 and 1, and one packet. Memory holds a launch record of one item at 0x1000_0400 and an image's head at
0x1000_1000. -/
def serving (p : Packet) : State :=
  { (base.store 0x40F 1 1).store 0x1000 8 0x4C41464D |>.store 0x1008 8 1 with
    worlds := [(0, world1), (1, world1)], packets := [p], seqno := 20 }
/-- A read of the front end that brings bytes of which something holds. -/
def okWith (f : List Byte → Bool) : FeRead → Bool
  | .ok l _ => f l
  | _ => false
theorem okWith_spec {f : List Byte → Bool} {r : FeRead} (h : okWith f r = true) : ∃ l u, r = .ok l u ∧ f l = true := by
  cases r with
  | ok l u => exact ⟨l, u, rfl, h⟩
  | _ => exact absurd h (by simp [okWith])

/-- O43: a packet at HEAD that is right, one that breaks a rule, and one that its world may not issue or that the state refuses. -/
theorem witness_consume : ∃ l u, (serving (pkt .done [])).feRead 1 (((serving (pkt .done [])).queueAt 1 0).base.toNat + 64 * 0) 64 = .ok l u ∧
    (packetOk (BitVec.ofNat 512 (leNat l)) && decide (pkOpc (BitVec.ofNat 512 (leNat l)) = 0)) = true :=
  okWith_spec (by decide +kernel)
theorem witness_consume_state : let s := serving (pkt .done [])
    (s.queueAt 1 0).present = true ∧ (s.queueAt 1 0).error = false ∧ (s.queueAt 1 0).head ≠ (s.queueAt 1 0).tail ∧ s.consumes 1 0 = true ∧
    s.judge 1 (pbits []) = none ∧ packetOk (pbits [(1, 9)]) = false ∧ packetOk (pbits [(0, 7), (25, 0x12), (26, 1)]) = true ∧
    s.privOk 1 (pbits [(0, 7), (25, 0x12), (26, 1)]) = false ∧
    ({ s with hub := { hub0 with ifs := .config } } : State).privOk 1 (pbits []) = true ∧
    ({ s with hub := { hub0 with ifs := .config } } : State).stateOk 1 (pbits []) = false := by decide +kernel
/-- A queue whose packets stand at its start: a PRED with a NOP in its first arm, and without it; and a KEY. -/
def ring (b : BitVec 512) (tail : BitVec 32) : State := { (serving (pkt .done [])).writeCells (cellsAt 0 64 b.toNat) with
  worlds := [(0, world1), (1, { world1 with queues := [(0, { present := true, base := 0x10000000, head := 0, tail := tail, log2n := 4 })] })] }
def pred9 : BitVec 512 := pbits [(0, 3), (24, 0x10001008), (49, 1)]
def key9 : BitVec 512 := pbits [(0, 9), (24, 1), (32, 77)]
def predReads (s : State) : Bool :=
  match s.feRead 1 0x10000000 64 with
  | .ok l u => decide (BitVec.ofNat 512 (leNat l) = pred9) && okWith (fun m => decide (BitVec.ofNat 512 (leNat m) = 0)) (u.feRead 1 0x10000040 64)
  | _ => false
theorem witness_pred : packetOk pred9 = true ∧ pkOpc pred9 = 3 ∧ pkField pred9 49 1 + pkField pred9 50 1 = 1 ∧ pkOpc 0 ≠ 9 ∧
    predReads (ring pred9 2) = true ∧ (∀ n ∈ ([1, 2] : List Nat), let s := ring pred9 (BitVec.ofNat 32 n)
      (s.queueAt 1 0).present = true ∧ (s.queueAt 1 0).error = false ∧ (s.queueAt 1 0).head ≠ (s.queueAt 1 0).tail ∧ s.consumes 1 0 = true) ∧
    (((ring pred9 1).queueAt 1 0).tail - ((ring pred9 1).queueAt 1 0).head).toNat < 1 + 1 := by
  refine ⟨?_, ?_, ?_, ?_, ?_, ?_, ?_⟩ <;> decide +kernel
def keyWrites (s : State) : Bool :=
  match s.feRead 1 0x10000000 64 with
  | .ok l u => decide (BitVec.ofNat 512 (leNat l) = key9) && (u.feWrite 1 0 (cellsAt 0 64 0)).isSome
  | _ => false
theorem witness_key : pkOpc key9 = 9 ∧ packetOk key9 = true ∧ keyWrites (ring key9 1) = true ∧
    (ring key9 1).feAddr 1 0x10000000 64 .rd = some 0 ∧ (ring key9 1).consumes 1 0 = true ∧
    ∀ j < 64, match region (0 + j) with | .spad _ _ => False | _ => True := by
  refine ⟨by decide +kernel, by decide +kernel, by decide +kernel, by decide +kernel, by decide +kernel, fun j hj => ?_⟩
  have h : ∀ j < 64, (match region (0 + j) with | .spad _ _ => false | _ => true) = true := by decide +kernel
  have := h j hj
  split at this <;> simp_all
/-- A COPY that combines, with the permission that it asks for; no entry is FREE. -/
theorem witness_copy_combines : let p := pkt .running [(0, 6), (24, 0x10001000), (32, 0x10002000), (40, 64), (48, 2)]
    (serving p).packet 9 = some p ∧ p.bits.toNat / 2 ^ (8 * 48) % 2 ^ 8 = 2 ∧ (serving p).feAddr 1 0x10002000 64 .atm = some 0x2000 ∧
    (serving p).feAddr 1 0x20002000 64 .atm = none ∧ p.progress < 64 := by decide +kernel
theorem witness_no_entry : let s := { serving (pkt .done []) with hub := { hub0 with slots := (List.range 256).map (fun i => (i, { st := .pending })) } }
    s.freeSlot = none := by decide +kernel
/-- A CFGRD of two registers. -/
theorem witness_cfgrd : let p := pkt .running [(0, 0x0C), (24, 2), (28, 0x08000288), (32, 0x08000280), (40, 0x10001838)]
    (serving p).packet 9 = some p ∧ (∀ i < 2, ∃ c, cfgReg (p.bits.toNat / 2 ^ (8 * (28 + 4 * i)) % 2 ^ (8 * 4)) = .savebase c) ∧
    (serving p).feAddr 1 0x10001838 (8 * 2) .wr = some 0x1838 := by
  refine ⟨by decide +kernel, fun i hi => ?_, by decide +kernel⟩
  interval_cases i
  · exact ⟨1, by decide +kernel⟩
  · exact ⟨0, by decide +kernel⟩
theorem witness_packet_states : ∀ p ∈ ([pkt .waiting [], { pkt .waiting [] with acted := true }, { pkt .waiting [(0, 1)] with acted := true },
      { pkt .waiting [] with doomed := true, edges := [4] }, pkt .done [(16, 0x10001800)],
      pkt .stat []] : List Packet), (serving p).packet 9 = some p ∧ (p.st = .waiting → (serving p).mayStart p = true) ∧ p.arm = false ∧
      p.force = false ∧ p.status = 0 ∧ p.waiting = 0 ∧ p.err = false ∧ p.entry = none ∧
      (serving p).feAddr 1 0x10001800 8 .wr = some 0x1800 := by decide +kernel
/-- The packets that act as they are consumed. -/
theorem witness_fresh : ∀ n ∈ [0x100, 0x200, 0xA01, 0xA02, 0xB01, 0xD04, 0xF03],
    let p := pkt .fresh [(0, n / 256), (24, n % 256), (25, 1), (28, 0x08000288)]
    (serving p).packet 9 = some p ∧ p.st = .fresh ∧ pkOpc p.bits = n / 256 ∧ p.bits.toNat / 2 ^ (8 * 24) % 2 ^ 8 = n % 256 := by decide +kernel
theorem witness_running : ∀ n ∈ [0, 3, 4, 5, 6, 7, 8, 9, 10, 11, 12, 13, 14, 15],
    let p := pkt .running [(0, n)]
    (serving p).packet 9 = some p ∧ p.st = .running ∧ pkOpc p.bits = n ∧ p.acted = false := by decide +kernel
theorem witness_launch : (∃ l u, (serving (pkt .fresh [(0, 1), (24, 0x10000400), (40, 1)])).feRead 1 0x10000400 384 = .ok l u ∧ launchOk l 0 1 true = true) ∧
    (∃ l u, (serving (pkt .fresh [(0, 1), (24, 0x10000400)])).feRead 1 0x10000400 384 = .ok l u ∧ (!launchOk l 0 0 true) = true) :=
  ⟨okWith_spec (by decide +kernel), okWith_spec (by decide +kernel)⟩
theorem witness_launch_state : (serving (pkt .fresh [(0, 1), (24, 0x10000400), (40, 1)])).freeSlot = some 0 ∧
    pkOpc (pkt .fresh [(0, 1), (24, 0x10000400), (40, 1)]).bits = 1 ∧ pkOpc (pkt .fresh [(0, 2), (32, 1)]).bits = 2 ∧
    ¬ 4 + 16 < (serving (pkt .fresh [])).gtick.toNat + 5 ∧ 1 < (serving (pkt .fresh [])).gtick.toNat + 5 := by decide +kernel
/-- Bytes that are no image. -/
theorem witness_bad_image : ∃ l u, (serving (pkt .fresh [(0, 2), (24, 0x10002000)])).feRead 1 0x10002000 320 = .ok l u ∧ (!imageOk l) = true :=
  okWith_spec (by decide +kernel)
/-- Both reads of an almanac's image. -/
def imageReads (s : State) : Bool :=
  match s.feRead 1 0x10001000 320 with
  | .ok l u => imageOk l && okWith (fun _ => true) (u.feRead 1 0x10001000 (320 + 16 * recNat l 8 2))
  | _ => false
theorem witness_almanac : ∃ l u m v, (serving (pkt .fresh [(0, 2), (24, 0x10001000)])).feRead 1 0x10001000 320 = .ok l u ∧ imageOk l = true ∧
    u.feRead 1 0x10001000 (320 + 16 * recNat l 8 2) = .ok m v := by
  have h : imageReads (serving (pkt .fresh [(0, 2), (24, 0x10001000)])) = true := by decide +kernel
  unfold imageReads at h
  split at h
  · next l u e =>
    obtain ⟨h1, h2⟩ := Bool.and_eq_true_iff.mp h
    obtain ⟨m, v, h3, -⟩ := okWith_spec h2
    exact ⟨l, u, m, v, e, h1, h3⟩
  · cases h
/-- A word that is 1 in memory, for PRED, SIGWAIT and COPY. -/
theorem witness_word : ∃ l u, (serving (pkt .running [(0, 5), (24, 0x10001008)])).feRead 1 0x10001008 8 = .ok l u ∧ decide (leNat l = 1) = true :=
  okWith_spec (by decide +kernel)
theorem witness_copy_line : ∃ l u, (serving (pkt .running [(0, 6), (24, 0x10001000), (32, 0x10002000), (40, 64)])).feRead 1 0x10001000 64 = .ok l u ∧
    decide (l.length = 64) = true := okWith_spec (by decide +kernel)
theorem witness_packet_addresses : let s := serving (pkt .running [])
    s.feAddr 1 0x10001008 8 .atm = some 0x1008 ∧ s.feAddr 1 0 8 .atm = none ∧ s.feAddr 1 0x10002000 64 .wr = some 0x2000 ∧ s.faulty = [] ∧
    (∀ y ∈ s.packets, y.id < s.seqno ∧ (y.id = 9 → y = pkt .running [])) ∧ s.packets.Nodup := by decide +kernel
theorem witness_sigwait : let p : Packet := { pkt .running [(0, 5), (24, 0x10001008)] with acted := true, until_ := some 4 }
    (serving p).packet 9 = some p ∧ 4 ≤ (serving p).gtick.toNat ∧ pkOpc p.bits = 5 := by decide +kernel

/-- O44: `serving` with its hub and its worlds changed. -/
def hubbed (l : List (Nat × Nat)) (f : Hub → Hub) (g : World → World) : State :=
  { serving (pkt .running l) with hub := f hub0, worlds := [(0, world1), (1, g world1)] }
theorem witness_partition : (∀ x ∈ (hubbed [] id id).worlds, x.2.st ≠ .loading) ∧ (hubbed [] id id).hub.role = none ∧
    (hubbed [] id id).partitionRefused { packet := 9, mask := 0, profile := 0x12, parts := [0, 0, 0, 0], deadline := 0, accepted := 4 } = none ∧
    (hubbed [] id id).partitionRefused { packet := 9, mask := 1, profile := 0x16, parts := [4, 0, 0, 0], deadline := 0, accepted := 4 } = some 2 ∧
    (hubbed [] (fun h => { h with partitions := [(0, 4), (1, 4), (2, 4), (3, 4)] }) id).partitionRefused
      { packet := 9, mask := 1, profile := 0x16, parts := [4, 0, 0, 0], deadline := 0, accepted := 4 } = some 3 ∧
    (hubbed [] id id).partitionRefused { packet := 9, mask := 0, profile := 0x13, parts := [0, 0, 0, 0], deadline := 0, accepted := 4 } = some 2 := by
  decide +kernel
theorem witness_hub_states : (hubbed [] id id).hub.ckpt = none ∧ (hubbed [] id id).hub.domain.phase = .idle ∧ (hubbed [] id id).hub.domain.formed = false ∧
    (hubbed [] (fun h => { h with ckpt := some { packet := 8, budget := 0, began := 0 } }) id).hub.ckpt ≠ none ∧
    ((hubbed [] id id).world 1).loadkey = none ∧ ((hubbed [] id (fun w => { w with loadkey := some 5 })).world 1).loadkey ≠ none ∧
    (hubbed [] (fun h => { h with domain := domain2 }) id).hub.domain.formed = true ∧
    (∀ k < 4, (hubbed [] id id).part k ≠ 0) ∧ (hubbed [] (fun h => { h with ifs := .config }) id).partitioning = false ∧ (hubbed [] (fun h => { h with ifs := .config }) id).hub.ifs = .config ∧
    (hubbed [] (fun h => { h with ifs := .locked }) id).hub.ifs = .locked ∧ (hubbed [] id id).hub.ifs = .run := by decide +kernel
theorem witness_sub_opcodes : ∀ n ∈ [0x901, 0x902, 0x903, 0x904, 0xA03, 0xD01, 0xD02, 0xF01, 0xF02],
    let p := pkt .running [(0, n / 256), (24, n % 256), (25, 1)]
    p.st = .running ∧ pkOpc p.bits = n / 256 ∧ p.acted = false ∧ p.bits.toNat / 2 ^ (8 * 24) % 2 ^ 8 = n % 256 := by decide +kernel
/-- A policy that is read, where its length is 64 bytes, and a DOMFORM that has asked its members. -/
theorem witness_policy (h : ∀ l, Config.policyLength l = 64) : ∃ l u, (hubbed [(0, 9), (24, 3), (32, 0x10001000)] id id).readPolicy 1 0x10001000 = .ok l u := by
  obtain ⟨l, u, e, r⟩ := okWith_spec (f := fun _ => true) (r := (hubbed [(0, 9), (24, 3), (32, 0x10001000)] id id).feRead 1 0x10001000 64) (by decide +kernel)
  have k : okWith (fun _ => true) (match (hubbed [(0, 9), (24, 3), (32, 0x10001000)] id id).feRead 1 0x10001000 64 with
    | .ok _ t => t.feRead 1 0x10001000 64 | r => r) = true := by decide +kernel
  rw [e] at k
  obtain ⟨m, v, e', -⟩ := okWith_spec k
  exact ⟨m, v, by rw [State.readPolicy, e]; simpa [h] using e'⟩
theorem witness_asked : let p : Packet := { pkt .running [(0, 9), (24, 3)] with acted := true }
    (serving p).packet 9 = some p ∧ pkOpc p.bits = 9 ∧ p.bits.toNat / 2 ^ (8 * 24) % 2 ^ 8 = 3 ∧ (serving p).hub.domain.formed = false := by decide +kernel
/-- A queue with a packet that waits behind the one that destroys it. -/
theorem witness_destroy : let p := pkt .fresh [(0, 0x0F), (24, 3), (25, 0)]
    let r : Packet := { pkt .waiting [] with id := 10 }
    let s : State := { serving p with packets := [p, r] }
    s.packet 9 = some p ∧ (s.queueAt 1 0).present = true ∧ r ∈ s.packets ∧ r.id ≠ 9 ∧ r.world = p.world ∧ r.queue = 0 ∧ r.st = .waiting := by decide +kernel
theorem witness_registers_named : cfgReg 0x08000288 = .savebase 1 ∧ cfgReg 0x08000001 = .unmapped ∧ cfgReg 0x280002F8 = .unmapped ∧
    (hubbed [] id id).feAddr 1 0x10001800 8 .wr = some 0x1800 := by decide +kernel
theorem witness_world_states : ((hubbed [] id (fun _ => {})).world 1).st = .empty ∧ ((hubbed [] id id).world 1).st ≠ .empty ∧
    ((hubbed [] id id).world 1).st = .ready ∧ ((hubbed [] id (fun w => { w with st := .loading })).world 1).st = .loading ∧
    ((hubbed [] id (fun w => { w with st := .loading })).world 1).step < 8 ∧
    (let s : State := { base with worlds := [(3, { world1 with st := .draining })] }
     (s.world 3).st = .draining ∧ s.worldIdle 3 = true) := by decide +kernel
/-- A map that names core 1, which is free, and one that names core 0, which is granted. -/
theorem witness_grant : (∃ l u, ((hubbed [] id id).updCore 1 (fun x => x)).feRead 0 0x10001008 64 = .ok l u ∧ decide (leNat l = 1) = true) ∧
    ((hubbed [] id id).core 0).granted = true ∧
    (∀ c < 512, (2 : Nat).testBit c = true → (hubbed [] id id).computes (8 + c / 16) = true ∧ ((hubbed [] id id).core c).fenced = false ∧
      ((hubbed [] id id).core c).granted = false) := ⟨okWith_spec (by decide +kernel), by decide +kernel, by decide +kernel⟩
theorem witness_grant_map : ∃ l u, ((hubbed [] id id).store 0x3000 8 2).feRead 0 0x10003000 64 = .ok l u ∧ decide (leNat l = 2) = true :=
  okWith_spec (by decide +kernel)
theorem witness_measure : ∃ l u, (hubbed [(0, 14), (24, 0x10001000), (32, 16)] id id).feRead 1 0x10001000 48 = .ok l u ∧ decide (l.length = 48) = true :=
  okWith_spec (by decide +kernel)
theorem witness_queues : ((hubbed [] id id).queueAt 1 0).present = true ∧ ((hubbed [] id id).queueAt 1 1).present = false := by decide +kernel

/-- O45: a lease that is free and one that is held, and entries of each kind. The record of entry 0 names core 0, context 1 and an empty
table at address 0; that of entry 1 names no core. -/
def entry0 : Entry := { st := .pending, kind := .launch, world := 1, wcnt := 1, launch := { entry := 0x40000000 },
                        bind := [(0, 0x0001000000010101), (1, 2), (7, 1)] }
def leased (f : Frond) : State :=
  { base with fronds := [(1, f)]
              packets := [{ pkt .running [(0, 1)] with entry := some 0 }, { pkt .running [(0, 1)] with id := 10, entry := some 1 },
                { pkt .running [(0, 2)] with id := 11, entry := some 2 }]
              hub := { hub0 with holder := 5, epoch := 1, slots := [(0, entry0), (1, { entry0 with bind := [(7, 1)] }),
                (2, { st := .pending, kind := .almanac, world := 1, start := 8, bind := [(7, 1)] })] } }
theorem witness_lease : base.hub.holder = 0xFF ∧ (leased {}).hub.holder = 5 ∧ (leased {}).hub.epoch = 1 ∧ ((leased {}).die 0).log.length < 64 ∧
    ((leased {}).slot 0).st = .pending ∧ ((leased {}).slot 3).st ≠ .pending := by decide +kernel
/-- Die 3 claims in the microsecond of the grant to die 5, which it goes before; die 9, which the manifest does not list, does not. -/
theorem witness_claims : let s : State := { leased {} with hub := { (leased {}).hub with
      claims := [(5, 5000)], manifest := { (leased {}).hub.manifest with followers := [3, 5] } } }
    s.hub.holder = 5 ∧ s.outranks 3 = true ∧ s.outranks 9 = false ∧ { s with now := s.now + s.microsecond }.outranks 3 = false ∧ s.hub.epoch = 1 := by
  decide +kernel
theorem witness_late : ((leased {}).slot 2).kind = .almanac ∧ ((leased {}).slot 2).st = .pending ∧ (((leased {}).slot 2).start.toNat - 4) * 1024 < (leased {}).now ∧
    (((leased {}).slot 2).word 7).toNat = 1 ∧ (leased {}).entryStarted 2 = true ∧ ((leased {}).slot 0).kind ≠ .almanac := by decide +kernel
theorem witness_commit : (0x100000001 : Word).getLsbD 0 = true ∧ (0x100000001 : Word).toNat / 2 % 2 ^ 31 = 0 ∧
    (0x100000001 : Word).toNat / 2 ^ 32 = (leased {}).hub.epoch ∧ (((leased {}).slot 0).word 7).toNat = 1 ∧ (((leased {}).slot 1).word 7).toNat = 1 ∧
    (leased {}).entryStarted 0 = true ∧ (leased {}).entryStarted 1 = true ∧ (leased {}).hub.role = none ∧ (leased {}).hub.ckpt = none ∧
    (1 : Word).toNat / 2 ^ 32 ≠ (leased {}).hub.epoch := by decide +kernel
/-- What a check of a record answers. -/
def checked (r : Except Nat (List Nat × SMap Window)) : Option Nat × List Nat :=
  match r with
  | .error a => (some a, [])
  | .ok (l, t) => (none, l ++ t.map Prod.fst)
theorem witness_records : checked ((leased {}).checkRecord ((leased {}).slot 0)) = (none, [0]) ∧
    checked ((leased {}).checkRecord ((leased {}).slot 1)) = (some 1, []) ∧ ((leased {}).slot 0).kind = .launch := by decide +kernel
theorem witness_almanac_entry : ((leased {}).slot 2).st = .pending ∧ ((leased {}).slot 2).kind = .almanac ∧
    (((leased {}).slot 2).start.toNat - 4) * 1024 < (leased {}).now := by decide +kernel
/-- Fronds that start, at a tick; an almanac past its limit; a launch with one item and a free context; a frond that has ended. -/
theorem witness_fronds : (let f : Frond := { bound := true, kind := .almanac, start := 4, limit := some 4, cores := [0] }
      ((leased f).frond 1).bound = true ∧ ((leased f).frond 1).started = false ∧ ((leased f).frond 1).start * 1024 ≤ (leased f).now ∧
      ((leased f).frond 1).ended = false ∧ ((leased f).frond 1).abort = none ∧ (∃ d ∈ ((leased f).frond 1).cores, d ∉ ((leased f).frond 1).halted) ∧
      4 * 1024 ≤ (leased f).now) ∧
    ({ leased { bound := true, start := 5, cores := [0] } with now := 5120 } : State).startDue 1 = true := by decide +kernel
theorem witness_item : let s : State := { leased { bound := true, started := true, entry := 0, cores := [0], ctxm := 2, pending := [(7, 1)] } with now := 5120 }
    s.itemDue 1 = true ∧ (s.frond 1).rlev = 0 ∧ (s.frond 1).pending = [(7, 1)] ∧ (s.freeCtxs 1).head? = some (0, 1) := by decide +kernel
theorem witness_frond_end : let s : State := { leased { bound := true, started := true, ended := true } with now := 5120 }
    (s.frond 1).bound = true ∧ (s.frond 1).ended = true ∧ (s.frond 1).endedAt < s.now ∧ s.now % 1024 = 0 := by decide +kernel
/-- An aborted frond that has still to complete. -/
theorem witness_frond_aborted : let s : State := { leased { bound := true, started := true, abort := some (0x10, 5), endedAt := 5100 } with now := 5120 }
    (s.frond 1).bound = true ∧ (s.frond 1).ended = false ∧ (s.frond 1).abort.isSome = true ∧ (s.frond 1).endedAt < s.now ∧ s.now % 1024 = 0 := by
  decide +kernel
theorem witness_armed : let s := (on (fun c => { c with st := .ready })).updCore 0 (fun x => { x with armedAt := some 5000 })
    (s.core 0).armedAt = some 5000 ∧ (s.ctx 0 0).record = [] := by decide +kernel

/-- O46: a key and a signature of hers over the body 00: the number of its digest is the first coordinate of a point of the curve, and
the key is that point less the base point, so that r = s makes both factors 1. -/
def yKey : List Byte :=
  4 :: (beBytes 48 0x30E3528FE7DB8EF938777151BB05417B78A8F861F8D8574EE605AF629C30DD6CD2875190571A43DD87D63C63252D0A1C ++
    beBytes 48 0x67062EA015A106048E311D0569F2D43E351E482DBC06774C069EBFF851C95519FF3A56984F3D5EA79F8D6E31A781F3AA)
def ySig : List Byte :=
  let r := beBytes 48 0x32070332503075DE81D7709471CDEE916EA438B3E4B28B9B3FF71874916210BD89F9357BD5B4A2862C8F77BF1F9CB1B2
  r ++ r
theorem body_digest : sha384 [0#8] = 0x1717A108C2A91768966534412BEC33596536663DE1860D5F4EE206D2BDA9D3837030B4C212E0349106E368F3B421C0BE#384 := by
  decide +kernel
theorem body_verified : ecdsaVerify yKey (sha384 [0#8]) ySig = true := by rw [body_digest]; decide +kernel
/-- Flash with nothing in it; flash with one image for every stage, its manifest and its certificate. -/
def bareFlash : Flash :=
  { slotA := [], slotB := [], manifest := hub0.manifest, cert := [], certKey := [], lpddr := 0, expanders := [], probes := [] }
def bootStages : List Nat := 0 :: (stage2Images ++ mgmtDies.map mgmtStage)
/-- An image for a stage; the bodies differ, and `sign` gives each its signature. -/
def signed (sign : List Byte → List Byte) (k : Nat) : Image :=
  { stage := k, version := 0, key := yKey, sig := sign (List.replicate (k + 1) 0#8), body := List.replicate (k + 1) 0#8 }
def fullFlash (sign : List Byte → List Byte) : Flash := { bareFlash with
  slotA := bootStages.map (signed sign), manifest := { bareFlash.manifest with version := 0, key := yKey, sig := ySig, body := [0#8] } }
theorem witness_boot_none : State.reset.hub.ifs = .reset ∧ loadImage State.reset.hub.floor bareFlash 0 = none := by decide +kernel
/-- Where the opaque digest of Yelrath's key is this key's, the opaque form of the manifest gives this body, and a signed header names its stage and
version 0: all is accepted, given her signatures of the 42 bodies (the first stands above; to compute all would take half an hour). Or the
manifest is not, since its key names no point, or a stage is missing. -/
theorem witness_boot (sign : List Byte → List Byte) (hs : ∀ b, ecdsaVerify yKey (sha384 b) (sign b) = true)
    (hk : sha384 yKey = Config.yelrathKeyDigest) (hb : ∀ m, Config.manifestBody m = [0#8])
    (hh : ∀ k, Config.imageHead (List.replicate (k + 1) 0#8) = (k, 0)) :
    manifestOk 0 (fullFlash sign).manifest = true ∧ (∀ k ∈ bootStages, loadImage 0 (fullFlash sign) k ≠ none) ∧
    loadImage 0 { fullFlash sign with slotA := [signed sign 0] } 0 ≠ none ∧
    loadImage 0 { fullFlash sign with slotA := [signed sign 0] } 1 = none := by
  have a (k : Nat) : acceptable 0 k (signed sign k) = true := by simp [acceptable, signed, hs, hk, hh]
  refine ⟨by simp [manifestOk, fullFlash, hb, body_verified, hk], fun k hm => ?_, ?_, ?_⟩
  · have : ((fullFlash sign).slotA.find? (acceptable 0 k)).isSome = true := by
      rw [List.find?_isSome]; exact ⟨signed sign k, List.mem_map_of_mem hm, a k⟩
    obtain ⟨i, hi⟩ := Option.isSome_iff_exists.mp this
    simp [loadImage, hi]
  · simp [loadImage, List.find?, a]
  · have n : acceptable 0 1 (signed sign 0) = false := by simp [acceptable, signed]
    simp [loadImage, List.find?, n, fullFlash, bareFlash]
/-- The image of stage 1 with the signature that stands above. -/
theorem witness_boot_first (hk : sha384 yKey = Config.yelrathKeyDigest) (hh : Config.imageHead [0#8] = (0, 0)) :
    loadImage 0 { bareFlash with slotA := [signed (fun _ => ySig) 0] } 0 ≠ none := by
  simp [loadImage, List.find?, acceptable, signed, body_verified, hk, hh]
theorem witness_boot_refused : manifestOk 0 { (fullFlash id).manifest with key := [] } = false := by
  simp [manifestOk, ecdsaVerify, keyPoint]
/-- The certificate's key is the device's, and flash's, or is not. -/
theorem witness_identity (key : BitVec 384) (hc : Config.certifiedKey [] = publicKey key) :
    (let f := { fullFlash id with certKey := publicKey key }; publicKey key = f.certKey ∧ Config.certifiedKey f.cert = f.certKey) ∧
    publicKey key ≠ (fullFlash id).certKey := by
  refine ⟨⟨rfl, hc⟩, ?_⟩
  rw [publicKey]; split <;> simp [fullFlash, bareFlash]
/-- All links calibrate well, one of H's does not, or one of a layer does not. -/
def probed (bad : Nat × Nat) : Flash :=
  { fullFlash id with probes := endpoints.map (fun y => { die := y.1, e := y.2, raw := 50, marg := if y = bad then 0 else 1, late := false }) }
theorem witness_calibration : (∀ y ∈ endpoints, (State.reset.booted (probed (40, 0)) y.1 y.2).ok = true) ∧
    (State.reset.booted (probed (0, 3)) 0 3).ok = false ∧ (0, 3) ∈ endpoints ∧ (8, 0) ∈ endpoints ∧
    (State.reset.booted (probed (8, 0)) 8 0).ok = false ∧ ∀ y ∈ endpoints, y.1 = 0 → (State.reset.booted (probed (8, 0)) y.1 y.2).ok = true := by
  decide +kernel
theorem witness_stage2 : let s : State := { State.reset with now := 1024, hub := { State.reset.hub with ifs := .boot, booting := true } }
    s.hub.ifs = .boot ∧ s.hub.booting = true ∧ s.now % frameCycles = 0 ∧ s.now ≠ 0 := by decide +kernel
/-- A role change of column 0 from six compute layers to four, at each step, with die 10 in each state. -/
def change (step : Nat) : RoleChange :=
  { packet := 9, mask := 1, profile := 0x12, parts := [4, 0, 0, 0], deadline := 2, accepted := 1, step := step }
def changing (step : Nat) (st : LayerSt) : State :=
  { base with dies := [(10, { st := st, prior := .compute })], hub := { hub0 with role := some (change step) }, packets := [pkt .running [(0, 7)]] }
theorem witness_role : (∀ st ∈ ([.draining, .flushing, .zeroing, .enumerating] : List LayerSt),
      ((changing 1 st).die 10).st = st ∧ (changing 1 st).leaves (change 1) 10 = true ∧ (changing 1 st).flushed 10 = true) ∧
    ((changing 1 .draining).updCore 0 (fun x => { x with ctxs := [] })).roleDrained (change 1) = true ∧
    (change 1).accepted + (change 1).deadline ≤ (changing 1 .draining).gtick.toNat ∧ (changing 6 .enumerating).hub.role = some (change 6) ∧
    (∀ p ∈ (changing 1 .draining).packets, p.id = 9 ∧ p.entry = none) ∧
    (changing 3 .zeroing).hub.role = some (change 3) ∧ (changing 3 .zeroing).leaves (change 3) 10 = true ∧
    (let r : RoleChange := { change 4 with parts := [6, 0, 0, 0] }
     let s : State := { base with dies := [(12, { st := .enumerating })], hub := { hub0 with partitions := [(0, 4)], role := some r } }
     (s.die 12).st = .enumerating ∧ roleAt (r.newPart s.part ((12 - 8) / 8)) ((12 - 8) % 8) = some .compute) := by decide +kernel
theorem witness_interface : base.hub.ifs ≠ .reset ∧
    (let s := hubbed [] (fun h => { h with ifs := .locked, lockTick := some 4 }) id
     s.hub.ifs = .locked ∧ s.hub.lockTick = some s.gtick) ∧
    (let s := hubbed [] (fun h => { h with ifs := .drain }) (fun _ => {})
     s.hub.ifs = .drain ∧ ∀ w ∈ s.worlds, w.1 ≠ 0 → w.2.st = .empty) := by decide +kernel
theorem witness_errors : (∀ e ∈ base.fronds, e.2 = base.frond e.1 ∧ e.2.bound = true ∧ e.2.ended = false ∧ e.2.abort = none ∧ e.2.started = true ∧
      0 ∈ e.2.cores ∧ e.2.freezeEnd ≤ base.now ∧ ∀ e' ∈ base.fronds, e'.1 = e.1 → e' = e) ∧ base.fronds.Nodup ∧ base.fronds ≠ [] ∧
    (base.die (coreDie 0)).log.length < 64 ∧ (serving (pkt .running [])).packet 9 = some (pkt .running []) := by decide +kernel
/-- A read that a context and a packet need. -/
theorem witness_requester : Requester.ctx 0 0 0 = .ctx 0 0 0 ∧ (base.frond 0).bound = true ∧ (base.frond 0).freezeEnd ≤ base.now ∧
    (serving (pkt .running [])).packet 9 = some (pkt .running []) ∧ (pkt .running []).status = 0 ∧ ((base.die 8).log.length < 64) := by decide +kernel
theorem witness_release : let s := base.updCore 17 (fun x => { x with fenced := true })
    (s.core (16 * (9 - 8) + 1)).fenced = true ∧ (s.die 9).lost = 0 ∧ (∀ e ∈ (s.die 9).log, e.srccore ≠ 17) ∧ (s.core 0).fenced = false := by
  decide +kernel

/-- O47: an endpoint of a link that carries the tick and one that does not, with its register open and closed. -/
theorem witness_links : hasEndpoint 8 0 = true ∧ hasEndpoint 0 3 = true ∧ hasEndpoint 1 1 = true ∧
    (hubbed [] (fun h => { h with ifs := .config }) id).skewOpen = true ∧ base.skewOpen = false ∧ base.hub.profile ≠ 0x16 ∧
    (64 : Word).toNat % 64 = 0 ∧
    (({ base with dies := [(8, { st := .compute, eps := [(0, { dly := 4, busy := true })] })] } : State).die 8).ep 0 = { dly := 4, busy := true } ∧
    (({ base with dies := [(0, { eps := [(3, { busy := true })] })] } : State).die 0).ep 3 = { busy := true } ∧
    (60 : BitVec 8).toNat + 4 = 64 ∧ 1 ≤ (1 : BitVec 8).toNat := by decide +kernel
theorem witness_flits : let x := access9 (.read [{ dst := bufAddr 0 .lb 0, src := 0xA000000000 }]) .none
    let s := posting x base
    s.access 9 = some x ∧ x.done = none ∧ x.act.writes = false ∧ s.migrations = [] ∧ base.timed 3 = none ∧
    (base.frond 0).bound = true ∧ (base.frond 0).ended = false ∧ (base.frond 0).abort = none ∧ (base.frond 0).freezeEnd ≤ base.now := by
  decide +kernel

theorem witness_ports : base.hub.ifs ≠ .reset ∧ base.hub.ifs ≠ .boot ∧ base.hub.ifs ≠ .fault ∧ 0 % 4 < 2 ^ ((SMap.get 0 base.hub.cfg (0x300 + 8 * (0 / 4))).toNat % 4) ∧
    2 ^ ((SMap.get 0 base.hub.cfg (0x300 + 8 * (1 / 4))).toNat % 4) ≤ 1 % 4 ∧ hasEndpoint 8 7 = false ∧
    (let s : State := { base with calendar := [{ id := 3, due := 5000, frond := 0, core := 0, act := .chunkLand [] }] }
     ∃ x, s.timed 3 = some x ∧ x.due ≤ s.now) := ⟨by decide +kernel, by decide +kernel, by decide +kernel, by decide +kernel, by decide +kernel, by decide +kernel, _, rfl, by decide +kernel⟩
/-- A load that reads the range of the first port of die 5. -/
theorem witness_cxl_down : let s : State := { base with hub := { hub0 with expanders := [(0, 0x10000000)] }, posted := [access9 (.read [{ dst := bufAddr 0 .lb 0, src := 0x40000000000 }]) .none] }
    s.cxlPort 0x40000000000 = some (2 * (5 - 5) + 0) ∧ s.migrations = [] ∧ ∀ x ∈ s.posted, x.done = none ∧ 0x40000000000 ∈ x.act.touches := by
  decide +kernel

/-- O48: a world that takes operations and one that is EMPTY, a machine in RESET, and runs for a peer. -/
theorem witness_outside : let s := serving (pkt .done [])
    s.hub.ifs = .run ∧ (s.world 1).st ≠ .empty ∧ translate (s.world 1).windows 0x10000008 8 .atm = some 8 ∧
    translate (s.world 1).windows 0x20000008 8 .atm = none ∧
    (s.world 2).st = .empty ∧ s.hub.ifs ≠ .reset ∧ State.reset.hub.ifs = .reset ∧ s.hub.bst < 256 ∧ s.hub.profile < 256 ∧ s.hub.qerr < 2 ^ 32 := by
  decide +kernel
/-- Two packets of two bytes across the end of a line, whose addresses translate, and an address past the window's end that does not. -/
theorem witness_parts : let s := serving (pkt .done [])
    let packets : List (List Byte) := [[1, 2], [3, 4]]
    packets.flatten ≠ [] ∧ packets.flatten.length ≤ 65536 ∧ (∀ p ∈ packets, p.length ≤ 4096) ∧ [62, 63, 64, 65].length = packets.flatten.length ∧
    (∀ i < packets.flatten.length, translate (s.world 1).windows (0x1000003E + i) 1 .wr = [62, 63, 64, 65][i]? ∧
      translate (s.world 1).windows (0x1000003E + i) 1 .rd = [62, 63, 64, 65][i]?) ∧
    lineOf 63 ≠ lineOf 64 ∧
    ∃ i < packets.flatten.length, translate (s.world 1).windows (0x101FFFFE + i) 1 .wr = none ∧
      translate (s.world 1).windows (0x101FFFFE + i) 1 .rd = none :=
  ⟨by decide, by decide, by decide, by decide, by decide +kernel, by decide, 2, by decide +kernel⟩
/-- Machines that do not serve, and payloads that are too long. -/
theorem witness_not_served : (∀ i ∈ ([.reset, .boot, .fault] : List Ifs), i ≠ .config ∧ i ≠ .locked ∧ i ≠ .run ∧ i ≠ .drain) ∧
    (∀ l : List Byte, l.length = 4097 → 4096 < l.length) ∧ 65536 < 65537 ∧ (0x10000008 : Word).toNat % 8 = 0 :=
  ⟨by decide, fun l h => by omega, by decide, by decide⟩
def inRuns (p : Peer) : State := { base with hub := { hub0 with domain := { domain2 with kgen := 3, peers := [(2, p)] } } }
/-- Flits open under the tag that is right for them. -/
theorem witness_opened (key : BitVec 256) (iv : BitVec 96) (aad flits : List Byte) : ∃ tag plain, gcmOpen key iv aad flits tag = some plain :=
  ⟨_, _, if_pos rfl⟩
def out7 : SentRun := { seq := 7, kgen := 3, flg := 0, flits := [], tag := 0, ops := [9] }
theorem witness_runs : (inRuns { present := true }).hub.domain.formed = true ∧
    (SMap.get {} (inRuns { present := true }).hub.domain.peers 2).present = true ∧ (4 : BitVec 32).toNat ≠ (inRuns {}).hub.domain.kgen ∧
    (3 : BitVec 32).toNat = (inRuns {}).hub.domain.kgen ∧ (List.replicate 64 (0 : Byte)).length = 64 * (1 : Byte).toNat ∧
    5 ∈ (SMap.get {} (inRuns { present := true, seen := [5] }).hub.domain.peers 2).seen ∧
    (SMap.get {} (inRuns { present := true }).hub.domain.peers 2).seen = [] ∧ 2 ≠ (inRuns {}).hub.domain.self ∧
    (let p := SMap.get {} (inRuns { present := true, queued := [.reply 1 1 true []] }).hub.domain.peers 2
     (inRuns { present := true, queued := [.reply 1 1 true []] }).mayClose 2 = true ∧ p.rekeyAsked = false ∧ p.sendSeq + 1 < 2 ^ 64) ∧
    (let p := SMap.get {} (inRuns { present := true, queued := [.reply 1 1 true []], rekeyAsked := true }).hub.domain.peers 2
     (inRuns { present := true, queued := [.reply 1 1 true []], rekeyAsked := true }).mayClose 2 = true ∧ p.rekeyAsked = true) ∧
    (inRuns {}).hub.domain.coordinator = (inRuns {}).hub.domain.self ∧ (inRuns {}).hub.domain.phase = .idle ∧
    { domain2 with coordinator := 2 }.coordinator ≠ { domain2 with coordinator := 2 }.self ∧
    (let p := SMap.get {} (inRuns { present := true, runs := [out7] }).hub.domain.peers 2
     out7 ∈ p.runs ∧ ∀ q' ∈ p.runs, q'.seq = out7.seq → q' = out7) := by decide +kernel
/-- A run whose one message answers a fabric operation. -/
theorem witness_answered (h : ∀ plain, Config.runMessages plain = [.reply 9 1 true [5]]) : let x := access9 (.fabric 2 none none [{ dst := 64, src := 0 }] { cells := [] }) .none
    let s := posting x (inRuns { present := true })
    Config.runMessages [] = [.reply 9 1 true [5]] ∧ s.access 9 = some x ∧ x.done = none :=
  ⟨h _, by decide +kernel, by decide +kernel⟩

/-- O49: connections in each state, one with digests sent, and sessions that are live, established and neither. -/
def speaking (x : Conn) (y : Session) : State := { base with hub := { hub0 with conns := [(3, x)], sessions := [(0, y)] } }
theorem witness_connections : ∀ st ∈ ([.none, .afterVersion, .afterCaps, .negotiated] : List ConnSt), ∀ b ∈ [false, true],
    let s := speaking { st := st, digests := b } {}
    s.hub.ifs = .run ∧ (SMap.get {} s.hub.conns 3).st = st ∧ (SMap.get {} s.hub.conns 3).digests = b ∧
    (SMap.get {} s.hub.sessions 0).live = false ∧ s.hub.signing = none ∧
    (let t : State := { s with hub := { s.hub with signing := some 4 } }; t.hub.signing = some 4 ∧ 4 ≠ 3 ∧ t.hub.conns = s.hub.conns) := by decide +kernel
theorem witness_sessions : (∀ b ∈ [false, true], let y := SMap.get {} (speaking {} { live := true, conn := 3, established := b }).hub.sessions 0
      y.live = true ∧ y.conn = 3 ∧ y.established = b) ∧
    (let s : State := { base with hub := { hub0 with sessions := (List.range 64).map (fun i => (i, { live := true })) } }
     ∀ m < 64, (SMap.get {} s.hub.sessions m).live = true) ∧
    (∀ m < 0, (SMap.get {} base.hub.sessions m).live = true) := by decide +kernel
/-- Algorithms of which one is selected, and none; the index of one slot, of all, and of none. -/
theorem witness_selected : ([SpdmAlg.sha384, .brainpoolP384, .p384, .aes256Gcm, .spdmSchedule].filter [SpdmAlg.sha384].contains).map SpdmAlg.code ≠ [] ∧
    ([SpdmAlg.sha384, .brainpoolP384, .p384, .aes256Gcm, .spdmSchedule].filter ([] : List SpdmAlg).contains).map SpdmAlg.code = [] ∧
    ¬ (33 = 0 ∨ 33 ≤ 32 ∨ 33 = 0xFF) := by decide
/-- The right MAC of a session, and another. -/
theorem witness_macs (y : Session) : (∃ mac, mac = hmac384 (leBytes 48 y.secret.toNat) y.th) ∧
    ∃ mac, mac ≠ hmac384 (leBytes 48 y.secret.toNat) y.th :=
  ⟨⟨_, rfl⟩, ⟨hmac384 (leBytes 48 y.secret.toNat) y.th + 1, by simp⟩⟩

/-- O50: a channel of world 1, a message of each kind with a right head, one with a wrong counter, and plaintexts of each kind. -/
def chan1 : Channel := { live := true, session := 0, world := 1, last := some 6 }
def talking (k : Channel) (y : Session) : State :=
  { serving (pkt .done []) with hub := { hub0 with channels := [(5, k)], sessions := [(0, y)] } }
def msg (kind : Byte) (ctr : BitVec 32) (n : Nat) : ChMsg :=
  { ctr := ctr, chid := 5, world := 1, kind := kind, rsv0 := 0, len := BitVec.ofNat 32 n, rsv1 := 0, body := List.replicate n 0, tag := 0 }
theorem witness_messages : ∀ kn ∈ ([(1, 9), (2, 72), (3, 8), (4, 0), (5, 0), (6, 0)] : List (Nat × Nat)),
    let m := msg (BitVec.ofNat 8 kn.1) 7 kn.2
    let k := SMap.get {} (talking chan1 {}).hub.channels m.chid.toNat
    k.live = true ∧ k.dead = false ∧ k.closing = false ∧ k.world = m.world.toNat ∧ m.rsv0 = 0 ∧ m.rsv1 = 0 ∧ m.len.toNat = m.body.length ∧ m.body.length ≤ 65536 ∧
    m.ctr.toNat < 0x80000000 ∧ k.last = some 6 ∧ (6 : BitVec 32).toNat < m.ctr.toNat ∧ k.busy = none ∧ k.jobs = [] ∧
    ¬ (6 : BitVec 32).toNat < (msg (BitVec.ofNat 8 kn.1) 6 kn.2).ctr.toNat ∧ (talking chan1 {}).hub.ifs = .run ∧
    (SMap.get {} (talking { chan1 with busy := some 4 } {}).hub.channels 5).busy = some 4 := by decide +kernel
/-- A message to channel 5 with a plaintext: its head is right, and it opens to the plaintext, or not at all under another tag. -/
def sealedMsg (kind : Byte) (ctr : BitVec 32) (plain : List Byte) : ChMsg :=
  let len := BitVec.ofNat 32 plain.length
  let c := gcmSeal chan1.key (BitVec.ofNat 96 (chan1.salt.toNat * 2 ^ 32 + ctr.toNat))
    (leBytes 4 ctr.toNat ++ [5, 1, kind, 0] ++ leBytes 4 len.toNat ++ leBytes 4 (0 : BitVec 32).toNat) plain
  { ctr := ctr, chid := 5, world := 1, kind := kind, rsv0 := 0, len := len, rsv1 := 0, body := c.1, tag := c.2 }
theorem witness_sealed (kind : Byte) (ctr : BitVec 32) (plain : List Byte) (h : plain.length ≤ 65536) :
    let m := sealedMsg kind ctr plain
    let opened (tag : BitVec 128) := gcmOpen chan1.key (BitVec.ofNat 96 (chan1.salt.toNat * 2 ^ 32 + m.ctr.toNat))
      (leBytes 4 m.ctr.toNat ++ [m.chid, m.world, m.kind, m.rsv0] ++ leBytes 4 m.len.toNat ++ leBytes 4 m.rsv1.toNat) m.body tag
    m.len.toNat = m.body.length ∧ m.body.length ≤ 65536 ∧ m.kind = kind ∧ m.chid.toNat = 5 ∧ opened m.tag = some plain ∧ opened (m.tag + 1) = none := by
  refine ⟨by simp [sealedMsg]; omega, by simpa [sealedMsg] using h, rfl, rfl, gcmOpen_gcmSeal _ _ _ _, ?_⟩
  show gcmOpen _ _ _ _ _ = none
  unfold gcmOpen
  rw [if_neg]
  simp [sealedMsg, gcmSeal]
/-- A put of one byte at 0x1000_0000, one packet for queue 0, and tails 2, 1 and 200 of queue 0. -/
theorem witness_plaintexts : (leBytes 8 0x10000000 ++ [7]).length = 9 ∧ leNat ((leBytes 8 0x10000000 ++ [7]).take 8) = 0x10000000 ∧
    translate ((talking chan1 {}).world 1).windows 0x10000000 1 .wr = some 0 ∧ (List.replicate 72 (0 : Byte)).length = 8 + 64 * 1 ∧
    leNat ((List.replicate 72 (0 : Byte)).take 2) < 16 ∧ ((talking chan1 {}).queueAt 1 0).present = true ∧
    (∀ v ∈ [0, 2, 200], leNat ((leBytes 4 0 ++ leBytes 4 v).drop 4) = v ∧ (leBytes 4 0 ++ leBytes 4 v).length = 8) ∧
    ¬ 200 ≤ 2 ^ ((talking chan1 {}).queueAt 1 0).log2n ∧ ((talking chan1 {}).queueAt 1 20).present = false := by decide +kernel
/-- A WORLD_OPEN for world 1, with the world's credential and with another, over a session that is established. -/
theorem witness_open : let s := talking {} { live := true, established := true }
    (∀ c ∈ [0, 5], let body := leBytes 64 (0x0D + 3 * 2 ^ 192 + 2 ^ 200 + 5 * 2 ^ 224 + c * 2 ^ 384)
      let b := BitVec.ofNat 512 (leNat body)
      body.length = 64 ∧ packetOk b = true ∧ b.toNat % 256 = 0x0D ∧ b.toNat / 2 ^ (8 * 24) % 256 = 3 ∧ b.toNat / 2 ^ (8 * 25) % 256 = 1 ∧
      b.toNat / 2 ^ (8 * 28) % 256 = 5 ∧ b.toNat / 2 ^ 384 % 2 ^ 128 = c) ∧ (s.world 1).st ≠ .empty ∧
    (s.world 1).cred.toNat = 0 ∧ (SMap.get {} s.hub.channels 5).live = false ∧ (SMap.get {} s.hub.sessions 0).live = true ∧
    (SMap.get {} s.hub.sessions 0).established = true ∧ s.hub.ifs = .run := by decide +kernel
theorem witness_heartbeats : (∀ b ∈ [false, true], let s : State := { talking chan1 { live := true, beat := b } with now := 5120 }
      s.hub.channels = [(5, chan1)] ∧ chan1.closing = false ∧ chan1.jobs = [] ∧ chan1.busy = none ∧ (SMap.get {} s.hub.sessions 0).live = true ∧ (SMap.get {} s.hub.sessions 0).beat = b ∧ s.now % frameCycles = 0) ∧
    (∃ f ∈ (talking chan1 {}).fronds, f.2.bound = true ∧ f.2.world = 1) ∧
    ({ talking chan1 {} with fronds := [], cores := [] } : State).holdsWork 1 = false ∧
    ((hubbed [] id (fun w => { w with hold := true })).world 1).hold = true ∧ (base.world 1).hold = false := by decide +kernel

/-- O51: a file with a page, its landings, two bytes of data and a signature block, made as that of O46 was. -/
def page64Bytes : List Byte := (List.range 64).flatMap (fun i => leBytes 4 (SMap.get 0 ((0, 0x4D464350) :: page64) i).toNat)
def padTo (n : Nat) (l : List Byte) : List Byte := l ++ List.replicate (n - l.length) 0
def sectionEntry (ty count off size : Nat) : List Byte := leBytes 4 ty ++ leBytes 4 count ++ leBytes 8 off ++ leBytes 8 size ++ leBytes 8 0
def loadHead : List Byte :=
  padTo 64 (leBytes 4 0x064F464D ++ leBytes 2 1 ++ leBytes 2 0 ++ leBytes 4 4 ++ leBytes 4 0 ++ leBytes 8 64) ++
  sectionEntry 1 1 192 272 ++ sectionEntry 2 2 512 32 ++ sectionEntry 7 1 576 18 ++ sectionEntry 0x0C 1 640 196
def codeBody : List Byte := leBytes 8 64 ++ leBytes 4 2 ++ leBytes 4 0 ++ page64Bytes
def landRecord (i : Nat) : List Byte := leBytes 8 (64 * 2 ^ 24 + i * 2 ^ 16) ++ leBytes 2 7 ++ leBytes 2 (0x20 + i) ++ leBytes 4 0
def loadBody : List Byte :=
  padTo 512 (loadHead ++ codeBody) ++ padTo 64 (landRecord 0 ++ landRecord 1) ++ padTo 64 (leBytes 8 0x10000000 ++ leBytes 8 2 ++ [7, 2])
def loadKey : List Byte :=
  4 :: (beBytes 48 0x75F6EC1413162632771BC926397D4B2DA95516EA48E18498DF75612E3A05FA85048C80EC58A150CBD394DFB86176941A ++
    beBytes 48 0x51581767CAF995EAAC7592E971F451AB397020D93835715F3D696D277777D1021657712665490C0873FF0D726F99E026)
def loadNum : Nat :=
  0x6028F64345212DF824F1CE23703B2D225D3655EF8F524864DF0ECAB76D45A6531BB2230D334C63293A7ADC0CA7BA1ED9
def loadSig : List Byte := loadKey ++ [0, 0, 0] ++ leBytes 48 loadNum ++ leBytes 48 loadNum
def loadFile : List Byte := loadBody ++ loadSig
def loadSections : List Section :=
  [{ ty := 1, count := 1, off := 192, body := codeBody }, { ty := 2, count := 2, off := 512, body := landRecord 0 ++ landRecord 1 },
   { ty := 7, count := 1, off := 576, body := leBytes 8 0x10000000 ++ leBytes 8 2 ++ [7, 2] }, { ty := 0x0C, count := 1, off := 640, body := loadSig }]
theorem witness_file : sectionsOf loadFile = some loadSections ∧ sectionsOf [] = none := by decide +kernel
theorem witness_load : (∀ r ∈ records 32 (bodyOf loadSections 0x0A), recNat r 2 1 = 4) ∧ (∀ x ∈ loadSections, x.ty ∈ [1, 2, 7, 0x0C]) ∧
    headedOf codeSize (bodyOf loadSections 1) = some [(codeBody.take 16, page64Bytes)] ∧
    headedOf sizeAt8 (bodyOf loadSections 7) = some [(leBytes 8 0x10000000 ++ leBytes 8 2, [7, 2])] ∧
    pageOk (bodyOf loadSections 2) { page := 64, sealed := false, proc := 0, image := page64Bytes } = true ∧
    recNat (codeBody.take 16) 0 8 = 64 ∧ recNat (codeBody.take 16) 12 4 = 0 ∧ decide (recNat loadFile 6 2 % 2 = 1) = world1.confidential ∧
    pageOk [] { page := 64, sealed := false, proc := 0, image := page64Bytes } = false ∧
    (let s := hubbed [] id (fun w => { w with st := .loading })
     (s.world 1).st = .loading ∧ (s.world 1).load = none) := by decide +kernel
/-- A load at step 7 with data that translates, and not, and a bad microprogram; at step 8 with a page that fits, and a sealed one that does not. -/
def loadingAt (l : Loading) (f : Core → Core) : State := (hubbed [] id (fun w => { w with st := .loading, step := 7, load := some l })).updCore 0 f
def pageLeft (b : Bool) : LoadPage := { page := 64, sealed := b, proc := 0, image := page64Bytes }
def noRoom : SMap DirEnt := (List.range 64).map (fun i => (i, { v := true }))
theorem witness_later_steps : (∀ l ∈ ([{ mprg := none, recs := [(0x10000000, [7, 2])], pages := [pageLeft false] }, { mprg := some [], recs := [], pages := [] },
      { mprg := none, recs := [], pages := [pageLeft true], cores := some [0] }, { mprg := none, recs := [], pages := [], cores := some [] }] : List Loading),
      ((loadingAt l id).world 1).load = some l ∧ (loadingAt l id).grantOf 1 = [0] ∧ ∀ n ∈ (loadingAt l id).grantOf 1, ((loadingAt l id).core n).fenced = false) ∧
    (∀ i < 2, translate world1.windows (0x10000000 + i) 1 .wr = some (0 + i)) ∧ translate world1.windows (0x20000000 + 0) 1 .wr = none ∧
    (∀ p ∈ [pageLeft false], p.sealed = false) ∧ (pageLeft true).sealed = true ∧ mprgOf [] = none ∧
    (let s := loadingAt { mprg := none, recs := [], pages := [pageLeft true], cores := some [0] } (fun x => { x with dir := noRoom })
     (s.core 0).freeFrames.length < 1 + versionNcont (syllablesOf page64Bytes)) ∧
    ¬ ((loadingAt { mprg := none, recs := [], pages := [], cores := some [0] } id).core 0).freeFrames.length < 1 + versionNcont (syllablesOf page64Bytes) ∧
    (let s := loadingAt { mprg := none, recs := [], pages := [] } (fun x => { x with fenced := true, dir := [(3, { sealed := true })] })
     (s.world 1).load ≠ none ∧ ∃ n ∈ s.grantOf 1, (s.core n).fenced = true ∧ ∃ e ∈ (s.core n).dir, e.2.sealed = true) := by
  refine ⟨by decide +kernel, by decide +kernel, by decide +kernel, by decide +kernel, rfl, by decide +kernel, by decide +kernel, by decide +kernel, by decide +kernel,
    0, by decide +kernel, by decide +kernel, (3, { sealed := true }), by decide +kernel, rfl⟩
/-- A package in no domain, which another may admit. -/
theorem witness_enrol : base.hub.ifs = .run ∧ base.hub.domain.formed = false ∧ (3 : Nat) ≠ 2 := by decide +kernel
theorem load_digest : sha384 (loadFile.take 640) =
    0x3E84BE900F0E03763926CC9EBCD9ECEAFACB4919243925FE179FA67CF9C66572016F21C1A13D4F34209B59E8C514E2EC#384 := by decide +kernel
theorem witness_load_signature : (loadSections.find? (fun x => decide (x.ty = 0x0C))).bind (sigOk loadFile) = some loadKey := by
  have e : loadSections.find? (fun x => decide (x.ty = 0x0C)) = some { ty := 0x0C, count := 1, off := 640, body := loadSig } := by decide +kernel
  have k : loadSig.take 97 = loadKey := by decide +kernel
  have v : ecdsaVerify loadKey (sha384 (loadFile.take 640)) ((slice loadSig 100 48).reverse ++ (slice loadSig 148 48).reverse) = true := by
    rw [load_digest]; decide +kernel
  rw [e, Option.bind_some, sigOk]
  simp only [k]
  rw [if_pos ⟨by decide +kernel, by decide +kernel, by decide +kernel, v⟩]
/-- A block whose key is no point, and a file for a world that is not confidential. -/
theorem witness_load_unsigned : ([{ ty := 0x0C, count := 1, off := 640, body := padTo 196 [4] }] : List Section).head?.bind (sigOk loadFile) = none ∧
    decide (recNat loadFile 6 2 % 2 = 1) ≠ { world1 with confidential := true }.confidential := by
  refine ⟨?_, by decide +kernel⟩
  rw [List.head?_cons, Option.bind_some, sigOk, if_neg]
  rintro ⟨-, -, -, h⟩
  have : keyPoint ((padTo 196 [4#8]).take 97) = none := by decide +kernel
  simp [ecdsaVerify, this] at h
/-- A domain in each phase, with one peer whose barrier has come and has not. -/
theorem witness_rekey : ∀ ph ∈ ([.idle, .quiesce, .drained, .switching, .switched] : List Phase), ∀ b ∈ [false, true],
    let d : Domain := { domain2 with phase := ph, peers := [(2, { present := true, barrierSeen := b, drained := b, switched := b })] }
    let s : State := { base with hub := { hub0 with domain := d } }
    s.hub.domain.formed = true ∧ s.hub.domain.phase = ph ∧ d.coordinator = d.self ∧ d.coordinator ≠ 2 ∧
    (let p := SMap.get {} s.hub.domain.peers 2
     p.present = true ∧ p.barrierSeen = b ∧ p.drained = b ∧ p.switched = b ∧ p.runs = []) ∧ d.target < 2 ^ 32 ∧ ¬ { d with target := 2 ^ 32 }.target < 2 ^ 32 ∧
    s.posted = [] ∧ (∀ e ∈ d.peers, e.2.queued = []) ∧ (∀ e ∈ d.peers, e.1 ≠ d.self) ∧
    { d with coordinator := 2 }.coordinator = 2 ∧ { d with coordinator := 2 }.coordinator ≠ d.self ∧ d.again = false ∧
    { d with again := true }.again = true := by decide +kernel
/-- A request to a member that nothing has answered and nothing holds: the package is not drained. -/
theorem witness_undrained : let x := access9 (.fabric 2 none none [{ dst := 64, src := 0 }] { cells := [] }) .none
    let s := posting x { base with hub := { hub0 with domain := { domain2 with phase := .quiesce } } }
    x ∈ s.posted ∧ x.done = none ∧ x.request.isSome = true ∧ s.hub.domain.held = [] ∧ s.hub.domain.phase = .quiesce := by decide +kernel
/-- A checkpoint at each step, and a machine that is quiet and one that is not. -/
def saving (q : Checkpoint) : State :=
  { base with now := 5120, cores := [(0, { core0 with running := none, ctxs := [(0, { ctx0 with st := .preempted, item := none })] })], fronds := []
              hub := { hub0 with ckpt := some q }, packets := [pkt .running [(0, 8)]] }
theorem witness_checkpoint : (∀ n ∈ [2, 3, 4, 5], let q : Checkpoint := { packet := 9, budget := 2, began := 1, step := n }
      (saving q).hub.ckpt = some q ∧ (saving q).now % frameCycles = 0 ∧ q.began + q.budget ≤ (saving q).gtick.toNat ∧ q.kept = [] ∧
      (saving q).ckptQuiet = true ∧ ∀ p ∈ (saving q).packets, p.id = q.packet ∧ p.entry = none) ∧
    ({ saving { packet := 9, budget := 2, began := 1, step := 2 } with cores := [(0, core0)] } : State).ckptQuiet = false ∧
    (let q : Checkpoint := { packet := 9, budget := 9, began := 1, step := 3, kept := [(0, 0, .preempted)] }
     q.kept = [(0, 0, ((saving q).ctx 0 0).st)] ∧ ((saving q).core 0).fenced = false ∧ (saving q).drained 0 0 = true ∧
     (let s := (saving q).updCtx 0 0 (fun x => { x with record := [{ id := 0, due := 5, file := .g, reg := 5, width := 64, value := none }] })
      s.drained 0 0 = false ∧ (s.core 0).fenced = false ∧ (s.ctx 0 0).st = .preempted) ∧
     (((saving q).updCore 0 (fun x => { x with fenced := true })).core 0).fenced = true ∧
     (((saving q).updCore 0 (fun x => { x with fenced := true })).ctx 0 0).st = .preempted ∧ (saving q).gtick.toNat < q.began + q.budget) := by decide +kernel
def blobOf (l : List BlobWorld) : Blob := { gtick := 0, profile := 0x12, partition := [6, 6, 6, 6], worlds := l, msl := [], mem := [(64, 5)] }
theorem witness_restore : base.hub.ifs = .run ∧ base.hub.ckpt = none ∧ (blobOf []).profile = base.hub.profile ∧
    (blobOf []).partition = (List.range 4).map base.part ∧ (base.world 3).st = .empty ∧ (blobOf []).mem = [(64, 5)] ∧ encrypted (64 * (64 / 64)) = true := by
  decide +kernel
/-- A world of a blob whose key unwraps, and one whose key does not. -/
theorem witness_unwrap (slk : BitVec 256) : (∃ l, keyUnwrap slk l = some 5) ∧ keyUnwrap slk [] = none :=
  ⟨⟨_, keyUnwrap_keyWrap slk 5⟩, rfl⟩
/-- Memory whose table for world 3 holds one window, over the first 2 MiB of the near tier. -/
theorem witness_table : let s := base.store (base.hub.manifest.regionBase + 8192 * 3) 8 0x10000000 |>.store (base.hub.manifest.regionBase + 8192 * 3 + 24) 8 0xF
    ∃ e ∈ s.worldTable 3, e.2.v = true ∧ e.2.pbase ≤ 64 * (64 / 64) ∧ 64 * (64 / 64) < e.2.pbase + (e.2.size + 1) * 0x200000 := by decide +kernel
/-- A checkpoint whose sink took all, or not, with a port that was offline. -/
theorem witness_ended : ∀ b ∈ [false, true], let q : Checkpoint := { packet := 9, budget := 2, began := 1, step := 5, sinkOk := b, incx := b, cxlOff := [1] }
    (saving q).hub.ckpt = some q ∧ q.kept = [] ∧ q.sinkOk = b ∧ q.cxlOff ≠ [] ∧ { q with cxlOff := [], incx := false }.cxlOff = [] ∧
    (saving { q with cxlOff := [], incx := false }).hub.offline = [] := by decide +kernel

/-- What a step answers, judged. -/
def nextWith (f : State → Bool) : Host.Outcome State Fault Refusal → Bool
  | .next t => f t
  | _ => false
theorem nextWith_spec {f : State → Bool} {o : Host.Outcome State Fault Refusal} (h : nextWith f o = true) : ∃ t, o = .next t ∧ f t = true := by
  cases o with
  | next t => exact ⟨t, rfl, h⟩
  | _ => exact absurd h (by simp [nextWith])
def okBundle (f : Bundle → Bool) : Except Nat Bundle → Bool
  | .ok b => f b
  | .error _ => false
theorem okBundle_spec {f : Bundle → Bool} {r : Except Nat Bundle} (h : okBundle f r = true) : ∃ b, r = .ok b ∧ f b = true := by
  cases r with
  | ok b => exact ⟨b, rfl, h⟩
  | error _ => exact absurd h (by simp [okBundle])

/-- O52: a partition command beside a role change in progress. -/
theorem witness_busy : let s : State := { changing 1 .draining with packets := [pkt .running [(0, 7)]] }
    s.packet 9 = some (pkt .running [(0, 7)]) ∧ pkOpc (pkt .running [(0, 7)]).bits = 7 ∧ s.hub.role = some (change 1) := by decide +kernel

/-- O53: a step from outside that waits, and a context at the bundle at offset 34 of page 64, which holds one `add`. -/
def atAdd : State := paged (fun c => { c with point := .inside 64 0 0 34 })
def addBundle : Except Nat Bundle :=
  decodeBundle ((atAdd.core 0).pageSyl 0 34) ((List.range 18).map (fun i => (atAdd.core 0).pageSyl 0 (34 + 1 + i))) (32 - 34 % 32)
def addEntry : State := { atAdd with curCore := 0, curCtx := 0 }.updCtx 0 0 (fun x => { x with point := .inside 64 0 0 34 })
theorem witness_inbox : ({ base with inbox := [.frameTick] } : State).inbox = .frameTick :: [] ∧ unordered .frameTick = false ∧
    unordered (.put 1 0 [[1]]) = false ∧ ({ base with inbox := [.frameTick, .reset] } : State).inbox ≠ [] := ⟨rfl, rfl, rfl, by decide +kernel⟩
theorem witness_step : atAdd.inbox = [] ∧ atAdd.freshStep = none ∧ atAdd.beforeIssue = none ∧ atAdd.issuer? = some (0, 0) ∧ (atAdd.ctx 0 0).point = .inside 64 0 0 34 ∧
    pinnedOk ((atAdd.core 0).pageLcd 0) ((atAdd.core 0).pagePfd 0) ((atAdd.core 0).pageTag 0) (atAdd.tag 0) = true ∧
    34 / 32 < (atAdd.core 0).pageLen 0 ∧ bit ((atAdd.core 0).pageSyl 0 34) 31 = true := by decide +kernel
theorem witness_bundle : ∃ b, addBundle = .ok b ∧
    (decide (b.slots.map Prod.snd = [.add 0 5 1 4]) && decide (addEntry.bundleStop b = none)) = true := okBundle_spec (by decide +kernel)
theorem witness_slots_run : ∃ t, RunsAll [.add 0 5 1 4] (addEntry.updCtx 0 0 (fun x => { x with wait := [] })) t := by
  obtain ⟨t, h, r⟩ := nextWith_spec (f := fun t => decide ((t.ctx 0 0).st = .running))
    (o := exec (.add 0 5 1 4) (addEntry.updCtx 0 0 (fun x => { x with wait := [] }))) (by decide +kernel)
  exact ⟨t, t, h, of_decide_eq_true r, rfl⟩

/-- O54 to O57: a bundle of two slots that decodes, a well-formed instruction of each shape, and words that decode. -/
theorem witness_bundle_decodes : ∃ b, decodeBundle 0xE0000000 [0x28060400, 0x02028220] 32 = .ok b ∧ decide (b.slots.length = 2) = true :=
  okBundle_spec (by decide +kernel)
theorem witness_encodings : ∀ i ∈ ([.rdsys 0 12 .wid, .add 3 5 1 2, .vadd 0 .w1024 .i32 6 .rne (.v 1 0) (.v 2 1), .exp2R 9 .w256 40 (.v 33 0),
    .mrep 0 2, .atom 0 .b64 .xb 5 .or 6 0 0x40, .spStV 0 3 0, .cpyTl 0 3 1 false .ab 0 0, .ysetd 0 3 1 4 0 31 99,
    .uDrain false 1 false .cb 0 false] : List Instr), i.wf = true ∧ i.kind.isSome = true := by decide +kernel

/-- O60: memory in its form, in a state that lists some of it and steps. -/
theorem witness_memory_form : Memory.wf (serving (pkt .done [])).mem ∧ (serving (pkt .done [])).mem ≠ [] ∧
    ∃ t, step (serving (pkt .done [])) = .next t := by
  refine ⟨by decide +kernel, by decide +kernel, ?_⟩
  obtain ⟨t, h, -⟩ := nextWith_spec (f := fun _ => true) (o := step (serving (pkt .done []))) (by decide +kernel)
  exact ⟨t, h⟩

/-! ### Worked figures of the manual -/

/-- g1 is 3 and g2 is 5. -/
def threeFive : State := on (fun c => { c with g := [(1, 3), (2, 5)] })
/-- The value of the one result that an instruction puts in flight. -/
def resultIs (v : Word) (i : Instr) : Bool :=
  nextWith (fun t => decide (t.cur.inflight.map Result.value = [some (v.setWidth 1024)])) (exec i threeFive)
/-- R390's figures: `sub` and `subs.n` of 3 − 5. -/
theorem test_sub_wraps : resultIs 0xFFFFFFFFFFFFFFFE (.sub 0 5 1 2) = true := by decide +kernel
theorem test_subs_saturates : resultIs 0 (.subs 0 5 1 2 true) = true := by decide +kernel
/-- 18: the syllables of `vfma.f32.rtz.w512 v10, v1.p0, v2.p1, q3`. -/
theorem test_vfma_word : decodeSlot .V 0x08081480#32 0x01008C30#32 = .ok (.vfma 0 .w512 .f32 10 .rtz (.v 1 0) (.v 2 1) (.q 3 false)) := by
  decide +kernel
/-- R105's figure: LYRCFG of die 31; and 1 R19's: die 31 is column 2, position L7. -/
theorem test_lyrcfg : cfgReg 0x1F000040 = .lyrcfg 31 ∧ dieColumn 31 = 2 ∧ diePos 31 = 7 := by decide +kernel
/-- R36's figure: a frond bound at a tick with domain time 0 that suffers one freeze reads 896 at the next tick. -/
theorem test_freeze_time : ({ base with now := 5120, fronds := [(0, { frond0 with base := 4096, frozen := 128, freezeEnd := 4300 })] } : State).dtime 0 = 896 := by
  decide +kernel

/-- A page of one `brx` bundle, with landing 0 at offset 32, at T12 and LC6. -/
def smallPage : List Syllable :=
  [0x4D464350#32, 0x120647FF#32, 2#32, 0, 0, 0, 0, 0, 0x00010020#32] ++ List.replicate 23 0 ++ [0xC00C0000#32] ++ List.replicate 31 0
/-- R312: a version that differs in the tag alone keeps what it must; one with another landing does not. -/
theorem test_rescheduled_keeps : keptBy smallPage 0x160647FF#32 (smallPage.set 1 0x160647FF#32) = true ∧
    keptBy smallPage 0x160647FF#32 ((smallPage.set 1 0x160647FF#32).set 8 0x00020020#32) = false := by decide +kernel
/-- R182: one line of a timed chunk takes its new value, and the other keeps its old one until the landing. -/
theorem test_line_lands_early :
    let s := { base with calendar := [{ id := 9, due := base.now + 9, frond := 9, core := 0, act := .chunkLand [(64, 5), (128, 6)] }] }
    s.earlyLines = [.line 9 1, .line 9 2] ∧ (s.landLine 9 1).byte 64 = 5 ∧ (s.landLine 9 1).byte 128 = 0 ∧
    (s.landLine 9 1).earlyLines = [.line 9 2] := by decide +kernel

end Sys2Proof.Tests
end

section
/-! SUPPORT. Bytes after writes, and memory as a world sees it (R204): the rules that statements about landings go by. -/

namespace Sys2Proof.Machine

/-! ### The lines of addresses (R167) -/

theorem SMap.mem_keys_set {α : Type} (m : SMap α) (k j : Nat) (x : α) :
    j ∈ (SMap.set m k x).map Prod.fst ↔ j = k ∨ j ∈ m.map Prod.fst := by
  have keys_insert (l : SMap α) : j ∈ (SMap.insert l k x).map Prod.fst ↔ j = k ∨ j ∈ l.map Prod.fst := by
    induction l with
    | nil => simp [SMap.insert]
    | cons e r ih =>
      by_cases h : k < e.1
      · simp [SMap.insert, h]
      · simp only [SMap.insert, h, if_false, List.map_cons, List.mem_cons, ih]
        tauto
  rw [SMap.set, keys_insert, SMap.erase_eq_filter]
  by_cases h : j = k <;> simp [h]

theorem mem_linesOf (l : List Nat) (n : Nat) : n ∈ linesOf l ↔ n ∈ l.map lineOf := by
  suffices h : ∀ m : SMap Unit, n ∈ (l.foldl (fun m a => SMap.set m (lineOf a) ()) m).map Prod.fst ↔
      n ∈ m.map Prod.fst ∨ n ∈ l.map lineOf by simpa [linesOf] using h []
  induction l with
  | nil => simp
  | cons a r ih =>
    intro m
    rw [List.foldl_cons, ih, SMap.mem_keys_set, List.map_cons, List.mem_cons]
    tauto

theorem lineOf_of_mem_lineCells {n : Nat} {l : List Byte} {c : Host.Cell} (h : c ∈ lineCells n l) : lineOf c.1 = n := by
  simp only [lineCells, List.mem_map, List.mem_range] at h
  obtain ⟨i, hi, rfl⟩ := h
  simp only [lineOf]
  omega

/-! ### Bytes after a write -/

/-- A byte reads what the cells that name it hold, when they all hold the same. -/
theorem State.byte_writeCells_of_agree (s : State) {l : List Host.Cell} {a : Nat} {b : Byte} (hm : (a, b) ∈ l)
    (h : ∀ b', (a, b') ∈ l → b' = b) : (s.writeCells l).byte a = b := by
  induction l generalizing s with
  | nil => cases hm
  | cons c r ih =>
    show ((s.setByte c.1 c.2).writeCells r).byte a = b
    by_cases hr : (a, b) ∈ r
    · exact ih _ hr (fun b' hb => h b' (List.mem_cons_of_mem _ hb))
    · obtain rfl : (a, b) = c := (List.mem_cons.1 hm).resolve_right hr
      rw [State.byte_writeCells_of_not_mem, State.byte_setByte, if_pos rfl]
      rintro ⟨d, b'⟩ hd rfl
      exact hr (h b' (List.mem_cons_of_mem _ hd) ▸ hd)

/-- Cells at addresses of their own are all read back. -/
theorem State.byte_writeCells_of_nodup (s : State) {l : List Host.Cell} (h : (l.map Prod.fst).Nodup) {a : Nat} {b : Byte}
    (hm : (a, b) ∈ l) : (s.writeCells l).byte a = b :=
  s.byte_writeCells_of_agree hm (fun _ hb => congrArg Prod.snd (List.inj_on_of_nodup_map h hb hm rfl))

/-- What a write leaves in memory depends on memory alone. -/
theorem State.writeCells_mem_congr {s t : State} (h : t.mem = s.mem) (l : List Host.Cell) : (t.writeCells l).mem = (s.writeCells l).mem := by
  induction l generalizing s t with
  | nil => exact h
  | cons c r ih => exact ih (s := s.setByte c.1 c.2) (t := t.setByte c.1 c.2) (by simp [State.setByte, h])

/-- The low n bytes of a number, read as a number. -/
theorem leNat_map_range (n v : Nat) : leNat ((List.range n).map (fun i => BitVec.ofNat 8 (v / 2 ^ (8 * i)))) = v % 2 ^ (8 * n) := by
  have e : (List.range n).map (fun i => BitVec.ofNat 8 (v / 2 ^ (8 * i))) = leBytes n v := by
    induction n generalizing v with
    | zero => rfl
    | succ n ih =>
      have hd (i : Nat) : v / 2 ^ (8 * (i + 1)) = v / 256 / 2 ^ (8 * i) := by
        rw [show 256 = 2 ^ 8 from rfl, Nat.div_div_eq_div_mul, ← pow_add, Nat.mul_succ, Nat.add_comm]
      rw [List.range_succ_eq_map, leBytes, ← ih (v / 256), List.map_cons, List.map_map, Nat.mul_zero, pow_zero, Nat.div_one]
      exact congrArg _ (List.map_congr_left (fun i _ => congrArg _ (hd i)))
  rw [e, leNat_leBytes, pow_mul, show 2 ^ 8 = 256 from rfl]

/-! ### Memory as a world sees it (R204) -/

/-- The cells in which a world sees a line that another world wrote last. -/
def State.seenCells (s : State) (w n : Nat) : List Host.Cell :=
  lineCells n (lineSeen (s.world (SMap.get 0 s.owner n - 1)).key (s.world w).key n (s.lineBytes n))
theorem State.seenBy_eq_foldl (s : State) (w : Nat) (l : List Nat) :
    s.seenBy w l = ((linesOf l).filter (s.foreign w)).foldl (fun t n => t.writeCells (s.seenCells w n)) s := rfl

theorem State.foldl_writeCells_mem_congr (f : Nat → List Host.Cell) (r : List Nat) {s t : State} (h : t.mem = s.mem) :
    (r.foldl (fun z n => z.writeCells (f n)) t).mem = (r.foldl (fun z n => z.writeCells (f n)) s).mem := by
  induction r generalizing s t with
  | nil => exact h
  | cons n r ih => exact ih (State.writeCells_mem_congr h (f n))
theorem State.byte_foldl_writeCells_of_not_mem (f : Nat → List Host.Cell) (r : List Nat) (s : State) (a : Nat)
    (h : ∀ n ∈ r, ∀ c ∈ f n, c.1 ≠ a) : (r.foldl (fun z n => z.writeCells (f n)) s).byte a = s.byte a := by
  induction r generalizing s with
  | nil => rfl
  | cons n r ih =>
    rw [List.foldl_cons, ih _ (fun m hm => h m (List.mem_cons_of_mem _ hm)),
      State.byte_writeCells_of_not_mem _ _ _ (h n (List.mem_cons_self ..))]

/-- What a world sees of memory depends on memory, the lines' owners and the worlds' keys alone. -/
theorem State.byte_seenBy_congr {s t : State} (hm : t.mem = s.mem) (ho : t.owner = s.owner) (hw : t.worlds = s.worlds) (w : Nat)
    (l : List Nat) (a : Nat) : (t.seenBy w l).byte a = (s.seenBy w l).byte a := by
  have hf : t.foreign w = s.foreign w := by funext n; simp [State.foreign, ho]
  have hc : t.seenCells w = s.seenCells w := by
    funext n; simp [State.seenCells, State.lineBytes, State.bytes, State.byte, State.world, hm, ho, hw]
  refine State.byte_of_mem_eq ?_ a
  rw [State.seenBy_eq_foldl, State.seenBy_eq_foldl, hf, hc]
  exact State.foldl_writeCells_mem_congr _ _ hm

/-- A world sees as they stand the lines that are not another world's, and those it does not ask for. -/
theorem seesOwn (s : State) (w : Nat) (l : List Nat) : SeesOwn s w l := by
  intro a ha
  rw [State.seenBy_eq_foldl]
  refine State.byte_foldl_writeCells_of_not_mem _ _ _ _ (fun n hn c hc e => ?_)
  obtain rfl : lineOf a = n := e ▸ lineOf_of_mem_lineCells hc
  obtain ⟨hl, hf⟩ := List.mem_filter.1 hn
  rcases ha with h | h
  · exact Bool.false_ne_true (h ▸ hf)
  · exact h ((mem_linesOf l _).1 hl)

/-! ### A world's timed write (R170, R204) -/

theorem State.byte_claim (s : State) (w : Nat) (l : List Nat) (a : Nat) : (s.claim w l).byte a = (s.seenBy w l).byte a := rfl
theorem State.ctx_landAs (s : State) (w : Nat) (l : List Host.Cell) (c k : Nat) : (s.landAs w l).ctx c k = s.ctx c k := by
  rw [State.landAs_eq]; rfl
theorem State.landAs_calendar (s : State) (w : Nat) (l : List Host.Cell) : (s.landAs w l).calendar = s.calendar := by
  rw [State.landAs_eq]
theorem State.byte_landAs_of_nodup (s : State) (w : Nat) {l : List Host.Cell} (h : (l.map Prod.fst).Nodup) {a : Nat} {b : Byte}
    (hm : (a, b) ∈ l) : (s.landAs w l).byte a = b := State.byte_writeCells_of_nodup _ h hm
theorem State.keepsOthers_landAs (s : State) (w : Nat) (l : List Host.Cell) : KeepsOthers s (s.landAs w l) w (l.map Prod.fst) := by
  refine ⟨fun a ha => ?_, seesOwn s w _⟩
  rw [State.landAs, State.byte_timedWrite, State.byte_writeCells_of_not_mem, State.byte_claim]
  rintro c hc rfl
  exact ha (List.mem_map_of_mem hc)

/-! ### A timed write (R170) -/

theorem State.ctx_timedWrite (s : State) (l : List Host.Cell) (c k : Nat) : (s.timedWrite l).ctx c k = s.ctx c k := by
  unfold State.timedWrite; rw [State.writeCells_eq]; rfl
theorem State.timedWrite_calendar (s : State) (l : List Host.Cell) : (s.timedWrite l).calendar = s.calendar := by
  unfold State.timedWrite; rw [State.writeCells_eq]; rfl

end Sys2Proof.Machine
end

section
/-! SUPPORT. What falls due (07 R12, R152, R154, R159, R170; 09 R193; 11 R242): each landing's answer, and the registers, queues and
banks after it. -/

namespace Sys2Proof.Machine

/-! ### Registers after a write (R152) -/

theorem Ctx.get_writeReg_g (c : Ctx) (f : RFile) (r w n : Nat) (v : Vec) :
    SMap.get 0 (c.writeReg f r w v).g n = if f = .g ∧ n = r ∧ n ≠ 0 then v.setWidth 64 else SMap.get 0 c.g n := by
  cases f with
  | g =>
    by_cases h : r = 0
    · simp [Ctx.writeReg, h]
    · simp only [Ctx.writeReg, h, if_false, SMap.get_put]
      by_cases hn : n = r <;> simp [hn, h]
  | a | p | v | m => simp [Ctx.writeReg]
theorem Ctx.get_writeReg_a (c : Ctx) (f : RFile) (r w n : Nat) (v : Vec) :
    SMap.get 0 (c.writeReg f r w v).a n = if f = .a ∧ n = r then v.setWidth 64 else SMap.get 0 c.a n := by
  cases f with
  | a => simp [Ctx.writeReg, SMap.get_put]
  | g => by_cases h : r = 0 <;> simp [Ctx.writeReg, h]
  | p | v | m => simp [Ctx.writeReg]
theorem Ctx.get_writeReg_m (c : Ctx) (f : RFile) (r w n : Nat) (v : Vec) :
    SMap.get 0 (c.writeReg f r w v).m n = if f = .m ∧ n = r then v.setWidth 64 else SMap.get 0 c.m n := by
  cases f with
  | m => simp [Ctx.writeReg, SMap.get_put]
  | g => by_cases h : r = 0 <;> simp [Ctx.writeReg, h]
  | p | v | a => simp [Ctx.writeReg]

theorem getLsbD_setPred (p : BitVec 16) (i n : Nat) (b : Bool) (h : n < 16) :
    (setPred p i b).getLsbD n = if n = i ∧ n ≠ 0 then b else p.getLsbD n := by
  unfold setPred
  by_cases hi : i = 0
  · have : ¬ (n = i ∧ n ≠ 0) := by omega
    rw [if_pos hi, if_neg this]
  · by_cases hn : n = i
    · subst hn
      cases b <;> simp [hi, h]
    · cases b <;> simp [hi, h, hn]
theorem Ctx.getLsbD_writeReg_p (c : Ctx) (f : RFile) (r w n : Nat) (v : Vec) (h : n < 16) :
    (c.writeReg f r w v).p.getLsbD n = if f = .p ∧ n = r ∧ n ≠ 0 then v.getLsbD 0 else c.p.getLsbD n := by
  cases f with
  | p => simpa [Ctx.writeReg] using getLsbD_setPred c.p r n (v.getLsbD 0) h
  | g => by_cases h : r = 0 <;> simp [Ctx.writeReg, h]
  | a | v | m => simp [Ctx.writeReg]

theorem getLsbD_narrow (w b : Nat) (new old : Vec) : (narrow w new old).getLsbD b = if b < w then new.getLsbD b else old.getLsbD b := by
  by_cases hb : 1024 ≤ b
  · rw [BitVec.getLsbD_of_ge _ _ hb, BitVec.getLsbD_of_ge new _ hb, BitVec.getLsbD_of_ge old _ hb, ite_self]
  · unfold narrow
    by_cases hw : 1024 ≤ w
    · rw [if_pos hw, if_pos (by omega)]
    · rw [if_neg hw, BitVec.getLsbD_or, BitVec.getLsbD_and, BitVec.getLsbD_and, BitVec.getLsbD_not, BitVec.getLsbD_ofNat,
        Nat.testBit_two_pow_sub_one]
      have hb : b < 1024 := by omega
      by_cases hbw : b < w <;> simp [hb, hbw]
theorem Ctx.getLsbD_writeReg_v (c : Ctx) (f : RFile) (r w n b : Nat) (v : Vec) :
    (SMap.get 0 (c.writeReg f r w v).v n).getLsbD b =
      if f = .v ∧ n = r ∧ b < w then v.getLsbD b else (SMap.get 0 c.v n).getLsbD b := by
  cases f with
  | v =>
    by_cases hn : n = r
    · subst hn
      simp only [Ctx.writeReg, SMap.get_put_self, getLsbD_narrow, true_and]
    · simp [Ctx.writeReg, SMap.get_put, hn]
  | g => by_cases h : r = 0 <;> simp [Ctx.writeReg, h]
  | a | p | m => simp [Ctx.writeReg]

/-- Writing a register changes its file alone. -/
theorem Ctx.writeReg_eq (c : Ctx) (f : RFile) (r w : Nat) (v : Vec) :
    ∃ g a p v' m, c.writeReg f r w v = { c with g := g, a := a, p := p, v := v', m := m } := by
  cases f with
  | g => by_cases h : r = 0 <;> simp only [Ctx.writeReg, h, if_true, if_false] <;> exact ⟨_, _, _, _, _, rfl⟩
  | a | p | v | m => exact ⟨_, _, _, _, _, rfl⟩

/-! ### Banks (R159) -/

/-- Banks that have no state to leave ON for stay as they are. -/
theorem Ctx.settleBank_of_on (c : Ctx) (k : Nat) (h : (c.bankOf k).st = .on → (c.bankOf k).next = .on) : c.settleBank k = c := by
  unfold Ctx.settleBank
  rw [if_neg]
  rintro ⟨h1, h2, -⟩
  exact h2 (h h1)
theorem Ctx.settleBanks_of_on (c : Ctx) (h : ∀ k, (c.bankOf k).st = .on → (c.bankOf k).next = .on) : c.settleBanks = c := by
  rw [Ctx.settleBanks, c.settleBank_of_on 1 (h 1), c.settleBank_of_on 2 (h 2), c.settleBank_of_on 3 (h 3)]

/-- A bank's new state is all that setting it changes. -/
theorem Ctx.setBank_eq (c : Ctx) (k : Nat) (b : BankSt) : ∃ b1 b2 b3, c.setBank k b = { c with bank1 := b1, bank2 := b2, bank3 := b3 } := by
  unfold Ctx.setBank
  split
  · exact ⟨_, _, _, rfl⟩
  · split <;> exact ⟨_, _, _, rfl⟩
theorem Ctx.bankOf_setBank (c : Ctx) (k : Nat) (b : BankSt) : (c.setBank k b).bankOf k = b := by
  unfold Ctx.setBank Ctx.bankOf
  by_cases h1 : k = 1
  · simp [h1]
  · by_cases h2 : k = 2 <;> simp [h1, h2]
theorem Ctx.get_loseBank (c : Ctx) (k n : Nat) : SMap.get 0 (c.loseBank k).v n = if 16 * k ≤ n ∧ n < 16 * k + 16 then 0 else SMap.get 0 c.v n := by
  rw [Ctx.loseBank, SMap.get_filter 0 c.v (fun j => !inBank k j) n]
  by_cases h : 16 * k ≤ n ∧ n < 16 * k + 16 <;> simp [inBank, h]
/-- Waking a bank loses its contents and sets its state. -/
theorem Ctx.wakeBank_eq (c : Ctx) (k : Nat) : ∃ b1 b2 b3, c.wakeBank k = { c.loseBank k with bank1 := b1, bank2 := b2, bank3 := b3 } :=
  (c.loseBank k).setBank_eq k _
theorem Ctx.bankOf_wakeBank (c : Ctx) (k : Nat) :
    (c.wakeBank k).bankOf k = { st := (c.bankOf k).next, clearing := none, next := (c.bankOf k).next } := Ctx.bankOf_setBank ..

/-! ### The calendar (R168) -/

theorem State.timed_id {s : State} {id : Nat} {x : Timed} (h : s.timed id = some x) : x.id = id := by
  simpa using List.find?_some h
/-- Another action stands in the calendar as before, once one has been taken out. -/
theorem State.timed_unschedule_ne (s : State) {id j : Nat} (h : j ≠ id) : (s.unschedule id).timed j = s.timed j := by
  unfold State.timed State.unschedule
  rw [List.find?_filter]
  congr 1
  funext t
  by_cases e : t.id = j
  · simp [e, h]
  · simp [e]
theorem State.timed_fillTimed (s : State) (id : Nat) (f : TAct → TAct) :
    (s.fillTimed id f).timed id = (s.timed id).map (fun t => { t with act := f t.act }) := by
  unfold State.timed State.fillTimed
  induction s.calendar with
  | nil => rfl
  | cons t r ih => by_cases e : t.id = id <;> simp [e, ih]

/-- Taking an action out of the calendar changes no byte and no register. -/
theorem State.unschedule_keeps (s : State) (id : Nat) : KeepsRegsAndMemory s (s.unschedule id) := keeps_of_eq rfl rfl
theorem State.unschedule_calendar (s : State) (id : Nat) : (s.unschedule id).calendar = s.calendar.filter (fun y => decide (y.id ≠ id)) := rfl
theorem State.unschedule_keepsItem (s : State) (id f c k : Nat) : (s.unschedule id).keeps f c k = s.keeps f c k := rfl

/-! ### What an event runs -/

theorem exec_resultLanding_eq (core ctx id : Nat) (s : State) : exec (.resultLanding core ctx id) s = execResultLanding core ctx id s := rfl
theorem exec_queueDelivery_eq (id : Nat) (s : State) : exec (.queueDelivery id) s = execQueueDelivery id s := rfl
theorem exec_bankWakeDone_eq (core ctx bank : Nat) (s : State) : exec (.bankWakeDone core ctx bank) s = execBankWakeDone core ctx bank s := rfl
theorem exec_timedWriteLanding_eq (id : Nat) (s : State) : exec (.timedWriteLanding id) s = execTimedWriteLanding id s := rfl
theorem exec_timedReadSample_eq (id : Nat) (s : State) : exec (.timedReadSample id) s = execTimedReadSample id s := rfl
theorem exec_timedChunkLanding_eq (id : Nat) (s : State) : exec (.timedChunkLanding id) s = execTimedChunkLanding id s := rfl
theorem exec_drainRowLanding_eq (id : Nat) (s : State) : exec (.drainRowLanding id) s = execDrainRowLanding id s := rfl

/-! ### Results (R12, R152) -/

/-- A due result is written to its register; but for the note of its landing, that is all. -/
theorem exec_resultLanding {s : State} {core ctx id : Nat} {r : Result} {v : Vec}
    (hr : (s.ctx core ctx).inflight.find? (fun q => decide (q.id = id) && q.old.isNone) = some r) (hv : r.value = some v)
    (hb : ∀ k, ((s.ctx core ctx).bankOf k).st = .on → ((s.ctx core ctx).bankOf k).next = .on) :
    ∃ t, exec (.resultLanding core ctx id) s = .next t ∧ t.mem = s.mem ∧
      (∀ d k, (d, k) ≠ (core, ctx) → t.ctx d k = s.ctx d k) ∧
      SameRegs ((s.ctx core ctx).writeReg r.file r.reg r.width v) (t.ctx core ctx) := by
  refine ⟨_, exec_resultLanding_eq .., rfl, fun d k h => ?_, ?_⟩
  · rw [State.ctx_updCtx, if_neg (by simpa using h)]
  · rw [State.ctx_updCtx_self]
    simp only [hr, hv, Option.getD_some]
    obtain ⟨g, a, p, v', m, e⟩ := (s.ctx core ctx).writeReg_eq r.file r.reg r.width v
    rw [Ctx.settleBanks_of_on _ (by rw [e]; exact hb)]
    exact ⟨rfl, rfl, rfl, rfl, rfl, rfl, rfl, rfl, rfl, rfl, rfl, rfl, rfl, rfl, rfl, rfl⟩

/-! ### Deliveries (R154, R369) -/

theorem exec_queueDelivery {s : State} {id k q : Nat} {e : QEntry} {x : Timed} (h : s.timed id = some x) (ha : x.act = .deliver k q e) :
    exec (.queueDelivery id) s =
      .next (if s.keeps x.frond x.core k then (s.unschedule id).deliver x.core k q x.ord e else s.unschedule id) := by
  rw [exec_queueDelivery_eq]
  simp only [execQueueDelivery, h, ha]
  rfl
theorem State.deliver_keeps (s : State) (c k q ord : Nat) (e : QEntry) : KeepsRegsAndMemory s (s.deliver c k q ord e) :=
  keeps_updCtx s c k _ ⟨rfl, rfl, rfl, rfl, rfl, rfl, rfl, rfl, rfl, rfl, rfl, rfl, rfl, rfl, rfl, rfl⟩
theorem State.q_deliver (s : State) (c k q ord : Nat) (e : QEntry) :
    SMap.get [] ((s.deliver c k q ord e).ctx c k).q q =
      (SMap.get [] (s.ctx c k).q q).take ((SMap.get [] (s.ctx c k).q q).length -
          (((s.ctx c k).cameIn q s.now).filter (fun r => decide (ord < r))).length) ++
        e :: (SMap.get [] (s.ctx c k).q q).drop ((SMap.get [] (s.ctx c k).q q).length -
          (((s.ctx c k).cameIn q s.now).filter (fun r => decide (ord < r))).length) := by
  simp [State.deliver]
theorem State.owes_deliver (s : State) (c k q ord : Nat) (e : QEntry) :
    ((s.deliver c k q ord e).ctx c k).owes q = (s.ctx c k).owes q - 1 := by simp [State.deliver, Ctx.owes]

/-! ### Samples (R170, R193) -/

theorem State.badRead_of_sound {s : State} (h : s.faulty = []) (l : List Nat) : s.badRead l = none := by simp [State.badRead, h]

theorem exec_timedReadSample_result {s : State} {id pa n k rid : Nat} {x : Timed} (h : s.timed id = some x)
    (ha : x.act = .sample pa n (.result k rid)) (hf : s.faulty = []) :
    exec (.timedReadSample id) s = .next ((s.unschedule id).fill x.core k rid
      (BitVec.ofNat 1024 ((s.seenBy (s.core x.core).world ((List.range n).map (fun i => pa + i))).load pa n))) := by
  rw [exec_timedReadSample_eq]
  simp only [execTimedReadSample, h, ha, State.badRead_of_sound hf]
theorem exec_timedReadSample_chunk {s : State} {id land : Nat} {moves : List Move} {x : Timed} (h : s.timed id = some x)
    (ha : x.act = .chunkRead moves land) (hf : s.faulty = []) (hm : ∀ m ∈ moves, s.fencedAt m.src = false) :
    exec (.timedReadSample id) s = .next ((s.unschedule id).fillTimed land (joinChunk (moves.map (fun m =>
      (m.dst, (s.seenBy (s.core x.core).world (moves.map Move.src)).byte m.src))))) := by
  have e : moves.filter (fun m => (none : Option Nat).isNone && !s.fencedAt m.src) = moves :=
    List.filter_eq_self.2 (fun m h => by simp [hm m h])
  rw [exec_timedReadSample_eq]
  simp only [execTimedReadSample, h, ha, State.badRead_of_sound hf, e]

theorem State.fill_keeps (s : State) (c k rid : Nat) (v : Vec) : KeepsRegsAndMemory s (s.fill c k rid v) :=
  keeps_updCtx s c k _ ⟨rfl, rfl, rfl, rfl, rfl, rfl, rfl, rfl, rfl, rfl, rfl, rfl, rfl, rfl, rfl, rfl⟩
/-- A result that waits for a value has it once it is filled. -/
theorem State.value_fill (s : State) (c k rid : Nat) (v : Vec) {r : Result} (hr : r ∈ ((s.fill c k rid v).ctx c k).inflight)
    (hid : r.id = rid) : r.value = some v := by
  simp only [State.fill, State.ctx_updCtx_self, fillResult, List.mem_map] at hr
  obtain ⟨q, -, rfl⟩ := hr
  by_cases e : q.id = rid
  · simp [e]
  · simp [e] at hid
theorem State.fillTimed_keeps (s : State) (id : Nat) (f : TAct → TAct) : KeepsRegsAndMemory s (s.fillTimed id f) := keeps_of_eq rfl rfl

/-! ### Landing bytes (R170, R193, R242) -/

theorem exec_timedWriteLanding_write {s : State} {id rank : Nat} {cells : List Host.Cell} {x : Timed} (h : s.timed id = some x)
    (ha : x.act = .write rank cells) : exec (.timedWriteLanding id) s = .next ((s.unschedule id).landAs (s.core x.core).world cells) := by
  rw [exec_timedWriteLanding_eq]
  simp only [execTimedWriteLanding, h, ha]
theorem exec_timedChunkLanding_chunk {s : State} {id : Nat} {cells : List Host.Cell} {x : Timed} (h : s.timed id = some x)
    (ha : x.act = .chunkLand cells) : exec (.timedChunkLanding id) s = .next ((s.unschedule id).landAs (s.core x.core).world cells) := by
  rw [exec_timedChunkLanding_eq]
  simp only [execTimedChunkLanding, h, ha]
theorem exec_drainRowLanding_cb {s : State} {id : Nat} {cells : List Host.Cell} {x : Timed} (h : s.timed id = some x)
    (ha : x.act = .drainCb cells) : exec (.drainRowLanding id) s = .next ((s.unschedule id).timedWrite cells) := by
  rw [exec_drainRowLanding_eq]
  simp only [execDrainRowLanding, h, ha]
theorem exec_drainRowLanding_sb {s t : State} {id k reg row sel call : Nat} {rows : List (List (BitVec 32))} {x : Timed}
    (h : s.timed id = some x) (ha : x.act = .drainSb k reg row sel rows call)
    (hr : (s.unschedule id).addRows x.core reg row sel rows = some t) : exec (.drainRowLanding id) s = .next t := by
  rw [exec_drainRowLanding_eq, execDrainRowLanding]
  -- under a name of its own, so that the kernel does not evaluate it
  obtain ⟨added, e⟩ : ∃ f, f = State.addRows := ⟨_, rfl⟩
  rw [← e] at hr ⊢
  simp only [h, ha, hr]

/-- A pair of rows that is refused takes the later pairs of its call with it, and leaves a record. -/
theorem exec_drainRowLanding_refused {s : State} {id k reg row sel call : Nat} {rows : List (List (BitVec 32))} {x : Timed}
    (h : s.timed id = some x) (ha : x.act = .drainSb k reg row sel rows call)
    (hr : (s.unschedule id).addRows x.core reg row sel rows = none) :
    ∃ l : List Timed, exec (.drainRowLanding id) s =
        .next (({ s with calendar := l } : State).holdOverflow x.core k x.frond (saPtr reg row sel) false) ∧
      ∀ y, y ∈ l ↔ y ∈ s.calendar ∧ y.id ≠ id ∧
        ¬ (y.core = x.core ∧ ∃ k reg row sel rows, y.act = .drainSb k reg row sel rows call) := by
  refine ⟨(s.unschedule id).calendar.filter (fun q => match q.act with
    | .drainSb _ _ _ _ _ call' => decide (¬ (q.core = x.core ∧ call' = call)) | _ => true), ?_, fun y => ?_⟩
  · rw [exec_drainRowLanding_eq, execDrainRowLanding]
    obtain ⟨added, e⟩ : ∃ f, f = State.addRows := ⟨_, rfl⟩
    rw [← e] at hr ⊢
    simp only [h, ha, hr]
    rfl
  · rw [List.mem_filter, State.unschedule_calendar, List.mem_filter, and_assoc, decide_eq_true_eq]
    cases y.act <;> simp [imp_iff_not_or]

/-- A held record joins a context that is still owed it (R284), and nothing else changes. -/
theorem State.holdOverflow_keeps (s : State) (c k f : Nat) (v : Word) (fold : Bool) : KeepsRegsAndMemory s (s.holdOverflow c k f v fold) := by
  refine keeps_updCtx s c k _ ?_
  split
  · exact sameRegs_refl _
  · split <;> exact ⟨rfl, rfl, rfl, rfl, rfl, rfl, rfl, rfl, rfl, rfl, rfl, rfl, rfl, rfl, rfl, rfl⟩
theorem State.overflow_holdOverflow (s : State) (c k f : Nat) (v : Word) (fold : Bool) (h : s.keeps f c k = true) :
    ((s.holdOverflow c k f v fold).ctx c k).overflow = some (match (s.ctx c k).overflow with
      | none => { count := 0, xval := v, fold := fold }
      | some x => { x with count := x.count + 1 }) := by
  rw [State.holdOverflow, State.ctx_updCtx_self]
  cases e : (s.ctx c k).overflow <;> simp [h]

end Sys2Proof.Machine
end

section
/-! SUPPORT. Rows added into a region of the stream accumulator (12 R226, R254 to R260; 11 R242, R243): where the fields of a row lie,
which cells an add writes, and what the region's elements and sums of squares read after it. -/

namespace Sys2Proof.Machine

/-! ### SA pointers and their checks (R255, R257) -/

theorem saPtr_toNat {reg row el : Nat} (hr : reg < 2 ^ 18) (hw : row < 2 ^ 13) (he : el < 2 ^ 13) :
    (saPtr reg row el).toNat = reg + row * 2 ^ 27 + el * 2 ^ 40 := by
  rw [saPtr, BitVec.toNat_ofNat]
  omega
theorem saPtr_fields {reg row el : Nat} (hr : reg < 2 ^ 18) (hw : row < 2 ^ 13) (he : el < 2 ^ 13) :
    saReg (saPtr reg row el).toNat = reg ∧ saRow (saPtr reg row el).toNat = row ∧ saElem (saPtr reg row el).toNat = el := by
  rw [saPtr_toNat hr hw he, saReg, saRow, saElem]
  omega
/-- An add that raises no fault lies within its region. -/
theorem fits_of_saFault_add {rd : Nat → Byte} {p cnt rows n : Nat} (h : saFault rd p .add cnt rows n = 0) :
    saRow p + rows ≤ (descAt rd (saReg p)).nrow ∧ saElem p + cnt ≤ (descAt rd (saReg p)).nel := by
  unfold saFault at h
  extract_lets seal_ d r0 group at h
  have hu : seal_ = false := by decide
  by_contra hn
  have h3 : d.nrow ≤ r0 ∨ seal_ = false ∧ (d.nrow < r0 + rows ∨ d.nel < saElem p + cnt) := by
    simp only [hu, true_and, r0, d]
    omega
  rw [if_pos h3] at h
  split at h
  · cases h
  · split at h <;> cases h

/-! ### Fields of a row (R254) -/

theorem descAt_stride (rd : Nat → Byte) (reg : Nat) : 32 + 6 * (descAt rd reg).nel ≤ (descAt rd reg).rstride := by
  show 32 + 6 * (descAt rd reg).nel ≤ 64 * ((32 + 6 * (descAt rd reg).nel + 64 - 1) / 64)
  omega
/-- Rows lie apart. -/
theorem SaDesc.row_unique (d : SaDesc) {r r' o : Nat} (h : d.row r ≤ o ∧ o < d.row r + d.rstride)
    (h' : d.row r' ≤ o ∧ o < d.row r' + d.rstride) : r = r' := by
  have apart {a b : Nat} (h : a < b) : d.row a + d.rstride ≤ d.row b := by
    have := Nat.mul_le_mul_right d.rstride (Nat.succ_le_of_lt h)
    rw [Nat.succ_mul] at this
    simp only [SaDesc.row]
    omega
  rcases Nat.lt_trichotomy r r' with hr | hr | hr
  · have := apart hr; omega
  · exact hr
  · have := apart hr; omega

/-! ### The cells of an added row (R226, R260) -/

/-- Element j of the places from e0, with its addend. -/
def addedElem (rd : Nat → Byte) (d : SaDesc) (r e0 : Nat) (y : Nat → Int) (j : Nat) : Int :=
  s48Val (sbNat rd (d.elem r (e0 + j)) 6) + y j
/-- The sum of squares of a row after n addends. -/
def addedSquares (rd : Nat → Byte) (d : SaDesc) (r e0 : Nat) (y : Nat → Int) (n : Nat) : Int :=
  (sbNat rd (d.row r) 16 : Int) +
    (List.range n).foldl (fun a j => a + 2 * s48Val (sbNat rd (d.elem r (e0 + j)) 6) * y j + y j * y j) 0
/-- The cells of the elements of a row after n addends. -/
def addedElems (rd : Nat → Byte) (c : Nat) (d : SaDesc) (r e0 : Nat) (y : Nat → Int) (n : Nat) : List Host.Cell :=
  (List.range n).flatMap (fun j => sbCells c (d.elem r (e0 + j)) 6 (wrapN 48 (addedElem rd d r e0 y j)))
/-- Those cells, and the cells of its sum of squares. -/
def addedCells (rd : Nat → Byte) (c : Nat) (d : SaDesc) (r e0 : Nat) (y : Nat → Int) (n : Nat) : List Host.Cell :=
  addedElems rd c d r e0 y n ++ sbCells c (d.row r) 16 (wrapN 128 (addedSquares rd d r e0 y n))

theorem addedSquares_zero (rd : Nat → Byte) (d : SaDesc) (r e0 : Nat) (y : Nat → Int) :
    addedSquares rd d r e0 y 0 = sbNat rd (d.row r) 16 := Int.add_zero _
theorem addedElems_zero (rd : Nat → Byte) (c : Nat) (d : SaDesc) (r e0 : Nat) (y : Nat → Int) : addedElems rd c d r e0 y 0 = [] := rfl
theorem addedSquares_succ (rd : Nat → Byte) (d : SaDesc) (r e0 : Nat) (y : Nat → Int) (n : Nat) :
    addedSquares rd d r e0 y (n + 1) =
      addedSquares rd d r e0 y n + 2 * s48Val (sbNat rd (d.elem r (e0 + n)) 6) * y n + y n * y n := by
  rw [addedSquares, addedSquares, List.range_succ, List.foldl_append, List.foldl_cons, List.foldl_nil, Int.add_assoc, Int.add_assoc,
    Int.add_assoc]
theorem addedElems_succ (rd : Nat → Byte) (c : Nat) (d : SaDesc) (r e0 : Nat) (y : Nat → Int) (n : Nat) :
    addedElems rd c d r e0 y (n + 1) =
      addedElems rd c d r e0 y n ++ sbCells c (d.elem r (e0 + n)) 6 (wrapN 48 (addedElem rd d r e0 y n)) := by
  rw [addedElems, addedElems, List.range_succ, List.flatMap_append, List.flatMap_cons, List.flatMap_nil, List.append_nil]
theorem saAddElem_of_fits {x ss y sc : Int} {v : Num} (hs : toS48 v sc = some y) (hy : inS48 y = true) (hx : inS48 (x + y) = true) :
    saAddElem x ss v sc = some (x + y, ss + 2 * x * y + y * y) := by simp [saAddElem, hs, hy, hx]

/-- Addends that convert, each in range and with its sum in range, are all added. -/
theorem addRow_of_fits (rd : Nat → Byte) (c : Nat) (d : SaDesc) (r e0 : Nat) (y : Nat → Int) (vals : List Num)
    (h : ∀ j (hj : j < vals.length), toS48 vals[j] d.sc = some (y j) ∧ inS48 (y j) = true ∧ inS48 (addedElem rd d r e0 y j) = true) :
    addRow rd c d r e0 vals = .ok (addedCells rd c d r e0 y vals.length) := by
  unfold addRow
  extract_lets step
  have added : ∀ n ≤ vals.length, (vals.take n).foldl step (.ok (0, (sbNat rd (d.row r) 16 : Int), [])) =
      .ok (n, addedSquares rd d r e0 y n, addedElems rd c d r e0 y n) := by
    intro n hn
    induction n with
    | zero => rw [List.take_zero, List.foldl_nil, addedSquares_zero, addedElems_zero]
    | succ n ih =>
      obtain ⟨hs, hy, hx⟩ := h n hn
      rw [List.take_succ_eq_append_getElem hn, List.foldl_append, ih (by omega)]
      rw [List.foldl_cons, List.foldl_nil, addedSquares_succ, addedElems_succ]
      simp only [step, saAddElem_of_fits hs hy hx]
      rfl
  rw [← List.take_length (l := vals), added _ le_rfl, List.take_length]
  rfl

theorem mem_sbCells {c off n v a : Nat} {b : Byte} :
    (a, b) ∈ sbCells c off n v ↔ ∃ k < n, a = bufAddr c .sb (off + k) ∧ b = BitVec.ofNat 8 (v / 2 ^ (8 * k)) := by
  simp only [sbCells, cellsAt, List.mem_map, List.mem_range, Prod.mk.injEq, bufAddr, Nat.add_assoc, eq_comm]
theorem mem_addedCells {rd : Nat → Byte} {c : Nat} {d : SaDesc} {r e0 n a : Nat} {y : Nat → Int} {b : Byte} :
    (a, b) ∈ addedCells rd c d r e0 y n ↔
      (∃ j < n, ∃ k < 6, a = bufAddr c .sb (d.elem r (e0 + j) + k) ∧ b = BitVec.ofNat 8 (wrapN 48 (addedElem rd d r e0 y j) / 2 ^ (8 * k))) ∨
      ∃ k < 16, a = bufAddr c .sb (d.row r + k) ∧ b = BitVec.ofNat 8 (wrapN 128 (addedSquares rd d r e0 y n) / 2 ^ (8 * k)) := by
  simp only [addedCells, addedElems, List.mem_append, List.mem_flatMap, List.mem_range, mem_sbCells]

theorem bufAddr_inj {c o o' : Nat} {b : Buf} (h : bufAddr c b o = bufAddr c b o') : o = o' := by
  simpa [bufAddr] using h
/-- The cells of an added row lie within the row. -/
theorem within_of_mem_addedCells {rd : Nat → Byte} {c : Nat} {d : SaDesc} {r e0 n a : Nat} {y : Nat → Int} {b : Byte}
    (hd : 32 + 6 * d.nel ≤ d.rstride) (he : e0 + n ≤ d.nel) (h : (a, b) ∈ addedCells rd c d r e0 y n) :
    ∃ o, a = bufAddr c .sb o ∧ d.row r ≤ o ∧ o < d.row r + d.rstride := by
  rcases mem_addedCells.1 h with ⟨j, hj, k, hk, rfl, -⟩ | ⟨k, hk, rfl, -⟩
  · refine ⟨_, rfl, ?_⟩
    simp only [SaDesc.elem]
    omega
  · exact ⟨_, rfl, by omega, by omega⟩
/-- No two cells of an added row differ about a byte. -/
theorem addedCells_agree {rd : Nat → Byte} {c : Nat} {d : SaDesc} {r e0 n a : Nat} {y : Nat → Int} {b b' : Byte}
    (h : (a, b) ∈ addedCells rd c d r e0 y n) (h' : (a, b') ∈ addedCells rd c d r e0 y n) : b' = b := by
  rcases mem_addedCells.1 h with ⟨j, hj, k, hk, rfl, rfl⟩ | ⟨k, hk, rfl, rfl⟩ <;>
    rcases mem_addedCells.1 h' with ⟨j', hj', k', hk', e, rfl⟩ | ⟨k', hk', e, rfl⟩ <;>
    have e := bufAddr_inj e
  · simp only [SaDesc.elem] at e
    obtain rfl : j = j' := by omega
    obtain rfl : k = k' := by omega
    rfl
  · simp only [SaDesc.elem] at e
    omega
  · simp only [SaDesc.elem] at e
    omega
  · obtain rfl : k = k' := by omega
    rfl

/-! ### Reading fields back -/

theorem sbNat_eq_of_bytes {s : State} {c off n v : Nat}
    (h : ∀ k < n, s.byte (bufAddr c .sb (off + k)) = BitVec.ofNat 8 (v / 2 ^ (8 * k))) : sbNat (s.sb c) off n = v % 2 ^ (8 * n) := by
  rw [← leNat_map_range, sbNat]
  exact congrArg leNat (List.map_congr_left (fun k hk => h k (List.mem_range.1 hk)))
/-- An element in range is read back from its 48 bits. -/
theorem s48Val_wrapN {x : Int} (h : inS48 x = true) : s48Val (wrapN 48 x % 2 ^ (8 * 6)) = x := by
  simp only [inS48, decide_eq_true_eq] at h
  have e : (x % 2 ^ 48).toNat % 2 ^ (8 * 6) % 2 ^ 48 = (x % 2 ^ 48).toNat := by omega
  rw [s48Val, wrapN, e]
  by_cases hx : 2 ^ 47 ≤ (x % 2 ^ 48).toNat
  · rw [if_pos hx]
    omega
  · rw [if_neg hx]
    omega
theorem wrapN_128 (x : Int) : ((wrapN 128 x % 2 ^ (8 * 16) : Nat) : Int) = x % 2 ^ 128 := by
  simp only [wrapN]
  omega

/-- Where the cells of an added row stand in memory, its elements are the sums, and its sum of squares the new one. -/
theorem s48Val_elem_of_addedCells {rd : Nat → Byte} {t : State} {c : Nat} {d : SaDesc} {r e0 n j : Nat} {y : Nat → Int}
    (h : ∀ a b, (a, b) ∈ addedCells rd c d r e0 y n → t.byte a = b) (hj : j < n) (hx : inS48 (addedElem rd d r e0 y j) = true) :
    s48Val (sbNat (t.sb c) (d.elem r (e0 + j)) 6) = addedElem rd d r e0 y j := by
  rw [sbNat_eq_of_bytes (fun k hk => h _ _ (mem_addedCells.2 (.inl ⟨j, hj, k, hk, rfl, rfl⟩))), s48Val_wrapN hx]
theorem sbNat_row_of_addedCells {rd : Nat → Byte} {t : State} {c : Nat} {d : SaDesc} {r e0 n : Nat} {y : Nat → Int}
    (h : ∀ a b, (a, b) ∈ addedCells rd c d r e0 y n → t.byte a = b) :
    (sbNat (t.sb c) (d.row r) 16 : Int) = addedSquares rd d r e0 y n % 2 ^ 128 := by
  rw [sbNat_eq_of_bytes (fun k hk => h _ _ (mem_addedCells.2 (.inr ⟨k, hk, rfl, rfl⟩))), wrapN_128]

/-! ### A pair of rows (R242, R260) -/

/-- The cells of a pair of rows, each with n addends from element sel. -/
def pairCells (rd : Nat → Byte) (c : Nat) (d : SaDesc) (row sel : Nat) (y : Nat → Nat → Int) (n : Nat) : List Host.Cell :=
  addedCells rd c d (row + 0) sel (y 0) n ++ addedCells rd c d (row + 1) sel (y 1) n

theorem mem_pairCells {rd : Nat → Byte} {c : Nat} {d : SaDesc} {row sel n : Nat} {y : Nat → Nat → Int} {x : Host.Cell} :
    x ∈ pairCells rd c d row sel y n ↔ ∃ i < 2, x ∈ addedCells rd c d (row + i) sel (y i) n := by
  rw [pairCells, List.mem_append]
  constructor
  · rintro (h | h)
    · exact ⟨0, by omega, h⟩
    · exact ⟨1, by omega, h⟩
  · rintro ⟨i, hi, h⟩
    obtain rfl | rfl : i = 0 ∨ i = 1 := by omega
    · exact .inl h
    · exact .inr h
/-- After the cells of a pair of rows are written, each of them is read back. -/
theorem State.byte_writeCells_pairCells (s : State) {rd : Nat → Byte} {c : Nat} {d : SaDesc} {row sel n i a : Nat} {y : Nat → Nat → Int}
    {b : Byte} (hd : 32 + 6 * d.nel ≤ d.rstride) (he : sel + n ≤ d.nel) (hi : i < 2) (h : (a, b) ∈ addedCells rd c d (row + i) sel (y i) n) :
    (s.writeCells (pairCells rd c d row sel y n)).byte a = b := by
  refine s.byte_writeCells_of_agree (mem_pairCells.2 ⟨i, hi, h⟩) (fun b' hb => ?_)
  obtain ⟨i', hi', h'⟩ := mem_pairCells.1 hb
  obtain ⟨o, rfl, ho⟩ := within_of_mem_addedCells hd he h
  obtain ⟨o', e, ho'⟩ := within_of_mem_addedCells hd he h'
  obtain rfl := bufAddr_inj e
  obtain rfl : i = i' := by have := d.row_unique ho ho'; omega
  exact addedCells_agree h h'

/-- A pair of rows that passes the check and whose addends fit is added. -/
theorem State.addRows_pair {s : State} {c reg row sel : Nat} {l0 l1 : List (BitVec 32)} {k0 k1 : List Host.Cell}
    (hf : saFault (s.sb c) (saPtr reg row sel).toNat .add l0.length 2 1 = 0)
    (h0 : addRow (s.sb c) c (descAt (s.sb c) reg) (row + 0) sel (l0.map (fun x => decodeF f32Fmt x.toNat)) = .ok k0)
    (h1 : addRow (s.sb c) c (descAt (s.sb c) reg) (row + 1) sel (l1.map (fun x => decodeF f32Fmt x.toNat)) = .ok k1) :
    s.addRows c reg row sel [l0, l1] = some (s.saApply c (k0 ++ k1)) := by
  unfold State.addRows
  extract_lets rd d add
  rw [if_neg (by simpa using hf), List.foldl_cons, List.foldl_cons, List.foldl_nil]
  simp only [add, rd, d, h0, Nat.zero_add, h1, List.nil_append, Option.map_some]

theorem State.byte_saApply (s : State) (c : Nat) (l : List Host.Cell) (a : Nat) : (s.saApply c l).byte a = (s.writeCells l).byte a := by
  rw [State.saApply, State.byte_timedWrite]
  exact State.byte_of_mem_eq (State.writeCells_mem_congr (State.updCore_mem ..) l) a
theorem State.saApply_calendar (s : State) (c : Nat) (l : List Host.Cell) : (s.saApply c l).calendar = s.calendar :=
  State.timedWrite_calendar _ l
theorem State.ctx_saApply (s : State) (c : Nat) (l : List Host.Cell) (d k : Nat) : (s.saApply c l).ctx d k = s.ctx d k := by
  rw [State.saApply, State.ctx_timedWrite, State.ctx, State.core_updCore]
  split
  · rename_i e; subst e; rfl
  · rfl

end Sys2Proof.Machine
end

section
/-! Settles O37: each clause of the statement from the equations of its event and the rules above. -/

namespace Sys2Proof.Machine

/-- A pair of rows in SB add mode: its answer, and what the region reads after it. -/
theorem drainRowLanding_adds {s : State} {id k reg row sel call : Nat} {l0 l1 : List (BitVec 32)} {x : Timed} {y : Nat → Nat → Int}
    (hx : s.timed id = some x) (ha : x.act = .drainSb k reg row sel [l0, l1] call) (h0 : l0.length = 64) (h1 : l1.length = 64)
    (hreg : reg < 2 ^ 18) (hrow : row < 2 ^ 13) (hsel : sel < 2 ^ 13)
    (hf : saFault (s.sb x.core) (saPtr reg row sel).toNat .add 64 2 1 = 0)
    (hy : ∀ i < 2, ∀ j < 64,
      toS48 (decodeF f32Fmt ((if i = 0 then l0 else l1).getD j 0).toNat) (descAt (s.sb x.core) reg).sc = some (y i j) ∧
        inS48 (y i j) = true ∧ inS48 (addedElem (s.sb x.core) (descAt (s.sb x.core) reg) (row + i) sel (y i) j) = true) :
    ∃ t, exec (.drainRowLanding id) s = .next t ∧ t.calendar = s.calendar.filter (fun y => decide (y.id ≠ id)) ∧
      (∀ c k, t.ctx c k = s.ctx c k) ∧
      (∀ i < 2, ∀ a b, (a, b) ∈ addedCells (s.sb x.core) x.core (descAt (s.sb x.core) reg) (row + i) sel (y i) 64 → t.byte a = b) ∧
      ∀ a, (∀ i < 2, ∀ b, (a, b) ∉ addedCells (s.sb x.core) x.core (descAt (s.sb x.core) reg) (row + i) sel (y i) 64) →
        t.byte a = s.byte a := by
  obtain ⟨-, hsize⟩ := fits_of_saFault_add hf
  obtain ⟨e1, -, e3⟩ := saPtr_fields hreg hrow hsel
  rw [e1, e3] at hsize
  have added (i : Nat) (hi : i < 2) (l : List (BitVec 32)) (hl : l.length = 64) (he : l = if i = 0 then l0 else l1) :
      addRow (s.sb x.core) x.core (descAt (s.sb x.core) reg) (row + i) sel (l.map (fun z => decodeF f32Fmt z.toNat)) =
        .ok (addedCells (s.sb x.core) x.core (descAt (s.sb x.core) reg) (row + i) sel (y i) 64) := by
    rw [addRow_of_fits (y := y i), List.length_map, hl]
    intro j hj
    rw [List.length_map] at hj
    have := hy i hi j (hl ▸ hj)
    rwa [← he, List.getD_eq_getElem _ _ hj, ← List.getElem_map (fun z : BitVec 32 => decodeF f32Fmt z.toNat)] at this
  have hrows := State.addRows_pair (s := s.unschedule id) (c := x.core) (by rwa [h0]) (added 0 (by omega) l0 h0 rfl) (added 1 (by omega) l1 h1 rfl)
  refine ⟨_, exec_drainRowLanding_sb hx ha hrows, State.saApply_calendar .., fun c k => State.ctx_saApply .., fun i hi a b hm => ?_,
    fun a hn => ?_⟩
  · rw [State.byte_saApply]
    exact State.byte_writeCells_pairCells _ (descAt_stride ..) hsize hi hm
  · rw [State.byte_saApply, State.byte_writeCells_of_not_mem]
    · rfl
    · rintro ⟨a', b⟩ hc rfl
      obtain ⟨i, hi, hm⟩ := mem_pairCells.1 hc
      exact hn i hi b hm

/-- Bytes that land for a world: the cells are read back, and the rest is as the world saw it. -/
theorem landAs_lands (s : State) (id w : Nat) {cells : List Host.Cell} (hn : (cells.map Prod.fst).Nodup) :
    ((s.unschedule id).landAs w cells).calendar = s.calendar.filter (fun y => decide (y.id ≠ id)) ∧
    (∀ a b, (a, b) ∈ cells → ((s.unschedule id).landAs w cells).byte a = b) ∧
    KeepsOthers s ((s.unschedule id).landAs w cells) w (cells.map Prod.fst) ∧
    ∀ c k, SameRegs (s.ctx c k) (((s.unschedule id).landAs w cells).ctx c k) := by
  refine ⟨State.landAs_calendar .., fun a b h => State.byte_landAs_of_nodup _ _ hn h, ⟨fun a ha => ?_, seesOwn s w _⟩, fun c k => ?_⟩
  · rw [(State.keepsOthers_landAs (s.unschedule id) w cells).1 a ha]
    exact State.byte_seenBy_congr (s := s) (t := s.unschedule id) rfl rfl rfl w _ a
  · rw [State.ctx_landAs]
    exact sameRegs_refl _

/-- Settles O37: every event that falls due answers a next state by its own equation, and the registers, queues, bytes and calendar of
that state are read by the rules of their writers. (That a delivery for a context that no longer runs the item is dropped is log 48.) -/
theorem landingsTakeEffect : Obligations.LandingsTakeEffect := by
  unfold Obligations.LandingsTakeEffect
  intro s core ctx id bank x c due left w lands
  refine ⟨?result, ?delivery, ?wake, ?sample, ?chunkRead, ?write, ?chunk, ?cb, ?rows, ?refused⟩
  case result =>
    intro r v hr hv hb
    obtain ⟨t, ht, hm, hne, y⟩ := exec_resultLanding hr hv hb
    obtain ⟨g, a, p, v', m, e⟩ := c.writeReg_eq r.file r.reg r.width v
    refine ⟨t, ht, State.byte_of_mem_eq hm, fun d k h => hne d k h ▸ sameRegs_refl _, fun n => ?_, fun n => ?_, fun n => ?_, fun n hn => ?_,
      fun n b => ?_, ?_, ?_, ?_, ?_⟩
    · rw [y.g, Ctx.get_writeReg_g]
    · rw [y.a, Ctx.get_writeReg_a]
    · rw [y.m, Ctx.get_writeReg_m]
    · rw [y.p, Ctx.getLsbD_writeReg_p _ _ _ _ _ _ hn]
    · rw [y.v, Ctx.getLsbD_writeReg_v]
    · rw [y.lay, e]
    · rw [y.ltrip, e]
    · rw [y.lpass, e]
    · rw [y.lrot, e]
  case delivery =>
    intro k q e hx ha
    refine ⟨_, exec_queueDelivery hx ha, ?_⟩
    by_cases hk : s.keeps x.frond x.core k = true
    · rw [if_pos hk]
      refine ⟨keeps_trans (s.unschedule_keeps id) (State.deliver_keeps ..), rfl, fun _ => ⟨State.q_deliver .., State.owes_deliver ..⟩,
        fun h => absurd (hk.symm.trans h) (by decide)⟩
    · rw [if_neg hk]
      exact ⟨s.unschedule_keeps id, rfl, fun h => absurd h hk, fun _ _ => rfl⟩
  case wake =>
    intro h1 h3
    refine ⟨_, exec_bankWakeDone_eq .., ?_⟩
    rw [State.ctx_updCtx_self]
    obtain ⟨b1, b2, b3, e⟩ := c.wakeBank_eq bank
    refine ⟨fun n => ?_, ?_, ?_, ?_, ?_, ?_, ?_, fun _ => rfl⟩
    · rw [e]
      exact c.get_loseBank bank n
    · rw [Ctx.bankOf_wakeBank]
    · rw [Ctx.bankOf_wakeBank]
    all_goals rw [e]; rfl
  case sample =>
    intro pa n k rid hx ha hf
    exact ⟨_, exec_timedReadSample_result hx ha hf, keeps_trans (s.unschedule_keeps id) (State.fill_keeps ..), rfl, seesOwn s w _,
      fun r hr hid => State.value_fill _ _ _ _ _ hr hid⟩
  case chunkRead =>
    intro moves land y cells hx ha hf hm hne hy hc
    refine ⟨_, exec_timedReadSample_chunk hx ha hf hm, keeps_trans (s.unschedule_keeps id) (State.fillTimed_keeps ..), seesOwn s w _, ?_⟩
    rw [State.timed_fillTimed, State.timed_unschedule_ne s hne, hy, Option.map_some, hc]
    rfl
  case write =>
    intro rank cells hx ha hn
    exact ⟨_, exec_timedWriteLanding_write hx ha, landAs_lands s id w hn⟩
  case chunk =>
    intro cells hx ha hn
    exact ⟨_, exec_timedChunkLanding_chunk hx ha, landAs_lands s id w hn⟩
  case cb =>
    intro cells hx ha hn
    refine ⟨_, exec_drainRowLanding_cb hx ha, State.timedWrite_calendar .., fun a b h => State.byte_writeCells_of_nodup _ hn h, fun a h => ?_,
      fun c k => ?_⟩
    · rw [State.byte_timedWrite, State.byte_writeCells_of_not_mem]
      · rfl
      · rintro d hd rfl
        exact h (List.mem_map_of_mem hd)
    · rw [State.ctx_timedWrite]
      exact sameRegs_refl _
  case rows =>
    intro k reg row sel l0 l1 call hx ha h0 h1 hreg hrow hsel hf d el ss y hy
    obtain ⟨t, ht, hl, hr, hin, hout⟩ := drainRowLanding_adds hx ha h0 h1 hreg hrow hsel hf hy
    refine ⟨t, ht, hl, fun c k => hr c k ▸ sameRegs_refl _, fun i hi => ⟨fun j hj => ?_, ?_⟩, fun b hb => hout b (fun i hi v hm => ?_)⟩
    · exact s48Val_elem_of_addedCells (hin i hi) hj (hy i hi j hj).2.2
    · exact sbNat_row_of_addedCells (hin i hi)
    · obtain ⟨hrow, helem⟩ := hb i hi
      rcases mem_addedCells.1 hm with ⟨j, hj, n, hn, e, -⟩ | ⟨n, hn, e, -⟩
      · exact helem j hj n hn e
      · exact hrow n hn e
  case refused =>
    intro k reg row sel rows call hx ha hr
    obtain ⟨l, ht, hl⟩ := exec_drainRowLanding_refused hx ha hr
    exact ⟨_, ht, keeps_trans (keeps_of_eq rfl rfl) (State.holdOverflow_keeps ..), fun hk => State.overflow_holdOverflow _ _ _ _ _ _ hk, hl⟩

end Sys2Proof.Machine
end

section
/-! SUPPORT. Folds over states, and sparse maps as lists: what every step of a fold keeps or makes true, and which keys are listed. -/

namespace Sys2Proof.Machine

/-! ### Folds -/

section
variable {σ α β : Type} {g : σ → α → σ} {l : List α} {s : σ}

/-- What every step of a fold keeps, the fold keeps. -/
theorem foldl_keeps (P : σ → β) (g : σ → α → σ) (l : List α) (s : σ) (h : ∀ t a, P (g t a) = P t) : P (l.foldl g s) = P s := by
  induction l generalizing s with
  | nil => rfl
  | cons a r ih => rw [List.foldl_cons, ih, h]
/-- What every step of a fold keeps true, the fold keeps true. -/
theorem foldl_invariant {P : σ → Prop} (h0 : P s) (h : ∀ t, ∀ a ∈ l, P t → P (g t a)) : P (l.foldl g s) := by
  induction l generalizing s with
  | nil => exact h0
  | cons a r ih => exact ih (h s a (List.mem_cons_self ..) h0) (fun t b hb => h t b (List.mem_cons_of_mem _ hb))
/-- What one step of a fold makes true, and every step keeps true, is true after the fold. -/
theorem foldl_establishes {P : σ → Prop} {a : α} (ha : a ∈ l) (h1 : ∀ t, P (g t a)) (h : ∀ t, ∀ b ∈ l, P t → P (g t b)) : P (l.foldl g s) := by
  induction l generalizing s with
  | nil => cases ha
  | cons b r ih =>
    rcases List.mem_cons.1 ha with rfl | hr
    · exact foldl_invariant (s := g s a) (l := r) (h1 s) (fun t c hc => h t c (List.mem_cons_of_mem _ hc))
    · exact ih hr (fun t c hc => h t c (List.mem_cons_of_mem _ hc))
/-- A fold that comes to a step from a state of the first kind leaves a state of the second kind, once the step does and every step keeps it. -/
theorem foldl_reaches {P Q : σ → Prop} {a : α} (ha : a ∈ l) (h0 : P s) (h1 : ∀ t, P t → Q (g t a)) (hp : ∀ t b, b ≠ a → P t → P (g t b))
    (hq : ∀ t b, Q t → Q (g t b)) : Q (l.foldl g s) := by
  induction l generalizing s with
  | nil => cases ha
  | cons b r ih =>
    by_cases hb : b = a
    · subst hb
      exact foldl_invariant (s := g s b) (l := r) (h1 s h0) (fun t c _ => hq t c)
    · exact ih ((List.mem_cons.1 ha).resolve_left (Ne.symm hb)) (hp s b hb h0)
end

/-! ### Sparse maps as lists -/

theorem SMap.get_map {α : Type} {d : α} (m : SMap α) (f : α → α) (hd : f d = d) (k : Nat) :
    SMap.get d (m.map (fun e => (e.1, f e.2))) k = f (SMap.get d m k) := by
  induction m with
  | nil => exact hd.symm
  | cons e r ih =>
    rw [List.map_cons, SMap.get, SMap.get, ih]
    split <;> rfl
/-- A relation that holds between every value and what it becomes, and of what an unlisted key reads as, holds between what a key reads as before and
after. -/
theorem SMap.rel_get_map {α : Type} {d : α} {R : α → α → Prop} (m : SMap α) (f : Nat × α → Nat × α) (hd : R d d)
    (hf : ∀ e, (f e).1 = e.1 ∧ R e.2 (f e).2) (k : Nat) : R (SMap.get d m k) (SMap.get d (m.map f) k) := by
  induction m with
  | nil => exact hd
  | cons e r ih =>
    rw [List.map_cons, SMap.get, SMap.get, (hf e).1]
    split
    · exact (hf e).2
    · exact ih
/-- A key that does not read as an unlisted one is listed. -/
theorem SMap.mem_of_get_ne {α : Type} {d : α} {m : SMap α} {k : Nat} (h : SMap.get d m k ≠ d) : (k, SMap.get d m k) ∈ m := by
  induction m with
  | nil => exact absurd rfl h
  | cons e r ih =>
    rw [SMap.get] at h ⊢
    split at h
    · rename_i e1
      rw [if_pos e1, ← e1]
      exact List.mem_cons_self ..
    · rename_i e1
      rw [if_neg e1]
      exact List.mem_cons_of_mem _ (ih h)

end Sys2Proof.Machine
end

section
/-! SUPPORT. Packets, queues and worlds after an update (04 R85 to R106): the rules that statements about command packets go by. -/

namespace Sys2Proof.Machine

/-! ### Packets -/

theorem State.packet_id {s : State} {id : Nat} {p : Packet} (h : s.packet id = some p) : p.id = id := by
  simpa using List.find?_some h
theorem State.packet_of_packets_eq {s t : State} (h : t.packets = s.packets) (n : Nat) : t.packet n = s.packet n := by
  rw [State.packet, State.packet, h]
/-- A packet after all have been changed, each keeping its number. -/
theorem State.packet_map {s t : State} {f : Packet → Packet} (h : t.packets = s.packets.map f) (hf : ∀ q, (f q).id = q.id) (n : Nat) :
    t.packet n = (s.packet n).map f := by
  rw [State.packet, h, List.find?_map]
  exact congrArg (Option.map f) (List.find?_congr (fun q _ => by simp [hf q]))
/-- A packet after one has been changed. -/
theorem State.packet_updPacket {s : State} {id : Nat} {p : Packet} {f : Packet → Packet} (h : s.packet id = some p) (hf : ∀ q, (f q).id = q.id) :
    (s.updPacket id f).packet id = some (f p) := by
  rw [State.packet_map (s := s) rfl (fun q => by split <;> simp [hf]), h]
  simp [State.packet_id h]
theorem State.packet_updPacket_ne (s : State) {id n : Nat} (f : Packet → Packet) (hf : ∀ q, (f q).id = q.id) (h : n ≠ id) :
    (s.updPacket id f).packet n = s.packet n := by
  rw [State.packet_map (s := s) rfl (fun q => by split <;> simp [hf])]
  cases hq : s.packet n with
  | none => rfl
  | some q => simp [State.packet_id hq, h]
@[simp] theorem Packet.finish_id (p : Packet) (status aux : Nat) (force : Bool) : (p.finish status aux force).id = p.id := rfl
theorem State.packet_endPacket {s : State} {id : Nat} {p : Packet} (h : s.packet id = some p) (status aux : Nat) (force : Bool) :
    (s.endPacket id status aux force).packet id = some (p.finish status aux force) :=
  State.packet_updPacket h (fun _ => rfl)
theorem State.packet_endPacket_ne (s : State) {id n : Nat} (h : n ≠ id) (status aux : Nat) (force : Bool) :
    (s.endPacket id status aux force).packet n = s.packet n :=
  State.packet_updPacket_ne s _ (fun _ => rfl) h
theorem State.endPacket_keeps (s : State) (id status aux : Nat) (force : Bool) :
    KeepsRegsAndMemory s (s.endPacket id status aux force) := keeps_of_eq rfl rfl

/-! ### Packets that are due (R87) -/

theorem State.starting_of {s : State} {id opc : Nat} {p : Packet} (h : s.packet id = some p) (hst : p.st = .running)
    (ho : pkOpc p.bits = opc) (ha : p.acted = false) : s.starting id opc = some p := by
  simp [State.starting, h, hst, ho, ha]

end Sys2Proof.Machine
end

section
/-! Settles O52 by the rules of packets. -/

namespace Sys2Proof.Machine

theorem exec_partition_eq (id : Nat) (s : State) : exec (.partition id) s = execPartition id s := rfl
/-- R26: a partition command that comes beside a role change, or while a world is loading, is BUSY. -/
theorem exec_partition_busy {s : State} {id : Nat} {p : Packet} (h : s.starting id 0x07 = some p)
    (hb : s.hub.role.isSome ∨ s.worlds.any (fun w => decide (w.2.st = .loading))) :
    exec (.partition id) s = .next (s.endPacket id 0x01) := by
  rw [exec_partition_eq, execPartition, h]
  exact if_pos hb

/-- Settles O52: the role change in progress makes the command end with BUSY, which changes its packet alone. -/
theorem onePartitionCommand : Obligations.OnePartitionCommand := by
  unfold Obligations.OnePartitionCommand
  intro s id p r hp hst ho ha hr
  refine ⟨_, _, exec_partition_busy (State.starting_of hp hst ho ha) (.inl (by simp [hr])), rfl, hr, State.packet_endPacket hp 1 0 false, ?_,
    fun n hn => State.packet_endPacket_ne s hn 1 0 false⟩
  simp [Packet.finish]

end Sys2Proof.Machine
end

section
/-! SUPPORT. Folds of a row of the stream accumulator (12 R254, R265): the cells that a fold writes, and what the row reads after it. -/

namespace Sys2Proof.Machine

/-- The delta of an element as a number (R261). -/
def deltaVal (rd : Nat → Byte) (d : SaDesc) (r e : Nat) : Int := s48Val (sbNat rd (d.delta r e) 6)
/-- The cells that clear the deltas of a row (R265). -/
def clearedCells (c : Nat) (d : SaDesc) (r : Nat) : List Host.Cell := (List.range d.nel).flatMap (fun e => sbCells c (d.delta r e) 6 0)
/-- The byte of a row header that holds UNS and OVF (R256). -/
def SaDesc.flag (d : SaDesc) (c r : Nat) : Nat := bufAddr c .sb (d.row r + 19)

theorem SaDesc.flag_eq (d : SaDesc) (c r : Nat) : bufAddr c .sb (d.row r + 19) = d.flag c r := rfl

theorem mem_clearedCells {c a r : Nat} {d : SaDesc} {b : Byte} :
    (a, b) ∈ clearedCells c d r ↔ ∃ e < d.nel, ∃ k < 6, a = bufAddr c .sb (d.delta r e + k) ∧ b = 0 := by
  simp only [clearedCells, List.mem_flatMap, List.mem_range, mem_sbCells, Nat.zero_div, BitVec.ofNat_eq_ofNat]
/-- The plane lies beyond every row. -/
theorem SaDesc.row_le_delta (d : SaDesc) {r e : Nat} (h : r < d.nrow) : d.row r + d.rstride ≤ d.delta r e := by
  have := Nat.mul_le_mul_right d.rstride (Nat.succ_le_of_lt h)
  rw [Nat.succ_mul] at this
  simp only [SaDesc.row, SaDesc.delta, SaDesc.planeBase]
  omega

theorem foldl_squares (rd : Nat → Byte) (d : SaDesc) (r : Nat) (y : Nat → Int) (n : Nat) :
    (List.range n).foldl (fun a e => a + 2 * s48Val (sbNat rd (d.elem r e) 6) * y e + y e * y e) (sbNat rd (d.row r) 16 : Int) =
      addedSquares rd d r 0 y n := by
  induction n with
  | zero => exact (addedSquares_zero ..).symm
  | succ n ih => rw [List.range_succ, List.foldl_append, ih, addedSquares_succ, Nat.zero_add, List.foldl_cons, List.foldl_nil]
/-- A fold adds each delta to its element and the squares to the row's sum, then clears the deltas and UNS (R265). -/
theorem foldRow_eq (s : State) (c : Nat) (d : SaDesc) (r : Nat) :
    foldRow s c d r =
      let t := (s.saApply c (addedCells (s.sb c) c d r 0 (deltaVal (s.sb c) d r) d.nel)).timedWrite (clearedCells c d r)
      t.setByte (d.flag c r) (t.byte (d.flag c r) &&& 0xFE#8) := by
  rw [addedCells, ← foldl_squares, addedElems]
  simp only [foldRow, rowDeltas, List.flatMap_map, List.foldl_map, Nat.zero_add, addedElem]
  rfl
theorem foldRow_calendar (s : State) (c : Nat) (d : SaDesc) (r : Nat) : (foldRow s c d r).calendar = s.calendar := by
  rw [foldRow_eq]
  exact (State.timedWrite_calendar ..).trans (State.saApply_calendar ..)
theorem ctx_foldRow (s : State) (c : Nat) (d : SaDesc) (r e k : Nat) : (foldRow s c d r).ctx e k = s.ctx e k := by
  rw [foldRow_eq]
  exact (State.ctx_timedWrite ..).trans (State.ctx_saApply ..)

section
variable {s : State} {c r a : Nat} {d : SaDesc} {b : Byte} (hr : r < d.nrow) (hd : 32 + 6 * d.nel ≤ d.rstride)

theorem flag_ne_of_mem_addedCells {rd : Nat → Byte} {y : Nat → Int} {n : Nat} (h : (a, b) ∈ addedCells rd c d r 0 y n) : a ≠ d.flag c r := by
  rintro rfl
  rcases mem_addedCells.1 h with ⟨j, -, k, -, e, -⟩ | ⟨k, hk, e, -⟩
  · have := bufAddr_inj e
    simp only [SaDesc.elem] at this
    omega
  · have := bufAddr_inj e
    omega
include hr

theorem clearedCells_beyond (h : (a, b) ∈ clearedCells c d r) : ∃ o, a = bufAddr c .sb o ∧ d.row r + d.rstride ≤ o := by
  obtain ⟨e, -, k, -, rfl, -⟩ := mem_clearedCells.1 h
  exact ⟨_, rfl, by have := d.row_le_delta (e := e) hr; omega⟩
include hd

theorem flag_ne_of_mem_clearedCells (h : (a, b) ∈ clearedCells c d r) : a ≠ d.flag c r := by
  rintro rfl
  obtain ⟨o, e, ho⟩ := clearedCells_beyond hr h
  have := bufAddr_inj e
  omega

/-- What the added cells hold stands after the fold. -/
theorem byte_foldRow_of_added (h : (a, b) ∈ addedCells (s.sb c) c d r 0 (deltaVal (s.sb c) d r) d.nel) : (foldRow s c d r).byte a = b := by
  rw [foldRow_eq, State.byte_setByte, if_neg (flag_ne_of_mem_addedCells h), State.byte_timedWrite, State.byte_writeCells_of_not_mem,
    State.byte_saApply]
  · exact s.byte_writeCells_of_agree h (fun _ hb => addedCells_agree h hb)
  · rintro ⟨a', b'⟩ hc rfl
    obtain ⟨o, rfl, ho⟩ := clearedCells_beyond hr hc
    obtain ⟨o', e, ho'⟩ := within_of_mem_addedCells hd (by omega) h
    have := bufAddr_inj e
    omega
theorem byte_foldRow_of_cleared (h : (a, b) ∈ clearedCells c d r) : (foldRow s c d r).byte a = b := by
  rw [foldRow_eq, State.byte_setByte, if_neg (flag_ne_of_mem_clearedCells hr hd h), State.byte_timedWrite]
  refine State.byte_writeCells_of_agree _ h (fun b' h' => ?_)
  obtain ⟨-, -, -, -, -, rfl⟩ := mem_clearedCells.1 h
  obtain ⟨-, -, -, -, -, rfl⟩ := mem_clearedCells.1 h'
  rfl
theorem byte_foldRow_flag : (foldRow s c d r).byte (d.flag c r) = s.byte (d.flag c r) &&& 0xFE#8 := by
  rw [foldRow_eq, State.byte_setByte, if_pos rfl, State.byte_timedWrite, State.byte_writeCells_of_not_mem, State.byte_saApply,
    State.byte_writeCells_of_not_mem]
  · exact fun _ h => flag_ne_of_mem_addedCells h
  · exact fun _ h => flag_ne_of_mem_clearedCells hr hd h
end

/-- A row whose sums fit and whose OVF is clear is folded, and no record is held (R265). -/
theorem foldRows_one {s : State} {c k f reg row : Nat} {d : SaDesc} (hd : descAt (s.sb c) reg = d) (hok : d.ok = true) (hib : d.ibp = true)
    (hr : row < d.nrow) (hv : (s.byte (d.flag c row)).getLsbD 1 = false)
    (hf : ∀ e < d.nel, inS48 (s48Val (sbNat (s.sb c) (d.elem row e) 6) + deltaVal (s.sb c) d row e) = true) :
    foldRows s c k f reg row 1 =
      (foldRow s c d row).setByte (d.flag c row) ((foldRow s c d row).byte (d.flag c row) &&& 0xFD#8) := by
  have hfit : ((rowDeltas (s.sb c) d row).any (fun x => !inS48 (x.2.1 + x.2.2))) = false := by
    simp only [rowDeltas, List.any_map, List.any_eq_false, List.mem_range, Function.comp_apply]
    exact fun e he => by simpa [deltaVal] using hf e he
  have hflag : ((foldRow s c d row).byte (d.flag c row)).getLsbD 1 = false := by
    rw [byte_foldRow_flag hr (hd ▸ descAt_stride ..), BitVec.getLsbD_and, hv, Bool.false_and]
  unfold foldRows
  simp only [hd, hok, hib, List.range_one, List.map_cons, List.map_nil, Nat.add_zero, List.filter_cons, hr, decide_true, if_true,
    List.filter_nil, List.find?_cons, hfit, List.find?_nil, List.foldl_cons, List.foldl_nil, Bool.not_true, Bool.false_eq_true, if_false,
    d.flag_eq, hflag]

end Sys2Proof.Machine
end

section
/-! SUPPORT. Accesses posted (08 R173; 02 R50): a post adds one access to those posted, whatever the arbitration points let in. -/

namespace Sys2Proof.Machine

/-- An access as it stands before it has arrived at an arbitration point. -/
def Access.onWay (a : Access) : Access := { a with arr := none }
theorem State.accesses_eq (s : State) : s.accesses = s.posted.map Access.onWay := rfl
theorem map_onWay_admitted (now : Nat) (done l : List Access) : (admitted now done l).map Access.onWay = (done ++ l).map Access.onWay := by
  induction l generalizing done with
  | nil => rw [admitted, List.append_nil]
  | cons a r ih =>
    rw [admitted, ih]
    simp only [List.map_append, List.append_assoc]
    split <;> rfl
theorem State.accesses_letIn (s : State) : s.letIn.accesses = s.accesses :=
  map_onWay_admitted s.now [] s.posted

theorem State.originate_of_none (s : State) {a : Access} (h : a.request = none) : s.originate a = s := by
  unfold State.originate
  rw [h]
/-- The state in which a write has raised its node's count (R173). -/
def State.counting (s : State) (a : Access) : State :=
  if a.act.writes then { s with clk := SMap.put 0 s.clk (clkKey a.node a.node a.home) (SMap.get 0 s.clk (clkKey a.node a.node a.home) + 1) } else s
theorem State.counting_eq (s : State) (a : Access) : s.counting a = { s with clk := (s.counting a).clk } := by
  unfold State.counting; split <;> rfl
/-- An access as it is posted: with the clock, its class and its way. -/
def State.stamped (s : State) (a : Access) : Access :=
  { a with tag := (s.counting a).clock a.node, cls := (s.counting a).classOf a, hops := a.path }
theorem State.post_eq_letIn (s : State) {a : Access} (h : a.request = none) :
    s.post a = ({ s with clk := (s.counting a).clk, posted := s.posted ++ [s.stamped a] } : State).letIn := by
  have e : s.post a = if a.path.isEmpty then
      (({ s.counting a with posted := (s.counting a).posted ++ [s.stamped a] } : State).letIn).originate a
      else ({ s.counting a with posted := (s.counting a).posted ++ [s.stamped a] } : State).letIn := rfl
  rw [e, State.originate_of_none _ h, ite_self]
  conv_lhs => rw [State.counting_eq]
/-- A post that is no fabric operation changes the clocks and the posted accesses alone. -/
theorem State.post_eq (s : State) {a : Access} (h : a.request = none) :
    s.post a = { s with clk := (s.counting a).clk, posted := (s.post a).posted } := by
  rw [State.post_eq_letIn s h]; rfl
theorem State.accesses_post (s : State) {a : Access} (h : a.request = none) :
    (s.post a).accesses = s.accesses ++ [(s.stamped a).onWay] := by
  rw [State.post_eq_letIn s h, State.accesses_letIn, State.accesses_eq, List.map_append]; rfl
theorem State.post_keeps (s : State) {a : Access} (h : a.request = none) : KeepsRegsAndMemory s (s.post a) := by
  rw [State.post_eq s h]
  exact keeps_of_eq rfl rfl

end Sys2Proof.Machine
end

section
/-! SUPPORT. Fronds aborted (04 R96, 06 R136, R143): what an abort leaves as it was, and what the frond holds after it. -/

namespace Sys2Proof.Machine

/-- A frond as an abort in a cycle leaves it. -/
def Frond.aborted (fr : Frond) (why : Nat × Nat) (now : Nat) : Frond := { fr with abort := some why, endedAt := now, pending := [], running := [] }
/-- A frond that runs. -/
def Frond.runs (fr : Frond) : Prop := fr.bound = true ∧ fr.ended = false ∧ fr.abort = none
theorem Frond.not_runs_iff (fr : Frond) : (!fr.bound || fr.ended || fr.abort.isSome) = true ↔ ¬ fr.runs := by
  cases hb : fr.bound <;> cases ha : fr.abort <;> simp [Frond.runs, hb, ha]
/-- An abort's step for one context (R96). -/
def State.abortCtx (s : State) (ck : Nat × Nat) : State :=
  ((s.stopCtx ck.1 ck.2).dropDeliveries ck.1 ck.2).updCore ck.1 (fun x => { x with engine := x.engine.dropCalls ck.2, armedAt := none })
/-- The state in which a frond's contexts have been stopped, and its decrements dropped. -/
def State.stopFrond (s : State) (f : Nat) : State :=
  let t := (s.frondCtxs f).foldl State.abortCtx s
  { t with posted := t.posted.map (fun a : Access =>
      if a.frond = f ∧ a.done.isNone then (match a.act with | .dec _ _ => { a with act := .void } | _ => a) else a) }
theorem State.abortFrond_eq (s : State) (f : Nat) (why : Nat × Nat) :
    s.abortFrond f why = if !(s.frond f).bound || (s.frond f).ended || (s.frond f).abort.isSome then s
      else (((s.stopFrond f).updFrond f (fun fr =>
        fr.aborted why (s.stopFrond f).now)).zeroBlocks (s.frond f).cores why).orphans f := rfl

theorem State.stopFrond_keeps {β : Type} (P : State → β) (s : State) (f : Nat) (h : ∀ t ck, P (State.abortCtx t ck) = P t)
    (hp : ∀ t l, P { t with posted := l } = P t) : P (s.stopFrond f) = P s :=
  (hp _ _).trans (foldl_keeps P State.abortCtx _ s h)
theorem State.orphans_keeps {β : Type} (P : State → β) (s : State) (f : Nat) (h : ∀ t x l, P { t with hub := x, packets := l } = P t) :
    P (s.orphans f) = P s := foldl_keeps P _ _ s (fun t _ => h t _ _)
/-- What neither the cores, the fronds, the calendar, the posted accesses, the packets nor the hub show, an abort keeps. -/
theorem State.abortFrond_keeps {β : Type} (P : State → β) (s : State) (f : Nat) (why : Nat × Nat) (hc : ∀ t ck, P (State.abortCtx t ck) = P t)
    (hp : ∀ t l, P { t with posted := l } = P t) (hf : ∀ t l, P { t with fronds := l } = P t)
    (hh : ∀ t x l, P { t with hub := x, packets := l } = P t) : P (s.abortFrond f why) = P s := by
  rw [State.abortFrond_eq]
  split
  · rfl
  · rw [State.orphans_keeps P _ f hh]
    exact (hh _ _ _).trans ((hf _ _).trans (s.stopFrond_keeps P f hc hp))
theorem State.abortFrond_mem (s : State) (f : Nat) (why : Nat × Nat) : (s.abortFrond f why).mem = s.mem :=
  s.abortFrond_keeps State.mem f why (fun _ _ => rfl) (fun _ _ => rfl) (fun _ _ => rfl) (fun _ _ _ => rfl)
theorem State.abortFrond_dies (s : State) (f : Nat) (why : Nat × Nat) : (s.abortFrond f why).dies = s.dies :=
  s.abortFrond_keeps State.dies f why (fun _ _ => rfl) (fun _ _ => rfl) (fun _ _ => rfl) (fun _ _ _ => rfl)
theorem State.abortFrond_faulty (s : State) (f : Nat) (why : Nat × Nat) : (s.abortFrond f why).faulty = s.faulty :=
  s.abortFrond_keeps State.faulty f why (fun _ _ => rfl) (fun _ _ => rfl) (fun _ _ => rfl) (fun _ _ _ => rfl)
theorem State.abortFrond_now (s : State) (f : Nat) (why : Nat × Nat) : (s.abortFrond f why).now = s.now :=
  s.abortFrond_keeps State.now f why (fun _ _ => rfl) (fun _ _ => rfl) (fun _ _ => rfl) (fun _ _ _ => rfl)
theorem State.stopFrond_fronds (s : State) (f : Nat) : (s.stopFrond f).fronds = s.fronds :=
  s.stopFrond_keeps State.fronds f (fun _ _ => rfl) (fun _ _ => rfl)
theorem State.orphans_fronds (s : State) (f : Nat) : (s.orphans f).fronds = s.fronds := s.orphans_keeps State.fronds f (fun _ _ _ => rfl)
theorem State.stopFrond_now (s : State) (f : Nat) : (s.stopFrond f).now = s.now := s.stopFrond_keeps State.now f (fun _ _ => rfl) (fun _ _ => rfl)
theorem State.frond_of_fronds_eq {s t : State} (h : t.fronds = s.fronds) (n : Nat) : t.frond n = s.frond n := by rw [State.frond, h]; rfl

theorem State.zeroBlocks_fronds (s : State) (l : List Nat) (why : Nat × Nat) : (s.zeroBlocks l why).fronds = s.fronds := rfl
/-- The fronds after an abort of one that runs: it is aborted, and the others are as they were. -/
theorem State.frond_abortFrond {s : State} {f : Nat} (why : Nat × Nat) (n : Nat) (h : (s.frond f).runs) :
    (s.abortFrond f why).frond n = if n = f then (s.frond f).aborted why s.now else s.frond n := by
  rw [State.abortFrond_eq, if_neg (mt (Frond.not_runs_iff _).1 (not_not_intro h)), State.frond_of_fronds_eq (State.orphans_fronds ..),
    State.frond_of_fronds_eq (State.zeroBlocks_fronds ..), State.frond_updFrond, State.stopFrond_now,
    State.frond_of_fronds_eq (s.stopFrond_fronds f), State.frond_of_fronds_eq (s.stopFrond_fronds f)]
theorem State.abortFrond_of_not_runs {s : State} {f : Nat} (why : Nat × Nat) (h : ¬ (s.frond f).runs) : s.abortFrond f why = s := by
  rw [State.abortFrond_eq, if_pos ((Frond.not_runs_iff _).2 h)]

end Sys2Proof.Machine
end

section
/-! Settles O38: each clause of the statement from the equation of its event and the rules above. -/

namespace Sys2Proof.Machine

/-! ### Folds and group sums (R265, R266) -/

theorem exec_saFold_eq (id : Nat) (s : State) : exec (.saFold id) s = execSaFold id s := rfl
theorem exec_saGroupSum_eq (id : Nat) (s : State) : exec (.saGroupSum id) s = execSaGroupSum id s := rfl
theorem exec_freezeEnd_eq (f : Nat) (s : State) : exec (.freezeEnd f) s = execFreezeEnd f s := rfl
theorem exec_tkalignRelease_eq (core ctx : Nat) (s : State) : exec (.tkalignRelease core ctx) s = execTkalignRelease core ctx s := rfl
theorem exec_sigWaitRepost_eq (core ctx : Nat) (s : State) : exec (.sigWaitRepost core ctx) s = execSigWaitRepost core ctx s := rfl
theorem exec_landingEntry_eq (core ctx : Nat) (s : State) : exec (.landingEntry core ctx) s = execLandingEntry core ctx s := rfl
theorem exec_emptyBundle_eq (lnd qt : Bool) (s : State) : exec (.emptyBundle lnd qt) s = execEmptyBundle lnd qt s := rfl
theorem exec_illegalEncoding_eq (n : Nat) (s : State) : exec (.illegalEncoding n) s = execIllegalEncoding n s := rfl

theorem exec_saFold_fold {s : State} {id k reg row cnt : Nat} {x : Timed} (hx : s.timed id = some x) (ha : x.act = .fold k reg row cnt) :
    exec (.saFold id) s = .next (foldRows (s.unschedule id) x.core k x.frond reg row cnt) := by
  rw [exec_saFold_eq, execSaFold, hx]
  simp only [ha]
theorem exec_saGroupSum_gsum {s : State} {id xtab gsz row cnt : Nat} {x : Timed} (hx : s.timed id = some x)
    (ha : x.act = .gsum xtab gsz row cnt) : exec (.saGroupSum id) s = .next ((s.unschedule id).scheduleFor (s.now + 1) x.core x.ctx x.frond x.ord
      (.write 3 (groupSums s x.core xtab gsz row cnt))) := by
  rw [exec_saGroupSum_eq, execSaGroupSum, hx]
  simp only [ha]

/-- The fold of one row (R265): its elements, its deltas and its sum of squares. -/
theorem saFold_folds {s : State} {id k reg row : Nat} {x : Timed} {d : SaDesc} (hx : s.timed id = some x) (ha : x.act = .fold k reg row 1)
    (hd : descAt (s.sb x.core) reg = d) (hok : d.ok = true) (hib : d.ibp = true) (hr : row < d.nrow)
    (hv : (s.byte (d.flag x.core row)).getLsbD 1 = false)
    (hf : ∀ e < d.nel, inS48 (s48Val (sbNat (s.sb x.core) (d.elem row e) 6) + deltaVal (s.sb x.core) d row e) = true) :
    ∃ t, exec (.saFold id) s = .next t ∧ t.calendar = s.calendar.filter (fun y => decide (y.id ≠ id)) ∧
      (∀ c k, SameRegs (s.ctx c k) (t.ctx c k)) ∧
      (∀ e < d.nel, s48Val (sbNat (t.sb x.core) (d.elem row e) 6) =
          s48Val (sbNat (s.sb x.core) (d.elem row e) 6) + deltaVal (s.sb x.core) d row e ∧ deltaVal (t.sb x.core) d row e = 0) ∧
      sbNat (t.sb x.core) (d.row row) 16 = (addedSquares (s.sb x.core) d row 0 (deltaVal (s.sb x.core) d row) d.nel % 2 ^ 128).toNat := by
  have hs : 32 + 6 * d.nel ≤ d.rstride := hd ▸ descAt_stride ..
  rw [exec_saFold_fold hx ha, foldRows_one (s := s.unschedule id) hd hok hib hr hv hf]
  set u := foldRow (s.unschedule id) x.core d row with hu
  set t := u.setByte (d.flag x.core row) (u.byte (d.flag x.core row) &&& 0xFD#8) with ht
  have added (a : Nat) (b : Byte)
      (h : (a, b) ∈ addedCells (s.sb x.core) x.core d row 0 (deltaVal (s.sb x.core) d row) d.nel) : t.byte a = b := by
    rw [ht, State.byte_setByte, if_neg (flag_ne_of_mem_addedCells h)]
    exact byte_foldRow_of_added hr hs h
  have cleared (a : Nat) (b : Byte) (h : (a, b) ∈ clearedCells x.core d row) : t.byte a = b := by
    rw [ht, State.byte_setByte, if_neg (flag_ne_of_mem_clearedCells hr hs h)]
    exact byte_foldRow_of_cleared hr hs h
  refine ⟨t, rfl, foldRow_calendar .., fun c k => ?_, fun e he => ⟨?_, ?_⟩, ?_⟩
  · have : t.ctx c k = s.ctx c k := ctx_foldRow (s.unschedule id) x.core d row c k
    exact this ▸ sameRegs_refl _
  · have := s48Val_elem_of_addedCells added he (by simpa [addedElem] using hf e he)
    simpa [addedElem] using this
  · have := sbNat_eq_of_bytes (s := t) (c := x.core) (off := d.delta row e) (n := 6) (v := 0)
      (fun k hk => cleared _ _ (mem_clearedCells.2 ⟨e, he, k, hk, rfl, by simp⟩))
    rw [deltaVal, this]; rfl
  · exact Int.natCast_inj.1 (by rw [sbNat_row_of_addedCells added, Int.toNat_of_nonneg (by omega)])

/-- The address of a byte beyond another of the buffer. -/
theorem bufAddr_add (c o n : Nat) (b : Buf) : bufAddr c b (o + n) = bufAddr c b o + n := (Nat.add_assoc ..).symm
theorem groupSums_one (s : State) (c xtab gsz row : Nat) :
    groupSums s c xtab gsz row 1 =
      let base := bufAddr c .xb (xtab + 16 * (gsz + 1) * (row % 16))
      cellsAt (base + 16 * gsz) 16 ((List.range gsz).foldl (fun a k => a + s.load (base + 16 * k) 16) 0 % 2 ^ 128) := by
  simp only [groupSums, List.range_one, List.flatMap_cons, List.flatMap_nil, List.append_nil, Nat.add_zero, bufAddr_add]

/-! ### Holds and entries (R307, R377, R382) -/

/-- A `sig.wait` whose next read is due posts it, as a new access (R382). -/
theorem sigWaitRepost_posts {s : State} {core ctx : Nat} {a : Access} (hs : (s.ctx core ctx).sig = some (.repost a))
    (hf : (s.ctx core ctx).fences = []) (hr : a.request = none) :
    ∃ t y, exec (.sigWaitRepost core ctx) s = .next t ∧ KeepsRegsAndMemory s t ∧ t.accesses = s.accesses ++ [y] ∧ y.id = s.seqno ∧
      y.act = a.act ∧ y.owed = a.owed ∧ (t.ctx core ctx).sig = some (.posted s.seqno) := by
  set b : Access := { a with id := s.seqno, tag := [], err := false, done := none } with hb
  set u := s.bump.updCtx core ctx (fun x => { x with sig := some (.posted b.id) }) with hu
  have hx : exec (.sigWaitRepost core ctx) s = .next (u.post b) := by
    rw [exec_sigWaitRepost_eq, execSigWaitRepost]
    simp only [hs, Ctx.holds, hf, List.isEmpty_nil, Bool.not_true, Bool.false_eq_true, if_false]
    rfl
  have hb' : b.request = none := by
    unfold Access.request at hr ⊢
    rw [hb]
    cases ha : a.act <;> simp [ha] at hr ⊢
  have hk : KeepsRegsAndMemory s u := keeps_trans (t := s.bump) (keeps_of_eq rfl rfl)
    (keeps_updCtx s.bump core ctx _ ⟨rfl, rfl, rfl, rfl, rfl, rfl, rfl, rfl, rfl, rfl, rfl, rfl, rfl, rfl, rfl, rfl⟩)
  refine ⟨_, _, hx, keeps_trans hk (u.post_keeps hb'), u.accesses_post hb', rfl, rfl, rfl, ?_⟩
  rw [State.post_eq u hb']
  exact congrArg Ctx.sig (State.ctx_updCtx_self s.bump core ctx _)

/-- The checks of an entry into a page that is resident, in R307's order. -/
theorem landingEntry_checks {s : State} {core ctx page idx kind base : Nat} (hp : (s.ctx core ctx).point = .entry page idx kind)
    (hb : (s.core core).current page = some base) :
    exec (.landingEntry core ctx) s =
      let e := s.core core
      let l := e.landing base idx
      let h := e.pageSyl base l.off
      let tok : Word := BitVec.ofNat 64 (page * 2 ^ 24 + idx * 2 ^ 16)
      if e.pageTag base ≠ s.tag core then .next (s.takeTrap core ctx 0x12 ((e.pageTag base).setWidth 64) 0)
      else if (decide (idx < 24) && l.admits kind) = false then .next (s.takeTrap core ctx 0x14 tok 0)
      else if h.getLsbD 31 = false then .next (s.takeTrap core ctx 0x02 (BitVec.ofNat 64 l.off) 0)
      else if h.getLsbD 19 = false then .next (s.takeTrap core ctx 0x14 tok 0)
      else .next (s.updCtx core ctx (fun y => { y with point := .inside page base idx l.off })) := by
  rw [exec_landingEntry_eq, execLandingEntry]
  have admitted : (24 ≤ idx ∨ ((s.core core).landing base idx).admits kind = false) ↔
      (decide (idx < 24) && ((s.core core).landing base idx).admits kind) = false := by
    cases ((s.core core).landing base idx).admits kind <;> simp
  simp only [hp, State.enter, hb, admitted, bit, Bool.not_eq_true']
  split_ifs <;> rfl
theorem landingEntry_absent {s : State} {core ctx page idx kind : Nat} (hp : (s.ctx core ctx).point = .entry page idx kind)
    (hb : (s.core core).current page = none) :
    exec (.landingEntry core ctx) s = .next (s.takeTrap core ctx 0x11 (BitVec.ofNat 64 page) 0) := by
  rw [exec_landingEntry_eq, execLandingEntry]
  simp only [hp, State.enter, hb]

/-! ### Freezes that end (R36, R143) -/

/-- The abort asked for in a freeze is made at its end. -/
theorem freezeEnd_aborts {s : State} {f : Nat} {why : Nat × Nat} (ht : (s.frond f).thawAbort = some why) (h : (s.frond f).runs) :
    ∃ t, exec (.freezeEnd f) s = .next t ∧ (t.frond f).abort = some why ∧ (t.frond f).thawAbort = none := by
  set u := s.updFrond f (fun fr => { fr with thawAbort := none }) with hu
  have hx : exec (.freezeEnd f) s = .next (u.abortFrond f why) := by
    rw [exec_freezeEnd_eq, execFreezeEnd, ht]
  have hf : u.frond f = { s.frond f with thawAbort := none } := by
    rw [hu, State.frond_updFrond, if_pos rfl]
  have hr : (u.frond f).runs := by
    rw [hf]; exact h
  refine ⟨_, hx, ?_⟩
  rw [State.frond_abortFrond why f hr, if_pos rfl, hf]
  exact ⟨rfl, rfl⟩

/-- Settles O38: each event and bundle answers by its own equation; what a fold and a post leave is read by the rules of their writers.
(That a fold goes by the descriptor as it stands when it lands, and that a group sum lands a cycle after it is formed, is log 50; that the
abort asked for in a freeze is made at its end, log 48.) -/
theorem foldsEntriesAndEmptyBundles : Obligations.FoldsEntriesAndEmptyBundles := by
  unfold Obligations.FoldsEntriesAndEmptyBundles
  intro s core ctx id f n x lnd m c due left
  refine ⟨?fold, ?sum, ?thaw, ?abort, ?hold, ?repost, ?entry, ?empty, ?illegal⟩
  case fold =>
    intro k reg row hx ha rd d el dl hok hib hr hv hf
    obtain ⟨t, ht, hl, hk, he, hs⟩ := saFold_folds hx ha rfl hok hib hr hv hf
    refine ⟨t, ht, hl, hk, he, hs.trans ?_⟩
    simp only [addedSquares, Nat.zero_add]
    rfl
  case sum =>
    intro xtab gsz row hx ha base sum
    refine ⟨_, _, exec_saGroupSum_gsum hx ha, keeps_of_eq rfl rfl, rfl, rfl, rfl, ?_⟩
    rw [groupSums_one]
    rfl
  case thaw =>
    intro h
    rw [exec_freezeEnd_eq, execFreezeEnd, h]
  case abort =>
    intro why ht hb he ha
    exact freezeEnd_aborts ht ⟨hb, he, ha⟩
  case hold =>
    intro h hh
    have held : (s.ctx core ctx).hold = some h := hh
    refine ⟨_, exec_tkalignRelease_eq .., keeps_updCtx _ _ _ _ ?_, ?_⟩
    · split
      · exact ⟨rfl, rfl, rfl, rfl, rfl, rfl, rfl, rfl, rfl, rfl, rfl, rfl, rfl, rfl, rfl, rfl⟩
      · exact sameRegs_refl _
    · rw [State.ctx_updCtx_self, held, Option.any_some]
      by_cases hn : h ≤ s.now
      · rw [if_pos (decide_eq_true hn), if_pos hn]
      · rw [if_neg (by simpa using hn), if_neg hn, held]
  case repost =>
    intro a hs hf _ hr
    exact sigWaitRepost_posts hs hf hr
  case entry =>
    intro page idx kind hp e
    exact ⟨fun hb => landingEntry_absent hp hb, fun base hb => landingEntry_checks hp hb⟩
  case empty =>
    have quiet (hm : m = 0) : exec (.emptyBundle lnd true) s = .next (s.finish 1) := by
      rw [exec_emptyBundle_eq, execEmptyBundle]
      exact if_neg (by simpa using hm)
    refine ⟨quiet, fun hm => ?_, rfl⟩
    rw [exec_emptyBundle_eq, execEmptyBundle]
    exact if_pos (by simpa using hm)
  case illegal =>
    intro hn
    rw [exec_illegalEncoding_eq, execIllegalEncoding, Nat.mod_eq_of_lt hn]

end Sys2Proof.Machine
end

section
/-! SUPPORT. Dies and role changes (01 R20 to R33): what a pass over dies leaves, which dies leave their role, and what the steps of a role
change keep. -/

namespace Sys2Proof.Machine

/-! ### Passes over dies -/

theorem State.die_of_dies_eq {s t : State} (h : t.dies = s.dies) (d : Nat) : t.die d = s.die d := by rw [State.die, h]; rfl
/-- A pass over dies whose step changes its own die alone, by what the die and the hub hold: each die of the list has been changed. -/
theorem State.die_foldl {g : State → Nat → State} {f : Nat → Die → Die} {l : List Nat} {s : State} (hl : l.Nodup)
    (hh : ∀ t d, (g t d).hub = t.hub) (hne : ∀ t d e, e ≠ d → (g t d).die e = t.die e)
    (hd : ∀ t d, t.hub = s.hub → (g t d).die d = f d (t.die d)) (e : Nat) :
    (l.foldl g s).die e = if e ∈ l then f e (s.die e) else s.die e := by
  induction l generalizing s with
  | nil => rfl
  | cons d r ih =>
    obtain ⟨hn, hr⟩ := List.nodup_cons.1 hl
    rw [List.foldl_cons, ih hr (fun t c h => hd t c (h.trans (hh s d)))]
    by_cases he : e = d
    · subst he
      rw [if_neg hn, if_pos (List.mem_cons_self ..), hd s e rfl]
    · simp only [hne s d e he, List.mem_cons, he, false_or]

theorem mem_layerDies {d : Nat} : d ∈ layerDies ↔ 8 ≤ d ∧ d < 40 := by
  simp only [layerDies, List.mem_map, List.mem_range]
  exact ⟨fun ⟨i, hi, e⟩ => by omega, fun h => ⟨d - 8, by omega, by omega⟩⟩
theorem nodup_layerDies : layerDies.Nodup := List.nodup_range.map (fun _ _ h => by simpa using h)

/-! ### Which dies leave, and which stay (R27) -/

theorem State.part_of_hub_eq {s t : State} (h : t.hub = s.hub) (k : Nat) : t.part k = s.part k := by rw [State.part, h]; rfl
theorem State.leaves_congr {s t : State} (h : t.hub = s.hub) {d : Nat} (hd : t.die d = s.die d) (r : RoleChange) : t.leaves r d = s.leaves r d := by
  have hp : t.part = s.part := funext (State.part_of_hub_eq h)
  simp only [State.leaves, State.roleOf, hp, hd]
  rfl
theorem State.not_stays_of_leaves {s : State} {r : RoleChange} {d : Nat} (h : s.leaves r d = true) : s.stays r d = false := by
  simp [State.stays, h]
theorem State.leaves_not_fenced {s : State} {r : RoleChange} {d : Nat} (h : s.leaves r d = true) : (s.die d).st ≠ .fenced := by
  simp only [State.leaves, Bool.and_eq_true, decide_eq_true_eq] at h
  exact h.1.2

/-! ### The staying dies of a column (R28) -/

/-- The step of `enumerateStaying` for a die. -/
def State.enumerateDie (r : RoleChange) (s : State) (d : Nat) : State :=
  if s.stays r d ∧ (s.die d).st = .draining then s.updDie d (fun x => { x with st := .enumerating }) else s
theorem State.enumerateStaying_eq (s : State) (r : RoleChange) (k : Nat) :
    s.enumerateStaying r k = if (layerDies.filter (fun d => decide (dieColumn d = k))).all
        (fun d => !s.leaves r d || decide ((s.die d).st = .enumerating)) then
      ((layerDies.filter (fun d => decide (dieColumn d = k))).foldl (State.enumerateDie r) s).updRole (fun r => { r with step := Max.max r.step 4 })
    else s := rfl
theorem State.enumerateDie_keeps {β : Type} (P : State → β) (r : RoleChange) (s : State) (d : Nat) (h : ∀ t d f, P (State.updDie t d f) = P t) :
    P (s.enumerateDie r d) = P s := by
  unfold State.enumerateDie
  split
  · exact h ..
  · rfl
/-- What shows neither a die's state nor the role change, the staying dies' step keeps. -/
theorem State.enumerateStaying_keeps {β : Type} (P : State → β) (s : State) (r : RoleChange) (k : Nat) (h : ∀ t d f, P (State.updDie t d f) = P t)
    (hr : ∀ t f, P (State.updRole t f) = P t) : P (s.enumerateStaying r k) = P s := by
  rw [State.enumerateStaying_eq]
  split
  · exact (hr ..).trans (foldl_keeps P _ _ s (fun t d => State.enumerateDie_keeps P r t d h))
  · rfl
/-- A die that is not draining is no die that the step changes. -/
theorem State.die_enumerateStaying {s : State} (r : RoleChange) (k : Nat) {d : Nat} (h : (s.die d).st ≠ .draining) :
    (s.enumerateStaying r k).die d = s.die d := by
  rw [State.enumerateStaying_eq]
  split
  · refine foldl_invariant (P := fun t : State => t.die d = s.die d) rfl (fun t e _ ht => ?_)
    unfold State.enumerateDie
    split
    · rename_i he
      rw [State.die_updDie, if_neg, ht]
      rintro rfl
      exact h (ht ▸ he.2)
    · exact ht
  · rfl
/-- The role change after the step of the staying dies: the same, but perhaps at step 4. -/
theorem State.role_enumerateStaying (s : State) (r : RoleChange) (k : Nat) :
    (s.enumerateStaying r k).hub.role = s.hub.role ∨
      (s.enumerateStaying r k).hub.role = s.hub.role.map (fun r => { r with step := Max.max r.step 4 }) := by
  rw [State.enumerateStaying_eq]
  split
  · refine .inr ?_
    have e := foldl_keeps State.hub (State.enumerateDie r) (layerDies.filter (fun d => decide (dieColumn d = k))) s
      (fun t d => State.enumerateDie_keeps State.hub r t d (fun _ _ _ => rfl))
    simp only [State.updRole, State.updHub_hub, e]
  · exact .inl rfl

/-! ### Logical numbers (R17, R28) -/

/-- A core that differs in its logical number, and in that it may have been powered. -/
def Core.Renumbered (x y : Core) : Prop := ∃ n b, y = { x with logical := n, powered := b } ∧ (x.powered = true → b = true)
theorem Core.Renumbered.trans {x y z : Core} (h : x.Renumbered y) (k : y.Renumbered z) : x.Renumbered z := by
  obtain ⟨n, b, rfl, hb⟩ := h
  obtain ⟨m, c, rfl, hc⟩ := k
  exact ⟨m, c, rfl, fun h => hc (hb h)⟩
theorem Core.Renumbered.refl (x : Core) : x.Renumbered x := ⟨_, _, rfl, id⟩
theorem State.assignLogical_keeps {β : Type} (P : State → β) (s : State) (h : ∀ t l, P { t with cores := l } = P t) : P s.assignLogical = P s :=
  (foldl_keeps P _ _ _ (fun t _ => h t _)).trans (h s _)
theorem State.core_assignLogical (s : State) (c : Nat) : (s.core c).Renumbered (s.assignLogical.core c) := by
  have first : (s.core c).Renumbered (State.core { s with cores := s.cores.map (fun e : Nat × Core => (e.1, { e.2 with logical := 0xFFFF })) } c) :=
    ⟨0xFFFF, (s.core c).powered, SMap.get_map s.cores (fun x : Core => { x with logical := 0xFFFF }) rfl c, id⟩
  refine foldl_invariant (P := fun t : State => (s.core c).Renumbered (t.core c)) first (fun t e _ ht => ?_)
  rw [State.core_updCore]
  split
  · rename_i hc
    subst hc
    exact ht.trans ⟨_, _, rfl, fun _ => rfl⟩
  · exact ht
/-- What follows the last step 4 (R28): nothing yet, or logical numbers and step 5. -/
theorem State.roleSettle_cases (s : State) :
    s.roleSettle = s ∨ ∃ r, s.hub.role = some r ∧ 2 ≤ r.step ∧ s.roleSettle = s.assignLogical.updRole (fun r => { r with step := 5 }) := by
  unfold State.roleSettle
  split
  · rename_i r hr
    split
    · rename_i h
      exact .inr ⟨r, hr, h.1, rfl⟩
    · exact .inl rfl
  · exact .inl rfl
theorem State.roleSettle_keeps {β : Type} (P : State → β) (s : State) (h : ∀ t l, P { t with cores := l } = P t)
    (hr : ∀ t f, P (State.updRole t f) = P t) : P s.roleSettle = P s := by
  rcases s.roleSettle_cases with e | ⟨r, -, -, e⟩ <;> rw [e]
  exact (hr ..).trans (s.assignLogical_keeps P h)
theorem State.core_roleSettle (s : State) (c : Nat) : (s.core c).Renumbered (s.roleSettle.core c) := by
  rcases s.roleSettle_cases with e | ⟨r, -, -, e⟩ <;> rw [e]
  · exact .refl _
  · exact s.core_assignLogical c
theorem State.role_roleSettle {s : State} {r : RoleChange} (h : s.hub.role = some r) (h2 : 2 ≤ r.step) :
    ∃ n, 2 ≤ n ∧ s.roleSettle.hub.role = some { r with step := n } := by
  rcases s.roleSettle_cases with e | ⟨q, -, -, e⟩ <;> rw [e]
  · exact ⟨_, h2, h⟩
  · refine ⟨5, by omega, ?_⟩
    have := s.assignLogical_keeps State.hub (fun _ _ => rfl)
    simp only [State.updRole, State.updHub_hub, this, h, Option.map_some]
/-- Cores that differ in their numbers hold the same registers. -/
theorem keeps_of_renumbered {s t : State} (h : ∀ c, (s.core c).Renumbered (t.core c)) (hm : t.mem = s.mem) : KeepsRegsAndMemory s t := by
  refine ⟨fun c k => ?_, fun a => State.byte_of_mem_eq hm a⟩
  obtain ⟨n, b, e, -⟩ := h c
  rw [State.ctx, State.ctx, e]
  exact sameRegs_refl _
theorem State.roleSettle_keepsRegs (s : State) : KeepsRegsAndMemory s s.roleSettle :=
  keeps_of_renumbered s.core_roleSettle (s.roleSettle_keeps State.mem (fun _ _ => rfl) (fun _ _ => rfl))
theorem State.enumerateStaying_keepsRegs (s : State) (r : RoleChange) (k : Nat) : KeepsRegsAndMemory s (s.enumerateStaying r k) :=
  keeps_of_eq (s.enumerateStaying_keeps State.cores r k (fun _ _ _ => rfl) (fun _ _ => rfl))
    (s.enumerateStaying_keeps State.mem r k (fun _ _ _ => rfl) (fun _ _ => rfl))

end Sys2Proof.Machine
end

section
/-! SUPPORT. What the check of held entries leaves as it was (05 R117, R118), and what a stopped context's resumption does (01 R29). -/

namespace Sys2Proof.Machine

/-! ### Records that dispatch checks -/

section
variable {β : Type} (P : State → β) (s : State) (i : Nat)

/-- What neither fronds, cores, worlds nor the slots show, an accepted record keeps. -/
theorem State.acceptRecord_keeps (l : List Nat) (w : SMap Window)
    (h : ∀ t fr co wo sl, P { t with fronds := fr, cores := co, worlds := wo, hub := { t.hub with slots := sl } } = P t) :
    P (s.acceptRecord i l w) = P s := by
  have hcore : ∀ t c f, P (State.updCore t c f) = P t := fun t c f => h t _ _ _ _
  have table : ∀ t : State, P (l.foldl (fun s c => s.updCore c (fun x => { x with windows := w })) t) = P t :=
    fun t => foldl_keeps P _ _ t (fun u c => hcore u c _)
  have hworld : ∀ t v f, P (State.updWorld t v f) = P t := fun t v f => h t _ _ _ _
  have hslot : ∀ t j f, P (State.updSlot t j f) = P t := fun t j f => h t _ _ _ _
  unfold State.acceptRecord
  dsimp only
  split
  · exact (foldl_keeps P _ _ _ (fun t c => (h _ _ _ _ _).trans (hcore _ _ _))).trans
      ((hslot ..).trans ((hworld ..).trans ((table _).trans (h s _ _ _ _))))
  · exact (hslot ..).trans ((hworld ..).trans ((table _).trans (h s _ _ _ _)))
/-- What neither the packets, the slots nor the manager's events show, a refused record keeps. -/
theorem State.refuseRecord_keeps (status aux : Nat)
    (h : ∀ t sl q pk, P { t with packets := pk, hub := { t.hub with slots := sl, queue := q } } = P t) :
    P (s.refuseRecord i status aux) = P s := by
  unfold State.refuseRecord
  dsimp only
  split
  · exact h s _ _ _
  · exact h s _ _ _
/-- A refused record leaves alone a packet that its entry does not belong to. -/
theorem State.mem_packets_refuseRecord (status aux : Nat) {p : Packet} (hp : p ∈ s.packets) (he : p.entry = none) :
    p ∈ (s.refuseRecord i status aux).packets := by
  have e : (s.refuseRecord i status aux).packets = s.packets.map (fun p : Packet =>
      if p.entry = some i then { p.finish status aux with entry := none } else p) := by
    unfold State.refuseRecord
    dsimp only
    split <;> rfl
  rw [e]
  exact List.mem_map.2 ⟨p, hp, by simp [he]⟩
/-- What the check of an entry can do: nothing, refuse the record, once an unreadable table has been logged too, or accept it. -/
theorem State.dispatch_cases :
    s.dispatch i = s ∨ (∃ status aux, s.dispatch i = s.refuseRecord i status aux) ∨
      (∃ d e status aux, s.dispatch i = (s.logFault d e).refuseRecord i status aux) ∨ ∃ l w, s.dispatch i = s.acceptRecord i l w := by
  unfold State.dispatch
  dsimp only
  split
  · exact .inl rfl
  split
  · exact .inr (.inl ⟨_, _, rfl⟩)
  split
  · split
    · exact .inr (.inr (.inl ⟨_, _, _, _, rfl⟩))
    · exact .inr (.inl ⟨_, _, rfl⟩)
  · split
    · exact .inr (.inl ⟨_, _, rfl⟩)
    · exact .inr (.inr (.inr ⟨_, _, rfl⟩))
theorem State.dispatch_keeps
    (h : ∀ t fr co wo sl q pk, P { t with fronds := fr, cores := co, worlds := wo, packets := pk, hub := { t.hub with slots := sl, queue := q } } = P t)
    (hl : ∀ t d e, P (State.logFault t d e) = P t) : P (s.dispatch i) = P s := by
  have refused : ∀ t status aux, P (State.refuseRecord t i status aux) = P t := fun t status aux =>
    State.refuseRecord_keeps P t i status aux (fun t sl q pk => h t t.fronds t.cores t.worlds sl q pk)
  rcases s.dispatch_cases i with e | ⟨_, _, e⟩ | ⟨_, _, _, _, e⟩ | ⟨_, _, e⟩ <;> rw [e]
  · exact refused ..
  · exact (refused ..).trans (hl ..)
  · exact State.acceptRecord_keeps P s i _ _ (fun t fr co wo sl => h t fr co wo sl t.hub.queue t.packets)
theorem State.mem_packets_dispatch {p : Packet} (hp : p ∈ s.packets) (he : p.entry = none) : p ∈ (s.dispatch i).packets := by
  rcases s.dispatch_cases i with e | ⟨_, _, e⟩ | ⟨_, _, _, _, e⟩ | ⟨l, w, e⟩ <;> rw [e]
  · exact hp
  · exact s.mem_packets_refuseRecord i _ _ hp he
  · exact State.mem_packets_refuseRecord _ i _ _ hp he
  · rwa [State.acceptRecord_keeps State.packets s i l w (fun _ _ _ _ _ => rfl)]
end

section
variable (s : State)
theorem State.dispatchAll_keeps {β : Type} (P : State → β)
    (h : ∀ t fr co wo sl q pk, P { t with fronds := fr, cores := co, worlds := wo, packets := pk, hub := { t.hub with slots := sl, queue := q } } = P t)
    (hl : ∀ t d e, P (State.logFault t d e) = P t) : P s.dispatchAll = P s :=
  foldl_keeps P _ _ s (fun t i => State.dispatch_keeps P t i h hl)
theorem State.mem_packets_dispatchAll {p : Packet} (hp : p ∈ s.packets) (he : p.entry = none) : p ∈ s.dispatchAll.packets :=
  foldl_invariant (P := fun t : State => p ∈ t.packets) hp (fun t i _ ht => State.mem_packets_dispatch t i ht he)
end

/-! ### Logs, and a die's state (R26) -/

theorem State.die_logFault (s : State) (d : Nat) (e : LogEnt) (k : Nat) : ∃ l n, (s.logFault d e).die k = { s.die k with log := l, lost := n } := by
  rw [State.logFault, State.die_updDie]
  split
  · rename_i h
    subst h
    split
    · exact ⟨_, _, rfl⟩
    · exact ⟨_, _, rfl⟩
  · exact ⟨_, _, rfl⟩
/-- A log that is not full takes the entry (R139). -/
theorem State.log_logFault {s : State} {d : Nat} (e : LogEnt) (h : (s.die d).log.length < 64) :
    ((s.logFault d e).die d).log = (s.die d).log ++ [e] := by
  rw [State.logFault, State.die_updDie, if_pos rfl, if_neg (by omega)]
theorem State.logFault_keeps (s : State) (d : Nat) (e : LogEnt) : KeepsRegsAndMemory s (s.logFault d e) := keeps_of_eq rfl rfl
theorem State.st_dispatchAll (s : State) (d : Nat) : (s.dispatchAll.die d).st = (s.die d).st :=
  s.dispatchAll_keeps (fun t => (t.die d).st) (fun _ _ _ _ _ _ _ => rfl) (fun t k e => by obtain ⟨_, _, h⟩ := t.die_logFault k e d; rw [h])
theorem State.chgn_dispatchAll (s : State) (d : Nat) : (s.dispatchAll.die d).chgn = (s.die d).chgn :=
  s.dispatchAll_keeps (fun t => (t.die d).chgn) (fun _ _ _ _ _ _ _ => rfl) (fun t k e => by obtain ⟨_, _, h⟩ := t.die_logFault k e d; rw [h])
theorem State.mem_dispatchAll (s : State) : s.dispatchAll.mem = s.mem := s.dispatchAll_keeps State.mem (fun _ _ _ _ _ _ _ => rfl) (fun _ _ _ => rfl)
/-- Neither the role change, the profile nor the partitions change as held entries are checked. -/
theorem State.roles_dispatchAll (s : State) : (s.dispatchAll.hub.role, s.dispatchAll.hub.profile, s.dispatchAll.hub.partitions) =
    (s.hub.role, s.hub.profile, s.hub.partitions) :=
  s.dispatchAll_keeps (fun t => (t.hub.role, t.hub.profile, t.hub.partitions)) (fun _ _ _ _ _ _ _ => rfl) (fun _ _ _ => rfl)

/-! ### Contexts that resume -/

theorem State.resumeStopped_keeps {β : Type} (P : State → β) (s : State) (l : List (Nat × Nat)) (h : ∀ t c, P { t with cores := c } = P t) :
    P (s.resumeStopped l) = P s := foldl_keeps P _ _ s (fun t _ => h t _)
/-- The end of a role change (R28 step 5, R30): stopped contexts resume, its packet completes, and held entries are checked. -/
def State.roleEnds (s : State) (r : RoleChange) (status : Nat) : State := ((s.resumeStopped r.stopped).endPacket r.packet status).dispatchAll
theorem State.resumeStopped_hub (s : State) (l : List (Nat × Nat)) : (s.resumeStopped l).hub = s.hub := s.resumeStopped_keeps State.hub l (fun _ _ => rfl)
theorem State.resumeStopped_dies (s : State) (l : List (Nat × Nat)) : (s.resumeStopped l).dies = s.dies :=
  s.resumeStopped_keeps State.dies l (fun _ _ => rfl)
theorem State.resumeStopped_packets (s : State) (l : List (Nat × Nat)) : (s.resumeStopped l).packets = s.packets :=
  s.resumeStopped_keeps State.packets l (fun _ _ => rfl)
section
variable (s : State) (r : RoleChange) (status : Nat)
theorem State.st_roleEnds (d : Nat) : ((s.roleEnds r status).die d).st = (s.die d).st := by
  rw [State.roleEnds, State.st_dispatchAll]
  exact congrArg Die.st (State.die_of_dies_eq (s.resumeStopped_dies _) d)
theorem State.chgn_roleEnds (d : Nat) : ((s.roleEnds r status).die d).chgn = (s.die d).chgn := by
  rw [State.roleEnds, State.chgn_dispatchAll]
  exact congrArg Die.chgn (State.die_of_dies_eq (s.resumeStopped_dies _) d)
theorem State.mem_roleEnds : (s.roleEnds r status).mem = s.mem := by
  rw [State.roleEnds, State.mem_dispatchAll]
  exact s.resumeStopped_keeps State.mem _ (fun _ _ => rfl)
theorem State.roles_roleEnds : ((s.roleEnds r status).hub.role, (s.roleEnds r status).hub.profile, (s.roleEnds r status).hub.partitions) =
    (s.hub.role, s.hub.profile, s.hub.partitions) := by
  rw [State.roleEnds, State.roles_dispatchAll]
  have e : ((s.resumeStopped r.stopped).endPacket r.packet status).hub = s.hub := s.resumeStopped_hub _
  rw [e]
/-- The packet of the change is done, with its status. -/
theorem State.packet_roleEnds {p : Packet} (hp : p ∈ s.packets) (hid : p.id = r.packet) (he : p.entry = none) :
    p.finish status 0 ∈ (s.roleEnds r status).packets := by
  refine State.mem_packets_dispatchAll _ ?_ he
  show _ ∈ ((s.resumeStopped r.stopped).packets.map _)
  rw [s.resumeStopped_packets]
  exact List.mem_map.2 ⟨p, hp, if_pos hid⟩
end

end Sys2Proof.Machine
end

section
/-! SUPPORT. Errors of a core and of memory (06 R136 to R140, R164): what zeroising, a freeze, a fault's containment and a failed read leave as it
was, and what they bring about. -/

namespace Sys2Proof.Machine

/-! ### Zeroising a core (R164) -/

theorem State.core_zeroiseCore (s : State) (c d : Nat) :
    (s.zeroiseCore c).core d = if d = c then (s.core c).zeroised else s.core d := State.core_updCore _ c d _
theorem State.byte_zeroiseCore (s : State) (c a : Nat) :
    (s.zeroiseCore c).byte a = if spadBase c ≤ a ∧ a < spadBase c + 0x200000 then 0 else s.byte a :=
  State.byte_zeroise { s with calendar := s.calendar.filter (fun t => decide (t.core ≠ c)) } (spadBase c) 0x200000 a
theorem State.zeroiseCore_hub (s : State) (c : Nat) : (s.zeroiseCore c).hub = s.hub := rfl
theorem State.zeroiseCore_dies (s : State) (c : Nat) : (s.zeroiseCore c).dies = s.dies := rfl
theorem bufAddr_wb (c b : Nat) : bufAddr c .wb b = spadBase c + b := by simp [bufAddr, bufBase]
/-- The scratchpad of a zeroised core reads zero. -/
theorem State.byte_zeroiseCore_spad (s : State) (c : Nat) {b : Nat} (hb : b < 0x200000) : (s.zeroiseCore c).byte (bufAddr c .wb b) = 0 := by
  rw [State.byte_zeroiseCore, bufAddr_wb, if_pos (by omega)]
/-- A byte that reads zero still does once a core is zeroised. -/
theorem State.byte_zeroiseCore_of_zero {s : State} (c : Nat) {a : Nat} (h : s.byte a = 0) : (s.zeroiseCore c).byte a = 0 := by
  rw [State.byte_zeroiseCore, h, ite_self]
theorem coreDie_layer {d c : Nat} (hd : 8 ≤ d) (hc : c < 16) : coreDie (16 * (d - 8) + c) = d := by
  unfold coreDie
  omega

/-! ### A freeze (R36, R46, R143) -/

/-- A freeze's step for a core moves times only: registers stay. -/
theorem State.freeze_keeps (s : State) (f : Nat) : KeepsRegsAndMemory s (s.freeze f) := by
  refine foldl_invariant (P := KeepsRegsAndMemory s) (keeps_of_eq rfl rfl) (fun t c _ ht => keeps_trans ht ⟨fun d k => ?_, fun _ => rfl⟩)
  rw [State.ctx, State.ctx, State.core_updCore]
  split
  · rename_i h
    subst h
    refine SMap.rel_get_map _ _ (sameRegs_refl _) (fun e => ?_) k
    split
    · exact ⟨rfl, ⟨rfl, rfl, rfl, rfl, rfl, rfl, rfl, rfl, rfl, rfl, rfl, rfl, rfl, rfl, rfl, rfl⟩⟩
    · exact ⟨rfl, sameRegs_refl _⟩
  · exact sameRegs_refl _
theorem State.freeze_dies (s : State) (f : Nat) : (s.freeze f).dies = s.dies := foldl_keeps State.dies _ _ _ (fun _ _ => rfl)
theorem State.freeze_now (s : State) (f : Nat) : (s.freeze f).now = s.now := foldl_keeps State.now _ _ _ (fun _ _ => rfl)
/-- The frond that a freeze delays, by 128 cycles from its last freeze's end. -/
def Frond.freeze (fr : Frond) (now : Nat) : Frond :=
  { fr with frozen := fr.frozen + freezeCycles, freezeEnd := Max.max now fr.freezeEnd + freezeCycles,
            freezes := fr.freezes ++ [(Max.max now fr.freezeEnd, Max.max now fr.freezeEnd + freezeCycles)] }
theorem State.frond_freeze (s : State) (f n : Nat) : (s.freeze f).frond n = if n = f then (s.frond f).freeze s.now else s.frond n := by
  have e : (s.freeze f).fronds = (s.updFrond f (fun fr => fr.freeze s.now)).fronds := foldl_keeps State.fronds _ _ _ (fun _ _ => rfl)
  rw [State.frond_of_fronds_eq e]
  exact State.frond_updFrond ..
theorem State.frond_foldl_freeze_of_not_mem {l : List Nat} (s : State) {n : Nat} (h : n ∉ l) :
    (l.foldl State.freeze s).frond n = s.frond n ∧ (l.foldl State.freeze s).now = s.now :=
  foldl_invariant (P := fun t : State => t.frond n = s.frond n ∧ t.now = s.now) ⟨rfl, rfl⟩
    (fun t f hf ht => ⟨by rw [State.frond_freeze, if_neg (fun e => h (by rwa [e])), ht.1], (t.freeze_now f).trans ht.2⟩)
/-- A frond that a pass names once freezes once. -/
theorem State.frond_foldl_freeze {a b : List Nat} (s : State) {n : Nat} (ha : n ∉ a) (hb : n ∉ b) :
    ((a ++ n :: b).foldl State.freeze s).frond n = (s.frond n).freeze s.now := by
  obtain ⟨hf, hn⟩ := s.frond_foldl_freeze_of_not_mem ha
  rw [List.foldl_append, List.foldl_cons, (State.frond_foldl_freeze_of_not_mem _ hb).1, State.frond_freeze, if_pos rfl, hf, hn]
/-- A listed frond with a key of its own is the only one that a selection of keys takes for it. -/
theorem keys_filter_of_unique {α : Type} {m : SMap α} {e : Nat × α} (q : Nat × α → Bool) (he : e ∈ m) (hq : q e = true)
    (hk : ∀ x ∈ m, x.1 = e.1 → x = e) (hm : m.Nodup) : ∃ a b, (m.filter q).map Prod.fst = a ++ e.1 :: b ∧ e.1 ∉ a ∧ e.1 ∉ b := by
  obtain ⟨u, v, rfl⟩ := List.append_of_mem he
  obtain ⟨-, hv, hd⟩ := List.nodup_append.1 hm
  have other : ∀ l : SMap α, (∀ x ∈ l, x ∈ u ++ e :: v) → e ∉ l → e.1 ∉ (l.filter q).map Prod.fst := by
    intro l hl hn hc
    obtain ⟨x, hx, h1⟩ := List.mem_map.1 hc
    have hx := (List.mem_filter.1 hx).1
    exact hn (hk x (hl x hx) h1 ▸ hx)
  refine ⟨(u.filter q).map Prod.fst, (v.filter q).map Prod.fst, by simp [hq],
    other u (fun x hx => List.mem_append_left _ hx) (fun h => hd e h e (List.mem_cons_self ..) rfl),
    other v (fun x hx => List.mem_append_right _ (List.mem_cons_of_mem _ hx)) (List.nodup_cons.1 hv).1⟩

/-! ### Containment (R136, R143) -/

theorem State.contain_keeps {β : Type} (P : State → β) (s : State) (f code : Nat) (hc : ∀ t ck, P (State.abortCtx t ck) = P t)
    (hp : ∀ t l, P { t with posted := l } = P t) (hf : ∀ t l, P { t with fronds := l } = P t)
    (hh : ∀ t x l, P { t with hub := x, packets := l } = P t) : P (s.contain f code) = P s := by
  unfold State.contain
  split
  · exact hf ..
  · exact s.abortFrond_keeps P f _ hc hp hf hh
section
variable (s : State) (f code : Nat)
theorem State.contain_mem : (s.contain f code).mem = s.mem :=
  s.contain_keeps State.mem f code (fun _ _ => rfl) (fun _ _ => rfl) (fun _ _ => rfl) (fun _ _ _ => rfl)
theorem State.contain_dies : (s.contain f code).dies = s.dies :=
  s.contain_keeps State.dies f code (fun _ _ => rfl) (fun _ _ => rfl) (fun _ _ => rfl) (fun _ _ _ => rfl)
theorem State.contain_faulty : (s.contain f code).faulty = s.faulty :=
  s.contain_keeps State.faulty f code (fun _ _ => rfl) (fun _ _ => rfl) (fun _ _ => rfl) (fun _ _ _ => rfl)
theorem State.contain_now : (s.contain f code).now = s.now :=
  s.contain_keeps State.now f code (fun _ _ => rfl) (fun _ _ => rfl) (fun _ _ => rfl) (fun _ _ _ => rfl)
theorem State.fenced_updCore {g : Core → Core} (c d : Nat) (h : ∀ x, (g x).fenced = x.fenced) :
    ((s.updCore c g).core d).fenced = (s.core d).fenced := by
  rw [State.core_updCore]
  split
  · rename_i e
    rw [h, e]
  · rfl
theorem Core.leave_fenced (x : Core) (k now : Nat) : (x.leave k now).fenced = x.fenced := by
  unfold Core.leave
  split <;> rfl
theorem State.fenced_idle (c k d : Nat) : ((s.idle c k).core d).fenced = (s.core d).fenced := State.fenced_updCore s c d (fun _ => Core.leave_fenced ..)
theorem State.fenced_stopCtx (c k d : Nat) : ((s.stopCtx c k).core d).fenced = (s.core d).fenced := by
  refine (State.fenced_updCore (s.idle c k) c d ?_).trans (s.fenced_idle c k d)
  exact fun _ => rfl
theorem State.fenced_abortCtx (ck : Nat × Nat) (c : Nat) : ((s.abortCtx ck).core c).fenced = (s.core c).fenced := by
  refine (State.fenced_updCore ((s.stopCtx ck.1 ck.2).dropDeliveries ck.1 ck.2) ck.1 c ?_).trans (s.fenced_stopCtx ck.1 ck.2 c)
  exact fun _ => rfl
theorem State.fenced_contain (c : Nat) : ((s.contain f code).core c).fenced = (s.core c).fenced :=
  s.contain_keeps (fun t => (t.core c).fenced) f code (fun t ck => t.fenced_abortCtx ck c) (fun _ _ => rfl) (fun _ _ => rfl) (fun _ _ _ => rfl)
end
variable {s : State} {f n : Nat}
theorem State.frond_contain_ne (code : Nat) (h : n ≠ f) : (s.contain f code).frond n = s.frond n := by
  unfold State.contain
  split
  · rw [State.frond_updFrond, if_neg h]
  · by_cases hr : (s.frond f).runs
    · rw [State.frond_abortFrond _ n hr, if_neg h]
    · rw [State.abortFrond_of_not_runs _ hr]
/-- An abort stands, whatever is contained after it (R143). -/
theorem State.abort_contain_of_aborted (code : Nat) {why : Nat × Nat} (h : (s.frond n).abort = some why) :
    ((s.contain f code).frond n).abort = some why := by
  by_cases hn : n = f
  · subst hn
    unfold State.contain
    split
    · rw [State.frond_updFrond, if_pos rfl, h]
    · rw [State.abortFrond_of_not_runs _ (by simp [Frond.runs, h]), h]
  · rw [State.frond_contain_ne code hn, h]
/-- A frond that runs and is in no freeze is aborted. -/
theorem State.abort_contain (code : Nat) (hr : (s.frond n).runs) (hz : (s.frond n).freezeEnd ≤ s.now) :
    ((s.contain n code).frond n).abort = some (0x10, code) := by
  unfold State.contain
  rw [if_neg (by simp [State.frozen, hz]), State.frond_abortFrond _ n hr, if_pos rfl]
  simp [Frond.aborted, abortStatus]

/-! ### Fencing a core (R136) -/

section
variable (s : State) (c code : Nat)
theorem State.byte_fenceCore (b : Nat) : (s.fenceCore c code).byte b = s.byte b :=
  State.byte_of_mem_eq (foldl_keeps State.mem _ _ _ (fun t f => t.contain_mem f code)) b
theorem State.fenceCore_dies : (s.fenceCore c code).dies = s.dies := foldl_keeps State.dies _ _ _ (fun t f => t.contain_dies f code)
theorem State.fenced_fenceCore : ((s.fenceCore c code).core c).fenced = true :=
  (foldl_keeps (fun t : State => (t.core c).fenced) _ _ _ (fun t f => t.fenced_contain f code c)).trans
    (congrArg Core.fenced (State.core_updCore_self _ c _))
end
theorem State.mem_frondsOn {s : State} {c n : Nat} (hr : (s.frond n).runs) (hc : c ∈ (s.frond n).cores) : n ∈ s.frondsOn c := by
  obtain ⟨hb, he, ha⟩ := hr
  have hn : s.frond n ≠ {} := fun e => by simp [e] at hb
  exact List.mem_map.2 ⟨(n, s.frond n), List.mem_filter.2 ⟨SMap.mem_of_get_ne hn, by simp [hb, he, ha, hc]⟩, rfl⟩
/-- A frond with a core that is fenced is aborted, unless it is in a freeze. -/
theorem State.abort_fenceCore {s : State} {c n : Nat} (code : Nat) (hr : (s.frond n).runs) (hz : (s.frond n).freezeEnd ≤ s.now)
    (hc : c ∈ (s.frond n).cores) : ((s.fenceCore c code).frond n).abort = some (0x10, code) := by
  refine foldl_reaches (P := fun t : State => t.frond n = s.frond n ∧ t.now = s.now) (Q := fun t : State => (t.frond n).abort = some (0x10, code))
    (State.mem_frondsOn hr hc) ⟨rfl, rfl⟩ (fun t ht => ?_) (fun t f hf ht => ?_) (fun t f ht => State.abort_contain_of_aborted code ht)
  · exact State.abort_contain code (ht.1 ▸ hr) (by rw [ht.1, ht.2]; exact hz)
  · exact ⟨(State.frond_contain_ne code hf.symm).trans ht.1, (t.contain_now f code).trans ht.2⟩

/-! ### Reads that fail (R136, R138) -/

theorem State.mem_faulty_spoil (s : State) (pa : Nat) : checkWord pa ∈ (s.spoil pa).faulty := by
  unfold State.spoil
  split
  · simp_all
  · simp
/-- The state in which a failed read's check word is marked and its accesses have failed. -/
def State.readLost (s : State) (pa : Nat) (req : Requester) : State :=
  { s.spoil pa with
    calendar := (s.spoil pa).calendar.filter (fun t => !t.readsFor req pa)
    posted := (s.spoil pa).posted.map (fun a : Access => if a.readsFor req pa then a.failed else a) }
theorem State.failRead_eq (s : State) (a : Word) (req : Requester) :
    ∃ token world, s.failRead a req = (s.readLost a.toNat req).uncorrectable a.toNat req token world := ⟨_, _, rfl⟩
theorem State.readLost_keeps {β : Type} (P : State → β) (s : State) (pa : Nat) (req : Requester)
    (h : ∀ t f c l, P { t with faulty := f, calendar := c, posted := l } = P t) : P (s.readLost pa req) = P s := by
  have e : P (s.spoil pa) = P s := by
    unfold State.spoil
    split
    · rfl
    · exact h s _ s.calendar s.posted
  exact (h (s.spoil pa) (s.spoil pa).faulty _ _).trans e
/-- What an uncorrectable read does: an entry of its kind is logged at the die of its address, and its requester fails. -/
theorem State.uncorrectable_eq (s : State) (pa : Nat) (req : Requester) (token : Word) (world : Nat) :
    ∃ e : LogEnt, e.kind = readCode pa ∧ e.addr = BitVec.ofNat 64 pa ∧ e.tick = s.gtick ∧
      s.uncorrectable pa req token world = match req with
        | .ctx _ _ frond => (s.logFault (addrDie pa) e).contain frond (readCode pa)
        | .packet id => (s.logFault (addrDie pa) e).failPacket id (readCode pa) := by
  cases req with
  | ctx core ctx frond =>
    refine ⟨s.readFault pa core world token, ?_, ?_, ?_, rfl⟩ <;> (unfold State.readFault; split <;> rfl)
  | packet id => exact ⟨s.readFault pa 512 world 0, rfl, rfl, rfl, rfl⟩

end Sys2Proof.Machine
end

section
/-! SUPPORT. The errors of a core and of memory (06 R136 to R140), each by what it leaves in the log, in the core and in the fronds. -/

namespace Sys2Proof.Machine

/-- A die's log, unless it is full, has the entry of an error. -/
def Logged (s t : State) (die kind : Nat) (addr : Word) : Prop :=
  (s.die die).log.length < 64 → ∃ e, (t.die die).log = (s.die die).log ++ [e] ∧ e.kind = kind ∧ e.addr = addr ∧ e.tick = s.gtick
theorem logged_logFault {s t : State} {d : Nat} {e : LogEnt} (ht : e.tick = s.gtick) (hd : (t.die d).log = ((s.logFault d e).die d).log) :
    Logged s t d e.kind e.addr := fun h => ⟨e, hd.trans (State.log_logFault e h), rfl, rfl, ht⟩
theorem logged_of_dies_eq {s t : State} {d : Nat} {e : LogEnt} (ht : e.tick = s.gtick) (hd : t.dies = (s.logFault d e).dies) :
    Logged s t d e.kind e.addr := logged_logFault ht (congrArg Die.log (State.die_of_dies_eq hd d))

/-! ### A core's errors (R136, R137) -/

/-- The state in which a correctable error has been logged and its core stands. -/
def State.corrected (s : State) (c : Nat) (a : Word) : State :=
  (s.logFault (coreDie c) (s.coreFault 0x01 c a 0)).updCore c (fun x => { x with stands := Max.max s.now x.stands + freezeCycles })
theorem exec_scratchpadCorrectableError (s : State) (c : Nat) (a : Word) : exec (.scratchpadCorrectableError c a) s =
    .next (((((s.corrected c a).frondsOn c).filter (fun f => ((s.corrected c a).frond f).started)).foldl State.freeze (s.corrected c a))) := rfl
theorem State.corrected_keeps (s : State) (c : Nat) (a : Word) : KeepsRegsAndMemory s (s.corrected c a) := by
  refine ⟨fun d k => ?_, fun _ => rfl⟩
  rw [State.ctx, State.ctx, State.corrected, State.core_updCore]
  split
  · rename_i h
    rw [h]
    exact sameRegs_refl _
  · exact sameRegs_refl _
theorem scratchpadCorrectableError_effect (s : State) (c : Nat) (a : Word) :
    ∃ t, exec (.scratchpadCorrectableError c a) s = .next t ∧ Logged s t (coreDie c) 1 a ∧ KeepsRegsAndMemory s t ∧
      (∀ e ∈ s.fronds, e.2 = s.frond e.1 → e.2.bound = true → e.2.ended = false → e.2.abort = none → e.2.started = true → c ∈ e.2.cores →
        (∀ e' ∈ s.fronds, e'.1 = e.1 → e' = e) → s.fronds.Nodup →
        (t.frond e.1).frozen = e.2.frozen + 128 ∧ (t.frond e.1).freezeEnd = Max.max s.now e.2.freezeEnd + 128) := by
  refine ⟨_, exec_scratchpadCorrectableError s c a, ?_, ?_, fun e he hf hb hd ha hs hc hu hn => ?_⟩
  · exact logged_of_dies_eq (e := s.coreFault 0x01 c a 0) rfl (foldl_keeps State.dies _ _ _ State.freeze_dies)
  · exact foldl_invariant (P := KeepsRegsAndMemory s) (s.corrected_keeps c a) (fun t f _ ht => keeps_trans ht (t.freeze_keeps f))
  · obtain ⟨u, v, hl, hu, hv⟩ := keys_filter_of_unique (fun e => e.2.bound && !e.2.ended && e.2.abort.isNone && e.2.cores.contains c) he
      (by simp [hb, hd, ha, hc]) hu hn
    have hl' : ((s.corrected c a).frondsOn c).filter (fun f => ((s.corrected c a).frond f).started) =
        u.filter (fun f => ((s.corrected c a).frond f).started) ++ e.1 :: v.filter (fun f => ((s.corrected c a).frond f).started) := by
      have hst : ((s.corrected c a).frond e.1).started = true := hf ▸ hs
      rw [show (s.corrected c a).frondsOn c = u ++ e.1 :: v from hl]
      simp [hst]
    rw [hl', State.frond_foldl_freeze _ (fun h => hu (List.mem_filter.1 h).1) (fun h => hv (List.mem_filter.1 h).1),
      show (s.corrected c a).frond e.1 = e.2 from hf.symm]
    exact ⟨rfl, rfl⟩

/-- The state in which an uncorrectable error of a core has been logged and the core fenced. -/
def State.coreFailed (s : State) (kind c : Nat) (a : Word) : State := (s.logFault (coreDie c) (s.coreFault kind c a 0)).fenceCore c kind
theorem coreFailed_effect (s : State) (kind c : Nat) (a : Word) :
    Logged s (s.coreFailed kind c a) (coreDie c) kind a ∧ ((s.coreFailed kind c a).core c).fenced = true ∧
      (∀ b, (s.coreFailed kind c a).byte b = s.byte b) ∧
      ∀ n, (s.frond n).bound = true → (s.frond n).ended = false → (s.frond n).abort = none → (s.frond n).freezeEnd ≤ s.now →
        c ∈ (s.frond n).cores → ((s.coreFailed kind c a).frond n).abort = some (0x10, kind) :=
  ⟨logged_of_dies_eq (e := s.coreFault kind c a 0) rfl (State.fenceCore_dies ..), State.fenced_fenceCore _ c kind, State.byte_fenceCore _ c kind,
    fun _ hb he ha hz hc => State.abort_fenceCore (s := s.logFault (coreDie c) (s.coreFault kind c a 0)) kind ⟨hb, he, ha⟩ hz hc⟩
theorem exec_uncorrectableOfCore (s : State) (c : Nat) (a : Word) (i : Instr) (kind : Nat)
    (h : (i, kind) ∈ [(Instr.scratchpadUncorrectableError c a, 2), (.copyParityError c a, 8)]) : exec i s = .next (s.coreFailed kind c a) := by
  simp only [List.mem_cons, List.not_mem_nil, or_false, Prod.mk.injEq] at h
  rcases h with ⟨rfl, rfl⟩ | ⟨rfl, rfl⟩ <;> rfl

/-! ### Reads that fail (R136, R138, log 31) -/

theorem exec_uncorrectableRead (s : State) (a : Word) (req : Requester) (i : Instr)
    (h : i ∈ [Instr.nearTierUncorrectable a req, .layerPoolUncorrectable a req, .farTierUncorrectable a req]) : exec i s = .next (s.failRead a req) := by
  simp only [List.mem_cons, List.not_mem_nil, or_false] at h
  rcases h with rfl | rfl | rfl <;> rfl
section
variable (s : State) (a : Word) (req : Requester)
/-- What a failed read does: the word is marked, and from that state an entry is logged and the requester fails. -/
theorem State.failRead_cases : ∃ e : LogEnt, e.kind = readCode a.toNat ∧ e.addr = BitVec.ofNat 64 a.toNat ∧ e.tick = s.gtick ∧
    s.failRead a req = match req with
      | .ctx _ _ frond => ((s.readLost a.toNat req).logFault (addrDie a.toNat) e).contain frond (readCode a.toNat)
      | .packet id => ((s.readLost a.toNat req).logFault (addrDie a.toNat) e).failPacket id (readCode a.toNat) := by
  obtain ⟨token, world, h⟩ := s.failRead_eq a req
  obtain ⟨e, hk, ha, ht, he⟩ := (s.readLost a.toNat req).uncorrectable_eq a.toNat req token world
  exact ⟨e, hk, ha, ht.trans (s.readLost_keeps State.gtick _ _ (fun _ _ _ _ => rfl)), h.trans he⟩
theorem State.failRead_keeps {β : Type} (P : State → β) (hc : ∀ t ck, P (State.abortCtx t ck) = P t) (hr : ∀ t f c l, P { t with faulty := f, calendar := c, posted := l } = P t)
    (hf : ∀ t l, P { t with fronds := l } = P t) (hh : ∀ t x l, P { t with hub := x, packets := l } = P t) (hl : ∀ t l, P { t with dies := l } = P t) :
    P (s.failRead a req) = P s := by
  obtain ⟨e, -, -, -, h⟩ := s.failRead_cases a req
  rw [h]
  have lost : P (s.readLost a.toNat req) = P s := s.readLost_keeps P _ _ hr
  cases req with
  | ctx core ctx frond => exact (State.contain_keeps P _ _ _ hc (fun t l => hr t t.faulty t.calendar l) hf hh).trans ((hl ..).trans lost)
  | packet id => exact (hh _ _ _).trans ((hl ..).trans lost)
theorem State.byte_failRead (b : Nat) : (s.failRead a req).byte b = s.byte b :=
  State.byte_of_mem_eq (s.failRead_keeps a req State.mem (fun _ _ => rfl) (fun _ _ _ _ => rfl) (fun _ _ => rfl) (fun _ _ _ => rfl) (fun _ _ => rfl)) b
theorem State.logged_failRead : Logged s (s.failRead a req) (addrDie a.toNat) (readCode a.toNat) (BitVec.ofNat 64 a.toNat) := by
  obtain ⟨e, hk, ha, ht, h⟩ := s.failRead_cases a req
  rw [h, ← hk, ← ha]
  have lost : (s.readLost a.toNat req).dies = s.dies := s.readLost_keeps State.dies _ _ (fun _ _ _ _ => rfl)
  refine logged_of_dies_eq ht ?_
  have logs : ((s.readLost a.toNat req).logFault (addrDie a.toNat) e).dies = (s.logFault (addrDie a.toNat) e).dies := by
    simp only [State.logFault, State.updDie, lost]
  cases req with
  | ctx core ctx frond => exact (State.contain_dies ..).trans logs
  | packet id => exact logs
theorem State.mem_faulty_failRead : 8 * (a.toNat / 8) ∈ (s.failRead a req).faulty := by
  obtain ⟨e, -, -, -, h⟩ := s.failRead_cases a req
  rw [h]
  have lost : 8 * (a.toNat / 8) ∈ (s.readLost a.toNat req).faulty := s.mem_faulty_spoil a.toNat
  cases req with
  | ctx core ctx frond =>
    show _ ∈ (State.contain _ _ _).faulty
    rw [State.contain_faulty]
    exact lost
  | packet id => exact lost
end
/-- The packet that needed the value will complete with ABORT. -/
theorem State.packet_failRead {s : State} (a : Word) {id : Nat} {p : Packet} (h : s.packet id = some p) (h0 : p.status = 0) :
    ∃ q, (s.failRead a (.packet id)).packet id = some q ∧ q.status = 0x10 ∧ q.aux = readCode a.toNat := by
  obtain ⟨e, -, -, -, he⟩ := s.failRead_cases a (.packet id)
  have lost : ((s.readLost a.toNat (.packet id)).logFault (addrDie a.toNat) e).packet id = s.packet id :=
    State.packet_of_packets_eq (t := (s.readLost a.toNat (.packet id)).logFault (addrDie a.toNat) e)
      (s.readLost_keeps State.packets _ (.packet id) (fun _ _ _ _ => rfl)) id
  rw [he]
  refine ⟨{ p with status := 0x10, aux := readCode a.toNat, err := true }, ?_, rfl, rfl⟩
  refine (State.packet_map (s := (s.readLost a.toNat (.packet id)).logFault (addrDie a.toNat) e) rfl (fun q => by split <;> rfl) id).trans ?_
  rw [lost, h]
  simp [State.packet_id h, h0]
/-- The frond that needed the value is aborted, unless it is in a freeze. -/
theorem State.abort_failRead {s : State} (a : Word) (core ctx : Nat) {n : Nat} (hr : (s.frond n).runs) (hz : (s.frond n).freezeEnd ≤ s.now) :
    ((s.failRead a (.ctx core ctx n)).frond n).abort = some (0x10, readCode a.toNat) := by
  obtain ⟨e, -, -, -, he⟩ := s.failRead_cases a (.ctx core ctx n)
  have hf : ((s.readLost a.toNat (.ctx core ctx n)).logFault (addrDie a.toNat) e).frond n = s.frond n :=
    State.frond_of_fronds_eq (t := (s.readLost a.toNat (.ctx core ctx n)).logFault (addrDie a.toNat) e)
      (s.readLost_keeps State.fronds _ (.ctx core ctx n) (fun _ _ _ _ => rfl)) n
  have hn : (s.readLost a.toNat (.ctx core ctx n)).now = s.now := s.readLost_keeps State.now _ _ (fun _ _ _ _ => rfl)
  rw [he]
  refine State.abort_contain (readCode a.toNat) ?_ ?_ <;> rw [hf]
  · exact hr
  · exact hz.trans_eq hn.symm

/-! ### Release, and lost events (R139, R140) -/

section
variable (s : State) {d c : Nat}
theorem coreRelease_effect (hd : 8 ≤ d) (hc : c < 16) (hf : (s.core (16 * (d - 8) + c)).fenced = true) (hl : (s.die d).lost = 0)
    (he : ∀ e ∈ (s.die d).log, e.srccore ≠ 16 * (d - 8) + c) : ∃ t, exec (.coreRelease d c) s = .next t ∧
      (t.core (16 * (d - 8) + c)).fenced = false ∧ (t.core (16 * (d - 8) + c)).ctxs = [] ∧
      (t.core (16 * (d - 8) + c)).granted = (s.core (16 * (d - 8) + c)).granted ∧
      ∀ b < 0x200000, t.byte (bufAddr (16 * (d - 8) + c) .wb b) = 0 := by
  have may : s.mayRelease (16 * (d - 8) + c) = true := by
    simp only [State.mayRelease, coreDie_layer hd hc, hf, hl, Bool.and_eq_true, Bool.not_eq_true', List.any_eq_false, decide_eq_true_eq]
    exact ⟨⟨trivial, he⟩, trivial⟩
  refine ⟨_, congrArg Host.Outcome.next (if_pos ⟨hd, hc, may⟩), ?_⟩
  rw [State.core_updCore_self, State.core_zeroiseCore, if_pos rfl]
  exact ⟨rfl, rfl, rfl, fun b hb => s.byte_zeroiseCore_spad _ hb⟩
theorem exec_coreRelease_refused (d c : Nat) (h : (s.core (16 * (d - 8) + c)).fenced = false) :
    exec (.coreRelease d c) s = .next (s.cfgErrorH d (cfgAddr d (0x60 + 8 * c))) :=
  congrArg Host.Outcome.next (if_neg (by simp [State.mayRelease, h]))
theorem cfgAddr_eq (d off : Nat) : cfgAddr d off = BitVec.ofNat 64 (2 ^ 24 * d + off) := rfl
theorem logged_cfgErrorH (d : Nat) (a : Word) : Logged s (s.cfgErrorH d a) d 0x0A a := logged_of_dies_eq (e :=
  { kind := 0x0A, world := 0, srccore := 0xFFFF, srcdie := 0, addr := a, token := 0, tick := s.gtick }) rfl rfl
/-- All of COUNT is written 1, or not. -/
theorem fld_count_ones_iff (v : Word) : fld v 0 32 = 0xFFFFFFFF#32 ↔ v.toNat % 2 ^ 32 = 2 ^ 32 - 1 := by
  rw [← BitVec.toNat_inj]
  simp [fld]
theorem lostevClear_effect (d : Nat) (v : Word) : ∃ t, exec (.lostevClear d v) s = .next t ∧ KeepsRegsAndMemory s t ∧
    (t.die d).lost = if v.toNat % 2 ^ 32 = 2 ^ 32 - 1 then 0 else (s.die d).lost := by
  refine ⟨_, rfl, ?_, ?_⟩
  · split
    · exact keeps_of_eq rfl rfl
    · exact keeps_refl s
  · simp only [fld_count_ones_iff]
    split
    · rw [State.die_updDie, if_pos rfl]
    · rfl
end

end Sys2Proof.Machine
end

section
/-! SUPPORT. Reset, measured boot and the interface's states (01 R35, R41, R42, 03 R60 to R62, 04 R81 to R83): what each step of the boot leaves in the
hub, and what the calibration finds at the endpoints. -/

namespace Sys2Proof.Machine

/-! ### Images (R61) -/

theorem digestBytes_eq (d : BitVec 384) : digestBytes d = leBytes 48 d.toNat := rfl
/-- Images are refused when one of their stages has none. -/
theorem State.acceptImages_eq_none {s : State} {floor slot : Nat} {f : Flash} {l : List Nat} (h : ∃ k ∈ l, loadImage floor f k = none) :
    s.acceptImages floor f slot l = none := by
  induction l generalizing s with
  | nil => simp at h
  | cons k r ih =>
    rw [State.acceptImages]
    split
    · rfl
    · rename_i i hi
      have hr : ∃ k ∈ r, loadImage floor f k = none := by
        obtain ⟨j, hj, hn⟩ := h
        rcases List.mem_cons.1 hj with rfl | hj
        · simp [hi] at hn
        · exact ⟨j, hj, hn⟩
      rw [ih hr]
/-- A change of the slots of MSL alone (R60). -/
def State.Measures (s t : State) : Prop := ∃ m, t = s.updHub (fun h => { h with msl := m })
theorem State.Measures.trans {s t u : State} (h : s.Measures t) (k : t.Measures u) : s.Measures u := by
  obtain ⟨m, rfl⟩ := h
  obtain ⟨n, rfl⟩ := k
  exact ⟨n, rfl⟩
theorem State.measures_extend (s : State) (i : Nat) (d : List Byte) : s.Measures (s.extend i d) := ⟨_, rfl⟩
theorem State.measures_refl (s : State) : s.Measures s := ⟨s.hub.msl, rfl⟩
/-- Images with an acceptable one for each stage are accepted, and measured. -/
theorem State.acceptImages_eq_some {s : State} {floor slot : Nat} {f : Flash} {l : List Nat} (h : ∀ k ∈ l, loadImage floor f k ≠ none) :
    ∃ t m, s.acceptImages floor f slot l = some (t, m) ∧ s.Measures t := by
  induction l generalizing s with
  | nil => exact ⟨s, [], rfl, s.measures_refl⟩
  | cons k r ih =>
    obtain ⟨i, hi⟩ := Option.ne_none_iff_exists'.1 (h k (List.mem_cons_self ..))
    obtain ⟨t, m, ht, hm⟩ := ih (s := s.extend slot (digestBytes (sha384 i.body))) (fun k hk => h k (List.mem_cons_of_mem _ hk))
    exact ⟨t, i :: m, by rw [State.acceptImages]; simp only [hi, ht], (s.measures_extend ..).trans hm⟩

/-! ### The outcomes of a boot (R61, R62) -/

/-- The state in which the slots have been cleared and stage 1 has been measured. -/
def State.released (s : State) : State := { s with now := 0, gtick := 0 }.updHub (fun h => { h with ifs := .boot, bst := 0, msl := [] })
def State.stageOne (s : State) (i : Image) : State := s.released.extend 0 (digestBytes (sha384 i.body))
def State.measured (s : State) (i : Image) (m : Manifest) : State := (s.stageOne i).extend 1 (digestBytes (sha384 m.body))
theorem exec_resetRelease_eq (f : Flash) (s : State) : exec (.resetRelease f) s = execResetRelease f s := rfl
section
variable {s : State} {flash : Flash} {i : Image} (hr : s.hub.ifs = .reset)
include hr
theorem exec_resetRelease_noImage (h : loadImage s.hub.floor flash 0 = none) : exec (.resetRelease flash) s = .next (s.released.enterFault 1) := by
  rw [exec_resetRelease_eq, execResetRelease, if_neg (not_not_intro hr)]
  simp only [h]
  rfl
variable (h : loadImage s.hub.floor flash 0 = some i)
include h
theorem exec_resetRelease_badManifest (hm : manifestOk s.hub.floor flash.manifest = false) :
    exec (.resetRelease flash) s = .next ((s.stageOne i).enterFault 2) := by
  rw [exec_resetRelease_eq, execResetRelease, if_neg (not_not_intro hr)]
  simp only [h, hm]
  rfl
variable (hm : manifestOk s.hub.floor flash.manifest = true)
include hm
theorem exec_resetRelease_unknownKey (hk : ¬ (publicKey (deriveScalar labelIdk flash.manifest.identityPolicy) = flash.certKey ∧
    Config.certifiedKey flash.cert = flash.certKey)) : exec (.resetRelease flash) s = .next ((s.measured i flash.manifest).enterFault 3) := by
  rw [exec_resetRelease_eq, execResetRelease, if_neg (not_not_intro hr)]
  simp only [h, hm, Bool.not_true, Bool.false_eq_true, if_false]
  rw [if_pos (by rw [not_and_or] at hk; exact hk)]
  rfl
variable (hk : publicKey (deriveScalar labelIdk flash.manifest.identityPolicy) = flash.certKey ∧ Config.certifiedKey flash.cert = flash.certKey)
include hk
/-- From the check of the key on, what the images of the later stages decide. -/
theorem exec_resetRelease_known : exec (.resetRelease flash) s =
    match (s.measured i flash.manifest).acceptImages s.hub.floor flash 2 stage2Images with
    | none => .next ((s.measured i flash.manifest).enterFault 1)
    | some (t, two) =>
      match t.acceptImages s.hub.floor flash 3 (mgmtDies.map mgmtStage) with
      | none => .next (t.enterFault 1)
      | some (t, three) =>
        let ctx := t.hub.mslBytes 4
        let idk := deriveScalar labelIdk flash.manifest.identityPolicy
        let tbs := Config.aliasTbs (publicKey (deriveScalar labelAlk ctx)) ctx
        .next (((t.updHub (fun h => { h with
          floor := Max.max h.floor (((two ++ three).map Image.version).min?.getD 0), idk := idk, idkDigest := sha384 (publicKey idk),
          alk := deriveScalar labelAlk ctx, slk := deriveKey256 labelSlk ctx, ssecLocked := true,
          chain := Config.rootCert ++ flash.cert ++ Config.aliasCert tbs (ecdsaSign idk (sha384 tbs)),
          manifest := flash.manifest, booting := true })).detectFarTier flash flash.manifest).calibrateAll flash) := by
  rw [exec_resetRelease_eq, execResetRelease, if_neg (not_not_intro hr)]
  simp only [h, hm, Bool.not_true, Bool.false_eq_true, if_false]
  rw [if_neg (by rw [not_or, not_not, not_not]; exact hk)]
  rfl
theorem exec_resetRelease_missingImage (hi : ∃ k ∈ stage2Images ++ mgmtDies.map mgmtStage, loadImage s.hub.floor flash k = none) :
    ∃ t : State, exec (.resetRelease flash) s = .next (t.enterFault 1) ∧ t.cores = s.cores ∧ t.mem = s.mem := by
  rw [exec_resetRelease_known hr h hm hk]
  by_cases h2 : ∃ k ∈ stage2Images, loadImage s.hub.floor flash k = none
  · rw [State.acceptImages_eq_none h2]
    exact ⟨_, rfl, rfl, rfl⟩
  · obtain ⟨t, two, ht, m, rfl⟩ := (s.measured i flash.manifest).acceptImages_eq_some (slot := 2) (fun k hk hn => h2 ⟨k, hk, hn⟩)
    have h3 : ∃ k ∈ mgmtDies.map mgmtStage, loadImage s.hub.floor flash k = none := by
      obtain ⟨k, hk, hn⟩ := hi
      exact ⟨k, (List.mem_append.1 hk).resolve_left (fun h => h2 ⟨k, h, hn⟩), hn⟩
    simp only [ht, State.acceptImages_eq_none h3]
    exact ⟨_, rfl, rfl, rfl⟩
/-- With an acceptable image for every stage the boot goes on to the calibration of the links. -/
theorem exec_resetRelease_boots (hi : ∀ k ∈ stage2Images ++ mgmtDies.map mgmtStage, loadImage s.hub.floor flash k ≠ none) :
    ∃ t : State, exec (.resetRelease flash) s = .next (t.calibrateAll flash) ∧ t.cores = s.cores ∧ t.mem = s.mem ∧ t.fresh = s.fresh ∧
      t.hub.profile = s.hub.profile ∧ t.hub.ifs = .boot ∧ t.hub.bst = 0 ∧ t.hub.booting = true ∧ t.hub.ssecLocked = true ∧
      t.hub.idk = deriveScalar labelIdk flash.manifest.identityPolicy := by
  rw [exec_resetRelease_known hr h hm hk]
  obtain ⟨t, two, ht, m, rfl⟩ := (s.measured i flash.manifest).acceptImages_eq_some (slot := 2) (fun k hk => hi k (List.mem_append_left _ hk))
  obtain ⟨t, three, ht', n, rfl⟩ := State.acceptImages_eq_some (s := (s.measured i flash.manifest).updHub (fun h => { h with msl := m })) (slot := 3)
    (fun k hk => hi k (List.mem_append_right _ hk))
  simp only [ht, ht']
  refine ⟨_, rfl, ?_⟩
  unfold State.detectFarTier
  dsimp only
  split <;> exact ⟨rfl, rfl, rfl, rfl, rfl, rfl, rfl, rfl, rfl⟩
end

/-! ### Calibration at boot (R41, R42) -/

theorem State.ep_updEp (s : State) (d e k j : Nat) (f : Endpoint → Endpoint) :
    ((s.updEp d e f).die k).ep j = if k = d ∧ j = e then f ((s.die d).ep e) else (s.die k).ep j := by
  rw [State.updEp, State.die_updDie]
  by_cases h : k = d
  · subst h
    rw [if_pos rfl, Die.ep, SMap.get_upd]
    simp [Die.ep]
  · simp [h]
/-- An endpoint comes to what the calibration of a state finds, and an endpoint that fails has its outcome: the two passes' steps. -/
def State.findEndpoint (s : State) (f : Flash) (t : State) (x : Nat × Nat) : State := t.updEp x.1 x.2 (fun _ => s.booted f x.1 x.2)
def State.failEndpoint (t : State) (x : Nat × Nat) : State := t.calibrationFailed x.1 x.2
/-- The endpoints as the calibration finds them. -/
def State.endpointsFound (s : State) (f : Flash) : State := { endpoints.foldl (s.findEndpoint f) s with fresh := s.fresh + 640 }
theorem State.calibrateAll_eq (s : State) (f : Flash) : s.calibrateAll f =
    (endpoints.filter (fun x => !(s.booted f x.1 x.2).ok)).foldl State.failEndpoint (s.endpointsFound f) := rfl
theorem State.endpointsFound_keeps {β : Type} (P : State → β) (s : State) (f : Flash) (h : ∀ t l n, P { t with dies := l, fresh := n } = P t) :
    P (s.endpointsFound f) = P s := (h _ _ _).trans (foldl_keeps P (s.findEndpoint f) _ s (fun t _ => h t _ t.fresh))
theorem State.ep_findEndpoint (s : State) (f : Flash) (t : State) (x y : Nat × Nat) : ((s.findEndpoint f t x).die y.1).ep y.2 =
    if y = x then s.booted f y.1 y.2 else (t.die y.1).ep y.2 := by
  rw [State.findEndpoint, State.ep_updEp]
  by_cases h : y = x
  · simp [h]
  · rw [if_neg h, if_neg (fun e => h (Prod.ext e.1 e.2))]
theorem State.endpointsFound_dies (s : State) (f : Flash) : (s.endpointsFound f).dies = (endpoints.foldl (s.findEndpoint f) s).dies := by
  rw [State.endpointsFound]
theorem State.ep_endpointsFound (s : State) (f : Flash) {y : Nat × Nat} (h : y ∈ endpoints) :
    ((s.endpointsFound f).die y.1).ep y.2 = s.booted f y.1 y.2 := by
  rw [State.die_of_dies_eq (s.endpointsFound_dies f)]
  refine foldl_establishes (P := fun t : State => (t.die y.1).ep y.2 = s.booted f y.1 y.2) (g := s.findEndpoint f) h (fun t => ?_) (fun t x _ ht => ?_)
  · rw [State.ep_findEndpoint, if_pos rfl]
  · rw [State.ep_findEndpoint, ht, ite_self]
/-- Every die keeps its endpoints as a layer is fenced, and a die that is FENCED stays so. -/
theorem State.die_fenceLayer (s : State) (d e : Nat) :
    ((s.fenceLayer d).die e).eps = (s.die e).eps ∧ ((s.die e).st = .fenced → ((s.fenceLayer d).die e).st = .fenced) := by
  rw [State.fenceLayer, State.die_updDie]
  split
  · rename_i h
    rw [h]
    exact ⟨rfl, fun _ => rfl⟩
  · exact ⟨rfl, id⟩
/-- The dies that a failed endpoint fences (R42). -/
def State.linkDies (s : State) (die : Nat) : State :=
  if 8 ≤ die then s.fenceLayer die
  else if die < 5 then ((List.range 8).foldl (fun s j => s.fenceLayer (8 * die + j)) s).fenceLayer die else s
theorem State.calibrationFailed_eq (s : State) (die e : Nat) : s.calibrationFailed die e =
    if die = 0 then s.updHub (fun h => { h with ifs := .fault, bst := 4 }) else ((s.linkDies die).roleFault).tell (.linkcal die e) := rfl
theorem State.linkDies_keeps {β : Type} (P : State → β) (s : State) (die : Nat) (h : ∀ t l, P { t with dies := l } = P t) :
    P (s.linkDies die) = P s := by
  unfold State.linkDies
  split
  · exact h ..
  split
  · exact (h ..).trans (foldl_keeps P _ _ s (fun t _ => h t _))
  · rfl
theorem State.die_linkDies (s : State) (die k : Nat) :
    ((s.linkDies die).die k).eps = (s.die k).eps ∧ ((s.die k).st = .fenced → ((s.linkDies die).die k).st = .fenced) := by
  have inv : ∀ t : State, ((t.die k).eps = (s.die k).eps ∧ ((s.die k).st = .fenced → (t.die k).st = .fenced)) → ∀ d,
      ((t.fenceLayer d).die k).eps = (s.die k).eps ∧ ((s.die k).st = .fenced → ((t.fenceLayer d).die k).st = .fenced) :=
    fun t ht d => ⟨(t.die_fenceLayer d k).1.trans ht.1, fun h => (t.die_fenceLayer d k).2 (ht.2 h)⟩
  unfold State.linkDies
  split
  · exact s.die_fenceLayer die k
  split
  · exact inv _ (foldl_invariant (P := fun t : State => (t.die k).eps = (s.die k).eps ∧ ((s.die k).st = .fenced → (t.die k).st = .fenced))
      ⟨rfl, id⟩ (fun t j _ ht => inv t ht _)) die
  · exact ⟨rfl, id⟩
/-- What an endpoint's failure keeps, whatever it fences. -/
theorem State.calibrationFailed_keeps {β : Type} (P : State → β) (s : State) (die e : Nat) (hd : ∀ t l, P { t with dies := l } = P t)
    (hh : ∀ t i b r q, P { t with hub := { t.hub with ifs := i, bst := b, role := r, queue := q } } = P t) : P (s.calibrationFailed die e) = P s := by
  rw [State.calibrationFailed_eq]
  split
  · exact hh s _ _ s.hub.role s.hub.queue
  · exact (hh (s.linkDies die) (s.linkDies die).hub.ifs (s.linkDies die).hub.bst _ _).trans (s.linkDies_keeps P die hd)
theorem State.calibrateAll_keeps {β : Type} (P : State → β) (s : State) (f : Flash) (hd : ∀ t l n, P { t with dies := l, fresh := n } = P t)
    (hh : ∀ t i b r q, P { t with hub := { t.hub with ifs := i, bst := b, role := r, queue := q } } = P t) : P (s.calibrateAll f) = P s :=
  (foldl_keeps P State.failEndpoint _ _ (fun t x => t.calibrationFailed_keeps P x.1 x.2 (fun t l => hd t l t.fresh) hh)).trans (s.endpointsFound_keeps P f hd)
theorem State.eps_calibrationFailed (s : State) (d e k : Nat) : ((s.calibrationFailed d e).die k).eps = (s.die k).eps := by
  rw [State.calibrationFailed_eq]
  split
  · rfl
  · exact (s.die_linkDies d k).1
theorem State.ep_calibrateAll (s : State) (f : Flash) {y : Nat × Nat} (h : y ∈ endpoints) :
    ((s.calibrateAll f).die y.1).ep y.2 = s.booted f y.1 y.2 := by
  refine Eq.trans ?_ (s.ep_endpointsFound f h)
  exact congrArg (fun m : SMap Endpoint => SMap.get {} m y.2)
    (foldl_keeps (fun t : State => (t.die y.1).eps) State.failEndpoint _ _ (fun t x => t.eps_calibrationFailed x.1 x.2 y.1))
theorem mem_failed {s : State} {f : Flash} {y : Nat × Nat} :
    y ∈ endpoints.filter (fun x => !(s.booted f x.1 x.2).ok) ↔ y ∈ endpoints ∧ (s.booted f y.1 y.2).ok = false := by
  simp [List.mem_filter]
/-- An endpoint of a layer that fails leaves it FENCED, and the manager is told. -/
theorem State.fenced_calibrateAll {s : State} {f : Flash} {y : Nat × Nat} (h : y ∈ endpoints) (h8 : 8 ≤ y.1) (hf : (s.booted f y.1 y.2).ok = false) :
    ((s.calibrateAll f).die y.1).st = .fenced ∧ Event.linkcal y.1 y.2 ∈ (s.calibrateAll f).hub.queue := by
  rw [State.calibrateAll_eq]
  refine foldl_establishes (P := fun t : State => (t.die y.1).st = .fenced ∧ Event.linkcal y.1 y.2 ∈ t.hub.queue) (mem_failed.2 ⟨h, hf⟩) (fun t => ?_)
    (fun t x _ ht => ?_)
  · rw [State.failEndpoint, State.calibrationFailed_eq, if_neg (by omega)]
    refine ⟨?_, List.mem_append_right _ (List.mem_singleton.2 rfl)⟩
    show ((t.linkDies y.1).die y.1).st = .fenced
    rw [State.linkDies, if_pos h8, State.fenceLayer, State.die_updDie, if_pos rfl]
  · rw [State.failEndpoint, State.calibrationFailed_eq]
    split
    · exact ht
    · refine ⟨(t.die_linkDies x.1 y.1).2 ht.1, List.mem_append_left _ ?_⟩
      show _ ∈ (t.linkDies x.1).hub.queue
      rw [t.linkDies_keeps State.hub x.1 (fun _ _ => rfl)]
      exact ht.2
theorem State.ifs_calibrationFailed (s : State) {d : Nat} (e : Nat) (h : d ≠ 0) :
    ((s.calibrationFailed d e).hub.ifs, (s.calibrationFailed d e).hub.bst) = (s.hub.ifs, s.hub.bst) := by
  rw [State.calibrationFailed_eq, if_neg h]
  exact s.linkDies_keeps (fun t => (t.hub.ifs, t.hub.bst)) d (fun _ _ => rfl)
/-- An endpoint of H that fails ends the boot in FAULT. -/
theorem State.fault_calibrateAll {s : State} {f : Flash} (h : ∃ y ∈ endpoints, y.1 = 0 ∧ (s.booted f y.1 y.2).ok = false) :
    (s.calibrateAll f).hub.ifs = .fault ∧ (s.calibrateAll f).hub.bst = 4 := by
  obtain ⟨y, hy, h0, hf⟩ := h
  rw [State.calibrateAll_eq]
  refine foldl_establishes (P := fun t : State => t.hub.ifs = .fault ∧ t.hub.bst = 4) (mem_failed.2 ⟨hy, hf⟩) (fun t => ?_) (fun t x _ ht => ?_)
  · rw [State.failEndpoint, State.calibrationFailed_eq, if_pos h0]
    exact ⟨rfl, rfl⟩
  · by_cases hx : x.1 = 0
    · rw [State.failEndpoint, State.calibrationFailed_eq, if_pos hx]
      exact ⟨rfl, rfl⟩
    · obtain ⟨h1, h2⟩ := Prod.mk.inj (t.ifs_calibrationFailed x.2 hx)
      exact ⟨h1.trans ht.1, h2.trans ht.2⟩
theorem State.boot_calibrateAll {s : State} {f : Flash} (h : ∀ y ∈ endpoints, y.1 = 0 → (s.booted f y.1 y.2).ok = true) :
    ((s.calibrateAll f).hub.ifs, (s.calibrateAll f).hub.bst) = (s.hub.ifs, s.hub.bst) := by
  rw [State.calibrateAll_eq]
  refine foldl_invariant (P := fun t : State => (t.hub.ifs, t.hub.bst) = (s.hub.ifs, s.hub.bst))
    (s.endpointsFound_keeps (fun t => (t.hub.ifs, t.hub.bst)) f (fun _ _ _ => rfl)) (fun t x hx ht => ?_)
  obtain ⟨hx, hf⟩ := mem_failed.1 hx
  exact (t.ifs_calibrationFailed x.2 (fun h0 => by simp [h x hx h0] at hf)).trans ht
/-- What the calibration finds goes by the profile and by what the device has not yet shown. -/
theorem State.booted_congr {s t : State} (hp : t.hub.profile = s.hub.profile) (hf : t.fresh = s.fresh) (f : Flash) (d e : Nat) :
    t.booted f d e = s.booted f d e := by
  have hl : t.tickLatency = s.tickLatency := by rw [State.tickLatency, State.t16, hp]; rfl
  simp only [State.booted, State.probe, hl, hf]
  rfl

/-! ### The end of the boot, and a frame tick (R35, R61, R72) -/

theorem hubEvent_boot {s : State} (h : s.hub.ifs = .boot) (hb : s.hub.booting = true) (h0 : s.now % frameCycles = 0) (hn : s.now ≠ 0) :
    s.hubEvent = some s.startStage2 := by
  rw [State.hubEvent, if_pos ⟨h, hb⟩, if_pos ⟨h0, hn⟩]
theorem State.world_startStage2_ne (s : State) {w : Nat} (h : w ≠ 0) : s.startStage2.world w = {} := by
  show SMap.get ({} : World) [(0, _)] w = _
  simp [SMap.get, Ne.symm h]
theorem State.forwardDie_keeps {β : Type} (P : State → β) (s : State) (d : Nat) (h : ∀ t l q, P { t with dies := l, hub := { t.hub with queue := q } } = P t) :
    P (s.forwardDie d) = P s := by
  unfold State.forwardDie
  split
  · rfl
  · split
    · exact h s _ _
    · rfl
theorem State.forwardLogs_keeps {β : Type} (P : State → β) (s : State) (h : ∀ t l q, P { t with dies := l, hub := { t.hub with queue := q } } = P t)
    (hf : ∀ t n, P { t with fresh := n } = P t) : P s.forwardLogs = P s :=
  (foldl_keeps P _ _ _ (fun t d => t.forwardDie_keeps P d h)).trans
    ((h _ (s.choose (eventQueueSize - 63)).2.dies _).trans (hf s _))
theorem frameTick_effect (s : State) (h : s.hub.ifs ≠ .reset) :
    ∃ t, exec .frameTick s = .next t ∧ KeepsRegsAndMemory s t ∧ t.gtick = s.gtick + 1 ∧ t.now = s.now := by
  refine ⟨_, if_neg h, ?_, ?_, ?_⟩
  · have fwd : KeepsRegsAndMemory s ({ s with gtick := s.gtick + 1 } : State).forwardLogs :=
      keeps_of_eq (State.forwardLogs_keeps State.cores _ (fun _ _ _ => rfl) (fun _ _ => rfl))
        (State.forwardLogs_keeps State.mem _ (fun _ _ _ => rfl) (fun _ _ => rfl))
    exact keeps_trans (keeps_trans fwd (State.roleSettle_keepsRegs _)) (keeps_of_eq rfl rfl)
  · exact (State.roleSettle_keeps State.gtick _ (fun _ _ => rfl) (fun _ _ => rfl)).trans
      (State.forwardLogs_keeps State.gtick _ (fun _ _ _ => rfl) (fun _ _ => rfl))
  · exact (State.roleSettle_keeps State.now _ (fun _ _ => rfl) (fun _ _ => rfl)).trans
      (State.forwardLogs_keeps State.now _ (fun _ _ _ => rfl) (fun _ _ => rfl))
theorem worldsEmpty_of {s : State} (h : ∀ w ∈ s.worlds, w.1 ≠ 0 → w.2.st = .empty) : s.worldsEmpty = true := by
  simp only [State.worldsEmpty, List.all_eq_true, decide_eq_true_eq]
  exact fun w hw => or_iff_not_imp_left.2 (h w hw)

end Sys2Proof.Machine
end

section
/-! SUPPORT. The steps of a role change (01 R27 to R32), each by what it leaves in the hub, in its dies and in their cores. -/

namespace Sys2Proof.Machine

theorem State.die_updHub (s : State) (f : Hub → Hub) (d : Nat) : (s.updHub f).die d = s.die d := rfl
theorem mem_layerDies_of {d : Nat} (h8 : 8 ≤ d) (h40 : d < 40) : d ∈ layerDies := mem_layerDies.2 ⟨h8, h40⟩

/-! ### Step 1 ends (R28), or its deadline passes (R30) -/

/-- The pass over the dies at the end of step 1: those that leave flush. -/
def State.flushDie (r : RoleChange) (s : State) (d : Nat) : State :=
  if s.leaves r d then s.updDie d (fun x => { x with prior := if x.st = .draining then x.prior else x.st, st := .flushing }) else s
theorem State.flushDie_keeps {β : Type} (P : State → β) (r : RoleChange) (s : State) (d : Nat) (h : ∀ t l, P { t with dies := l } = P t) :
    P (s.flushDie r d) = P s := by
  unfold State.flushDie
  split
  · exact h ..
  · rfl
def State.flushDies (s : State) (r : RoleChange) : State := layerDies.foldl (State.flushDie r) s
theorem State.flushDies_keeps {β : Type} (P : State → β) (s : State) (r : RoleChange) (h : ∀ t l, P { t with dies := l } = P t) :
    P (s.flushDies r) = P s := foldl_keeps P (State.flushDie r) _ s (fun t d => t.flushDie_keeps P r d h)
theorem State.st_flushDies {s : State} {r : RoleChange} {d : Nat} (hd : d ∈ layerDies) (hl : s.leaves r d = true) :
    ((s.flushDies r).die d).st = .flushing := by
  refine foldl_reaches (P := fun t : State => t.hub = s.hub ∧ t.die d = s.die d) (Q := fun t : State => (t.die d).st = .flushing)
    (g := State.flushDie r) hd ⟨rfl, rfl⟩ (fun t ht => ?_) (fun t e he ht => ⟨(t.flushDie_keeps State.hub r e (fun _ _ => rfl)).trans ht.1, ?_⟩)
    (fun t e ht => ?_)
  · rw [State.flushDie, if_pos ((State.leaves_congr ht.1 ht.2 r).trans hl), State.die_updDie, if_pos rfl]
  · unfold State.flushDie
    split
    · rw [State.die_updDie, if_neg he.symm, ht.2]
    · exact ht.2
  · unfold State.flushDie
    split
    · rw [State.die_updDie]
      split
      · rfl
      · exact ht
    · exact ht
/-- The state in which step 2 has begun. -/
def State.stepTwo (s : State) (r : RoleChange) : State :=
  (s.flushDies r).updRole (fun q => { q with step := 2, since := (s.flushDies r).gtick.toNat, flushFrom := (s.flushDies r).seqno })
/-- A column's staying dies go on, if the column is named. -/
def State.columnStays (r : RoleChange) (s : State) (k : Nat) : State := if r.masks k then s.enumerateStaying r k else s
theorem exec_roleDrainComplete {s : State} {r : RoleChange} (h : s.hub.role = some r) (h1 : r.step = 1) (hd : s.roleDrained r = true) :
    exec .roleDrainComplete s = .next ((List.range 4).foldl (State.columnStays r) (s.stepTwo r)).roleSettle := by
  show execRoleDrainComplete s = _
  unfold execRoleDrainComplete
  rw [h]
  dsimp only
  rw [if_neg (by simp [h1, hd])]
  rfl
theorem roleDrainComplete_effect {s : State} {r : RoleChange} {d : Nat} (hr : s.hub.role = some r) (hd : d ∈ layerDies) (h1 : r.step = 1)
    (hq : s.roleDrained r = true) (hl : s.leaves r d = true) : ∃ t, exec .roleDrainComplete s = .next t ∧ KeepsRegsAndMemory s t ∧
      (t.die d).st = .flushing ∧ ∃ q, t.hub.role = some q ∧ 2 ≤ q.step ∧ q.since = s.gtick.toNat := by
  refine ⟨_, exec_roleDrainComplete hr h1 hq, ?_⟩
  have two : KeepsRegsAndMemory s (s.stepTwo r) := keeps_of_eq (s.flushDies_keeps State.cores r (fun _ _ => rfl)) (s.flushDies_keeps State.mem r (fun _ _ => rfl))
  have role : ∃ q, (s.stepTwo r).hub.role = some q ∧ 2 ≤ q.step ∧ q.since = s.gtick.toNat := by
    refine ⟨{ r with step := 2, since := (s.flushDies r).gtick.toNat, flushFrom := (s.flushDies r).seqno }, ?_, le_rfl,
      congrArg BitVec.toNat (s.flushDies_keeps State.gtick r (fun _ _ => rfl))⟩
    simp only [State.stepTwo, State.updRole, State.updHub_hub, s.flushDies_keeps State.hub r (fun _ _ => rfl), hr, Option.map_some]
  obtain ⟨hk, hs, q, hq, hq2, hqs⟩ : KeepsRegsAndMemory s ((List.range 4).foldl (State.columnStays r) (s.stepTwo r)) ∧
      (((List.range 4).foldl (State.columnStays r) (s.stepTwo r)).die d).st = .flushing ∧
      ∃ q, ((List.range 4).foldl (State.columnStays r) (s.stepTwo r)).hub.role = some q ∧ 2 ≤ q.step ∧ q.since = s.gtick.toNat := by
    refine foldl_invariant (P := fun t : State => KeepsRegsAndMemory s t ∧ (t.die d).st = .flushing ∧
      ∃ q, t.hub.role = some q ∧ 2 ≤ q.step ∧ q.since = s.gtick.toNat) ⟨two, State.st_flushDies hd hl, role⟩ (fun t k _ ht => ?_)
    obtain ⟨hk, hs, q, hq, hq2, hqs⟩ := ht
    unfold State.columnStays
    split
    · refine ⟨keeps_trans hk (t.enumerateStaying_keepsRegs r k), by rw [State.die_enumerateStaying r k (by simp [hs]), hs], ?_⟩
      rcases t.role_enumerateStaying r k with e | e
      · exact ⟨q, e.trans hq, hq2, hqs⟩
      · exact ⟨{ q with step := Max.max q.step 4 }, by rw [e, hq]; rfl, le_max_of_le_left hq2, hqs⟩
    · exact ⟨hk, hs, q, hq, hq2, hqs⟩
  obtain ⟨n, hn, hrole⟩ := State.role_roleSettle hq hq2
  refine ⟨keeps_trans hk (State.roleSettle_keepsRegs _), ?_, _, hrole, hn, hqs⟩
  rw [State.die_of_dies_eq (State.roleSettle_keeps State.dies _ (fun _ _ => rfl) (fun _ _ => rfl)), hs]

/-- The pass over the dies as a change is abandoned: those that drain take their state before it again. -/
def State.restoreDie (s : State) (d : Nat) : State := if (s.die d).st = .draining then s.updDie d (fun x => { x with st := x.prior }) else s
def State.restoreDies (s : State) : State := layerDies.foldl State.restoreDie s
theorem State.restoreDies_keeps {β : Type} (P : State → β) (s : State) (h : ∀ t l, P { t with dies := l } = P t) : P s.restoreDies = P s := by
  refine foldl_keeps P State.restoreDie _ s (fun t d => ?_)
  unfold State.restoreDie
  split
  · exact h ..
  · rfl
theorem State.die_restoreDies {s : State} {d : Nat} (hd : d ∈ layerDies) :
    s.restoreDies.die d = if (s.die d).st = .draining then { s.die d with st := (s.die d).prior } else s.die d := by
  refine (State.die_foldl (g := State.restoreDie) (f := fun _ x => if x.st = .draining then { x with st := x.prior } else x) nodup_layerDies
    (fun t d => ?_) (fun t d e he => ?_) (fun t d _ => ?_) d).trans (if_pos hd) <;> (unfold State.restoreDie; split)
  · rfl
  · rfl
  · rw [State.die_updDie, if_neg he]
  · rfl
  · rw [State.die_updDie, if_pos rfl]
  · rfl
theorem exec_drainDeadlineExpiry {s : State} {r : RoleChange} (h : s.hub.role = some r) (h1 : r.step = 1) (hd : r.accepted + r.deadline ≤ s.gtick.toNat) :
    exec .drainDeadlineExpiry s = .next ((s.restoreDies.updHub (fun h => { h with role := none })).roleEnds r 0x07) := by
  show execDrainDeadlineExpiry s = _
  unfold execDrainDeadlineExpiry
  rw [h]
  dsimp only
  rw [if_neg (by omega)]
  rfl
theorem drainDeadlineExpiry_effect {s : State} {r : RoleChange} {d : Nat} (hr : s.hub.role = some r) (hd : d ∈ layerDies) (h1 : r.step = 1)
    (hl : r.accepted + r.deadline ≤ s.gtick.toNat) : ∃ t, exec .drainDeadlineExpiry s = .next t ∧ t.hub.role = none ∧
      ((s.die d).st = .draining → (t.die d).st = (s.die d).prior) ∧ (∀ k, t.part k = s.part k) ∧
      ∀ p ∈ s.packets, p.id = r.packet → p.entry = none → ∃ q ∈ t.packets, q.id = p.id ∧ q.st = .done ∧ q.status = 7 := by
  obtain ⟨hrole, -, hpart⟩ : _ ∧ _ ∧ _ := by
    simpa only [Prod.mk.injEq] using (s.restoreDies.updHub (fun h => { h with role := none })).roles_roleEnds r 0x07
  refine ⟨_, exec_drainDeadlineExpiry hr h1 hl, hrole, fun hx => ?_, fun k => ?_, fun p hp hid he => ?_⟩
  · rw [State.st_roleEnds, State.die_updHub, State.die_restoreDies hd, if_pos hx]
  · have hub : s.restoreDies.hub = s.hub := s.restoreDies_keeps State.hub (fun _ _ => rfl)
    rw [State.part, hpart, State.part, State.updHub_hub, hub]
  · refine ⟨p.finish 7 0, State.packet_roleEnds _ r 7 ?_ hid he, rfl, rfl, rfl⟩
    rwa [State.updHub_packets, s.restoreDies_keeps State.packets (fun _ _ => rfl)]

/-! ### Steps 2 to 4 (R28, R32) -/

theorem flushComplete_effect {s : State} {d : Nat} (h : (s.die d).st = .flushing) (hf : s.flushed d = true) :
    ∃ t, exec (.flushComplete d) s = .next t ∧ KeepsRegsAndMemory s t ∧ (t.die d).st = .zeroing :=
  ⟨_, congrArg Host.Outcome.next (if_pos ⟨h, hf⟩), keeps_of_eq rfl rfl, by rw [State.die_updDie, if_pos rfl]⟩

/-- A core of a die is zeroised and off. -/
def State.zeroiseOff (die : Nat) (s : State) (c : Nat) : State :=
  (s.zeroiseCore (16 * (die - 8) + c)).updCore (16 * (die - 8) + c) (fun x => { x with powered := false })
/-- The state in which the pools and cores of a die have been zeroised (R28 step 3). -/
def State.zeroedDie (s : State) (die : Nat) : State := (List.range 16).foldl (State.zeroiseOff die) (s.zeroise (layerBase die) 0x8000000)
/-- A core is off, without contexts, and its scratchpad reads zero. -/
def State.offCore (s : State) (k : Nat) : Prop := (s.core k).ctxs = [] ∧ (s.core k).powered = false ∧ ∀ b < 0x200000, s.byte (bufAddr k .wb b) = 0
theorem State.offCore_of_eq {s t : State} (hc : t.cores = s.cores) (hm : t.mem = s.mem) {k : Nat} (h : s.offCore k) : t.offCore k := by
  simpa only [State.offCore, State.core, State.byte, hc, hm] using h
theorem State.offCore_zeroiseOff (s : State) (die c k : Nat) (h : k = 16 * (die - 8) + c ∨ s.offCore k) : (s.zeroiseOff die c).offCore k := by
  by_cases hk : k = 16 * (die - 8) + c
  · subst hk
    have off : (s.zeroiseOff die c).core (16 * (die - 8) + c) = { (s.core (16 * (die - 8) + c)).zeroised with powered := false } := by
      rw [State.zeroiseOff, State.core_updCore_self, State.core_zeroiseCore, if_pos rfl]
    exact ⟨by rw [off]; rfl, by rw [off], fun b hb => s.byte_zeroiseCore_spad _ hb⟩
  · obtain ⟨hc, hp, hb⟩ := h.resolve_left hk
    refine ⟨?_, ?_, fun b h => State.byte_zeroiseCore_of_zero _ (hb b h)⟩ <;>
      rw [State.zeroiseOff, State.core_updCore, if_neg hk, State.core_zeroiseCore, if_neg hk]
    · exact hc
    · exact hp
theorem State.offCore_zeroedDie (s : State) (die : Nat) {c : Nat} (hc : c < 16) : (s.zeroedDie die).offCore (16 * (die - 8) + c) :=
  foldl_establishes (P := fun t : State => t.offCore (16 * (die - 8) + c)) (List.mem_range.2 hc)
    (fun t => t.offCore_zeroiseOff die c _ (.inl rfl)) (fun t j _ ht => t.offCore_zeroiseOff die j _ (.inr ht))
theorem State.byte_zeroedDie (s : State) {die b : Nat} (h : layerBase die ≤ b) (h' : b < layerBase die + 0x8000000) : (s.zeroedDie die).byte b = 0 :=
  foldl_invariant (P := fun t : State => t.byte b = 0) (by rw [State.byte_zeroise, if_pos ⟨h, h'⟩]) (fun _ _ _ ht => State.byte_zeroiseCore_of_zero _ ht)
theorem exec_zeroiseComplete {s : State} {r : RoleChange} {die : Nat} (h : s.hub.role = some r) (hx : (s.die die).st = .zeroing) :
    exec (.zeroiseComplete die) s = .next (((s.zeroedDie die).updDie die (fun d => { d with st := .enumerating, prior := .off })).enumerateStaying r
      (dieColumn die)) := by
  show execZeroiseComplete die s = _
  unfold execZeroiseComplete
  rw [h]
  dsimp only
  rw [if_neg (not_not_intro hx)]
  rfl
theorem zeroiseComplete_effect {s : State} {r : RoleChange} {d : Nat} (hr : s.hub.role = some r) (h8 : 8 ≤ d) (hx : (s.die d).st = .zeroing) :
    ∃ t, exec (.zeroiseComplete d) s = .next t ∧ (t.die d).st = .enumerating ∧
      (∀ b, 0xF000000000 + (d - 8) * 0x8000000 ≤ b → b < 0xF000000000 + (d - 7) * 0x8000000 → t.byte b = 0) ∧
      ∀ j < 16, (t.core (16 * (d - 8) + j)).ctxs = [] ∧ (t.core (16 * (d - 8) + j)).powered = false ∧
        ∀ b < 0x200000, t.byte (bufAddr (16 * (d - 8) + j) .wb b) = 0 := by
  refine ⟨_, exec_zeroiseComplete hr hx, ?_, fun b hb hb' => ?_, fun j hj => ?_⟩
  · rw [State.die_enumerateStaying] <;> rw [State.die_updDie, if_pos rfl]
    exact LayerSt.noConfusion
  · rw [State.byte_of_mem_eq (State.enumerateStaying_keeps State.mem _ r _ (fun _ _ _ => rfl) (fun _ _ => rfl)),
      State.byte_of_mem_eq (State.updDie_mem ..)]
    exact s.byte_zeroedDie hb (by unfold layerBase; omega)
  · refine State.offCore_of_eq (State.enumerateStaying_keeps State.cores _ r _ (fun _ _ _ => rfl) (fun _ _ => rfl))
      (State.enumerateStaying_keeps State.mem _ r _ (fun _ _ _ => rfl) (fun _ _ => rfl)) ?_
    exact State.offCore_of_eq (State.updDie_cores ..) (State.updDie_mem ..) (s.offCore_zeroedDie d hj)

/-- The state in which step 4 of a die is complete: its role is set, and its compute cores have power. -/
def State.powerCore (die : Nat) (s : State) (c : Nat) : State := s.updCore (16 * (die - 8) + c) (fun x => { x with powered := true })
def State.enumeratedDie (s : State) (r : RoleChange) (die : Nat) : State :=
  let t := s.updDie die (fun d => { d with enumerated := true, prior := s.newRole r die })
  if s.newRole r die = .compute then (List.range 16).foldl (State.powerCore die) t else t
theorem exec_reenumerateComplete {s : State} {r : RoleChange} {die : Nat} (h : s.hub.role = some r) (hx : (s.die die).st = .enumerating) :
    exec (.reenumerateComplete die) s = .next (s.enumeratedDie r die).roleSettle := by
  show execReenumerateComplete die s = _
  unfold execReenumerateComplete
  rw [h]
  dsimp only
  rw [if_pos hx]
  rfl
section
variable (s : State) (r : RoleChange) (die : Nat)
theorem State.enumeratedDie_dies :
    (s.enumeratedDie r die).dies = (s.updDie die (fun d => { d with enumerated := true, prior := s.newRole r die })).dies := by
  unfold State.enumeratedDie
  dsimp only
  split
  · exact foldl_keeps State.dies (State.powerCore die) _ _ (fun _ _ => rfl)
  · rfl
theorem State.enumeratedDie_keeps : KeepsRegsAndMemory s (s.enumeratedDie r die) := by
  unfold State.enumeratedDie
  dsimp only
  split
  · refine foldl_invariant (P := KeepsRegsAndMemory s) (g := State.powerCore die) (keeps_of_eq rfl rfl)
      (fun t c _ ht => keeps_trans ht (keeps_of_renumbered (fun k => ?_) rfl))
    rw [State.powerCore, State.core_updCore]
    split
    · rename_i e
      rw [e]
      exact ⟨_, _, rfl, fun _ => rfl⟩
    · exact .refl _
  · exact keeps_of_eq rfl rfl
theorem State.powered_enumeratedDie (h : s.newRole r die = .compute) {c : Nat} (hc : c < 16) :
    ((s.enumeratedDie r die).core (16 * (die - 8) + c)).powered = true := by
  unfold State.enumeratedDie
  dsimp only
  rw [if_pos h]
  refine foldl_establishes (P := fun t : State => (t.core (16 * (die - 8) + c)).powered = true) (g := State.powerCore die) (List.mem_range.2 hc)
    (fun t => by rw [State.powerCore, State.core_updCore_self]) (fun t j _ ht => ?_)
  rw [State.powerCore, State.core_updCore]
  split
  · rfl
  · exact ht
end
theorem reenumerateComplete_effect {s : State} {r : RoleChange} {d : Nat} (hr : s.hub.role = some r) (hx : (s.die d).st = .enumerating) :
    ∃ t, exec (.reenumerateComplete d) s = .next t ∧ KeepsRegsAndMemory s t ∧ (t.die d).st = .enumerating ∧ (t.die d).enumerated = true ∧
      (roleAt (r.newPart s.part ((d - 8) / 8)) ((d - 8) % 8) = some .compute → ∀ j < 16, (t.core (16 * (d - 8) + j)).powered = true) := by
  have hd : (s.enumeratedDie r d).roleSettle.die d = { s.die d with enumerated := true, prior := s.newRole r d } := by
    rw [State.die_of_dies_eq (State.roleSettle_keeps State.dies _ (fun _ _ => rfl) (fun _ _ => rfl)),
      State.die_of_dies_eq (s.enumeratedDie_dies r d), State.die_updDie, if_pos rfl]
  refine ⟨_, exec_reenumerateComplete hr hx, keeps_trans (s.enumeratedDie_keeps r d) (State.roleSettle_keepsRegs _), by rw [hd]; exact hx,
    by rw [hd], fun hc j hj => ?_⟩
  have role : s.newRole r d = .compute := congrArg (fun o => Option.getD o LayerSt.off) hc
  obtain ⟨n, b, e, hb⟩ := (s.enumeratedDie r d).core_roleSettle (16 * (d - 8) + j)
  rw [e]
  exact hb (s.powered_enumeratedDie r d role hj)

theorem exec_layerFence {s : State} {r : RoleChange} {die : Nat} {a : Word} (h : s.hub.role = some r) (hc : 2 ≤ r.step ∧ r.step < 6 ∧ s.leaves r die = true) :
    exec (.layerFence die a) s = .next (((s.logFault die
      { kind := 0x0B, world := 0, srccore := 0xFFFF, srcdie := die, addr := a, token := 0, tick := s.gtick }).fenceLayer die).roleFault.enumerateStaying r
        (dieColumn die)) := by
  show execLayerFence die a s = _
  unfold execLayerFence
  rw [h]
  dsimp only
  rw [if_pos hc]
theorem layerFence_effect {s : State} {r : RoleChange} {d : Nat} (a : Word) (hr : s.hub.role = some r)
    (hc : 2 ≤ r.step ∧ r.step < 6 ∧ s.leaves r d = true) : ∃ t, exec (.layerFence d a) s = .next t ∧ KeepsRegsAndMemory s t ∧
      (t.die d).st = .fenced ∧ Logged s t d 0x0B a ∧ ∃ q, t.hub.role = some q ∧ q.fault = true := by
  refine ⟨_, exec_layerFence hr hc, ?_⟩
  generalize he : ({ kind := 0x0B, world := 0, srccore := 0xFFFF, srcdie := d, addr := a, token := 0, tick := s.gtick } : LogEnt) = e
  generalize hu : ((s.logFault d e).fenceLayer d).roleFault = u
  have keeps : KeepsRegsAndMemory s u := hu ▸ keeps_of_eq rfl rfl
  have fenced : u.die d = { (s.logFault d e).die d with st := .fenced } := by
    rw [← hu, State.roleFault, State.die_updHub, State.fenceLayer, State.die_updDie, if_pos rfl]
  have role : u.hub.role = some { r with fault := true } := by
    have : u.hub.role = s.hub.role.map (fun r => { r with fault := true }) := hu ▸ rfl
    rw [this, hr, Option.map_some]
  have stays : (u.enumerateStaying r (dieColumn d)).die d = u.die d :=
    State.die_enumerateStaying r (dieColumn d) (by rw [fenced]; exact LayerSt.noConfusion)
  refine ⟨keeps_trans keeps (u.enumerateStaying_keepsRegs r _), by rw [stays, fenced], ?_, ?_⟩
  · subst he
    exact logged_logFault rfl (by rw [stays, fenced])
  · rcases u.role_enumerateStaying r (dieColumn d) with h | h
    · exact ⟨_, h.trans role, rfl⟩
    · exact ⟨_, h.trans (congrArg _ role), rfl⟩

/-! ### The commit (R24 to R28, R60) -/

/-- A die that takes its new role, and a die that has stayed in compute role. -/
def Die.takes (x : Die) (role : LayerSt) : Die := { x with st := role, prior := role, enumerated := false, chgn := (x.chgn + 1) % 2 ^ 32 }
def Die.staysCompute (x : Die) : Die := { x with st := .compute, prior := .compute, enumerated := false }
/-- The dies as the change of roles commits. -/
def State.rolesTaken (s : State) (r : RoleChange) : State :=
  (layerDies.filter (s.stays r)).foldl (fun t d => t.updDie d Die.staysCompute)
    ((layerDies.filter (s.leaves r)).foldl (fun t d => t.updDie d (fun x => x.takes (s.newRole r d))) s)
/-- The partitions as a change of roles leaves them. -/
def RoleChange.partitions (r : RoleChange) (old : Nat → Nat) (m : SMap Nat) : SMap Nat :=
  (List.range 4).foldl (fun m k => SMap.put 0 m k (r.newPart old k)) m
theorem RoleChange.get_partitions (r : RoleChange) (old : Nat → Nat) (m : SMap Nat) {k : Nat} (hk : k < 4) :
    SMap.get 0 (r.partitions old m) k = r.newPart old k := by
  refine foldl_establishes (P := fun m : SMap Nat => SMap.get 0 m k = r.newPart old k) (List.mem_range.2 hk) (fun m => SMap.get_put_self ..)
    (fun m j _ hm => ?_)
  rw [SMap.get_put]
  split
  · rename_i e
    rw [e]
  · exact hm
/-- The hub as the change commits. -/
def State.committed (s : State) (r : RoleChange) : State :=
  (s.rolesTaken r).updHub (fun h => { h with role := none, profile := r.profile, partitions := r.partitions s.part h.partitions })
theorem exec_roleChangeCommit {s : State} {r : RoleChange} (h : s.hub.role = some r) (h6 : r.step = 6) : exec .roleChangeCommit s =
    .next (((s.committed r).extend 4 (digestBytes (sha384 (s.committed r).commitRecord))).roleEnds r (if r.fault then 0x08 else 0)) := by
  show execRoleChangeCommit s = _
  unfold execRoleChangeCommit
  rw [h]
  dsimp only
  rw [if_neg (not_not_intro h6)]
  rfl
theorem State.rolesTaken_keeps {β : Type} (P : State → β) (s : State) (r : RoleChange) (h : ∀ t l, P { t with dies := l } = P t) :
    P (s.rolesTaken r) = P s := (foldl_keeps P _ _ _ (fun t _ => h t _)).trans (foldl_keeps P _ _ s (fun t _ => h t _))
theorem State.die_foldl_updDie {l : List Nat} (hl : l.Nodup) (s : State) (f : Nat → Die → Die) (e : Nat) :
    (l.foldl (fun t d => t.updDie d (f d)) s).die e = if e ∈ l then f e (s.die e) else s.die e :=
  State.die_foldl (g := fun t d => t.updDie d (f d)) hl (fun _ _ => rfl) (fun t d e he => by rw [State.die_updDie, if_neg he]) (fun t d _ => by rw [State.die_updDie, if_pos rfl]) e
theorem State.die_rolesTaken {s : State} {r : RoleChange} {d : Nat} (hd : d ∈ layerDies) (hl : s.leaves r d = true) :
    (s.rolesTaken r).die d = (s.die d).takes (s.newRole r d) := by
  rw [State.rolesTaken, State.die_foldl_updDie (nodup_layerDies.filter _) _ (fun _ => Die.staysCompute),
    if_neg (fun h => by simp [State.not_stays_of_leaves hl] at h),
    State.die_foldl_updDie (nodup_layerDies.filter _) _ (fun d x => x.takes (s.newRole r d)), if_pos (List.mem_filter.2 ⟨hd, hl⟩)]
theorem roleChangeCommit_effect {s : State} {r : RoleChange} {d : Nat} (hr : s.hub.role = some r) (hd : d ∈ layerDies) (h6 : r.step = 6) :
    ∃ t, exec .roleChangeCommit s = .next t ∧ t.hub.role = none ∧ t.hub.profile = r.profile ∧
      (∀ k < 4, t.part k = if r.mask / 2 ^ k % 2 = 1 then r.parts.getD k 0 else s.part k) ∧
      (s.leaves r d = true → (t.die d).chgn = ((s.die d).chgn + 1) % 2 ^ 32 ∧
        (t.die d).st = (roleAt (t.part ((d - 8) / 8)) ((d - 8) % 8)).getD .off) ∧ ∀ b, t.byte b = s.byte b := by
  refine ⟨_, exec_roleChangeCommit hr h6, ?_⟩
  generalize hu : (s.committed r).extend 4 (digestBytes (sha384 (s.committed r).commitRecord)) = u
  have hub : u.hub.role = none ∧ u.hub.profile = r.profile ∧ u.hub.partitions = r.partitions s.part (s.rolesTaken r).hub.partitions :=
    hu ▸ ⟨rfl, rfl, rfl⟩
  have die : u.die d = (s.rolesTaken r).die d := by rw [← hu, State.extend, State.die_updHub, State.committed, State.die_updHub]
  have mem : u.mem = s.mem := by
    rw [← hu, State.extend, State.updHub_mem, State.committed, State.updHub_mem, s.rolesTaken_keeps State.mem r (fun _ _ => rfl)]
  obtain ⟨hrole, hprof, hpart⟩ : _ ∧ _ ∧ _ := by
    simpa only [Prod.mk.injEq] using u.roles_roleEnds r (if r.fault then 0x08 else 0)
  have part : ∀ k < 4, (u.roleEnds r (if r.fault then 0x08 else 0)).part k = r.newPart s.part k := fun k hk => by
    rw [State.part, hpart, hub.2.2, r.get_partitions s.part _ hk]
  refine ⟨hrole.trans hub.1, hprof.trans hub.2.1, part, fun hl => ?_, fun b => State.byte_of_mem_eq ((u.mem_roleEnds r _).trans mem) b⟩
  have h40 := (mem_layerDies.1 hd).2
  rw [State.chgn_roleEnds, State.st_roleEnds, die, State.die_rolesTaken hd hl, part _ (by omega)]
  exact ⟨rfl, rfl⟩

end Sys2Proof.Machine
end

section
/-! Settles O46: the boot by its outcomes, then the interface's transitions, the steps of a role change, and the errors, each by its own theorem. -/

namespace Sys2Proof.Machine

/-- What the instruction does: it leaves registers and memory, and what it leaves holds. -/
def Does (s : State) (i : Instr) (ok : State → Prop) : Prop := ∃ t, exec i s = .next t ∧ KeepsRegsAndMemory s t ∧ ok t

/-- R61, R62: without an acceptable stage 1 image, the boot ends in FAULT with nothing measured. -/
theorem resetRelease_noImage {s : State} {flash : Flash} (hr : s.hub.ifs = .reset) (h : loadImage s.hub.floor flash 0 = none) :
    Does s (.resetRelease flash) (fun t => t.hub.ifs = .fault ∧ t.hub.bst = 1 ∧ ∀ n, SMap.get 0 t.hub.msl n = 0) :=
  ⟨_, exec_resetRelease_noImage hr h, keeps_of_eq rfl rfl, rfl, rfl, fun _ => rfl⟩
section
variable {s : State} {flash : Flash} {i : Image} (hr : s.hub.ifs = .reset) (h : loadImage s.hub.floor flash 0 = some i)
include hr h
/-- R62: a manifest that is not acceptable ends it with stage 1 measured. -/
theorem resetRelease_badManifest (hm : manifestOk s.hub.floor flash.manifest = false) : Does s (.resetRelease flash) (fun t =>
    t.hub.ifs = .fault ∧ t.hub.bst = 2 ∧ SMap.get 0 t.hub.msl 0 = sha384 (leBytes 48 0 ++ leBytes 48 (sha384 i.body).toNat)) := by
  refine ⟨_, exec_resetRelease_badManifest hr h hm, keeps_of_eq rfl rfl, rfl, rfl, ?_⟩
  exact SMap.get_put_self ..
variable (hm : manifestOk s.hub.floor flash.manifest = true)
  (hk : publicKey (deriveScalar labelIdk flash.manifest.identityPolicy) = flash.certKey ∧ Config.certifiedKey flash.cert = flash.certKey)
include hm hk
theorem resetRelease_missingImage (hi : ∃ k ∈ stage2Images ++ mgmtDies.map mgmtStage, loadImage s.hub.floor flash k = none) :
    Does s (.resetRelease flash) (fun t => t.hub.ifs = .fault ∧ t.hub.bst = 1) := by
  obtain ⟨t, ht, hc, hm⟩ := exec_resetRelease_missingImage hr h hm hk hi
  exact ⟨_, ht, keeps_of_eq hc hm, rfl, rfl⟩
variable (hi : ∀ k ∈ stage2Images ++ mgmtDies.map mgmtStage, loadImage s.hub.floor flash k ≠ none)
include hi
/-- R42: an endpoint of H that fails its calibration ends it. -/
theorem resetRelease_badLink (hb : ∃ y ∈ endpoints, y.1 = 0 ∧ (s.booted flash y.1 y.2).ok = false) :
    Does s (.resetRelease flash) (fun t => t.hub.ifs = .fault ∧ t.hub.bst = 4) := by
  obtain ⟨t, ht, hc, hm, hf, hp, -⟩ := exec_resetRelease_boots hr h hm hk hi
  refine ⟨_, ht, keeps_of_eq ?_ ?_, State.fault_calibrateAll ?_⟩
  · exact (t.calibrateAll_keeps State.cores flash (fun _ _ _ => rfl) (fun _ _ _ _ _ => rfl)).trans hc
  · exact (t.calibrateAll_keeps State.mem flash (fun _ _ _ => rfl) (fun _ _ _ _ _ => rfl)).trans hm
  · simpa only [State.booted_congr hp hf] using hb
/-- R61, R62, R41, R42: a boot in which nothing fails at H goes on to stage 2. -/
theorem resetRelease_boots (hb : ∀ y ∈ endpoints, y.1 = 0 → (s.booted flash y.1 y.2).ok = true) :
    Does s (.resetRelease flash) (fun t => t.hub.ifs = .boot ∧ t.hub.bst = 0 ∧ t.hub.booting = true ∧ t.hub.ssecLocked = true ∧
      t.hub.idk = deriveScalar labelIdk flash.manifest.identityPolicy ∧
      ∀ y ∈ endpoints, (t.die y.1).ep y.2 = s.booted flash y.1 y.2 ∧
        (8 ≤ y.1 → (s.booted flash y.1 y.2).ok = false → (t.die y.1).st = .fenced ∧ Event.linkcal y.1 y.2 ∈ t.hub.queue)) := by
  obtain ⟨t, ht, hc, hm, hf, hp, hifs, hbst, hboot, hlock, hidk⟩ := exec_resetRelease_boots hr h hm hk hi
  have found := State.booted_congr hp hf flash
  obtain ⟨hi', hb'⟩ := Prod.mk.inj (t.boot_calibrateAll (f := flash) (fun y hy h0 => by rw [found]; exact hb y hy h0))
  refine ⟨_, ht, keeps_of_eq ?_ ?_, hi'.trans hifs, hb'.trans hbst, ?_, ?_, ?_, fun y hy => ⟨?_, fun h8 hn => ?_⟩⟩
  · exact (t.calibrateAll_keeps State.cores flash (fun _ _ _ => rfl) (fun _ _ _ _ _ => rfl)).trans hc
  · exact (t.calibrateAll_keeps State.mem flash (fun _ _ _ => rfl) (fun _ _ _ _ _ => rfl)).trans hm
  · exact (t.calibrateAll_keeps (fun u => u.hub.booting) flash (fun _ _ _ => rfl) (fun _ _ _ _ _ => rfl)).trans hboot
  · exact (t.calibrateAll_keeps (fun u => u.hub.ssecLocked) flash (fun _ _ _ => rfl) (fun _ _ _ _ _ => rfl)).trans hlock
  · exact (t.calibrateAll_keeps (fun u => u.hub.idk) flash (fun _ _ _ => rfl) (fun _ _ _ _ _ => rfl)).trans hidk
  · rw [t.ep_calibrateAll flash hy, found]
  · exact State.fenced_calibrateAll hy h8 (by rw [found]; exact hn)
end

/-- Settles O46, by the outcomes of a boot (log 5), stage 2 at a frame tick (log 39), the steps of a role change, and the errors of a core and of
memory: what is zeroised, or after a RESET unwritten, reads zero (log 1), and an uncorrectable read marks its whole word (log 31). -/
theorem bootRolesAndErrors : Obligations.BootRolesAndErrors := by
  unfold Obligations.BootRolesAndErrors
  intro s flash d c a v req r
  refine ⟨⟨_, rfl, rfl, rfl, rfl, rfl, rfl, rfl, rfl, rfl, rfl, rfl⟩, fun hr => ⟨resetRelease_noImage hr, fun i hi => ⟨resetRelease_badManifest hr hi,
      fun hm key hkey => ?_⟩⟩, fun hb hbt h0 hn => ?_, frameTick_effect s, fun hl ht => ?_, fun hd he => ?_, fun hr h8 h40 => ?_,
    scratchpadCorrectableError_effect s c a, fun i kind hi => ⟨_, exec_uncorrectableOfCore s c a i kind hi, coreFailed_effect s kind c a⟩,
    fun i hi => ⟨_, exec_uncorrectableRead s a req i hi, ?_⟩, fun h8 hc => ⟨fun hf hl he _ => coreRelease_effect s h8 hc hf hl he, fun hf => ?_⟩,
    lostevClear_effect s d v⟩
  case refine_1 =>
    subst hkey
    exact ⟨fun hk => ⟨_, exec_resetRelease_unknownKey hr hi hm hk, keeps_of_eq rfl rfl, rfl, rfl⟩,
      resetRelease_missingImage hr hi hm, fun hk hall => ⟨resetRelease_badLink hr hi hm hk hall, resetRelease_boots hr hi hm hk hall⟩⟩
  case refine_2 =>
    exact ⟨hubEvent_boot hb hbt h0 hn, rfl, rfl, rfl, rfl, rfl, rfl, fun w hw => by rw [s.world_startStage2_ne hw], keeps_of_eq rfl rfl⟩
  case refine_3 => exact ⟨_, congrArg Host.Outcome.next (if_pos ⟨hl, ht⟩), keeps_of_eq rfl rfl, rfl, rfl⟩
  case refine_4 => exact ⟨_, congrArg Host.Outcome.next (if_pos ⟨hd, worldsEmpty_of he⟩), keeps_of_eq rfl rfl, rfl⟩
  case refine_5 =>
    have hd := mem_layerDies_of h8 h40
    exact ⟨roleDrainComplete_effect hr hd, drainDeadlineExpiry_effect hr hd, flushComplete_effect, zeroiseComplete_effect hr h8,
      reenumerateComplete_effect hr, roleChangeCommit_effect hr hd, fun h2 h6 hl => layerFence_effect a hr ⟨h2, h6, hl⟩⟩
  case refine_6 =>
    refine ⟨s.mem_faulty_failRead a req, s.logged_failRead a req, s.byte_failRead a req, ?_, ?_⟩
    · rintro id p rfl hp h0
      exact State.packet_failRead a hp h0
    · rintro core ctx n rfl hb he ha hz
      exact State.abort_failRead a core ctx ⟨hb, he, ha⟩ hz
  case refine_7 => exact ⟨_, exec_coreRelease_refused s d c hf, keeps_of_eq rfl rfl, rfl, logged_cfgErrorH s d (cfgAddr d (0x60 + 8 * c))⟩

end Sys2Proof.Machine
end

section
/-! SUPPORT. Command packets that complete or are taken up (04 R87, R104 to R106), reads of the front end, and writes of a packet a line at a time. -/

namespace Sys2Proof.Machine

/-! ### The outcomes of a command -/

/-- A packet has started with its own effect still to come, and a packet is consumed: by its opcode. -/
def Packet.Runs (p : Packet) (opc : Nat) : Prop := p.st = .running ∧ pkOpc p.bits = opc ∧ p.acted = false
def Packet.Comes (p : Packet) (opc : Nat) : Prop := p.st = .fresh ∧ pkOpc p.bits = opc
/-- The instruction completes the packet with a status, and what it leaves holds. -/
def Ends (s : State) (id : Nat) (x : Instr) (status : Nat) (ok : State → Prop) : Prop :=
  ∃ t r, exec x s = .next t ∧ t.packet id = some r ∧ r.st = .done ∧ r.status = status ∧ ok t
/-- The same, with registers and memory as they were. -/
def EndsKeeping (s : State) (id : Nat) (x : Instr) (status : Nat) (ok : State → Prop) : Prop :=
  Ends s id x status (fun t => KeepsRegsAndMemory s t ∧ ok t)
/-- The instruction carries a packet out as it is consumed: it completes in its turn (log 37). -/
def Takes (s : State) (id : Nat) (p : Packet) (x : Instr) (ok : State → Prop) : Prop :=
  ∃ t, exec x s = .next t ∧ t.packet id = some { p with st := .waiting, acted := true } ∧ ok t

section
variable {s u : State} {id status : Nat} {p q : Packet} {x : Instr} {ok : State → Prop}
theorem ends_of (hx : exec x s = .next (u.endPacket id status)) (hu : u.packet id = some q) (h : ok (u.endPacket id status)) :
    Ends s id x status ok := ⟨_, _, hx, State.packet_endPacket hu status 0 false, rfl, rfl, h⟩
theorem endsKeeping_of (hx : exec x s = .next (u.endPacket id status)) (hu : u.packet id = some q) (hk : KeepsRegsAndMemory s u)
    (h : ok (u.endPacket id status)) : EndsKeeping s id x status ok := ends_of hx hu ⟨keeps_trans hk (u.endPacket_keeps ..), h⟩
/-- A refused packet completes, and nothing else changes. -/
theorem endsKeeping_refused (hx : exec x s = .next (s.endPacket id status)) (hu : s.packet id = some p) (h : ok (s.endPacket id status)) :
    EndsKeeping s id x status ok := endsKeeping_of hx hu (keeps_refl s) h
theorem State.settle_of_ne (u : State) (id : Nat) (h : status ≠ 0) : u.settle id status = u.endPacket id status := if_neg h
theorem State.settle_keeps (u : State) (id status : Nat) : KeepsRegsAndMemory u (u.settle id status) := by
  unfold State.settle
  split
  · exact keeps_of_eq rfl rfl
  · exact u.endPacket_keeps ..
theorem State.core_settle (u : State) (id status c : Nat) : (u.settle id status).core c = u.core c := by
  unfold State.settle
  split <;> rfl
theorem State.world_endPacket (u : State) (id status w : Nat) : (u.endPacket id status).world w = u.world w := rfl
theorem State.packet_settle (hu : u.packet id = some q) : (u.settle id 0).packet id = some { q with st := .waiting, acted := true } :=
  State.packet_updPacket hu (fun _ => rfl)
theorem takes_of (hx : exec x s = .next (u.settle id 0)) (hu : u.packet id = some p) (h : ok (u.settle id 0)) : Takes s id p x ok :=
  ⟨_, hx, State.packet_settle hu, h⟩

variable {opc n : Nat} {f : Packet → State × Nat}
theorem command_of (h : s.packet id = some p) (hp : p.Runs opc) (hn : pkField p.bits 24 1 = n) :
    s.command id opc (some n) f = .next ((f p).1.endPacket id (f p).2) := by
  obtain ⟨hst, ho, ha⟩ := hp
  rw [State.command, State.starting_of h hst ho ha]
  exact if_neg (by simp [hn])
theorem State.freshOf_of (h : s.packet id = some p) (hp : p.Comes opc) : s.freshOf id opc = some p := by
  simp [State.freshOf, h, hp.1, hp.2]
theorem atConsumption_of (h : s.packet id = some p) (hp : p.Comes opc) (hn : pkField p.bits 24 1 = n) :
    s.atConsumption id opc (some n) f = .next ((f p).1.settle id (f p).2) := by
  rw [State.atConsumption, State.freshOf_of h hp]
  exact if_neg (by simp [hn])
theorem atConsumption_any_of (h : s.packet id = some p) (hp : p.Comes opc) : s.atConsumption id opc none f = .next ((f p).1.settle id (f p).2) := by
  rw [State.atConsumption, State.freshOf_of h hp]
  rfl
theorem starting_of_runs (h : s.packet id = some p) (hp : p.Runs opc) : s.starting id opc = some p := State.starting_of h hp.1 hp.2.1 hp.2.2
end

/-! ### Reads of the front end (R101) -/

theorem State.mergeTags_eq (s : State) (n : Nat) (l : List Nat) : s.mergeTags n l = { s with clk := (s.mergeTags n l).clk } := by
  obtain ⟨c, h⟩ : ∃ c, s.mergeTags n l = { s with clk := c } := by
    refine foldl_invariant (P := fun t : State => ∃ c, t = { s with clk := c }) (g := fun t a => t.mergeTag n a) ⟨s.clk, rfl⟩ (fun t a _ ht => ?_)
    obtain ⟨c, rfl⟩ := ht
    exact ⟨_, rfl⟩
  rw [h]
/-- A read that the front end carries out merges clocks, and nothing else (R101). -/
theorem State.feRead_ok {s u : State} {w va n cls : Nat} {l : List Byte} (h : s.feRead w va n cls = .ok l u) : u = { s with clk := u.clk } := by
  unfold State.feRead at h
  split at h
  · cases h
  dsimp only at h
  split at h
  · cases h
  split at h
  · cases h
  · cases h
  split at h
  · cases h
  · cases h
    exact s.mergeTags_eq ..
theorem State.readPolicy_ok {s u : State} {w va : Nat} {l : List Byte} (h : s.readPolicy w va = .ok l u) : u = { s with clk := u.clk } := by
  unfold State.readPolicy at h
  split at h
  · rename_i m t ht
    have e := State.feRead_ok ht
    have e' := State.feRead_ok h
    rw [e] at e'
    exact e'
  · rename_i r hr
    exact State.feRead_ok h

/-! ### Lines in ascending order (R167) -/

theorem SMap.pairwise_insert {α : Type} {m : SMap α} {k : Nat} (x : α) (hk : ∀ e ∈ m, e.1 ≠ k) (h : m.Pairwise (fun a b => a.1 < b.1)) :
    (SMap.insert m k x).Pairwise (fun a b => a.1 < b.1) := by
  induction m with
  | nil => simp [SMap.insert]
  | cons e r ih =>
    obtain ⟨hr, hp⟩ := List.pairwise_cons.1 h
    have he := hk e (List.mem_cons_self ..)
    rw [SMap.insert]
    split
    · rename_i hlt
      exact List.pairwise_cons.2 ⟨List.forall_mem_cons.2 ⟨hlt, fun a ha => hlt.trans (hr a ha)⟩, h⟩
    · rename_i hlt
      refine List.pairwise_cons.2 ⟨fun a ha => ?_, ih (fun a ha => hk a (List.mem_cons_of_mem _ ha)) hp⟩
      rcases SMap.mem_insert r k x a ha with rfl | ha
      · exact lt_of_le_of_ne (not_lt.1 hlt) he
      · exact hr a ha
theorem SMap.pairwise_set {α : Type} {m : SMap α} (k : Nat) (x : α) (h : m.Pairwise (fun a b => a.1 < b.1)) :
    (SMap.set m k x).Pairwise (fun a b => a.1 < b.1) := by
  refine SMap.pairwise_insert x (SMap.keys_erase m k) ?_
  rw [SMap.erase_eq_filter]
  exact h.filter _
theorem linesOf_ascend (l : List Nat) : (linesOf l).Pairwise (· < ·) := by
  refine List.pairwise_map.2 (foldl_invariant (P := fun m : SMap Unit => m.Pairwise (fun a b => a.1 < b.1)) List.Pairwise.nil ?_)
  exact fun m a _ hm => SMap.pairwise_set _ _ hm

section
variable {α : Type} {key : α → Nat}
theorem filter_least_append {l : List α} {k : Nat} (hl : l.Pairwise (fun a b => key a ≤ key b)) (hk : ∀ a ∈ l, k ≤ key a) :
    l.filter (fun a => decide (key a = k)) ++ l.filter (fun a => decide (key a ≠ k)) = l := by
  induction l with
  | nil => rfl
  | cons a r ih =>
    obtain ⟨ha, hr⟩ := List.pairwise_cons.1 hl
    by_cases h : key a = k
    · rw [List.filter_cons_of_pos (by simp [h]), List.filter_cons_of_neg (by simp [h]), List.cons_append,
        ih hr (fun b hb => hk b (List.mem_cons_of_mem _ hb))]
    · have above : ∀ b ∈ a :: r, key b ≠ k := by
        have hka := hk a (List.mem_cons_self ..)
        refine List.forall_mem_cons.2 ⟨h, fun b hb => ?_⟩
        have hab := ha b hb
        omega
      rw [List.filter_eq_nil_iff.2 (fun b hb => by simp [above b hb]), List.filter_eq_self.2 (fun b hb => by simp [above b hb]), List.nil_append]
/-- A list in the order of its keys, taken apart by them in their order, is the list. -/
theorem flatten_filter_keys {l : List α} {ks : List Nat} (hl : l.Pairwise (fun a b => key a ≤ key b)) (hks : ks.Pairwise (· < ·))
    (hm : ∀ a ∈ l, key a ∈ ks) : (ks.map (fun k => l.filter (fun a => decide (key a = k)))).flatten = l := by
  induction ks generalizing l with
  | nil => exact (List.eq_nil_iff_forall_not_mem.2 (fun a ha => by simpa using hm a ha)).symm
  | cons k r ih =>
    obtain ⟨hk, hr⟩ := List.pairwise_cons.1 hks
    have least : ∀ a ∈ l, k ≤ key a := fun a ha => by
      rcases List.mem_cons.1 (hm a ha) with h | h
      · exact h.ge
      · exact (hk _ h).le
    have rest := ih (hl.filter (fun a => decide (key a ≠ k))) hr (fun a ha => by
      obtain ⟨ha, hne⟩ := List.mem_filter.1 ha
      exact (List.mem_cons.1 (hm a ha)).resolve_left (of_decide_eq_true hne))
    have others : r.map (fun j => (l.filter (fun a => decide (key a ≠ k))).filter (fun a => decide (key a = j))) =
        r.map (fun j => l.filter (fun a => decide (key a = j))) := by
      refine List.map_congr_left (fun j hj => ?_)
      rw [List.filter_filter]
      refine List.filter_congr (fun a _ => ?_)
      have := hk j hj
      by_cases h : key a = j
      · have hne : key a ≠ k := by omega
        simp [h, show j ≠ k by omega]
      · simp [h]
    rw [List.map_cons, List.flatten_cons, ← others, rest, filter_least_append hl least]
end

/-! ### Writes of a packet, one a line -/

/-- A write of a packet. -/
def writeOf (cells : List Host.Cell) : Act := .write { cells := cells }
/-- The access that a packet posts. -/
def State.packetAccess (s : State) (id w pa : Nat) (act : Act) : Access :=
  { id := s.seqno, core := 512, ctx := 0, frond := 384, world := w, node := 0, home := homeNode pa, act := act, owed := .packet id, cls := 0 }
theorem State.packetPost_write (s : State) (id w pa : Nat) (cells : List Host.Cell) : ∃ a : Access, a.owed = .packet id ∧ a.node = 0 ∧
    a.act = writeOf cells ∧ (s.packetPost id w pa (writeOf cells)).accesses = s.accesses ++ [a] ∧
      KeepsRegsAndMemory s (s.packetPost id w pa (writeOf cells)) := by
  have none : (s.packetAccess id w pa (writeOf cells)).request = none := rfl
  exact ⟨(s.bump.stamped (s.packetAccess id w pa (writeOf cells))).onWay, rfl, rfl, rfl, s.bump.accesses_post none,
    keeps_trans (keeps_of_eq (t := s.bump) rfl rfl) (keeps_trans (s.bump.post_keeps none) (keeps_of_eq rfl rfl))⟩
/-- The writes that a packet posts for the lines of a list, in its order. -/
theorem State.packetPost_lines (id w : Nat) (addr : Nat → Nat) (part : Nat → List Host.Cell) (l : List Nat) (s : State) :
    ∃ acts : List Access, (l.foldl (fun t n => t.packetPost id w (addr n) (writeOf (part n))) s).accesses = s.accesses ++ acts ∧
      (∀ a ∈ acts, a.owed = .packet id ∧ a.node = 0) ∧ acts.map Access.act = (l.map part).map writeOf ∧
      KeepsRegsAndMemory s (l.foldl (fun t n => t.packetPost id w (addr n) (writeOf (part n))) s) := by
  induction l generalizing s with
  | nil => exact ⟨[], (List.append_nil _).symm, by simp, rfl, keeps_refl s⟩
  | cons n r ih =>
    obtain ⟨a, ho, hn, ha, hacc, hk⟩ := s.packetPost_write id w (addr n) (part n)
    obtain ⟨acts, hacc', hon, hact, hk'⟩ := ih (s.packetPost id w (addr n) (writeOf (part n)))
    refine ⟨a :: acts, ?_, List.forall_mem_cons.2 ⟨⟨ho, hn⟩, hon⟩, ?_, keeps_trans hk hk'⟩
    · rw [List.foldl_cons, hacc', hacc, List.append_assoc]
      rfl
    · rw [List.map_cons, List.map_cons, List.map_cons, ha, hact]

end Sys2Proof.Machine
end

section
/-! SUPPORT. The command packets of world 0 that change the package: partitions, checkpoints, the interface and configuration registers (01 R26, 04
R82, R83, R105, R107), each with its outcomes. -/

namespace Sys2Proof.Machine

section
variable {s : State} {id : Nat} {p : Packet} (h : s.packet id = some p)
include h

/-! ### PARTITION (R26, R27) -/

/-- The change of roles that a packet asks for. -/
def Packet.roleChange (p : Packet) (id accepted : Nat) : RoleChange :=
  { packet := id, mask := pkField p.bits 24 1, profile := pkField p.bits 25 1,
    parts := [pkField p.bits 28 1, pkField p.bits 29 1, pkField p.bits 30 1, pkField p.bits 31 1], deadline := pkField p.bits 26 2, accepted := accepted }
/-- The pass over the dies as a drain begins. -/
def State.drainDie (r : RoleChange) (s : State) (d : Nat) : State :=
  if r.masks (dieColumn d) ∧ (s.die d).st = .compute then s.updDie d (fun x => { x with st := .draining, prior := .compute }) else s
omit h in
theorem State.drainDie_keeps {β : Type} (P : State → β) (r : RoleChange) (s : State) (d : Nat) (h : ∀ t l, P { t with dies := l } = P t) :
    P (s.drainDie r d) = P s := by
  unfold State.drainDie
  split
  · exact h ..
  · rfl
def State.drains (s : State) (id : Nat) (r : RoleChange) : State :=
  layerDies.foldl (State.drainDie r) ((s.updPacket id (fun p => { p with acted := true })).updHub (fun h => { h with role := some r }))
omit h in
theorem State.drains_keeps {β : Type} (P : State → β) (s : State) (id : Nat) (r : RoleChange) (h : ∀ t l, P { t with dies := l } = P t) :
    P (s.drains id r) = P ((s.updPacket id (fun p => { p with acted := true })).updHub (fun h => { h with role := some r })) :=
  foldl_keeps P (State.drainDie r) _ _ (fun t d => t.drainDie_keeps P r d h)
omit h in
theorem State.die_drains (s : State) (id : Nat) (r : RoleChange) {d : Nat} (hd : d ∈ layerDies) : (s.drains id r).die d =
    if r.masks (dieColumn d) ∧ (s.die d).st = .compute then { s.die d with st := .draining, prior := .compute } else s.die d := by
  refine (State.die_foldl (g := State.drainDie r)
    (f := fun d x => if r.masks (dieColumn d) ∧ x.st = .compute then { x with st := .draining, prior := .compute } else x) nodup_layerDies
    (fun t d => ?_) (fun t d e he => ?_) (fun t d _ => ?_) d).trans (if_pos hd) <;> (unfold State.drainDie; split)
  · rfl
  · rfl
  · rw [State.die_updDie, if_neg he]
  · rfl
  · rw [State.die_updDie, if_pos rfl]
  · rfl
theorem exec_partition_checked (hp : p.Runs 7) (hr : s.hub.role = none) (hw : ∀ x ∈ s.worlds, x.2.st ≠ .loading) : exec (.partition id) s =
    match s.partitionRefused (p.roleChange id s.gtick.toNat) with
    | some st => .next (s.endPacket id st)
    | none => .next (s.drains id (p.roleChange id s.gtick.toNat)) := by
  rw [exec_partition_eq, execPartition, starting_of_runs h hp]
  refine if_neg ?_
  rw [hr, List.any_eq_true]
  rintro (hn | ⟨x, hx, hl⟩)
  · cases hn
  · exact hw x hx (of_decide_eq_true hl)
theorem partition_drains (hp : p.Runs 7) (hr : s.hub.role = none) (hw : ∀ x ∈ s.worlds, x.2.st ≠ .loading)
    (hn : s.partitionRefused (p.roleChange id s.gtick.toNat) = none) : ∃ t, exec (.partition id) s = .next t ∧ KeepsRegsAndMemory s t ∧
      t.hub.role = some (p.roleChange id s.gtick.toNat) ∧ ∀ d, 8 ≤ d → d < 40 → (s.die d).st = .compute → (t.die d).st =
        if pkField p.bits 24 1 / 2 ^ ((d - 8) / 8) % 2 = 1 then .draining else .compute := by
  have hx := exec_partition_checked h hp hr hw
  rw [hn] at hx
  refine ⟨_, hx, keeps_of_eq (s.drains_keeps State.cores id _ (fun _ _ => rfl)) (s.drains_keeps State.mem id _ (fun _ _ => rfl)),
    congrArg Hub.role (s.drains_keeps State.hub id _ (fun _ _ => rfl)), fun d h8 h40 hc => ?_⟩
  have masks : (p.roleChange id s.gtick.toNat).masks (dieColumn d) = true ↔ pkField p.bits 24 1 / 2 ^ ((d - 8) / 8) % 2 = 1 :=
    decide_eq_true_iff
  rw [State.die_drains s id _ (mem_layerDies.2 ⟨h8, h40⟩)]
  simp only [masks, hc, and_true]
  split
  · rfl
  · exact hc
theorem partition_refused (hp : p.Runs 7) (hr : s.hub.role = none) (hw : ∀ x ∈ s.worlds, x.2.st ≠ .loading) {st : Nat}
    (hn : s.partitionRefused (p.roleChange id s.gtick.toNat) = some st) : EndsKeeping s id (.partition id) st (fun t => t.hub.role = none) := by
  have hx := exec_partition_checked h hp hr hw
  rw [hn] at hx
  exact endsKeeping_refused hx h hr

/-! ### CHECKPOINT (R107 to R109) -/

/-- The checkpoint that a packet begins. -/
def Packet.checkpoint (p : Packet) (id began : Nat) : Checkpoint :=
  { packet := id, budget := pkField p.bits 26 2, began := began, step := 0, incx := decide (pkField p.bits 25 1 = 1), pmask := pkField p.bits 24 1,
    peer := pkField p.bits 32 6, sbase := BitVec.ofNat 64 (pkField p.bits 40 8) }
omit h in
theorem exec_checkpoint_eq (s : State) (id : Nat) : exec (.checkpoint id) s = execCheckpoint id s := rfl
theorem checkpoint_busy (hp : p.Runs 8) (hc : s.hub.ckpt ≠ none) : EndsKeeping s id (.checkpoint id) 1 (fun t => t.hub.ckpt = s.hub.ckpt) := by
  refine endsKeeping_refused ?_ h rfl
  rw [exec_checkpoint_eq, execCheckpoint, starting_of_runs h hp]
  exact if_pos (Option.isSome_iff_ne_none.2 hc)
theorem checkpoint_begins (hp : p.Runs 8) (hc : s.hub.ckpt = none) (hr : s.hub.role = none) (hd : s.hub.domain.phase = .idle) :
    ∃ t c, exec (.checkpoint id) s = .next t ∧ KeepsRegsAndMemory s t ∧ t.hub.ckpt = some c ∧ c.packet = id ∧ c.step = 2 ∧
      c.budget = pkField p.bits 26 2 ∧ c.pmask = pkField p.bits 24 1 ∧ c.incx = decide (pkField p.bits 25 1 = 1) ∧ c.peer = pkField p.bits 32 6 ∧
      c.sbase.toNat = pkField p.bits 40 8 := by
  have hx : exec (.checkpoint id) s = .next ((s.updPacket id (fun p => { p with acted := true })).updHub (fun h =>
      { h with ckpt := some (p.checkpoint id s.gtick.toNat) })).ckptBegin := by
    rw [exec_checkpoint_eq, execCheckpoint, starting_of_runs h hp]
    exact if_neg (by simp [hc])
  generalize hu : (s.updPacket id (fun p => { p with acted := true })).updHub (fun h => { h with ckpt := some (p.checkpoint id s.gtick.toNat) }) = u at hx
  have held : u.ckptHeld = false := by
    subst hu
    simp [State.ckptHeld, hr, hd, State.updPacket]
  have begun : u.ckptBegin = u.updCkpt (fun q => if q.step = 0 then { q with step := 2, began := u.gtick.toNat } else q) := by
    rw [State.ckptBegin, held]
    rfl
  rw [begun] at hx
  refine ⟨_, { p.checkpoint id s.gtick.toNat with step := 2, began := u.gtick.toNat }, hx, ?_, ?_, rfl, rfl, rfl, rfl, rfl, rfl, ?_⟩
  · subst hu
    exact keeps_of_eq rfl rfl
  · subst hu
    rfl
  · exact (BitVec.toNat_ofNat ..).trans (Nat.mod_eq_of_lt (Nat.mod_lt _ (by norm_num)))

/-! ### IFST (R82, R83, log 37) -/

theorem ifstLock_late_or_locked (hp : p.Comes 0x0A) (hn : pkField p.bits 24 1 = 1) (hi : s.hub.ifs = .config) (hq : s.partitioning = false)
    (hk : ∀ k < 4, s.part k ≠ 0) : if pkField p.bits 32 8 < s.gtick.toNat + 2 then
        EndsKeeping s id (.ifstLock id) 0x0E (fun t => t.hub.ifs = .config)
      else Takes s id p (.ifstLock id) (fun t => KeepsRegsAndMemory s t ∧ t.hub.ifs = .locked ∧
        t.hub.lockTick = some (BitVec.ofNat 64 (pkField p.bits 32 8))) := by
  have ready : ¬ (s.hub.ifs ≠ .config ∨ s.partitioning = true ∨ (List.range 4).any (fun k => decide (s.part k = 0)) = true) := by
    rw [hi, hq, List.any_eq_true]
    rintro (hc | hc | ⟨k, hk', hz⟩)
    · exact hc rfl
    · cases hc
    · exact hk k (List.mem_range.1 hk') (of_decide_eq_true hz)
  have hx : exec (.ifstLock id) s = _ := atConsumption_of h hp hn
  rw [if_neg ready] at hx
  split
  · rename_i hl
    rw [if_pos hl] at hx
    exact endsKeeping_refused hx h hi
  · rename_i hl
    rw [if_neg hl] at hx
    exact takes_of hx h ⟨keeps_of_eq rfl rfl, rfl, rfl⟩
theorem ifstUnlock_locked (hp : p.Comes 0x0A) (hn : pkField p.bits 24 1 = 2) (hi : s.hub.ifs = .locked) :
    Takes s id p (.ifstUnlock id) (fun t => KeepsRegsAndMemory s t ∧ t.hub.ifs = .config ∧ t.hub.lockTick = none) := by
  have hx : exec (.ifstUnlock id) s = _ := atConsumption_of h hp hn
  rw [if_pos hi] at hx
  exact takes_of hx h ⟨keeps_of_eq rfl rfl, rfl, rfl⟩
theorem ifstUnlock_refused (hp : p.Comes 0x0A) (hn : pkField p.bits 24 1 = 2) (hi : s.hub.ifs ≠ .locked) :
    EndsKeeping s id (.ifstUnlock id) 0x0A (fun t => t.hub.ifs = s.hub.ifs) := by
  have hx : exec (.ifstUnlock id) s = _ := atConsumption_of h hp hn
  rw [if_neg hi] at hx
  exact endsKeeping_refused hx h rfl
theorem ifstRelease_effect (hp : p.Runs 0x0A) (hn : pkField p.bits 24 1 = 3) : EndsKeeping s id (.ifstRelease id) (if s.hub.ifs = .run then 0 else 0x0A)
    (fun t => t.hub.ifs = if s.hub.ifs = .run then .drain else s.hub.ifs) := by
  have hx : exec (.ifstRelease id) s = _ := command_of h hp hn
  by_cases hi : s.hub.ifs = .run
  · rw [if_pos hi] at hx
    simp only [if_pos hi]
    exact endsKeeping_of hx h (keeps_of_eq rfl rfl) rfl
  · rw [if_neg hi] at hx
    simp only [if_neg hi]
    exact endsKeeping_refused hx h rfl

/-! ### CFGWR and CFGRD (R105, R167, log 37) -/

omit h in
theorem cfgEntries_of_one (b : BitVec 512) (hn : pkField b 24 1 = 1) : cfgEntries b = [(pkField b 28 4, BitVec.ofNat 64 (pkField b 32 8))] := by
  rw [cfgEntries, hn]
  rfl
omit h in
theorem State.cfgTry_savebase (s : State) {a c : Nat} (v : Word) (ha : cfgReg a = .savebase c) :
    s.cfgTry a v = some (s.updCore c (fun x => { x with savebase := v &&& 0xFFFFFFFFFFFF })) := by
  rw [State.cfgTry, ha]
omit h in
theorem State.cfgWrite_savebase (s : State) {a c : Nat} (v : Word) (ha : cfgReg a = .savebase c) :
    s.cfgWrite a v = s.updCore c (fun x => { x with savebase := v &&& 0xFFFFFFFFFFFF }) := by
  simp only [State.cfgWrite, ha, s.cfgTry_savebase v ha, Option.getD_some]
omit h in
theorem State.savebase_keeps (s : State) (c : Nat) (v : Word) : KeepsRegsAndMemory s (s.updCore c (fun x => { x with savebase := v })) := by
  refine ⟨fun d k => ?_, fun _ => rfl⟩
  rw [State.ctx, State.ctx, State.core_updCore]
  split
  · rename_i e
    rw [e]
    exact sameRegs_refl _
  · exact sameRegs_refl _
theorem cfgwr_savebase (hp : p.Comes 0x0B) (hn : pkField p.bits 24 1 = 1) {c : Nat} (hc : cfgReg (pkField p.bits 28 4) = .savebase c) :
    Takes s id p (.cfgwr id) (fun t => KeepsRegsAndMemory s t ∧
      (t.core c).savebase = BitVec.ofNat 64 (pkField p.bits 32 8) &&& 0xFFFFFFFFFFFF) := by
  have hx : exec (.cfgwr id) s = _ := atConsumption_any_of h hp
  simp only [cfgEntries_of_one _ hn, List.filter_cons, List.filter_nil, s.cfgTry_savebase _ hc, Option.isNone_some, Bool.false_eq_true, if_false,
    List.isEmpty_nil, if_true, List.foldl_cons, List.foldl_nil, s.cfgWrite_savebase _ hc] at hx
  refine takes_of hx h ⟨keeps_trans (s.savebase_keeps c _) (State.settle_keeps ..), ?_⟩
  rw [State.core_settle, State.core_updCore_self]
theorem cfgwr_unmapped (hp : p.Comes 0x0B) (hn : pkField p.bits 24 1 = 1) (hc : cfgReg (pkField p.bits 28 4) = .unmapped) :
    EndsKeeping s id (.cfgwr id) 0x0C (fun t => ∀ c, t.core c = s.core c) := by
  have hx : exec (.cfgwr id) s = _ := atConsumption_any_of h hp
  have refuses : ∀ v, s.cfgTry (pkField p.bits 28 4) v = none := fun v => by rw [State.cfgTry, hc]
  simp only [cfgEntries_of_one _ hn, List.filter_cons, List.filter_nil, refuses, Option.isNone_none, if_true, List.isEmpty_cons, Bool.false_eq_true, if_false,
    List.foldl_cons, List.foldl_nil, hc] at hx
  exact endsKeeping_of (u := s.cfgErrorH _ _) hx h (keeps_of_eq rfl rfl) (fun _ => rfl)
omit h in
theorem cells_ascend (pa n : Nat) (v : Nat → Nat) :
    ((List.range n).flatMap (fun i => cellsAt (pa + 8 * i) 8 (v i))).Pairwise (fun a b => lineOf a.1 ≤ lineOf b.1) := by
  have ascend : ((List.range n).flatMap (fun i => cellsAt (pa + 8 * i) 8 (v i))).Pairwise (fun a b => a.1 ≤ b.1) := by
    refine List.pairwise_flatMap.2 ⟨fun i _ => List.pairwise_map.2 (List.pairwise_lt_range.imp (fun h => by dsimp only; omega)),
      List.pairwise_lt_range.imp (fun {i j} hij a ha b hb => ?_)⟩
    obtain ⟨x, hx, rfl⟩ := List.mem_map.1 ha
    obtain ⟨y, hy, rfl⟩ := List.mem_map.1 hb
    have := List.mem_range.1 hx
    dsimp only
    omega
  exact ascend.imp (fun hab => Nat.div_le_div_right hab)
/-- The cells of the registers that a CFGRD reads. -/
def State.savebaseCells (s : State) (pa n : Nat) (ca : Nat → Nat) : List Host.Cell :=
  (List.range n).flatMap (fun i => cellsAt (pa + 8 * i) 8 (s.core (ca i)).savebase.toNat)
omit h in
theorem State.cfgRead_savebase (s : State) {a c : Nat} (ha : cfgReg a = .savebase c) : s.cfgRead a = some (s.core c).savebase := by
  rw [State.cfgRead, ha]
omit h in
theorem exec_cfgrd_eq (s : State) (id : Nat) : exec (.cfgrd id) s = execCfgrd id s := rfl
omit h in
theorem flatMap_zipIdx_map_range {α β : Type} (n : Nat) (f : Nat → α) (g : α → Nat → List β) :
    (((List.range n).map f).zipIdx).flatMap (fun v => g v.1 v.2) = (List.range n).flatMap (fun i => g (f i) i) := by
  have e : ((List.range n).map f).zipIdx = (List.range n).map (fun i => (f i, i)) := by
    refine List.ext_getElem (by simp) (fun i hi _ => ?_)
    simp
  rw [e, List.flatMap_map]
/-- The state in which a CFGRD has posted its writes, one a line. -/
def State.cfgrdPosted (s : State) (id w pa : Nat) (cells : List Host.Cell) : State :=
  (linesOf (cells.map Prod.fst)).foldl (fun t n => t.packetPost id w (((cells.filter (fun c => decide (lineOf c.1 = n))).head?.map Prod.fst).getD pa)
    (writeOf (cells.filter (fun c => decide (lineOf c.1 = n))))) (s.updPacket id (fun p => { p with acted := true }))
theorem exec_cfgrd_of (hp : p.Runs 0x0C) {ca : Nat → Nat} {pa : Nat}
    (hc : ∀ i < pkField p.bits 24 1, cfgReg (pkField p.bits (28 + 4 * i) 4) = .savebase (ca i))
    (ha : s.feAddr p.world (pkField p.bits 40 8) (8 * pkField p.bits 24 1) .wr = some pa) :
    exec (.cfgrd id) s = .next (s.cfgrdPosted id p.world pa (s.savebaseCells pa (pkField p.bits 24 1) ca)) := by
  have vals : (List.range (pkField p.bits 24 1)).map (fun i => s.cfgRead (pkField p.bits (28 + 4 * i) 4)) =
      (List.range (pkField p.bits 24 1)).map (fun i => some (s.core (ca i)).savebase) :=
    List.map_congr_left (fun i hi => s.cfgRead_savebase (hc i (List.mem_range.1 hi)))
  have cells : (((List.range (pkField p.bits 24 1)).map (fun i => some (s.core (ca i)).savebase)).zipIdx).flatMap
      (fun v => cellsAt (pa + 8 * v.2) 8 (v.1.getD 0).toNat) = s.savebaseCells pa (pkField p.bits 24 1) ca :=
    flatMap_zipIdx_map_range _ (fun i => some (s.core (ca i)).savebase) (fun v i => cellsAt (pa + 8 * i) 8 (v.getD 0).toNat)
  rw [exec_cfgrd_eq, execCfgrd, starting_of_runs h hp]
  dsimp only
  rw [vals, if_neg (by simp), ha]
  dsimp only
  rw [cells]
  rfl
theorem cfgrd_posts (hp : p.Runs 0x0C) {ca : Nat → Nat} {pa : Nat}
    (hc : ∀ i < pkField p.bits 24 1, cfgReg (pkField p.bits (28 + 4 * i) 4) = .savebase (ca i))
    (ha : s.feAddr p.world (pkField p.bits 40 8) (8 * pkField p.bits 24 1) .wr = some pa) :
    ∃ (t : State) (acts : List Access) (parts : List (List Host.Cell)), exec (.cfgrd id) s = .next t ∧ KeepsRegsAndMemory s t ∧
      t.accesses = s.accesses ++ acts ∧ (∀ y ∈ acts, y.owed = .packet id ∧ y.node = 0) ∧ acts.map Access.act = parts.map writeOf ∧
      parts.flatten = s.savebaseCells pa (pkField p.bits 24 1) ca ∧ ∀ c ∈ parts, ∀ x ∈ c, ∀ y ∈ c, lineOf x.1 = lineOf y.1 := by
  have hx := exec_cfgrd_of h hp hc ha
  generalize hl : s.savebaseCells pa (pkField p.bits 24 1) ca = cells at hx
  obtain ⟨acts, hacc, hon, hact, hk⟩ := State.packetPost_lines id p.world
    (fun n => ((cells.filter (fun c => decide (lineOf c.1 = n))).head?.map Prod.fst).getD pa) (fun n => cells.filter (fun c => decide (lineOf c.1 = n)))
    (linesOf (cells.map Prod.fst)) (s.updPacket id (fun p => { p with acted := true }))
  refine ⟨_, acts, (linesOf (cells.map Prod.fst)).map (fun n => cells.filter (fun c => decide (lineOf c.1 = n))), hx,
    keeps_trans (keeps_of_eq rfl rfl) hk, hacc, hon, hact, ?_, ?_⟩
  · refine flatten_filter_keys (key := fun c : Host.Cell => lineOf c.1) (hl ▸ cells_ascend pa _ _) (linesOf_ascend _) (fun c hc => ?_)
    exact (mem_linesOf _ _).2 (List.mem_map.2 ⟨c.1, List.mem_map.2 ⟨c, hc, rfl⟩, rfl⟩)
  · intro part hpart x hx y hy
    obtain ⟨n, -, rfl⟩ := List.mem_map.1 hpart
    exact (of_decide_eq_true (List.mem_filter.1 hx).2).trans (of_decide_eq_true (List.mem_filter.1 hy).2).symm
end

/-- An address of a translation window table's entry names no register. -/
theorem tableEntry_of_savebase {a c : Nat} (h : cfgReg a = .savebase c) : tableEntry a = none := by
  unfold tableEntry
  refine if_neg (fun ha => ?_)
  have die : isDie (a / 0x1000000 % 256) = false := by
    simp only [isDie, decide_eq_false_iff_not]
    omega
  simp [cfgReg, die] at h
theorem configRegisterWrite_savebase (s : State) {addr : BitVec 32} {c : Nat} (v : Word) (hc : cfgReg addr.toNat = .savebase c) :
    ∃ t, exec (.configRegisterWrite addr v) s = .next t ∧ KeepsRegsAndMemory s t ∧ (t.core c).savebase = v &&& 0xFFFFFFFFFFFF := by
  have hx : exec (.configRegisterWrite addr v) s = .next (s.updCore c (fun x => { x with savebase := v &&& 0xFFFFFFFFFFFF })) := by
    show execConfigRegisterWrite addr v s = _
    unfold execConfigRegisterWrite
    rw [tableEntry_of_savebase hc, ← s.cfgWrite_savebase v hc]
  exact ⟨_, hx, s.savebase_keeps c _, by rw [State.core_updCore_self]⟩

end Sys2Proof.Machine
end

section
/-! SUPPORT. The KEY packets (03 R76 to R78, 04 R104): load keys, and how a domain is formed and re-keyed. -/

namespace Sys2Proof.Machine

section
variable {s : State} {id : Nat} {p : Packet} (h : s.packet id = some p)
include h


/-! ### Load keys (R104, log 78) -/

theorem loadkey_takes (hp : p.Runs 9) (hn : pkField p.bits 24 1 = 1) (hk : (s.world p.world).loadkey = none) :
    EndsKeeping s id (.loadkey id) 0 (fun t => (t.world p.world).loadkey = some (BitVec.ofNat 256 (pkField p.bits 32 32))) := by
  have hx : exec (.loadkey id) s = _ := command_of h hp hn
  rw [if_neg (by simp [hk])] at hx
  refine endsKeeping_of hx h (keeps_of_eq rfl rfl) ?_
  rw [State.world_endPacket, State.world_updWorld, if_pos rfl]
theorem loadkey_second (hp : p.Runs 9) (hn : pkField p.bits 24 1 = 1) (hk : (s.world p.world).loadkey ≠ none) :
    EndsKeeping s id (.loadkey id) 0x0A (fun _ => True) := by
  have hx : exec (.loadkey id) s = _ := command_of h hp hn
  rw [if_pos (Option.isSome_iff_ne_none.2 hk)] at hx
  exact endsKeeping_refused hx h trivial
theorem eraseload_effect (hp : p.Runs 9) (hn : pkField p.bits 24 1 = 2) :
    EndsKeeping s id (.eraseload id) 0 (fun t => (t.world p.world).loadkey = none) := by
  have hx : exec (.eraseload id) s = _ := command_of h hp hn
  refine endsKeeping_of hx h (keeps_of_eq rfl rfl) ?_
  rw [State.world_endPacket, State.world_updWorld, if_pos rfl]

/-! ### DOMFORM (R76, R77, log 45) -/

/-- The members that a policy lists. -/
def policyEntries (l : List Byte) : List PolicyEnt := (Config.policyMembers l).filter (fun e => decide (0 < e.member ∧ e.member < 64))
omit h in
theorem State.sent_foldl_answer {α : Type} (l : List α) (g : α → Reply) (s : State) :
    (l.foldl (fun s e => s.answer (g e)) s).hub = { s.hub with sent := s.hub.sent ++ l.map g } := by
  induction l generalizing s with
  | nil => simp
  | cons e r ih =>
    rw [List.foldl_cons, ih]
    simp [State.answer]
omit h in
theorem State.foldl_answer_keeps {α β : Type} (P : State → β) (l : List α) (g : State → α → Reply) (s : State) (hh : ∀ t x, P { t with hub := x } = P t) :
    P (l.foldl (fun s e => s.answer (g s e)) s) = P s := foldl_keeps P _ _ s (fun t _ => hh t _)
theorem domform_packet (hst : p.st = .running) (ho : pkOpc p.bits = 9) (hn : pkField p.bits 24 1 = 3) :
    (s.packet id).filter (fun p => decide (p.st = .running ∧ pkOpc p.bits = 0x09 ∧ pkField p.bits 24 1 = 3)) = some p := by
  simp [h, hst, ho, hn]
omit h in
theorem exec_domform_eq (s : State) (id : Nat) (proofs : List MemberProof) : exec (.domform id proofs) s = execDomform id proofs s := rfl
theorem domform_formed (proofs : List MemberProof) (hp : p.Runs 9) (hn : pkField p.bits 24 1 = 3) (hf : s.hub.domain.formed = true) :
    EndsKeeping s id (.domform id proofs) 0x0A (fun _ => True) := by
  refine endsKeeping_refused ?_ h trivial
  rw [exec_domform_eq, execDomform, domform_packet h hp.1 hp.2.1 hn]
  exact if_pos hf
/-- The nonces that go to a policy's members, from a count of free words on. -/
def noncesFrom (ents : List PolicyEnt) (fresh : Nat) : SMap Word :=
  ents.zipIdx.foldl (fun m e => SMap.set m e.1.member (Config.freeWord (fresh + e.2))) []
/-- The state in which a policy's members have their nonces. -/
def State.asking (u : State) (id : Nat) (l : List Byte) : State :=
  ({ u with fresh := u.fresh + (policyEntries l).length }.updDomain (fun _ =>
    { policy := policyEntries l, nonces := noncesFrom (policyEntries l) u.fresh })).updPacket id (fun p => { p with acted := true })
theorem domform_asks {u : State} (proofs : List MemberProof) {l : List Byte} (hp : p.Runs 9) (hn : pkField p.bits 24 1 = 3)
    (hf : s.hub.domain.formed = false) (hu : s.readPolicy p.world (pkField p.bits 32 8) = .ok l u) :
    ∃ t, exec (.domform id proofs) s = .next t ∧ KeepsRegsAndMemory s t ∧ t.packet id = some { p with acted := true } ∧
      t.hub.domain.formed = false ∧ t.hub.domain.policy = policyEntries l ∧ t.hub.sent = s.hub.sent ++ (policyEntries l).map (fun e =>
        .control e.member 0 (.attest (SMap.get 0 t.hub.domain.nonces e.member))) := by
  have hx : exec (.domform id proofs) s = .next ((policyEntries l).foldl (fun s e => s.answer (.control e.member 0
      (.attest (SMap.get 0 (noncesFrom (policyEntries l) u.fresh) e.member)))) (u.asking id l)) := by
    rw [exec_domform_eq, execDomform, domform_packet h hp.1 hp.2.1 hn]
    dsimp only
    rw [hf, hp.2.2, hu]
    rfl
  have clocks := State.readPolicy_ok hu
  have pu : u.packet id = some p := by rw [clocks]; exact h
  have hub : u.hub = s.hub := by rw [clocks]
  have asked := State.sent_foldl_answer (policyEntries l) (fun e => Reply.control e.member 0
    (.attest (SMap.get 0 (noncesFrom (policyEntries l) u.fresh) e.member))) (u.asking id l)
  refine ⟨_, hx, keeps_of_eq ?_ ?_, ?_, ?_, ?_, ?_⟩
  · rw [State.foldl_answer_keeps State.cores _ (fun _ _ => _) _ (fun _ _ => rfl)]
    show u.cores = s.cores
    rw [clocks]
  · rw [State.foldl_answer_keeps State.mem _ (fun _ _ => _) _ (fun _ _ => rfl)]
    show u.mem = s.mem
    rw [clocks]
  · rw [State.packet_of_packets_eq (State.foldl_answer_keeps State.packets _ (fun _ _ => _) _ (fun _ _ => rfl)), State.asking]
    refine State.packet_updPacket (p := p) ?_ (fun _ => rfl)
    exact pu
  · rw [asked]
    rfl
  · rw [asked]
    rfl
  · rw [asked, ← hub]
    rfl

/-- What a member has shown that fits an entry of the policy. -/
def State.fitting (s : State) (proofs : List MemberProof) (e : PolicyEnt) : Option MemberProof :=
  proofs.find? (admits (SMap.get 0 s.hub.domain.nonces e.member) e)
omit h in
theorem State.fitting_isSome (s : State) (proofs : List MemberProof) (e : PolicyEnt) : (s.fitting proofs e).isSome = true ↔
    ∃ q, q ∈ proofs ∧ admits (SMap.get 0 s.hub.domain.nonces e.member) e q = true := by
  rw [State.fitting, List.find?_isSome]
/-- The members admitted, each with the session it has opened. -/
def admittedPeers (fit : PolicyEnt → Option MemberProof) (ents : List PolicyEnt) : SMap Peer :=
  ents.foldl (fun m e => match fit e with
    | some q => SMap.set m e.member { present := true, session := q.session }
    | none => m) []
omit h in
/-- A member is admitted when an entry for it is met, with the session of one that is; it shows nothing of itself before. -/
theorem get_admittedPeers (fit : PolicyEnt → Option MemberProof) (ents : List PolicyEnt) (m : Nat) :
    ((∃ e ∈ ents, e.member = m ∧ (fit e).isSome = true) → (SMap.get ({} : Peer) (admittedPeers fit ents) m).present = true) ∧
    ((SMap.get ({} : Peer) (admittedPeers fit ents) m).present = true → ∃ e ∈ ents, ∃ q, e.member = m ∧ fit e = some q ∧
      (SMap.get ({} : Peer) (admittedPeers fit ents) m).session = q.session) := by
  constructor
  · rintro ⟨e, he, hm, hf⟩
    obtain ⟨q, hq⟩ := Option.isSome_iff_exists.1 hf
    refine foldl_establishes (P := fun l : SMap Peer => (SMap.get ({} : Peer) l m).present = true) he (fun l => ?_) (fun l e' _ hl => ?_)
    · simp only [hq, ← hm, SMap.get_set_self]
    · split
      · rw [SMap.get_set]
        split
        · rfl
        · exact hl
      · exact hl
  · refine foldl_invariant (P := fun l : SMap Peer => (SMap.get ({} : Peer) l m).present = true → ∃ e ∈ ents, ∃ q, e.member = m ∧ fit e = some q ∧
      (SMap.get ({} : Peer) l m).session = q.session) (fun hp => by cases hp) (fun l e he hl => ?_)
    split
    · rename_i q hq
      rw [SMap.get_set]
      split
      · rename_i hm
        exact fun _ => ⟨e, he, q, hm.symm, hq, rfl⟩
      · exact hl
    · exact hl
/-- The domain as it is formed. -/
def State.formedDomain (s : State) (p : Packet) (proofs : List MemberProof) (fresh : Nat) : Domain :=
  { formed := true, number := pkField p.bits 40 2, kgen := 1, secret := drawSecret fresh,
    runlen := Max.max 1 (Min.min (Config.runLen (pkField p.bits 40 2)) 64)
    timeout := ((Config.barrierTimeout (pkField p.bits 40 2)).map (fun t => Max.max 1 (Min.min t 1000))).getD 100
    peers := admittedPeers (s.fitting proofs) s.hub.domain.policy }
/-- The state in which the manager has been told of the members that do not fit. -/
def State.told (s : State) (proofs : List MemberProof) : State :=
  (s.hub.domain.policy.filter (fun e => (s.fitting proofs e).isNone)).foldl (fun s e => s.tell (.notAdmitted e.member)) s
/-- The state in which the domain stands and its members are still to be told. -/
def State.forming (s : State) (p : Packet) (proofs : List MemberProof) : State :=
  { s.told proofs with fresh := (s.told proofs).fresh + 4 }.updDomain (fun _ => s.formedDomain p proofs (s.told proofs).fresh)
omit h in
theorem State.controlAll_hub (s : State) (c : Control) : (s.controlAll c).hub =
    { s.hub with sent := s.hub.sent ++ s.hub.domain.others.map (fun m => Reply.control m (SMap.get {} s.hub.domain.peers m).session c) } := by
  have e : ∀ (l : List Nat) (t : State), t.hub.domain = s.hub.domain →
      (l.foldl (fun t m => t.answer (.control m (SMap.get {} t.hub.domain.peers m).session c)) t).hub =
        { t.hub with sent := t.hub.sent ++ l.map (fun m => Reply.control m (SMap.get {} s.hub.domain.peers m).session c) } := by
    intro l
    induction l with
    | nil => intro t _; simp
    | cons m r ih =>
      intro t ht
      rw [List.foldl_cons, ih (t.answer _) ht, ht]
      simp [State.answer]
  exact e _ s rfl
omit h in
theorem State.controlAll_keeps {β : Type} (P : State → β) (s : State) (c : Control) (hh : ∀ t x, P { t with hub := x } = P t) :
    P (s.controlAll c) = P s := foldl_keeps P _ _ s (fun t _ => hh t _)
omit h in
/-- A member that is present is another than this package, once it has a number above 0. -/
theorem Domain.mem_others {d : Domain} {m : Nat} (hp : (SMap.get ({} : Peer) d.peers m).present = true) (hs : m ≠ d.self) : m ∈ d.others := by
  have listed : (m, SMap.get ({} : Peer) d.peers m) ∈ d.peers := SMap.mem_of_get_ne (fun e => by rw [e] at hp; cases hp)
  exact List.mem_map.2 ⟨_, List.mem_filter.2 ⟨listed, Bool.and_eq_true_iff.2 ⟨hp, decide_eq_true hs⟩⟩, rfl⟩
omit h in
theorem State.told_keeps {β : Type} (P : State → β) (s : State) (proofs : List MemberProof)
    (hh : ∀ t q, P { t with hub := { t.hub with queue := q } } = P t) : P (s.told proofs) = P s := foldl_keeps P _ _ s (fun t _ => hh t _)
omit h in
theorem State.mem_queue_told {s : State} {proofs : List MemberProof} {e : PolicyEnt} (he : e ∈ s.hub.domain.policy) (hn : (s.fitting proofs e).isNone = true) :
    Event.notAdmitted e.member ∈ (s.told proofs).hub.queue :=
  foldl_establishes (P := fun t : State => Event.notAdmitted e.member ∈ t.hub.queue) (List.mem_filter.2 ⟨he, hn⟩)
    (fun _ => List.mem_append_right _ (List.mem_singleton.2 rfl)) (fun _ _ _ ht => List.mem_append_left _ ht)
theorem exec_domform_forms (proofs : List MemberProof) (hst : p.st = .running) (ho : pkOpc p.bits = 9) (hn : pkField p.bits 24 1 = 3)
    (ha : p.acted = true) (hf : s.hub.domain.formed = false) : exec (.domform id proofs) s =
      .next ((((s.forming p proofs).controlAll (.members (s.forming p proofs).hub.domain.others)).controlAll
        (.secret 1 (s.forming p proofs).hub.domain.secret)).endPacket id 0) := by
  rw [exec_domform_eq, execDomform, domform_packet h hst ho hn]
  dsimp only
  rw [hf, ha]
  rfl
theorem domform_forms (proofs : List MemberProof) (hst : p.st = .running) (ho : pkOpc p.bits = 9) (hn : pkField p.bits 24 1 = 3)
    (ha : p.acted = true) (hf : s.hub.domain.formed = false) : EndsKeeping s id (.domform id proofs) 0 (fun t =>
      t.hub.domain.formed = true ∧ t.hub.domain.number = pkField p.bits 40 2 ∧ t.hub.domain.kgen = 1 ∧ t.hub.domain.phase = .idle ∧
      (∀ m, (SMap.get ({} : Peer) t.hub.domain.peers m).present = true ↔ ∃ e ∈ s.hub.domain.policy, e.member = m ∧
        ∃ q, q ∈ proofs ∧ admits (SMap.get 0 s.hub.domain.nonces e.member) e q = true) ∧
      (∀ m, (SMap.get ({} : Peer) t.hub.domain.peers m).present = true →
        .control m (SMap.get ({} : Peer) t.hub.domain.peers m).session (.secret 1 t.hub.domain.secret) ∈ t.hub.sent ∧
          ∃ e ∈ s.hub.domain.policy, ∃ q, e.member = m ∧ (q ∈ proofs ∧ admits (SMap.get 0 s.hub.domain.nonces e.member) e q = true) ∧
            (SMap.get ({} : Peer) t.hub.domain.peers m).session = q.session) ∧
      ∀ e ∈ s.hub.domain.policy, ¬ (∃ q, q ∈ proofs ∧ admits (SMap.get 0 s.hub.domain.nonces e.member) e q = true) →
        .notAdmitted e.member ∈ t.hub.queue) := by
  have hx := exec_domform_forms h proofs hst ho hn ha hf
  generalize hu : ((s.forming p proofs).controlAll (.members (s.forming p proofs).hub.domain.others)).controlAll
    (.secret 1 (s.forming p proofs).hub.domain.secret) = u at hx
  have keeps : ∀ {β : Type} (P : State → β), (∀ t x n, P { t with hub := x, fresh := n } = P t) → P u = P s := fun P hP => by
    rw [← hu, State.controlAll_keeps P _ _ (fun t x => hP t x t.fresh), State.controlAll_keeps P _ _ (fun t x => hP t x t.fresh)]
    exact (hP (s.told proofs) _ _).trans (s.told_keeps P proofs (fun t q => hP t _ t.fresh))
  have dom : u.hub.domain = s.formedDomain p proofs (s.told proofs).fresh := by
    rw [← hu, State.controlAll_hub, State.controlAll_hub]
    rfl
  have queue : u.hub.queue = (s.told proofs).hub.queue := by
    rw [← hu, State.controlAll_hub, State.controlAll_hub]
    rfl
  have sent : ∀ m ∈ u.hub.domain.others, Reply.control m (SMap.get ({} : Peer) u.hub.domain.peers m).session (.secret 1 u.hub.domain.secret) ∈ u.hub.sent := by
    rw [← hu, State.controlAll_hub, State.controlAll_hub]
    exact fun m hm => List.mem_append_right _ (List.mem_map.2 ⟨m, hm, rfl⟩)
  have peers : ∀ m, _ := get_admittedPeers (s.fitting proofs) s.hub.domain.policy
  have fits : ∀ {e q}, s.fitting proofs e = some q → q ∈ proofs ∧ admits (SMap.get 0 s.hub.domain.nonces e.member) e q = true :=
    fun hq => ⟨List.mem_of_find?_eq_some hq, List.find?_some hq⟩
  have hubE : (u.endPacket id 0).hub = u.hub := rfl
  refine endsKeeping_of (q := p) hx ((State.packet_of_packets_eq (keeps State.packets (fun _ _ _ => rfl)) id).trans h)
    (keeps_of_eq (keeps State.cores (fun _ _ _ => rfl)) (keeps State.mem (fun _ _ _ => rfl))) ?_
  rw [hubE]
  refine ⟨by rw [dom]; rfl, by rw [dom]; rfl, by rw [dom]; rfl, by rw [dom]; rfl, fun m => ⟨fun hm => ?_, ?_⟩, fun m hm => ?_, fun e he hn => ?_⟩
  · rw [dom] at hm
    obtain ⟨e, he, q, hem, hq, -⟩ := (peers m).2 hm
    exact ⟨e, he, hem, q, fits hq⟩
  · rintro ⟨e, he, hem, hq⟩
    rw [dom]
    exact (peers m).1 ⟨e, he, hem, (s.fitting_isSome proofs e).2 hq⟩
  · have hm' : (SMap.get ({} : Peer) (admittedPeers (s.fitting proofs) s.hub.domain.policy) m).present = true := by
      rw [dom] at hm
      exact hm
    obtain ⟨e, he, q, hem, hq, hses⟩ := (peers m).2 hm'
    have pos : 0 < m := by
      have hadm := (fits hq).2
      simp only [admits, Bool.and_eq_true, decide_eq_true_eq] at hadm
      omega
    refine ⟨sent m (Domain.mem_others hm ?_), e, he, q, hem, fits hq, ?_⟩
    · rw [dom]
      exact pos.ne'
    · rw [dom]
      exact hses
  · rw [queue]
    refine State.mem_queue_told he ?_
    rw [Option.isNone_iff_eq_none, ← Option.not_isSome_iff_eq_none]
    exact fun hs => hn ((s.fitting_isSome proofs e).1 hs)

/-! ### DOMREKEY (R78) -/

/-- A peer as a re-key begins. -/
def Peer.quiesced (x : Peer) : Peer :=
  { x with barrierSeen := false, drained := false, switched := false, queued := if x.spent then [] else x.queued, cut := if x.spent then 0 else x.cut }
omit h in
theorem Domain.others_quiesced {d d' : Domain} (hp : d'.peers = d.peers.map (fun e : Nat × Peer => (e.1, e.2.quiesced))) (hs : d'.self = d.self) :
    d'.others = d.others := by
  rw [Domain.others, Domain.others, hp, hs, List.filter_map, List.map_map]
  rfl
/-- The domain as a re-key begins. -/
def Domain.quiesced (d : Domain) : Domain :=
  { d with phase := .quiesce, target := if d.phase = .idle then d.kgen + 1 else d.target, next := none,
           held := d.peers.flatMap (fun e => if e.2.spent then e.2.queued.map (fun m => (e.1, m)) else []) ++ d.held,
           peers := d.peers.map (fun e : Nat × Peer => (e.1, e.2.quiesced)) }
omit h in
theorem Domain.session_quiesced (d : Domain) (m : Nat) : (SMap.get ({} : Peer) d.quiesced.peers m).session = (SMap.get ({} : Peer) d.peers m).session := by
  rw [Domain.quiesced, SMap.get_map d.peers Peer.quiesced rfl]
  rfl
omit h in
theorem State.quiesce_eq (s : State) : s.quiesce = if s.hub.domain.coordinator = s.hub.domain.self then
      (s.updDomain Domain.quiesced).controlAll (.quiesce s.hub.domain.kgen s.hub.domain.timeout)
    else s.updDomain Domain.quiesced := rfl
omit h in
theorem State.quiesce_keeps {β : Type} (P : State → β) (s : State) (hh : ∀ t x, P { t with hub := x } = P t) : P s.quiesce = P s := by
  rw [State.quiesce_eq]
  split
  · exact (State.controlAll_keeps P _ _ hh).trans (hh ..)
  · exact hh ..
omit h in
theorem State.quiesce_domain (s : State) : s.quiesce.hub.domain = s.hub.domain.quiesced := by
  rw [State.quiesce_eq]
  split
  · rw [State.controlAll_hub]
    rfl
  · rfl
omit h in
/-- The coordinator tells the other members that a re-key begins. -/
theorem State.quiesce_sent {s : State} (hc : s.hub.domain.coordinator = s.hub.domain.self) : s.quiesce.hub.sent = s.hub.sent ++
    s.hub.domain.others.map (fun m => .control m (SMap.get ({} : Peer) s.hub.domain.peers m).session (.quiesce s.hub.domain.kgen s.hub.domain.timeout)) := by
  rw [State.quiesce_eq, if_pos hc, State.controlAll_hub]
  refine congrArg₂ (· ++ ·) rfl ?_
  show s.hub.domain.quiesced.others.map _ = _
  rw [Domain.others_quiesced (d := s.hub.domain) (d' := s.hub.domain.quiesced) rfl rfl]
  exact List.map_congr_left (fun m _ => congrArg (fun x => Reply.control m x _) (s.hub.domain.session_quiesced m))
theorem domrekey_begins (hp : p.Runs 9) (hn : pkField p.bits 24 1 = 4) (hf : s.hub.domain.formed = true)
    (hd : pkField p.bits 40 2 = s.hub.domain.number) (hi : s.hub.domain.phase = .idle) : EndsKeeping s id (.domrekey id) 0 (fun t =>
      t.hub.domain.phase = .quiesce ∧ t.hub.domain.target = s.hub.domain.kgen + 1 ∧ (s.hub.domain.coordinator = s.hub.domain.self →
        t.hub.sent = s.hub.sent ++ s.hub.domain.others.map (fun m =>
          .control m (SMap.get ({} : Peer) s.hub.domain.peers m).session (.quiesce s.hub.domain.kgen s.hub.domain.timeout)))) := by
  have hx : exec (.domrekey id) s = _ := command_of h hp hn
  rw [if_neg (by simp [hf, hd, hi])] at hx
  have hub : (s.quiesce.endPacket id 0).hub = s.quiesce.hub := rfl
  refine endsKeeping_of hx ((State.packet_of_packets_eq (s.quiesce_keeps State.packets (fun _ _ => rfl)) id).trans h)
    (keeps_of_eq (s.quiesce_keeps State.cores (fun _ _ => rfl)) (s.quiesce_keeps State.mem (fun _ _ => rfl))) ?_
  rw [hub, State.quiesce_domain]
  exact ⟨rfl, if_pos hi, State.quiesce_sent⟩
theorem domrekey_unformed (hp : p.Runs 9) (hn : pkField p.bits 24 1 = 4) (hf : s.hub.domain.formed = false) :
    EndsKeeping s id (.domrekey id) 0x0A (fun _ => True) := by
  have hx : exec (.domrekey id) s = _ := command_of h hp hn
  rw [if_pos (by simp [hf])] at hx
  exact endsKeeping_refused hx h trivial
end

end Sys2Proof.Machine
end

section
/-! SUPPORT. The command packets for worlds, measurements and queues (03 R60, R72, R73, 04 R85, R87, R105, R106). -/

namespace Sys2Proof.Machine

/-! ### Cores of a world (R132, R164) -/

/-- A core is zeroised, and its grant changes. -/
def State.regrant (g : Core → Core) (s : State) (c : Nat) : State := (s.zeroiseCore c).updCore c g
section
variable {g : Core → Core} {s : State}
theorem State.core_regrant (s : State) (c d : Nat) : (s.regrant g c).core d = if d = c then g (s.core c).zeroised else s.core d := by
  rw [State.regrant, State.core_updCore, State.core_zeroiseCore, State.core_zeroiseCore, if_pos rfl]
  split <;> rfl
theorem State.foldl_regrant_keeps {β : Type} (P : State → β) (l : List Nat) (s : State) (h : ∀ t cl m o co, P { t with calendar := cl, mem := m, owner := o, cores := co } = P t) :
    P (l.foldl (State.regrant g) s) = P s := foldl_keeps P _ l s (fun t _ => h t _ _ _ _)
/-- After a pass that zeroises cores and changes their grant: a core of the list has no context, what the change sets, and a scratchpad of zeros. -/
theorem State.foldl_regrant {l : List Nat} {c : Nat} (hc : c ∈ l) {Q : Core → Prop} (hQ : ∀ x : Core, Q (g x.zeroised)) :
    Q ((l.foldl (State.regrant g) s).core c) ∧ ∀ b < 0x200000, (l.foldl (State.regrant g) s).byte (bufAddr c .wb b) = 0 := by
  refine foldl_establishes (P := fun t : State => Q (t.core c) ∧ ∀ b < 0x200000, t.byte (bufAddr c .wb b) = 0) hc (fun t => ⟨?_, fun b hb => ?_⟩)
    (fun t d _ ht => ⟨?_, fun b hb => ?_⟩)
  · rw [State.core_regrant, if_pos rfl]
    exact hQ _
  · exact t.byte_zeroiseCore_spad c hb
  · rw [State.core_regrant]
    split
    · exact hQ _
    · exact ht.1
  · exact State.byte_zeroiseCore_of_zero d (ht.2 b hb)
end

section
variable {s : State} {id : Nat} {p : Packet} (h : s.packet id = some p)
include h

/-! ### WORLD (R72, R73, R85, R106, R135) -/

omit h in
theorem State.world_updWorld_self (s : State) (w : Nat) (f : World → World) : (s.updWorld w f).world w = f (s.world w) :=
  (State.world_updWorld s w w f).trans (if_pos rfl)
theorem worldCreate_empty (key : BitVec 512) (hp : p.Runs 0x0D) (hn : pkField p.bits 24 1 = 1) (hw : pkField p.bits 25 1 ≠ 0)
    (he : (s.world (pkField p.bits 25 1)).st = .empty) : EndsKeeping s id (.worldCreate id key) 0 (fun t =>
      (t.world (pkField p.bits 25 1)).st = .loading ∧ (t.world (pkField p.bits 25 1)).key = some key ∧
      (t.world (pkField p.bits 25 1)).confidential = decide (pkField p.bits 26 1 = 1) ∧
      (t.world (pkField p.bits 25 1)).cred = BitVec.ofNat 128 (pkField p.bits 48 16) ∧ (t.queueAt (pkField p.bits 25 1) 0).present = true ∧
      (t.queueAt (pkField p.bits 25 1) 0).base = BitVec.ofNat 64 (pkField p.bits 32 8) ∧
      (t.queueAt (pkField p.bits 25 1) 0).log2n = pkField p.bits 40 1) := by
  have hx : exec (.worldCreate id key) s = _ := command_of h hp hn
  rw [if_neg (by simp [hw, he])] at hx
  refine endsKeeping_of hx h (keeps_of_eq rfl rfl) ?_
  unfold State.queueAt
  rw [State.world_endPacket, State.world_updWorld_self]
  exact ⟨rfl, rfl, rfl, rfl, rfl, rfl, rfl⟩
theorem worldCreate_refused (key : BitVec 512) (hp : p.Runs 0x0D) (hn : pkField p.bits 24 1 = 1)
    (he : (s.world (pkField p.bits 25 1)).st ≠ .empty) : EndsKeeping s id (.worldCreate id key) 0x0A (fun t =>
      t.world (pkField p.bits 25 1) = s.world (pkField p.bits 25 1)) := by
  have hx : exec (.worldCreate id key) s = _ := command_of h hp hn
  rw [if_pos (.inr he)] at hx
  exact endsKeeping_refused hx h rfl

/-- An entry is freed, and its packet completes with STATE. -/
def State.dropEntry (s : State) (i : Nat) : State :=
  { s.updSlot i Entry.freed with
    packets := s.packets.map (fun p : Packet => if p.entry = some i then { p.finish 0x0A with entry := none } else p) }
/-- The PENDING entries of a world. -/
def State.pendingOf (s : State) (w : Nat) : List Nat :=
  (s.hub.slots.filter (fun e => decide (e.2.st = .pending ∧ e.2.world = w))).map Prod.fst
omit h in
theorem State.dropEntry_keeps {β : Type} (P : State → β) (l : List Nat) (s : State) (hk : ∀ t x q, P { t with hub := x, packets := q } = P t) :
    P (l.foldl State.dropEntry s) = P s := foldl_keeps P _ l s (fun t _ => hk t _ _)
omit h in
theorem State.packet_dropEntries (l : List Nat) {s : State} {id : Nat} {p : Packet} (h : s.packet id = some p) :
    ∃ q, (l.foldl State.dropEntry s).packet id = some q := by
  refine foldl_invariant (P := fun t : State => ∃ q, t.packet id = some q) ⟨p, h⟩ (fun t i _ ht => ?_)
  obtain ⟨q, hq⟩ := ht
  rw [State.packet_map (s := t) (t := t.dropEntry i) rfl (fun q => by split <;> rfl), hq]
  exact ⟨_, rfl⟩
omit h in
theorem State.slot_dropEntries {s : State} {i w : Nat} (hp : (s.slot i).st = .pending) (hw : (s.slot i).world = w) (t : State) :
    (((s.pendingOf w).foldl State.dropEntry t).slot i).st = .free := by
  have listed : s.slot i ≠ {} := fun e => by rw [e] at hp; cases hp
  have hi : i ∈ s.pendingOf w := List.mem_map.2 ⟨(i, s.slot i), List.mem_filter.2 ⟨SMap.mem_of_get_ne listed, decide_eq_true ⟨hp, hw⟩⟩, rfl⟩
  have freed : ∀ (u : State) (j : Nat), j = i ∨ (u.slot i).st = .free → ((u.dropEntry j).slot i).st = .free := by
    intro u j hj
    have e : (u.dropEntry j).slot i = if i = j then (u.slot j).freed else u.slot i := State.slot_updSlot u j i Entry.freed
    rw [e]
    split
    · rfl
    · rename_i hne
      exact hj.resolve_left (Ne.symm hne)
  exact foldl_establishes (P := fun u : State => (u.slot i).st = .free) hi (fun u => freed u i (.inl rfl)) (fun u j _ hu => freed u j (.inr hu))
theorem worldDrain_ready (hp : p.Runs 0x0D) (hn : pkField p.bits 24 1 = 2) (hw : pkField p.bits 25 1 ≠ 0)
    (hr : (s.world (pkField p.bits 25 1)).st = .ready) : EndsKeeping s id (.worldDrain id) 0 (fun t =>
      (t.world (pkField p.bits 25 1)).st = .draining ∧
      ∀ i, (s.slot i).st = .pending → (s.slot i).world = pkField p.bits 25 1 → (t.slot i).st = .free) := by
  have hx : exec (.worldDrain id) s = _ := command_of h hp hn
  rw [if_neg (by simp [hw, hr])] at hx
  generalize hu : (s.pendingOf (pkField p.bits 25 1)).foldl State.dropEntry (s.updWorld (pkField p.bits 25 1) (fun x => { x with st := .draining })) = u
  replace hx : exec (.worldDrain id) s = .next (u.endPacket id 0) := by
    rw [hx, ← hu]
    rfl
  have keeps : ∀ {β : Type} (P : State → β), (∀ t x q, P { t with hub := x, packets := q } = P t) →
      P u = P (s.updWorld (pkField p.bits 25 1) (fun x => { x with st := .draining })) := fun P hP => hu ▸ State.dropEntry_keeps P _ _ hP
  obtain ⟨q, hq⟩ : ∃ q, u.packet id = some q := hu ▸ State.packet_dropEntries _ h
  refine endsKeeping_of hx hq (keeps_of_eq (keeps State.cores (fun _ _ _ => rfl)) (keeps State.mem (fun _ _ _ => rfl))) ⟨?_, fun i hi hiw => ?_⟩
  · rw [State.world_endPacket, keeps (fun t => t.world (pkField p.bits 25 1)) (fun _ _ _ => rfl), State.world_updWorld_self]
  · show (u.slot i).st = .free
    rw [← hu]
    exact State.slot_dropEntries hi hiw _
theorem worldDrain_refused (hp : p.Runs 0x0D) (hn : pkField p.bits 24 1 = 2) (hr : (s.world (pkField p.bits 25 1)).st ≠ .ready) :
    EndsKeeping s id (.worldDrain id) 0x0A (fun t => t.world (pkField p.bits 25 1) = s.world (pkField p.bits 25 1)) := by
  have hx : exec (.worldDrain id) s = _ := command_of h hp hn
  rw [if_pos (.inr hr)] at hx
  exact endsKeeping_refused hx h rfl

/-- The cores that a bitmap names. -/
def coresOf (m : Nat) : List Nat := (List.range 512).filter (fun c => m.testBit c)
omit h in
theorem mem_coresOf {m c : Nat} : c ∈ coresOf m ↔ c < 512 ∧ m.testBit c = true := by simp [coresOf]
/-- A core of a world's grant, as the grant leaves it. -/
def Core.grantedTo (w : Nat) (x : Core) : Core := { x with granted := true, world := w, windows := [] }
theorem exec_worldGrant {u : State} {l : List Byte} (hp : p.Comes 0x0D) (hn : pkField p.bits 24 1 = 4)
    (hw : (s.world (pkField p.bits 25 1)).st = .loading) (hs : (s.world (pkField p.bits 25 1)).step < 8) (hr : s.feRead 0 (pkField p.bits 32 8) 64 = .ok l u) :
    exec (.worldGrant id) s =
      if (coresOf (leNat l)).any (fun c => !u.computes (coreDie c) || (u.core c).fenced || (u.core c).granted) then .next (u.endPacket id 0x04)
      else .next (((coresOf (leNat l)).foldl (State.regrant (Core.grantedTo (pkField p.bits 25 1))) u).settle id 0) := by
  show execWorldGrant id s = _
  rw [execWorldGrant, State.freshOf_of h hp, Option.filter_some, if_pos (decide_eq_true hn)]
  dsimp only
  rw [if_neg (by simp [hw, hs]), hr]
  rfl
theorem worldGrant_takes {u : State} {l : List Byte} (hp : p.Comes 0x0D) (hn : pkField p.bits 24 1 = 4)
    (hw : (s.world (pkField p.bits 25 1)).st = .loading) (hs : (s.world (pkField p.bits 25 1)).step < 8) (hr : s.feRead 0 (pkField p.bits 32 8) 64 = .ok l u)
    (hc : ∀ c < 512, (leNat l).testBit c = true → s.computes (8 + c / 16) = true ∧ (s.core c).fenced = false ∧ (s.core c).granted = false) :
    Takes s id p (.worldGrant id) (fun t => ∀ c < 512, (leNat l).testBit c = true → (t.core c).granted = true ∧ (t.core c).world = pkField p.bits 25 1 ∧
      (t.core c).ctxs = [] ∧ ∀ b, b < 0x200000 → t.byte (bufAddr c .wb b) = 0) := by
  have hx := exec_worldGrant h hp hn hw hs hr
  have clocks := State.feRead_ok hr
  have free : ¬ ((coresOf (leNat l)).any (fun c => !u.computes (coreDie c) || (u.core c).fenced || (u.core c).granted) = true) := by
    rw [List.any_eq_true, clocks]
    rintro ⟨c, hcm, hb⟩
    obtain ⟨hlt, hbit⟩ := mem_coresOf.1 hcm
    obtain ⟨h1, h2, h3⟩ := hc c hlt hbit
    have e : (!s.computes (coreDie c) || (s.core c).fenced || (s.core c).granted) = true := hb
    rw [coreDie, h1, h2, h3] at e
    cases e
  rw [if_neg free] at hx
  have packets : ((coresOf (leNat l)).foldl (State.regrant (Core.grantedTo (pkField p.bits 25 1))) u).packets = s.packets :=
    (State.foldl_regrant_keeps State.packets (coresOf (leNat l)) u (fun _ _ _ _ _ => rfl)).trans (by rw [clocks])
  refine takes_of hx ((State.packet_of_packets_eq packets id).trans h) (fun c hlt hbit => ?_)
  obtain ⟨⟨hg, hw', hx'⟩, hb⟩ := State.foldl_regrant (s := u) (g := Core.grantedTo (pkField p.bits 25 1)) (mem_coresOf.2 ⟨hlt, hbit⟩)
    (Q := fun x => x.granted = true ∧ x.world = pkField p.bits 25 1 ∧ x.ctxs = []) (fun x => ⟨rfl, rfl, rfl⟩)
  rw [State.core_settle]
  exact ⟨hg, hw', hx', fun b hlt => ((State.settle_keeps _ id 0).2 _).trans (hb b hlt)⟩
theorem worldGrant_refused {u : State} {l : List Byte} (hp : p.Comes 0x0D) (hn : pkField p.bits 24 1 = 4)
    (hw : (s.world (pkField p.bits 25 1)).st = .loading) (hs : (s.world (pkField p.bits 25 1)).step < 8) (hr : s.feRead 0 (pkField p.bits 32 8) 64 = .ok l u)
    {c : Nat} (hlt : c < 512) (hbit : (leNat l).testBit c = true) (hg : (s.core c).granted = true) :
    Ends s id (.worldGrant id) 4 (fun t => KeepsRegsAndMemory s t) := by
  have hx := exec_worldGrant h hp hn hw hs hr
  have clocks := State.feRead_ok hr
  have taken : (coresOf (leNat l)).any (fun c => !u.computes (coreDie c) || (u.core c).fenced || (u.core c).granted) = true := by
    have granted : (u.core c).granted = true := by
      rw [clocks]
      exact hg
    exact List.any_eq_true.2 ⟨c, mem_coresOf.2 ⟨hlt, hbit⟩, by rw [granted, Bool.or_true]⟩
  rw [if_pos taken] at hx
  have pu : u.packet id = some p := by rw [clocks]; exact h
  refine ends_of hx pu (keeps_of_eq ?_ ?_)
  · show u.cores = s.cores
    rw [clocks]
  · show u.mem = s.mem
    rw [clocks]
omit h in
theorem State.forgetMemory_cores (s : State) (w : Nat) : (s.forgetMemory w).cores = s.cores := by
  refine foldl_keeps State.cores _ _ s (fun t n => ?_)
  rw [State.writeCells_eq]
omit h in
theorem State.mem_grantOf {s : State} {w c : Nat} (hg : (s.core c).granted = true) (hw : (s.core c).world = w) : c ∈ s.grantOf w := by
  have listed : s.core c ≠ {} := fun e => by rw [e] at hg; cases hg
  exact List.mem_map.2 ⟨(c, s.core c), List.mem_filter.2 ⟨SMap.mem_of_get_ne listed, Bool.and_eq_true_iff.2 ⟨hg, decide_eq_true hw⟩⟩, rfl⟩
/-- A core as it leaves a grant. -/
def Core.ungranted (x : Core) : Core := { x with granted := false, world := 0, windows := [] }
omit h in
theorem State.ungrant_eq (s : State) (w : Nat) : s.ungrant w = (s.grantOf w).foldl (State.regrant Core.ungranted) s := rfl
omit h in
theorem worldDrainComplete_effect {w : Nat} (hd : (s.world w).st = .draining) (hi : s.worldIdle w = true) : ∃ t, exec (.worldDrainComplete w) s = .next t ∧
    (t.world w).st = .empty ∧ (t.world w).key = none ∧ ∀ c, (s.core c).granted = true → (s.core c).world = w →
      (t.core c).granted = false ∧ (t.core c).ctxs = [] := by
  refine ⟨_, congrArg Host.Outcome.next (if_pos ⟨hd, hi⟩), ?_, ?_, fun c hg hw => ?_⟩
  · rw [State.eraseWorld, State.world_updWorld_self]
  · rw [State.eraseWorld, State.world_updWorld_self]
  · have core : (s.eraseWorld w).core c = (s.ungrant w).core c := by
      rw [State.core, State.eraseWorld, State.updWorld_cores, State.forgetMemory_cores]
      rfl
    rw [core, State.ungrant_eq]
    exact (State.foldl_regrant (State.mem_grantOf hg hw) (Q := fun x => x.granted = false ∧ x.ctxs = []) (fun x => ⟨rfl, rfl⟩)).1

/-! ### MEASURE (R60) -/

omit h in
theorem exec_measure_eq (s : State) (id : Nat) : exec (.measure id) s = execMeasure id s := rfl
theorem measure_refused (hp : p.Runs 0x0E) (hi : pkField p.bits 32 1 < 16) : EndsKeeping s id (.measure id) 0x0C (fun t => t.hub.msl = s.hub.msl) := by
  refine endsKeeping_refused ?_ h rfl
  rw [exec_measure_eq, execMeasure, starting_of_runs h hp]
  exact if_pos hi
theorem measure_extends {u : State} {l : List Byte} (hp : p.Runs 0x0E) (hi : 16 ≤ pkField p.bits 32 1)
    (hr : s.feRead p.world (pkField p.bits 24 8) 48 = .ok l u) : EndsKeeping s id (.measure id) 0 (fun t => ∀ i, SMap.get 0 t.hub.msl i =
      if i = pkField p.bits 32 1 then sha384 (leBytes 48 (SMap.get 0 s.hub.msl i).toNat ++ l) else SMap.get 0 s.hub.msl i) := by
  have hx : exec (.measure id) s = .next ((u.extend (pkField p.bits 32 1) l).endPacket id 0) := by
    rw [exec_measure_eq, execMeasure, starting_of_runs h hp]
    dsimp only
    rw [if_neg (not_lt.2 hi), hr]
  have clocks := State.feRead_ok hr
  have pu : (u.extend (pkField p.bits 32 1) l).packet id = some p := by
    rw [State.packet_of_packets_eq (s := s) (t := u.extend (pkField p.bits 32 1) l) (by rw [clocks]; rfl), h]
  have msl : u.hub.msl = s.hub.msl := by rw [clocks]
  refine endsKeeping_of hx pu (keeps_of_eq ?_ ?_) (fun i => ?_)
  · show u.cores = s.cores
    rw [clocks]
  · show u.mem = s.mem
    rw [clocks]
  · refine (SMap.get_put 0 u.hub.msl (pkField p.bits 32 1) i _).trans ?_
    rw [msl]
    split
    · rename_i e
      rw [e]
      rfl
    · rfl

/-! ### QUEUE (R85, R87, R105) -/

omit h in
theorem State.queueAt_updQueue_self (s : State) (w q : Nat) (f : Queue → Queue) : (s.updQueue w q f).queueAt w q = f (s.queueAt w q) := by
  rw [State.queueAt, State.updQueue, State.world_updWorld_self]
  exact SMap.get_upd_self ..
omit h in
theorem State.queueAt_endPacket (s : State) (id status w q : Nat) : (s.endPacket id status).queueAt w q = s.queueAt w q := rfl
theorem queueCreate_effect (hp : p.Runs 0x0F) (hn : pkField p.bits 24 1 = 1) : if (s.queueAt p.world (pkField p.bits 25 1)).present then
      EndsKeeping s id (.queueCreate id) 0x0A (fun t => t.world p.world = s.world p.world)
    else EndsKeeping s id (.queueCreate id) 0 (fun t => (t.queueAt p.world (pkField p.bits 25 1)).present = true ∧
      (t.queueAt p.world (pkField p.bits 25 1)).base = BitVec.ofNat 64 (pkField p.bits 32 8) ∧
      (t.queueAt p.world (pkField p.bits 25 1)).log2n = pkField p.bits 26 1 ∧ (t.queueAt p.world (pkField p.bits 25 1)).head = 0) := by
  have hx : exec (.queueCreate id) s = _ := command_of h hp hn
  split
  · rename_i hq
    rw [if_pos hq] at hx
    exact endsKeeping_refused hx h rfl
  · rename_i hq
    rw [if_neg hq] at hx
    refine endsKeeping_of hx h (keeps_of_eq rfl rfl) ?_
    rw [State.queueAt_endPacket, State.queueAt_updQueue_self]
    exact ⟨rfl, rfl, rfl, rfl⟩
theorem queueReset_effect (hp : p.Runs 0x0F) (hn : pkField p.bits 24 1 = 2) (hq : (s.queueAt p.world (pkField p.bits 25 1)).present = true) :
    EndsKeeping s id (.queueReset id) 0 (fun t => (t.queueAt p.world (pkField p.bits 25 1)).error = false ∧
      (t.queueAt p.world (pkField p.bits 25 1)).head = BitVec.ofNat 32 (pkField p.bits 40 4) ∧
      (t.queueAt p.world (pkField p.bits 25 1)).tail = BitVec.ofNat 32 (pkField p.bits 40 4)) := by
  have hx : exec (.queueReset id) s = _ := command_of h hp hn
  rw [if_neg (by simp [hq])] at hx
  refine endsKeeping_of hx h (keeps_of_eq rfl rfl) ?_
  rw [State.queueAt_endPacket, State.queueAt_updQueue_self]
  exact ⟨rfl, rfl, rfl⟩

/-- A packet is of a queue, and has not started. -/
def Packet.of (x : Packet) (w q : Nat) : Bool := decide (x.world = w ∧ x.queue = q)
def Packet.waits (x : Packet) (id w q : Nat) : Bool := x.of w q && decide (x.id ≠ id ∧ x.st = .waiting)
/-- A packet as its queue is destroyed. -/
def Packet.dropped (x : Packet) (id w q : Nat) : Packet :=
  if x.waits id w q then { x.finish 0x0A with entry := none, orphan := true } else if x.of w q then { x with orphan := true } else x
/-- The state in which a queue is gone, and with it the packets that wait in it. -/
def State.destroyQueue (s : State) (id w q : Nat) : State :=
  let l := (s.packets.filter (fun x : Packet => x.waits id w q)).filterMap Packet.entry
  let t := l.foldl (fun s i => s.updSlot i Entry.freed) s
  { t with packets := t.packets.map (fun x : Packet => x.dropped id w q) }.updWorld w (fun x => { x with queues := SMap.erase x.queues q })
omit h in
theorem Packet.dropped_id (x : Packet) (id w q : Nat) : (x.dropped id w q).id = x.id := by
  unfold Packet.dropped
  split
  · rfl
  split <;> rfl
omit h in
theorem State.destroyQueue_packets (s : State) (id w q : Nat) : (s.destroyQueue id w q).packets = s.packets.map (fun x => x.dropped id w q) :=
  congrArg (List.map (fun x : Packet => x.dropped id w q)) (foldl_keeps State.packets (fun s i => s.updSlot i Entry.freed) _ s (fun _ _ => rfl))
theorem exec_queueDestroy_of (hp : p.Comes 0x0F) (hn : pkField p.bits 24 1 = 3) (hq : (s.queueAt p.world (pkField p.bits 25 1)).present = true) :
    exec (.queueDestroy id) s = .next ((s.destroyQueue id p.world (pkField p.bits 25 1)).settle id 0) := by
  have hx : exec (.queueDestroy id) s = _ := atConsumption_of h hp hn
  rw [if_neg (by simp [hq])] at hx
  exact hx
theorem queueDestroy_effect (hp : p.Comes 0x0F) (hn : pkField p.bits 24 1 = 3) (hq : (s.queueAt p.world (pkField p.bits 25 1)).present = true) :
    ∃ t, exec (.queueDestroy id) s = .next t ∧ KeepsRegsAndMemory s t ∧ (t.queueAt p.world (pkField p.bits 25 1)).present = false ∧
      t.packet id = some { p with st := .waiting, acted := true, orphan := p.orphan || decide (p.queue = pkField p.bits 25 1) } ∧
      ∀ r ∈ s.packets, r.id ≠ id → r.world = p.world → r.queue = pkField p.bits 25 1 → r.st = .waiting →
        ∃ q ∈ t.packets, q.id = r.id ∧ q.st = .done ∧ q.status = 0x0A := by
  generalize hw : pkField p.bits 25 1 = w at hq
  have hx := exec_queueDestroy_of h hp hn (hw ▸ hq)
  rw [hw] at hx
  have packets := s.destroyQueue_packets id p.world w
  refine ⟨_, hx, keeps_trans (keeps_of_eq ?_ ?_) (State.settle_keeps ..), ?_, ?_, fun r hr hid hrw hrq hrs => ?_⟩
  · exact foldl_keeps State.cores (fun s i => s.updSlot i Entry.freed) _ s (fun _ _ => rfl)
  · exact foldl_keeps State.mem (fun s i => s.updSlot i Entry.freed) _ s (fun _ _ => rfl)
  · have gone : (s.destroyQueue id p.world w).queueAt p.world w = {} := by
      rw [State.queueAt, State.destroyQueue, State.world_updWorld_self]
      exact SMap.get_erase_self ..
    exact congrArg Queue.present gone
  · have own : p.dropped id p.world w = { p with orphan := p.orphan || decide (p.queue = w) } := by
      have waits : p.waits id p.world w = false := by simp [Packet.waits, State.packet_id h]
      rw [Packet.dropped, waits]
      by_cases hqw : p.queue = w <;> simp [Packet.of, hqw]
    refine (State.packet_settle (q := p.dropped id p.world w) ?_).trans (by rw [own])
    rw [State.packet_map packets (fun x => x.dropped_id id p.world w), h]
    rfl
  · have waits : r.waits id p.world w = true := by simp [Packet.waits, Packet.of, hid, hrw, hrq, hrs]
    have done : r.dropped id p.world w = { r.finish 0x0A with entry := none, orphan := true } := if_pos waits
    refine ⟨r.dropped id p.world w, List.mem_map.2 ⟨r.dropped id p.world w, ?_, if_neg ?_⟩, r.dropped_id id p.world w, by rw [done]; rfl, by rw [done]; rfl⟩
    · rw [packets]
      exact List.mem_map.2 ⟨r, hr, rfl⟩
    · rw [r.dropped_id]
      exact hid
end

end Sys2Proof.Machine
end

section
/-! Settles O44: each command by the theorem about its packet. -/

namespace Sys2Proof.Machine

/-- Settles O44: each packet by its own outcomes; those of IFST, CFGWR, WORLD GRANT and QUEUE DESTROY as it is consumed (log 37), DOMFORM's in its two
stages (log 45), LOADKEY's by the key it finds (log 78), and a new queue's with HEAD 0 (log 65). -/
theorem commandsRun : Obligations.CommandsRun := by
  unfold Obligations.CommandsRun
  intro s u id pa p l ca key proofs addr v
  dsimp only
  intro h
  refine ⟨fun hp hr hw => ⟨partition_drains h hp hr hw, fun _ => partition_refused h hp hr hw⟩,
    fun hp => ⟨checkpoint_busy h hp, checkpoint_begins h hp⟩,
    fun ⟨hp, hn⟩ => ⟨loadkey_takes h hp hn, loadkey_second h hp hn⟩,
    fun ⟨hp, hn⟩ => eraseload_effect h hp hn,
    fun ⟨hp, hn⟩ => ⟨domform_formed h proofs hp hn, domform_asks h proofs hp hn⟩,
    fun hst ho hn ha hf => domform_forms h proofs hst ho hn ha hf,
    fun ⟨hp, hn⟩ => ⟨domrekey_begins h hp hn, domrekey_unformed h hp hn⟩,
    fun hp hn => ifstLock_late_or_locked h hp hn,
    fun hp hn => ifstUnlock_locked h hp hn,
    fun hp hn => ifstUnlock_refused h hp hn,
    fun ⟨hp, hn⟩ => ifstRelease_effect h hp hn,
    ?cfgwr,
    fun hp hc ha => cfgrd_posts h hp hc ha,
    fun _ hc => configRegisterWrite_savebase s v hc,
    fun ⟨hp, hn⟩ hw => ⟨worldCreate_empty h key hp hn hw, worldCreate_refused h key hp hn⟩,
    fun ⟨hp, hn⟩ hw => ⟨worldDrain_ready h hp hn hw, worldDrain_refused h hp hn⟩,
    fun hp hn hw hs hr => ⟨worldGrant_takes h hp hn hw hs hr, fun _ hlt hbit hg => worldGrant_refused h hp hn hw hs hr hlt hbit hg⟩,
    fun hd hi _ => worldDrainComplete_effect hd hi,
    fun hp => ⟨measure_refused h hp, measure_extends h hp⟩,
    fun ⟨hp, hn⟩ => queueCreate_effect h hp hn,
    fun ⟨hp, hn⟩ hq => queueReset_effect h hp hn hq,
    fun hp hn hq => queueDestroy_effect h hp hn hq⟩
  case cfgwr =>
    rintro hp a x hn rfl rfl
    exact ⟨fun _ hc => cfgwr_savebase h hp hn hc, cfgwr_unmapped h hp hn⟩

end Sys2Proof.Machine
end

section
/-! SUPPORT. The step (02 R53, 14 R304, log 2): which steps from outside may come next, and the attempt of a bundle whose slots all go on. -/

namespace Sys2Proof.Machine

/-! ### Steps from outside (R53) -/

theorem mem_nextPlaces {l : List Instr} {n : Nat} : n ∈ nextPlaces l ↔
    n < l.length ∧ ((l.drop n).head?.any unordered = true ∨ ∀ j ∈ l.take n, unordered j = true) := by
  simp [nextPlaces]
/-- The first step from outside may come next, whatever it is. -/
theorem nextPlaces_cons (i : Instr) (r : List Instr) : ∃ l, nextPlaces (i :: r) = 0 :: l := by
  rw [nextPlaces, List.length_cons, List.range_succ_eq_map, List.filter_cons_of_pos (by simp)]
  exact ⟨_, rfl⟩
/-- Where every step keeps its order, or there is no other, the first comes next. -/
theorem nextPlaces_of_ordered {i : Instr} {r : List Instr} (h : r = [] ∨ ∀ j ∈ i :: r, unordered j = false) : nextPlaces (i :: r) = [0] := by
  have only : ∀ n ∈ nextPlaces (i :: r), n = 0 := by
    intro n hn
    obtain ⟨hlt, hn⟩ := mem_nextPlaces.1 hn
    rcases h with rfl | h
    · simpa using hlt
    · rcases hn with hn | hn
      · rw [List.head?_drop, List.getElem?_eq_getElem hlt, Option.any_some, h _ (List.getElem_mem hlt)] at hn
        exact absurd hn (by decide)
      · cases n with
        | zero => rfl
        | succ n => exact absurd ((h i (List.mem_cons_self ..)).symm.trans (hn i (by simp))) (by decide)
  obtain ⟨l, hl⟩ := nextPlaces_cons i r
  have nodup : (nextPlaces (i :: r)).Nodup := List.nodup_range.filter _
  rw [hl] at only nodup ⊢
  cases l with
  | nil => rfl
  | cons n l =>
    obtain rfl := only n (by simp)
    exact absurd nodup (by simp)
theorem State.takeInbox_of_ordered {s : State} {i : Instr} {r : List Instr} (hs : s.inbox = i :: r)
    (h : r = [] ∨ ∀ j ∈ i :: r, unordered j = false) : s.takeInbox = some (i, { s with inbox := r }) := by
  unfold State.takeInbox
  rw [hs]
  simp only [nextPlaces_of_ordered h]
/-- The step that is taken is one that may come next. -/
theorem State.takeInbox_place {s : State} (h : s.inbox ≠ []) : ∃ n i t, n ∈ nextPlaces s.inbox ∧ s.inbox[n]? = some i ∧
    s.takeInbox = some (i, t) ∧ t = { s with inbox := s.inbox.eraseIdx n, fresh := t.fresh } := by
  obtain ⟨i, r, hs⟩ := List.exists_cons_of_ne_nil h
  have zero : 0 ∈ nextPlaces (i :: r) := by
    obtain ⟨l, hl⟩ := nextPlaces_cons i r
    simp [hl]
  unfold State.takeInbox
  rw [hs]
  dsimp only
  split
  · rename_i hp
    rw [hp] at zero
    exact absurd zero (List.not_mem_nil)
  · exact ⟨0, i, _, zero, rfl, rfl, rfl⟩
  · have hlen : 0 < (nextPlaces (i :: r)).length := List.length_pos_of_mem zero
    have hx : (s.choose (nextPlaces (i :: r)).length).1 < (nextPlaces (i :: r)).length := Nat.mod_lt _ hlen
    have hn := List.getD_eq_getElem _ 0 hx ▸ List.getElem_mem hx
    have hi := (mem_nextPlaces.1 hn).1
    refine ⟨_, _, _, hn, ?_, rfl, rfl⟩
    rw [List.headD_eq_head?_getD, List.head?_drop, List.getElem?_eq_getElem hi, Option.getD_some]
theorem step_of_takeInbox {s t : State} {i : Instr} (h : s.takeInbox = some (i, t)) : step s = exec i t := by
  rw [step, h]
theorem step_of_empty_inbox {s : State} (h : s.inbox = []) : step s = .next s.event := by
  have none : s.takeInbox = none := by rw [State.takeInbox, h]
  rw [step, none]

/-! ### A bundle (R145, R283, R304) -/

/-- Sequential fetch at a bundle stays there. -/
theorem Core.seek_of_bundle {x : Core} {base o : Nat} (hl : o / 32 < x.pageLen base) (hb : bit (x.pageSyl base o) 31 = true) (n : Nat) :
    x.seek base (n + 1) o = .bundle o := by
  rw [Core.seek, if_neg (by omega), if_pos hb]
theorem State.fallThrough_of_bundle {s : State} {c k page base land o : Nat} (hp : (s.ctx c k).point = .inside page base land o)
    (hs : (s.core c).seek base seekFuel o = .bundle o) : s.fallThrough c k = s := by
  simp [State.fallThrough, hp, hs]
theorem State.fetch_of_bundle {s : State} {c page base o : Nat}
    (hv : pinnedOk ((s.core c).pageLcd base) ((s.core c).pagePfd base) ((s.core c).pageTag base) (s.tag c) = true)
    (hs : (s.core c).seek base seekFuel o = .bundle o) : s.fetch c page base o = .ok o := by
  simp [State.fetch, hv, hs]
/-- The issue of a context that stands at a bundle which decodes is the attempt of that bundle. -/
theorem State.issue_of_bundle {s : State} {c k page base land o : Nat} {b : Bundle} (hp : (s.ctx c k).point = .inside page base land o)
    (hv : pinnedOk ((s.core c).pageLcd base) ((s.core c).pagePfd base) ((s.core c).pageTag base) (s.tag c) = true)
    (hl : o / 32 < (s.core c).pageLen base) (hs : bit ((s.core c).pageSyl base o) 31 = true) (hb : (s.core c).bundleAt base o = .ok b) :
    s.issue c k = ({ s with curCore := c, curCtx := k }.updCtx c k (fun x => { x with point := .inside page base land o })).attempt
      (.inside page base land o) b := by
  have seek : (s.core c).seek base seekFuel o = .bundle o := Core.seek_of_bundle hl hs 129
  have stay : ({ s with curCore := c, curCtx := k } : State).fallThrough c k = { s with curCore := c, curCtx := k } :=
    State.fallThrough_of_bundle hp seek
  have fetch : ({ s with curCore := c, curCtx := k } : State).fetch c page base o = .ok o := State.fetch_of_bundle hv seek
  have point : (({ s with curCore := c, curCtx := k } : State).ctx c k).point = .inside page base land o := hp
  have at_ : (({ s with curCore := c, curCtx := k } : State).core c).bundleAt base o = .ok b := hb
  unfold State.issue
  rw [stay]
  dsimp only
  rw [point]
  dsimp only
  rw [fetch]
  dsimp only [Except.map]
  rw [at_]
/-- Slots that all go on have run when the last has. -/
theorem runSlots_of_runsAll (first : State) {l : List Instr} {s t : State} (h : RunsAll l s t) : runSlots first l s [] = .done t := by
  induction l generalizing s with
  | nil => rw [show t = s from h]; rfl
  | cons i r ih =>
    obtain ⟨u, hu, hr, hall⟩ := h
    rw [runSlots, hu]
    dsimp only [after]
    rw [hr]
    exact ih hall
theorem State.attempt_of_runsAll {s t : State} {b : Bundle} (from_ : Point) (hb : b.slots ≠ []) (hn : s.bundleStop b = none)
    (h : RunsAll (b.slots.map Prod.snd) (s.updCur (fun x => { x with wait := [] })) t) :
    s.attempt from_ b = (t.finish b.len).fallThrough s.curCore s.curCtx := by
  unfold State.attempt
  rw [hn]
  dsimp only
  rw [show runSlots _ (bundleInstrs b) _ [] = .done t from runSlots_of_runsAll _ h]
  exact if_neg (by simpa using hb)
/-- Where nothing else is due, the context that issues does. -/
theorem State.event_of_issuer {s : State} {c k : Nat} (hf : s.freshStep = none) (hb : s.beforeIssue = none) (hi : s.issuer? = some (c, k)) :
    s.event = s.issue c k := by
  rw [State.event, hf, hb, hi]

end Sys2Proof.Machine
end

section
/-! Settles O53: steps from outside, and a bundle whose slots go on, by the rules of the step. -/

namespace Sys2Proof.Machine

/-- Settles O53: a step from outside by the places that may come next (log 2), and a bundle by its fetch, its attempt and its slots. -/
theorem stepRunsInstructions : Obligations.StepRunsInstructions := by
  unfold Obligations.StepRunsInstructions
  refine ⟨fun s i r hs h => step_of_takeInbox (State.takeInbox_of_ordered hs h), fun s h => ?outside, ?bundle⟩
  case outside =>
    obtain ⟨n, i, t, hn, hi, ht, e⟩ := State.takeInbox_place h
    refine ⟨n, i, t, hi, step_of_takeInbox ht, e, (mem_nextPlaces.1 hn).2.imp_left (fun h => ?_)⟩
    rwa [List.head?_drop, hi] at h
  case bundle =>
    intro s t c k page base land o b hin hf hbi hi hp hv hl hs hb hne u hstop hr
    rw [step_of_empty_inbox hin, State.event_of_issuer hf hbi hi, State.issue_of_bundle hp hv hl hs hb]
    exact congrArg Host.Outcome.next (State.attempt_of_runsAll _ hne hstop hr)

end Sys2Proof.Machine
end

section
/-! SUPPORT. Links and ports (02 R39 to R44, R51, R52, R59): each event of a link or a port by what it leaves at the endpoint, in the log, in the
calendar and among the posted accesses. -/

namespace Sys2Proof.Machine

/-! ### Endpoints, and logs (R40, R43, R139) -/

theorem does_of {s t : State} {i : Instr} {ok : State → Prop} (hx : exec i s = .next t) (hk : KeepsRegsAndMemory s t) (h : ok t) : Does s i ok :=
  ⟨t, hx, hk, h⟩
theorem does_of_eq {s t : State} {i : Instr} {ok : State → Prop} (hx : exec i s = .next t) (hc : t.cores = s.cores) (hm : t.mem = s.mem) (h : ok t) :
    Does s i ok := does_of hx (keeps_of_eq hc hm) h

theorem carriesTick_iff {d e : Nat} : carriesTick d e = true ↔ (1 ≤ d ∧ d < 5 ∧ e = 1) ∨ (5 ≤ d ∧ e = 0) := by
  unfold carriesTick
  split_ifs <;> simp <;> omega
theorem toNat_fld {w : Nat} (x : BitVec w) (lo n : Nat) : (fld x lo n).toNat = x.toNat / 2 ^ lo % 2 ^ n := by
  rw [fld, BitVec.extractLsb'_toNat, Nat.shiftRight_eq_div_pow]
theorem fld_unc_ones_iff (v : Word) : fld v 32 16 = 0xFFFF#16 ↔ v.toNat / 2 ^ 32 % 2 ^ 16 = 2 ^ 16 - 1 := by
  rw [← BitVec.toNat_inj, toNat_fld]
  rfl
theorem State.ep_updEp_self (s : State) (d e : Nat) (f : Endpoint → Endpoint) : ((s.updEp d e f).die d).ep e = f ((s.die d).ep e) := by
  rw [State.ep_updEp, if_pos ⟨rfl, rfl⟩]
theorem State.updEp_keeps (s : State) (d e : Nat) (f : Endpoint → Endpoint) : KeepsRegsAndMemory s (s.updEp d e f) := keeps_of_eq rfl rfl
/-- A change at an endpoint leaves every die's log as it was. -/
theorem State.log_updEp (s : State) (d e k : Nat) (f : Endpoint → Endpoint) : ((s.updEp d e f).die k).log = (s.die k).log := by
  rw [State.updEp, State.die_updDie]
  split
  · rename_i h
    rw [h]
  · rfl
theorem State.eps_logFault (s : State) (d : Nat) (x : LogEnt) (k : Nat) : ((s.logFault d x).die k).eps = (s.die k).eps := by
  obtain ⟨l, n, h⟩ := s.die_logFault d x k
  rw [h]
/-- The entry of an error, unless the die's log is full. -/
def Entered (s t : State) (die kind : Nat) (addr : Word) : Prop := (s.die die).log.length < 64 →
  ∃ y, (t.die die).log = (s.die die).log ++ [y] ∧ y.kind = kind ∧ y.addr = addr
theorem Logged.entered {s t : State} {die kind : Nat} {addr : Word} (h : Logged s t die kind addr) : Entered s t die kind addr := fun hl => by
  obtain ⟨y, hy, hk, ha, -⟩ := h hl
  exact ⟨y, hy, hk, ha⟩
theorem State.entered_cfgError (s : State) (d : Nat) (a : Word) : Entered s (s.cfgError d a) d 0x0A a := Logged.entered (logged_of_dies_eq (e :=
  { kind := 0x0A, world := 0, srccore := 0xFFFF, srcdie := d, addr := a, token := 0, tick := s.gtick }) rfl rfl)
/-- An entry made after a change that leaves the log as it was. -/
theorem entered_of_log_eq {s u t : State} {d kind : Nat} {addr : Word} {x : LogEnt} (hk : x.kind = kind) (ha : x.addr = addr)
    (hu : (u.die d).log = (s.die d).log) (ht : t.dies = (u.logFault d x).dies) : Entered s t d kind addr := fun hl => by
  refine ⟨x, ?_, hk, ha⟩
  rw [State.die_of_dies_eq ht, State.log_logFault x (hu ▸ hl), hu]

/-! ### Delays and calibration (R40 to R43, log 34) -/

theorem lskewWrite_open {s : State} {d e : Nat} {v : Word} (he : hasEndpoint d e = true) (ho : s.skewOpen = true)
    (ht : carriesTick d e = true ∨ v.toNat % 64 = 0) : Does s (.lskewWrite d e v) (fun t =>
      ((t.die d).ep e).dly = v.toNat % 64 ∧ ((t.die d).ep e).busy = (((s.die d).ep e).busy || v.getLsbD 16)) := by
  have dly : (fld v 0 6).toNat = v.toNat % 64 := by simp [toNat_fld]
  refine does_of (congrArg Host.Outcome.next (if_pos ?_)) (s.updEp_keeps ..) ?_
  · simpa [he, ho, dly] using ht
  · rw [State.ep_updEp_self]
    exact ⟨dly, rfl⟩
theorem lskewWrite_refused {s : State} {d e : Nat} {v : Word}
    (h : s.skewOpen = false ∨ hasEndpoint d e = false ∨ (¬ carriesTick d e = true ∧ v.toNat % 64 ≠ 0)) :
    Does s (.lskewWrite d e v) (fun t => Entered s t d 0x0A (cfgAddr d (0x800 + 16 * e))) := by
  have dly : (fld v 0 6).toNat = v.toNat % 64 := by simp [toNat_fld]
  refine does_of_eq (congrArg Host.Outcome.next (if_neg ?_)) rfl rfl (s.entered_cfgError d _)
  simp only [dly, Bool.and_eq_true, Bool.or_eq_true, decide_eq_true_eq]
  rintro ⟨⟨he, ho⟩, ht⟩
  rcases h with h | h | ⟨hc, hv⟩
  · exact absurd (ho.symm.trans h) (by decide)
  · exact absurd (he.symm.trans h) (by decide)
  · exact ht.elim hc hv
theorem linkCalibration_open {s : State} {d e : Nat} (he : hasEndpoint d e = true) (ho : s.skewOpen = true) :
    Does s (.linkCalibration d e) (fun t => ((t.die d).ep e).busy = true ∧ ((t.die d).ep e).ok = false) := by
  refine does_of (congrArg Host.Outcome.next (if_pos (by simp [he, ho]))) (s.updEp_keeps ..) ?_
  rw [State.ep_updEp_self]
  exact ⟨rfl, rfl⟩
theorem linkCalibration_refused {s : State} {d e : Nat} (h : s.skewOpen = false ∨ hasEndpoint d e = false) :
    Does s (.linkCalibration d e) (fun t => Entered s t d 0x0A (cfgAddr d (0x800 + 16 * e))) := by
  refine does_of_eq (congrArg Host.Outcome.next (if_neg ?_)) rfl rfl (s.entered_cfgError d _)
  rcases h with h | h <;> simp [h]

/-- The endpoint of a calibration that has ended. -/
def Endpoint.calibrated (x : Endpoint) (tick : Bool) (raw marg : Nat) (ok : Bool) : Endpoint :=
  { x with busy := false, raw := if tick then raw else 0, marg := marg, ok := ok }
/-- R40: what OK of a calibration says. -/
theorem calibrationOk_iff {nominal raw marg dly : Nat} {tick late : Bool} : calibrationOk nominal tick late raw marg dly = true ↔
    late = false ∧ 1 ≤ marg ∧ (tick = true → raw + dly = nominal) := by
  cases tick <;> simp [calibrationOk, and_assoc]
theorem State.tickLatency_eq (s : State) : s.tickLatency = if s.hub.profile = 0x16 then 80 else 64 := by
  simp [State.tickLatency, State.t16, isT16, byProfile]
/-- The dies behind an endpoint that fails (R42): a layer itself, or the layers of an anchor's column. -/
theorem State.fenced_linkDies (s : State) (d : Nat) : (8 ≤ d → ((s.linkDies d).die d).st = .fenced) ∧
    (1 ≤ d → d < 5 → ∀ j < 8, ((s.linkDies d).die (8 * d + j)).st = .fenced) := by
  have fence : ∀ (t : State) (k : Nat), ((t.fenceLayer k).die k).st = .fenced := fun t k => by rw [State.fenceLayer, State.die_updDie, if_pos rfl]
  refine ⟨fun h => ?_, fun h1 h5 j hj => ?_⟩
  · rw [State.linkDies, if_pos h]
    exact fence ..
  · rw [State.linkDies, if_neg (by omega), if_pos h5]
    exact (State.die_fenceLayer ..).2 (foldl_establishes (P := fun t : State => (t.die (8 * d + j)).st = .fenced) (List.mem_range.2 hj)
      (fun t => fence t _) (fun t i _ ht => (t.die_fenceLayer ..).2 ht))
/-- What a failed calibration brings about: FAULT at H, and elsewhere dies FENCED and the manager told (R42, log 62). -/
theorem State.calibrationFailed_effect (s : State) (d e : Nat) : let t := s.calibrationFailed d e
    (d = 0 → t.hub.ifs = .fault ∧ t.hub.bst = 4) ∧ (d ≠ 0 → t.hub.queue = s.hub.queue ++ [.linkcal d e] ∧ t.hub.ifs = s.hub.ifs) ∧
    (8 ≤ d → (t.die d).st = .fenced) ∧ (1 ≤ d → d < 5 → ∀ j < 8, (t.die (8 * d + j)).st = .fenced) := by
  intro t
  obtain ⟨layer, column⟩ := s.fenced_linkDies d
  by_cases h0 : d = 0
  · have ht : t = s.updHub (fun h => { h with ifs := .fault, bst := 4 }) := if_pos h0
    rw [ht]
    exact ⟨fun _ => ⟨rfl, rfl⟩, fun h => absurd h0 h, fun h => by omega, fun h => by omega⟩
  · have ht : t = ((s.linkDies d).roleFault).tell (.linkcal d e) := if_neg h0
    rw [ht]
    refine ⟨fun h => absurd h h0, fun _ => ⟨?_, ?_⟩, layer, column⟩
    · exact congrArg (· ++ [Event.linkcal d e]) (s.linkDies_keeps (fun t => t.hub.queue) d (fun _ _ => rfl))
    · exact s.linkDies_keeps (fun t => t.hub.ifs) d (fun _ _ => rfl)
section
variable {s : State} {d e : Nat} {raw marg : BitVec 8} {late : Bool} (he : hasEndpoint d e = true) (hb : ((s.die d).ep e).busy = true)
include he hb
theorem exec_linkCalibrationDone {ok : Bool}
    (hok : calibrationOk s.tickLatency (carriesTick d e) late raw.toNat marg.toNat ((s.die d).ep e).dly = ok) :
    exec (.linkCalibrationDone d e raw marg late) s = .next (let u := s.updEp d e (fun x => x.calibrated (carriesTick d e) raw.toNat marg.toNat ok)
      if ok then u else u.calibrationFailed d e) := by
  show (if !hasEndpoint d e || !((s.die d).ep e).busy then _ else _) = _
  rw [if_neg (by simp [he, hb]), hok]
  rfl
theorem linkCalibrationDone_ok (hok : calibrationOk s.tickLatency (carriesTick d e) late raw.toNat marg.toNat ((s.die d).ep e).dly = true) :
    Does s (.linkCalibrationDone d e raw marg late) (fun t => ((t.die d).ep e).ok = true ∧ ((t.die d).ep e).busy = false ∧
      ((t.die d).ep e).marg = marg.toNat ∧ t.hub = s.hub) := by
  refine does_of (exec_linkCalibrationDone he hb hok) (s.updEp_keeps ..) ?_
  rw [if_pos rfl, State.ep_updEp_self]
  exact ⟨rfl, rfl, rfl, rfl⟩
theorem linkCalibrationDone_failed
    (hok : ¬ calibrationOk s.tickLatency (carriesTick d e) late raw.toNat marg.toNat ((s.die d).ep e).dly = true) :
    Does s (.linkCalibrationDone d e raw marg late) (fun t => ((t.die d).ep e).ok = false ∧
      (d = 0 → t.hub.ifs = .fault ∧ t.hub.bst = 4) ∧ (d ≠ 0 → t.hub.queue = s.hub.queue ++ [.linkcal d e] ∧ t.hub.ifs = s.hub.ifs) ∧
      (8 ≤ d → (t.die d).st = .fenced) ∧ (1 ≤ d → d < 5 → ∀ j < 8, (t.die (8 * d + j)).st = .fenced)) := by
  refine ⟨_, exec_linkCalibrationDone he hb (Bool.eq_false_iff.2 hok), ?_, ?_, State.calibrationFailed_effect ..⟩
  · exact keeps_of_eq (State.calibrationFailed_keeps State.cores _ d e (fun _ _ => rfl) (fun _ _ _ _ _ => rfl))
      (State.calibrationFailed_keeps State.mem _ d e (fun _ _ => rfl) (fun _ _ _ _ _ => rfl))
  · rw [if_neg (by decide), Die.ep, State.eps_calibrationFailed]
    exact congrArg Endpoint.ok (State.ep_updEp_self ..)
end

/-! ### Flits (R39, R44) -/

/-- A flit has been counted at its endpoint, by what became of it. -/
def Counted (s t : State) (d e : Nat) (o : FlitOutcome) : Prop :=
  ((t.die d).ep e).corr = (if o = .corrected then min (((s.die d).ep e).corr + 1) (2 ^ 32 - 1) else ((s.die d).ep e).corr) ∧
  ((t.die d).ep e).unc = if o = .bad then min (((s.die d).ep e).unc + 1) (2 ^ 16 - 1) else ((s.die d).ep e).unc
theorem counted_of_eps_eq {s t : State} {d e : Nat} {o : FlitOutcome} (h : (t.die d).eps = ((s.countFlit d e o).die d).eps) : Counted s t d e o := by
  have ep : (t.die d).ep e = ((s.countFlit d e o).die d).ep e := congrArg (fun m => SMap.get ({} : Endpoint) m e) h
  rw [Counted, ep, State.countFlit, State.ep_updEp_self]
  cases o with
  | good => exact ⟨rfl, rfl⟩
  | corrected => exact ⟨rfl, rfl⟩
  | bad => exact ⟨rfl, rfl⟩
theorem lstatClear_effect {s : State} {d e : Nat} (v : Word) (he : hasEndpoint d e = true) : Does s (.lstatClear d e v) (fun t =>
    ((t.die d).ep e).corr = (if v.toNat % 2 ^ 32 = 2 ^ 32 - 1 then 0 else ((s.die d).ep e).corr) ∧
    ((t.die d).ep e).unc = if v.toNat / 2 ^ 32 % 2 ^ 16 = 2 ^ 16 - 1 then 0 else ((s.die d).ep e).unc) := by
  refine does_of (congrArg Host.Outcome.next (if_pos he)) (s.updEp_keeps ..) ?_
  rw [State.ep_updEp_self]
  exact ⟨by simp only [fld_count_ones_iff], by simp only [fld_unc_ones_iff]⟩
/-- R39: a flit that is not discarded is held against its landing cycle. -/
theorem timedFlitArrival_held {s : State} {d e f id : Nat} {a : Word} {o : FlitOutcome} (ho : o ≠ .bad) :
    Does s (.timedFlitArrival d e o f id a) (fun t => Counted s t d e o ∧ t.calendar = s.calendar ∧
      ∃ n, (t.die d).flits = (s.die d).flits ++ [(id, n)]) := by
  have held : exec (.timedFlitArrival d e o f id a) s = .next ((s.countFlit d e o).updDie d (fun x =>
      { x with flits := x.flits ++ [(id, (((s.countFlit d e o).timed id).map Timed.due).getD s.now)] })) := by
    cases o with
    | good => rfl
    | corrected => rfl
    | bad => exact absurd rfl ho
  refine ⟨_, held, keeps_of_eq rfl rfl, counted_of_eps_eq ?_, rfl, (((s.countFlit d e o).timed id).map Timed.due).getD s.now, ?_⟩
  · rw [State.die_updDie, if_pos rfl]
  · rw [State.die_updDie, if_pos rfl, State.countFlit, State.updEp, State.die_updDie, if_pos rfl]
/-- An abort makes nothing due. -/
theorem State.calendar_abortFrond (s : State) (f : Nat) (why : Nat × Nat) : ∀ y ∈ (s.abortFrond f why).calendar, y ∈ s.calendar := by
  rw [State.abortFrond_eq]
  split
  · exact fun _ h => h
  · rw [State.orphans_keeps State.calendar _ f (fun _ _ _ => rfl)]
    exact foldl_invariant (P := fun t : State => ∀ y ∈ t.calendar, y ∈ s.calendar) (fun _ h => h)
      (fun t ck _ ht y hy => ht y (List.mem_filter.1 hy).1)
theorem State.calendar_contain (s : State) (f code : Nat) : ∀ y ∈ (s.contain f code).calendar, y ∈ s.calendar := by
  unfold State.contain
  split
  · exact fun _ h => h
  · exact s.calendar_abortFrond f _
theorem exec_timedFlitArrival_bad (s : State) (d e f id : Nat) (a : Word) : ∃ x : LogEnt, x.kind = 6 ∧ x.addr = a ∧
    exec (.timedFlitArrival d e .bad f id a) s = .next ((((s.countFlit d e .bad).logFault d x).unschedule id).contain f 6) := ⟨_, rfl, rfl, rfl⟩
/-- R44: a timed flit that cannot be corrected is discarded and logged, and its frond aborted. -/
theorem timedFlitArrival_bad {s : State} {d e f id : Nat} (a : Word) (hr : (s.frond f).runs) (hz : (s.frond f).freezeEnd ≤ s.now) :
    ∃ t, exec (.timedFlitArrival d e .bad f id a) s = .next t ∧ Counted s t d e .bad ∧ Entered s t d 6 a ∧ (∀ y ∈ t.calendar, y.id ≠ id) ∧
      (t.frond f).abort = some (0x10, 6) ∧ ∀ b, t.byte b = s.byte b := by
  obtain ⟨x, hk, ha, hx⟩ := exec_timedFlitArrival_bad s d e f id a
  have dies := State.contain_dies (((s.countFlit d e .bad).logFault d x).unschedule id) f 6
  refine ⟨_, hx, counted_of_eps_eq ?_, entered_of_log_eq hk ha (s.log_updEp d e d _) dies, fun y hy => ?_, State.abort_contain 6 hr hz, fun b => ?_⟩
  · rw [State.die_of_dies_eq dies]
    exact State.eps_logFault ..
  · simpa using (List.mem_filter.1 (State.calendar_contain _ _ _ y hy)).2
  · exact State.byte_of_mem_eq (State.contain_mem ..) b
theorem timedFlitRelease_due {s : State} (d : Nat) {id : Nat} (h : ∀ x, s.timed id = some x → x.due ≤ s.now) :
    Does s (.timedFlitRelease d id) (fun t => (t.die d).flits = (s.die d).flits.filter (fun y => decide (y.1 ≠ id))) := by
  have due : s.flitDue id = true := by
    unfold State.flitDue
    split
    · rename_i x hx
      exact decide_eq_true (h x hx)
    · rfl
  refine does_of_eq (congrArg Host.Outcome.next (if_pos due)) rfl rfl ?_
  rw [State.die_updDie, if_pos rfl]

/-- The access of a number after it has been changed. -/
theorem State.access_updAccess {s : State} {id : Nat} {x : Access} {g : Access → Access} (h : s.access id = some x) (hg : ∀ a, (g a).id = a.id) :
    (s.updAccess id g).access id = some (g x) := by
  have hid : x.id = id := by simpa using List.find?_some h
  have same : ∀ a : Access, (if a.id = id then g a else a).id = a.id := fun a => by split <;> simp [hg]
  unfold State.access State.updAccess
  rw [List.find?_map, show ((fun a : Access => decide (a.id = id)) ∘ fun a => if a.id = id then g a else a) = fun a => decide (a.id = id) from
    funext (fun a => by simp only [Function.comp, same])]
  rw [State.access] at h
  rw [h, Option.map_some, if_pos hid]
/-- An access whose flit has been discarded: its error response is due. -/
def Access.lost (a : Access) : Access := if a.done.isSome then { a with act := .read [], err := true, done := none } else a.failed
theorem Access.lost_eq (a : Access) :
    a.lost = { a with act := if a.done = none ∧ a.act.writes = true then .void else .read [], err := true, done := none } := by
  unfold Access.lost
  cases h : a.done <;> simp [Access.failed, h]
theorem Access.lost_id (a : Access) : a.lost.id = a.id := by rw [Access.lost_eq]
/-- The entry of an access whose flit has been discarded (R139). -/
def Access.lostEntry (a : Access) (tick : Word) : LogEnt :=
  { kind := 0x07, world := a.world, srccore := if a.core < 512 then a.core else 0xFFFF, srcdie := if a.core < 512 then coreDie a.core else 0,
    addr := BitVec.ofNat 64 (a.act.touches.headD 0), token := a.token, tick := tick }
theorem exec_untimedFlitArrival_bad {s : State} (d e : Nat) {id : Nat} {x : Access} (h : s.access id = some x) :
    exec (.untimedFlitArrival d e .bad id) s =
      .next (((s.countFlit d e .bad).logFault d (x.lostEntry s.gtick)).updAccess id Access.lost) := by
  show execUntimedFlitArrival d e .bad id s = _
  unfold execUntimedFlitArrival
  rw [h]
  rfl
/-- R44: an untimed flit that cannot be corrected is logged, and its transaction ends with an error response. -/
theorem untimedFlitArrival_bad {s : State} {d e id : Nat} {x : Access} (h : s.access id = some x) :
    Does s (.untimedFlitArrival d e .bad id) (fun t => Counted s t d e .bad ∧
      t.access id = some { x with act := if x.done = none ∧ x.act.writes = true then .void else .read [], err := true, done := none } ∧
      Entered s t d 7 (BitVec.ofNat 64 (x.act.touches.headD 0))) := by
  exact does_of_eq (exec_untimedFlitArrival_bad d e h) rfl rfl ⟨counted_of_eps_eq (State.eps_logFault ..), x.lost_eq ▸ State.access_updAccess (x := x) h Access.lost_id,
    entered_of_log_eq rfl rfl (s.log_updEp d e d _) rfl⟩
theorem untimedFlitArrival_good {s : State} {d e : Nat} (id : Nat) {o : FlitOutcome} (ho : o ≠ .bad) :
    Does s (.untimedFlitArrival d e o id) (fun t => Counted s t d e o ∧ t.posted = s.posted) := by
  have only : exec (.untimedFlitArrival d e o id) s = .next (s.countFlit d e o) := by
    cases o with
    | good => rfl
    | corrected => rfl
    | bad => exact absurd rfl ho
  exact ⟨_, only, s.updEp_keeps .., counted_of_eps_eq rfl, rfl⟩

/-! ### Ports (R51, R52, R59) -/

/-- The interface states in which the device answers more than its status window (R62, R82). -/
theorem State.answersAll_iff (s : State) : s.answersAll = true ↔ s.hub.ifs = .config ∨ s.hub.ifs = .locked ∨ s.hub.ifs = .run ∨ s.hub.ifs = .drain := by
  unfold State.answersAll
  cases s.hub.ifs <;> simp
theorem uePacketReceive_nothing {s : State} {port : Nat} (p : UePacket) (h : s.hub.ifs = .reset ∨ s.lanes (port / 4) ≤ port % 4) :
    exec (.uePacketReceive port p) s = .next s :=
  if_pos (by simpa [or_comm] using h)
theorem uePacketReceive_unanswered {s : State} (port : Nat) {p : UePacket} (h : s.answersAll = false) (hp : p.other = true) :
    exec (.uePacketReceive port p) s = .next s := by
  show (if _ then _ else if !s.answersAll && p.other then _ else _) = _
  split
  · rfl
  · exact if_pos (by simp [h, hp])
/-- The delivery modes that a port takes (R52). -/
def UeMode.taken : UeMode → Bool
  | .rud | .rod => true
  | .uud | .rudi => false
/-- A packet at a lane that the port has, which the device does not leave unanswered. -/
theorem exec_uePacketReceive {s : State} {port : Nat} {mode : UeMode} {other : Bool} (hr : s.hub.ifs ≠ .reset) (hl : port % 4 < s.lanes (port / 4))
    (ha : other = true → s.answersAll = true) : exec (.uePacketReceive port ⟨mode, other⟩) s =
      .next (if UeMode.taken mode then (if other then s.answer .unsupported else s)
        else s.updHub (fun h => { h with refused := SMap.put 0 h.refused (port / 4) (SMap.get 0 h.refused (port / 4) + 1) })) := by
  show (if _ then _ else if !s.answersAll && other then _ else _) = _
  rw [if_neg (by simpa [hr] using hl), if_neg (by cases other <;> simp at ha ⊢; exact ha)]
  cases mode <;> rfl
theorem uePacketReceive_drops {s : State} {port : Nat} {mode : UeMode} {other : Bool} (hr : s.hub.ifs ≠ .reset) (hl : port % 4 < s.lanes (port / 4))
    (ha : other = true → s.answersAll = true) (hm : mode = .uud ∨ mode = .rudi) : Does s (.uePacketReceive port ⟨mode, other⟩) (fun t =>
      SMap.get 0 t.hub.refused (port / 4) = SMap.get 0 s.hub.refused (port / 4) + 1 ∧ t.hub.sent = s.hub.sent) := by
  have dropped := exec_uePacketReceive (mode := mode) hr hl ha
  have counted := SMap.get_put_self 0 s.hub.refused (port / 4) (SMap.get 0 s.hub.refused (port / 4) + 1)
  rcases hm with rfl | rfl <;> exact ⟨_, dropped, keeps_of_eq rfl rfl, counted, rfl⟩
theorem uePacketReceive_answers {s : State} {port : Nat} {mode : UeMode} {other : Bool} (hr : s.hub.ifs ≠ .reset)
    (hl : port % 4 < s.lanes (port / 4)) (ha : other = true → s.answersAll = true) (hm : mode = .rud ∨ mode = .rod) :
    Does s (.uePacketReceive port ⟨mode, other⟩) (fun t => t.hub.refused = s.hub.refused ∧
      t.hub.sent = if other then s.hub.sent ++ [.unsupported] else s.hub.sent) := by
  have answered : exec (.uePacketReceive port ⟨mode, other⟩) s = .next (if other then s.answer .unsupported else s) := by
    rw [exec_uePacketReceive hr hl ha]
    rcases hm with rfl | rfl <;> rfl
  cases other with
  | false => exact ⟨_, answered, keeps_refl s, rfl, rfl⟩
  | true => exact ⟨_, answered, keeps_of_eq rfl rfl, rfl, rfl⟩

/-- The accesses on a CXL link, and the state in which those have failed and the port's range is offline (R59). -/
def State.onCxl (s : State) (p : Nat) (a : Access) : Bool := a.done.isNone && a.act.touches.any (fun pa => decide (s.cxlPort pa = some p))
def State.cxlLost (s : State) (p : Nat) : State :=
  ({ s with posted := s.posted.map (fun a : Access => if s.onCxl p a then a.failed else a) } : State).updHub (fun h =>
    { h with offline := SMap.put false h.offline p true })
theorem exec_cxlLinkDown {s : State} {d port : Nat} (hd : d = 5 ∨ d = 6) (hp : port < 2) (hm : s.migrations = []) :
    exec (.cxlLinkDown d port) s = .next ((s.cxlLost (2 * (d - 5) + port)).tell (.cxlDown d port)) := by
  have none : ((s.cxlLost (2 * (d - 5) + port)).migrations.filter (fun x =>
      (s.cxlLost (2 * (d - 5) + port)).migFrom x.1 x.2.2.2 (2 * (d - 5) + port))) = [] := by
    rw [show (s.cxlLost (2 * (d - 5) + port)).migrations = [] from hm]
    rfl
  show (if ¬ (d = 5 ∨ d = 6) ∨ 2 ≤ port then _ else Host.Outcome.next (((((s.cxlLost (2 * (d - 5) + port)).migrations.filter (fun x =>
      (s.cxlLost (2 * (d - 5) + port)).migFrom x.1 x.2.2.2 (2 * (d - 5) + port))).foldl _ (s.cxlLost (2 * (d - 5) + port)))).tell (.cxlDown d port))) = _
  rw [if_neg (by omega), none]
  rfl
theorem cxlLinkDown_effect {s : State} {d port : Nat} (hd : d = 5 ∨ d = 6) (hp : port < 2) (hm : s.migrations = []) :
    Does s (.cxlLinkDown d port) (fun t => SMap.get false t.hub.offline (2 * (d - 5) + port) = true ∧
      t.hub.queue = s.hub.queue ++ [.cxlDown d port] ∧
      ∀ x ∈ s.posted, x.done = none → (∃ pa ∈ x.act.touches, s.cxlPort pa = some (2 * (d - 5) + port)) →
        { x with act := if x.act.writes then .void else .read [], err := true } ∈ t.posted) := by
  have offline := SMap.get_put_self false s.hub.offline (2 * (d - 5) + port) true
  refine ⟨_, exec_cxlLinkDown hd hp hm, keeps_of_eq rfl rfl, offline, rfl, fun x hx hn ⟨pa, ht, hc⟩ => ?_⟩
  have hit : s.onCxl (2 * (d - 5) + port) x = true := by
    simp only [State.onCxl, hn, Option.isNone_none, Bool.true_and, List.any_eq_true, decide_eq_true_eq]
    exact ⟨pa, ht, hc⟩
  exact List.mem_map.2 ⟨x, hx, if_pos hit⟩

end Sys2Proof.Machine
end

section
/-! Settles O47: each event of a link or a port by its own theorem. -/

namespace Sys2Proof.Machine

/-- Settles O47, by the outcomes of each event: endpoints (logs 34, 62, 63), flits, ports with the lanes of their split (log 8), and a CXL link. -/
theorem linksAndFlits : Obligations.LinksAndFlits := by
  unfold Obligations.LinksAndFlits
  intro s d e f id v a raw marg late o ep does logged tick counts
  have ticks : tick ↔ carriesTick d e = true := carriesTick_iff.symm
  refine ⟨fun he ho => ⟨fun ht => lskewWrite_open he ho (ht.imp_left ticks.1), linkCalibration_open he ho⟩,
    fun h => lskewWrite_refused (h.imp_right (Or.imp_right (And.imp_left (mt ticks.2)))), linkCalibration_refused, fun he hb => ?calibration,
    lstatClear_effect v, timedFlitArrival_held, ?bad, timedFlitRelease_due d, ?untimed, untimedFlitArrival_good id, fun port mode other => ?port,
    fun port hd hp hm => cxlLinkDown_effect hd hp hm⟩
  case calibration =>
    intro ok
    have oks : ok ↔ calibrationOk s.tickLatency (carriesTick d e) late raw.toNat marg.toNat ep.dly = true := by
      rw [calibrationOk_iff, State.tickLatency_eq, ← ticks]
    exact ⟨fun h => linkCalibrationDone_ok he hb (oks.1 h), fun h => linkCalibrationDone_failed he hb (mt oks.2 h)⟩
  case bad =>
    rintro rfl hb he ha hz
    exact timedFlitArrival_bad a ⟨hb, he, ha⟩ hz
  case untimed =>
    rintro x hx rfl
    exact untimedFlitArrival_bad hx
  case port =>
    intro lanes
    refine ⟨uePacketReceive_nothing _, fun h ho => uePacketReceive_unanswered port ?_ ho, fun hr ho hl => ?_⟩
    · rcases h with h | h <;> simp [State.answersAll, h]
    · have all : other = true → s.answersAll = true := fun h => by
        obtain ⟨hb, hf⟩ := ho h
        rw [State.answersAll_iff]
        cases hi : s.hub.ifs <;> simp_all
      exact ⟨uePacketReceive_drops hr hl all, uePacketReceive_answers hr hl all⟩

end Sys2Proof.Machine
end

section
/-! SUPPORT. Operations from outside (02 R54, 08 R167, log 10): the lines that an operation is parted by, the parts that H posts, and the answer of
an operation that has none. -/

namespace Sys2Proof.Machine

/-! ### Cells in groups of one line (R167) -/

/-- Cells lie in groups of one line each, none of them empty, and no two neighbours in the same line. -/
def ByLine (gs : List (List Host.Cell)) : Prop := (∀ g ∈ gs, g ≠ [] ∧ ∀ c ∈ g, ∀ c' ∈ g, lineOf c.1 = lineOf c'.1) ∧
  gs.IsChain (fun g g' => ∀ c ∈ g, ∀ c' ∈ g', lineOf c.1 ≠ lineOf c'.1)
theorem byLine_neighbours {gs : List (List Host.Cell)} (h : ByLine gs) (i : Nat) (g g' : List Host.Cell) (hg : gs[i]? = some g)
    (hg' : gs[i + 1]? = some g') : ∀ c ∈ g, ∀ c' ∈ g', lineOf c.1 ≠ lineOf c'.1 := by
  obtain ⟨hi, rfl⟩ := List.getElem?_eq_some_iff.1 hg
  obtain ⟨hj, rfl⟩ := List.getElem?_eq_some_iff.1 hg'
  exact List.isChain_iff_getElem.1 h.2 i hj
theorem lineGroups_flatten (l : List Host.Cell) : (lineGroups l).flatten = l := by
  induction l with
  | nil => rfl
  | cons c r ih =>
    rw [lineGroups]
    split
    · rename_i h
      rw [h] at ih
      simp [← ih]
    · rename_i g gs h
      rw [h] at ih
      split <;> simp [← ih]
theorem lineGroups_byLine (l : List Host.Cell) : ByLine (lineGroups l) := by
  induction l with
  | nil => exact ⟨by simp [lineGroups], by simp [lineGroups]⟩
  | cons c r ih =>
    rw [lineGroups]
    split
    · refine ⟨List.forall_mem_singleton.2 ⟨by simp, fun y hy z hz => ?_⟩, List.isChain_singleton _⟩
      rw [List.mem_singleton.1 hy, List.mem_singleton.1 hz]
    · rename_i g gs h
      rw [h] at ih
      obtain ⟨one, apart⟩ := ih
      obtain ⟨hg, hgs⟩ := List.forall_mem_cons.1 one
      obtain ⟨x, g, rfl⟩ := List.exists_cons_of_ne_nil hg.1
      have line : ∀ y ∈ x :: g, lineOf y.1 = lineOf x.1 := fun y hy => hg.2 y hy x (List.mem_cons_self ..)
      split
      · rename_i hx
        have hx : lineOf x.1 = lineOf c.1 := by simpa using hx
        have same : ∀ y ∈ c :: x :: g, lineOf y.1 = lineOf x.1 := List.forall_mem_cons.2 ⟨hx.symm, line⟩
        refine ⟨List.forall_mem_cons.2 ⟨⟨by simp, fun y hy z hz => (same y hy).trans (same z hz).symm⟩, hgs⟩, ?_⟩
        cases gs with
        | nil => simp
        | cons g' gs =>
          obtain ⟨first, rest⟩ := List.isChain_cons_cons.1 apart
          exact List.isChain_cons_cons.2 ⟨fun y hy z hz => same y hy ▸ first x (List.mem_cons_self ..) z hz, rest⟩
      · rename_i hx
        have hx : lineOf c.1 ≠ lineOf x.1 := fun h => hx (by simp [h])
        refine ⟨List.forall_mem_cons.2 ⟨⟨by simp, fun y hy z hz => ?_⟩, one⟩, List.isChain_cons_cons.2 ⟨fun y hy z hz => ?_, apart⟩⟩
        · rw [List.mem_singleton.1 hy, List.mem_singleton.1 hz]
        rw [List.mem_singleton.1 hy, line z hz]
        exact hx
theorem lineGroups_ne_nil {l : List Host.Cell} (h : l ≠ []) : lineGroups l ≠ [] := fun e => h (by rw [← lineGroups_flatten l, e]; rfl)

/-- Where the part of a group goes, and the parts of a put and of a get. -/
def headAddr (g : List Host.Cell) : Nat := (g.headD (0, 0)).1
def readOf (g : List Host.Cell) : Act := .read (g.zipIdx.map (fun x => { dst := x.2, src := x.1.1 }))
theorem headAddr_eq (g : List Host.Cell) : (g.head?.map Prod.fst).getD 0 = headAddr g := by cases g <;> rfl
theorem writeParts_eq (cells : List Host.Cell) : writeParts cells = (lineGroups cells).map (fun g => (0, headAddr g, writeOf g)) :=
  List.map_congr_left (fun g _ => by rw [headAddr_eq]; rfl)
theorem foldl_readParts (gs : List (List Host.Cell)) (l : List (Nat × Nat × Act)) (n : Nat) :
    (gs.foldl (fun (a : List (Nat × Nat × Act) × Nat) g => (a.1 ++ [(a.2, (g.head?.map Prod.fst).getD 0, readOf g)], a.2 + g.length)) (l, n)).1 =
      l ++ gs.mapIdx (fun i g => (n + (gs.take i).flatten.length, headAddr g, readOf g)) := by
  induction gs generalizing l n with
  | nil => simp
  | cons g gs ih =>
    rw [List.foldl_cons, ih, List.mapIdx_cons, headAddr_eq]
    simp [Nat.add_assoc]
theorem readParts_eq (addrs : List Nat) : let gs := lineGroups (addrs.map (fun a => (a, 0)))
    readParts addrs = gs.mapIdx (fun i g => ((gs.take i).flatten.length, headAddr g, readOf g)) := by
  intro gs
  refine (foldl_readParts gs [] 0).trans ?_
  simp

/-! ### Addresses that translate (R54) -/

section
variable {s : State} {w : Nat} {p : Perm} {l : List Nat}
theorem State.translateAll_of_some {pas : List Nat} (h : l.map (fun a => s.feAddr w a 1 p) = pas.map some) : s.translateAll w p l = some pas := by
  induction l generalizing pas with
  | nil => rw [List.map_eq_nil_iff.1 h.symm]; rfl
  | cons a l ih =>
    cases pas with
    | nil => exact absurd h (by simp)
    | cons pa pas =>
      obtain ⟨ha, hl⟩ := List.cons.inj h
      have rest : l.foldr _ (some []) = some pas := ih hl
      rw [State.translateAll, List.foldr_cons, rest, show s.feAddr w a 1 p = some pa from ha]
theorem State.translateAll_of_none {a : Nat} (ha : a ∈ l) (h : s.feAddr w a 1 p = none) : s.translateAll w p l = none := by
  induction l with
  | nil => exact absurd ha (by simp)
  | cons b l ih =>
    rw [State.translateAll, List.foldr_cons]
    rcases List.mem_cons.1 ha with rfl | ha
    · rw [h]
    · rw [show l.foldr _ (some []) = none from ih ha]
      split
      · rename_i hr
        exact absurd hr (by simp)
      · rfl
end
/-- The bytes of an operation from an address on, one by one. -/
def addrsFrom (va : Word) (n : Nat) : List Nat := (List.range n).map (fun i => va.toNat + i)
theorem State.translateAll_addrsFrom {s : State} {w n : Nat} {va : Word} {p : Perm} {pas : List Nat} (hl : pas.length = n)
    (h : ∀ i < n, translate (s.world w).windows (va.toNat + i) 1 p = pas[i]?) : s.translateAll w p (addrsFrom va n) = some pas := by
  refine State.translateAll_of_some (List.ext_getElem (by simp [addrsFrom, hl]) (fun i hi hj => ?_))
  have hi : i < n := by simpa [addrsFrom] using hi
  simp only [addrsFrom, List.getElem_map, List.getElem_range]
  exact (h i hi).trans (List.getElem?_eq_getElem (hl.symm ▸ hi))
theorem State.translateAll_addrsFrom_none {s : State} {w n : Nat} {va : Word} {p : Perm}
    (h : ∃ i < n, translate (s.world w).windows (va.toNat + i) 1 p = none) : s.translateAll w p (addrsFrom va n) = none := by
  obtain ⟨i, hi, h⟩ := h
  exact State.translateAll_of_none (List.mem_map_of_mem (List.mem_range.2 hi)) h

/-! ### Parts posted (R54, R173) -/

theorem Access.request_of_not_fabric {a : Access} (h : a.act.isFabric = false) : a.request = none := by
  unfold Access.request
  split
  · rename_i hf
    rw [hf] at h
    simp [Act.isFabric] at h
  · rfl
/-- The access that H posts for a part of an operation. -/
def State.hostAccess (s : State) (op w : Nat) (x : Nat × Nat × Act) : Access :=
  { id := s.seqno, core := 512, ctx := 0, frond := 384, world := w, node := 0, home := homeNode x.2.1, act := x.2.2, owed := .host op x.1, cls := 0 }
/-- An access is a part of an operation for a world. -/
def Access.isPart (y : Access) (op w : Nat) (x : Nat × Nat × Act) : Prop :=
  y.world = w ∧ y.home = homeNode x.2.1 ∧ y.act = x.2.2 ∧ y.owed = .host op x.1
theorem State.hubPost_part (s : State) (op w : Nat) {x : Nat × Nat × Act} (h : x.2.2.isFabric = false) : ∃ y : Access, y.isPart op w x ∧
    (s.hubPost w x.2.1 x.2.2 (.host op x.1)).accesses = s.accesses ++ [y] ∧ (s.hubPost w x.2.1 x.2.2 (.host op x.1)).hub = s.hub ∧
    KeepsRegsAndMemory s (s.hubPost w x.2.1 x.2.2 (.host op x.1)) := by
  have none : (s.hostAccess op w x).request = none := Access.request_of_not_fabric h
  have hub : (s.bump.post (s.hostAccess op w x)).hub = s.hub := by rw [State.post_eq _ none]; rfl
  exact ⟨(s.bump.stamped (s.hostAccess op w x)).onWay, ⟨rfl, rfl, rfl, rfl⟩, s.bump.accesses_post none, hub,
    keeps_trans (keeps_of_eq (t := s.bump) rfl rfl) (s.bump.post_keeps none)⟩
/-- The parts of an operation are posted in their order, and nothing is answered. -/
theorem State.postParts_parts (op w : Nat) {l : List (Nat × Nat × Act)} (h : ∀ x ∈ l, x.2.2.isFabric = false) (s : State) :
    ∃ ys, (s.postParts op w l).accesses = s.accesses ++ ys ∧ List.Forall₂ (fun y x => y.isPart op w x) ys l ∧
      (s.postParts op w l).hub = s.hub ∧ KeepsRegsAndMemory s (s.postParts op w l) := by
  induction l generalizing s with
  | nil => exact ⟨[], (List.append_nil _).symm, .nil, rfl, keeps_refl s⟩
  | cons x l ih =>
    obtain ⟨hx, hl⟩ := List.forall_mem_cons.1 h
    obtain ⟨y, hy, hacc, hhub, hk⟩ := s.hubPost_part op w hx
    obtain ⟨ys, hacc', hys, hhub', hk'⟩ := ih hl (s.hubPost w x.2.1 x.2.2 (.host op x.1))
    refine ⟨y :: ys, ?_, .cons hy hys, hhub'.trans hhub, keeps_trans hk hk'⟩
    rw [show s.postParts op w (x :: l) = (s.hubPost w x.2.1 x.2.2 (.host op x.1)).postParts op w l from rfl, hacc', hacc, List.append_assoc]
    rfl

theorem SMap.find?_insert {α : Type} {m : SMap α} {k : Nat} (x : α) (h : ∀ e ∈ m, e.1 ≠ k) :
    (SMap.insert m k x).find? (fun e => decide (e.1 = k)) = some (k, x) := by
  induction m with
  | nil => simp [SMap.insert]
  | cons e r ih =>
    obtain ⟨he, hr⟩ := List.forall_mem_cons.1 h
    rw [SMap.insert]
    split
    · rw [List.find?_cons_of_pos (by simp)]
    · rw [List.find?_cons_of_neg (by simpa using he), ih hr]
theorem SMap.find?_set {α : Type} (m : SMap α) (k : Nat) (x : α) : (SMap.set m k x).find? (fun e => decide (e.1 = k)) = some (k, x) :=
  SMap.find?_insert x (SMap.keys_erase m k)

/-- The state in which an operation stands in H's table, with the parts that it waits for. -/
def State.enrolled (s : State) (o : HostOp) (n : Nat) : State := s.bump.updHub (fun h => { h with ops := SMap.set h.ops s.seqno { o with waiting := n } })
theorem State.beginOp_eq (s : State) (o : HostOp) (l : List (Nat × Nat × Act)) : s.beginOp o l =
    ((s.enrolled o l.length).postParts s.seqno o.world l).finishOp s.seqno := rfl
/-- An operation that has parts waits for them. -/
theorem State.finishOp_of_waiting {s : State} {op : Nat} {o : HostOp} (h : s.hub.ops.find? (fun e => decide (e.1 = op)) = some (op, o))
    (hw : o.waiting ≠ 0) : s.finishOp op = s := by
  unfold State.finishOp
  rw [h]
  exact if_pos hw
/-- The answer to an operation that has gone well (R54). -/
def HostOp.reply (o : HostOp) : Reply :=
  match o.kind with
  | .put => .done
  | .get => .bytes o.bytes
  | .word => .word o.word
/-- An operation of the host that waits for nothing is answered, and nothing but the hub changes. -/
theorem State.finishOp_of_done {s : State} {op : Nat} {o : HostOp} (h : s.hub.ops.find? (fun e => decide (e.1 = op)) = some (op, o))
    (hw : o.waiting = 0) (hp : o.peer = none) (hs : o.silent = false) (he : o.err = false) :
    ∃ h', s.finishOp op = { s with hub := h' } ∧ h'.sent = s.hub.sent ++ [o.reply] := by
  unfold State.finishOp
  rw [h]
  simp only [hw, hp, hs, he]
  unfold HostOp.reply
  cases o.kind <;> exact ⟨_, rfl, rfl⟩
theorem State.beginOp_posts (s : State) (o : HostOp) {l : List (Nat × Nat × Act)} (hl : l ≠ []) (h : ∀ x ∈ l, x.2.2.isFabric = false) :
    ∃ ys, (s.beginOp o l).accesses = s.accesses ++ ys ∧ List.Forall₂ (fun y x => y.isPart s.seqno o.world x) ys l ∧
      (s.beginOp o l).hub.sent = s.hub.sent ∧ KeepsRegsAndMemory s (s.beginOp o l) := by
  obtain ⟨ys, hacc, hys, hhub, hk⟩ := State.postParts_parts s.seqno o.world h (s.enrolled o l.length)
  rw [State.beginOp_eq, State.finishOp_of_waiting (o := { o with waiting := l.length }) (by rw [hhub]; exact SMap.find?_set ..)
    (fun e => hl (List.length_eq_zero_iff.1 e))]
  exact ⟨ys, hacc, hys, (congrArg Hub.sent hhub).trans rfl, keeps_trans (keeps_of_eq (t := s.enrolled o l.length) rfl rfl) hk⟩
theorem State.beginOp_answers (s : State) {o : HostOp} (hp : o.peer = none) (hs : o.silent = false) (he : o.err = false) :
    KeepsRegsAndMemory s (s.beginOp o []) ∧ (s.beginOp o []).hub.sent = s.hub.sent ++ [o.reply] ∧ (s.beginOp o []).posted = s.posted := by
  obtain ⟨h', e, hs'⟩ := State.finishOp_of_done (s := (s.enrolled o 0).postParts s.seqno o.world []) (SMap.find?_set ..) rfl hp hs he
  rw [State.beginOp_eq, show ([] : List (Nat × Nat × Act)).length = 0 from rfl, e]
  exact ⟨keeps_of_eq rfl rfl, hs', rfl⟩

end Sys2Proof.Machine
end

section
/-! SUPPORT. The host's operations on worlds (02 R54, 03 R62, 04 R81, R82, log 10, log 61), each with its outcomes, and the status window. -/

namespace Sys2Proof.Machine

/-! ### Which operations are answered (R62, R82) -/

theorem State.serves_iff (s : State) : s.serves = true ↔ s.hub.ifs = .config ∨ s.hub.ifs = .locked ∨ s.hub.ifs = .run ∨ s.hub.ifs = .drain :=
  s.answersAll_iff
theorem State.silentTo_of_serves {s : State} (h : s.serves = true) (w : Nat) : s.silentTo w = false := by
  have hr : s.hub.ifs ≠ .reset := fun e => by simp [State.serves, State.answersAll, e] at h
  simp [State.silentTo, h, hr]
theorem State.silentTo_of_not_serves {s : State} {w : Nat} (h : s.serves = false) (hw : w < 256) : s.silentTo w = true := by
  simp [State.silentTo, h, deviceWorld, hw]
theorem not_deviceWorld {w : Nat} (h : w < 256) : ¬ deviceWorld w = true := by simp [deviceWorld, h]

/-- What parts show, read off the list that they were posted from. -/
theorem map_of_isPart {op w : Nat} {ys : List Access} {l : List (Nat × Nat × Act)} (h : List.Forall₂ (fun y x => Access.isPart y op w x) ys l) :
    ys.map Access.home = l.map (fun x => homeNode x.2.1) ∧ ys.map Access.act = l.map (fun x => x.2.2) ∧
      ys.map Access.owed = l.map (fun x => .host op x.1) := by
  induction h with
  | nil => exact ⟨rfl, rfl, rfl⟩
  | cons hx _ ih =>
    obtain ⟨-, hh, ha, ho⟩ := hx
    obtain ⟨ihh, iha, iho⟩ := ih
    exact ⟨congrArg₂ _ hh ihh, congrArg₂ _ ha iha, congrArg₂ _ ho iho⟩
theorem world_of_isPart {op w : Nat} {ys : List Access} {l : List (Nat × Nat × Act)} (h : List.Forall₂ (fun y x => Access.isPart y op w x) ys l) :
    ∀ y ∈ ys, y.world = w := by
  induction h with
  | nil => simp
  | cons hx _ ih => exact List.forall_mem_cons.2 ⟨hx.1, ih⟩

/-- The instruction answers, and posts nothing. -/
def Answers (s : State) (i : Instr) (r : Reply) : Prop := Does s i (fun t => t.hub.sent = s.hub.sent ++ [r] ∧ t.posted = s.posted)
/-- The instruction posts accesses of a world, and answers nothing yet. -/
def Posts (s : State) (w : Nat) (i : Instr) (ok : List Access → Prop) : Prop := Does s i (fun t => ∃ ys, t.accesses = s.accesses ++ ys ∧
  (∀ y ∈ ys, y.world = w) ∧ ok ys ∧ t.hub.sent = s.hub.sent)
theorem answers_of_exec {s : State} {i : Instr} {r : Reply} (h : exec i s = .next (s.answer r)) : Answers s i r :=
  ⟨_, h, keeps_of_eq rfl rfl, rfl, rfl⟩
theorem answers_of_beginOp {s : State} {i : Instr} {o : HostOp} (h : exec i s = .next (s.beginOp o [])) (hp : o.peer = none)
    (hs : o.silent = false) (he : o.err = false) : Answers s i o.reply := ⟨_, h, s.beginOp_answers hp hs he⟩
theorem posts_of_beginOp {s : State} {i : Instr} {o : HostOp} {l : List (Nat × Nat × Act)} {ok : List Access → Prop}
    (h : exec i s = .next (s.beginOp o l)) (hl : l ≠ []) (hf : ∀ x ∈ l, x.2.2.isFabric = false)
    (hok : ∀ ys, List.Forall₂ (fun y x => Access.isPart y s.seqno o.world x) ys l → ok ys) : Posts s o.world i ok := by
  obtain ⟨ys, hacc, hys, hsent, hk⟩ := s.beginOp_posts o hl hf
  exact ⟨_, h, hk, ys, hacc, world_of_isPart hys, hok ys hys, hsent⟩

/-! ### Put and get -/

/-- The addresses of an operation's bytes, where the world takes operations and all of them translate. -/
def State.reached (s : State) (w : Nat) (p : Perm) (l : List Nat) : Option (List Nat) := if s.worldUp w then s.translateAll w p l else none
/-- A message is too long, or a packet of it is (R54). -/
def tooLong (packets : List (List Byte)) : Bool := messageBytes < packets.flatten.length || packets.any (fun p => decide (packetBytes < p.length))
theorem tooLong_iff {packets : List (List Byte)} : tooLong packets = true ↔ 65536 < packets.flatten.length ∨ ∃ p ∈ packets, 4096 < p.length := by
  simp only [tooLong, Bool.or_eq_true, decide_eq_true_eq, List.any_eq_true]
  rfl
theorem not_tooLong {packets : List (List Byte)} (hl : packets.flatten.length ≤ 65536) (hp : ∀ p ∈ packets, p.length ≤ 4096) :
    ¬ tooLong packets = true := by
  rw [tooLong_iff]
  rintro (h | ⟨p, hm, h⟩)
  · omega
  · exact absurd (hp p hm) (by omega)
section
variable {s : State} {w : Nat} (va : Word) (hs : s.serves = true) (hw : w < 256)
include hs hw
theorem exec_put (packets : List (List Byte)) : exec (.put w va packets) s = .next (if tooLong packets then s.answer .unsupported else
    (s.reached w .wr (addrsFrom va packets.flatten.length)).elim (s.answer .accessError)
      (fun pas => s.beginOp { kind := .put, world := w } (writeParts (pas.zip packets.flatten)))) := by
  show execPut w va packets s = _
  unfold execPut
  rw [if_neg (by simp [s.silentTo_of_serves hs]), if_neg (not_deviceWorld hw)]
  show (if tooLong packets then Host.Outcome.next (s.answer .unsupported) else match s.reached w .wr (addrsFrom va packets.flatten.length) with
    | none => .next (s.answer .accessError)
    | some pas => .next (s.beginOp { kind := .put, world := w } (writeParts (pas.zip packets.flatten)))) = _
  cases s.reached w .wr (addrsFrom va packets.flatten.length) <;> cases tooLong packets <;> rfl
theorem exec_get (n : Nat) : exec (.get w va n) s = .next (if 65536 < n then s.answer .unsupported else
    (s.reached w .rd (addrsFrom va n)).elim (s.answer .accessError)
      (fun pas => s.beginOp { kind := .get, world := w, len := n } (readParts pas))) := by
  show execGet w va n s = _
  unfold execGet
  rw [if_neg (by simp [s.silentTo_of_serves hs]), if_neg (not_deviceWorld hw)]
  show (if 65536 < n then Host.Outcome.next (s.answer .unsupported) else match s.reached w .rd (addrsFrom va n) with
    | none => .next (s.answer .accessError)
    | some pas => .next (s.beginOp { kind := .get, world := w, len := n } (readParts pas))) = _
  rw [apply_ite Host.Outcome.next]
  cases s.reached w .rd (addrsFrom va n) <;> rfl
theorem put_long {packets : List (List Byte)} (h : 65536 < packets.flatten.length ∨ ∃ p ∈ packets, 4096 < p.length) :
    Answers s (.put w va packets) .unsupported := answers_of_exec (by rw [exec_put va hs hw, if_pos (tooLong_iff.2 h)])
theorem get_long {n : Nat} (h : 65536 < n) : Answers s (.get w va n) .unsupported := answers_of_exec (by rw [exec_get va hs hw, if_pos h])
section
variable {packets : List (List Byte)} (hl : packets.flatten.length ≤ 65536) (hp : ∀ p ∈ packets, p.length ≤ 4096)
include hl hp
theorem put_unreached (h : s.reached w .wr (addrsFrom va packets.flatten.length) = none) : Answers s (.put w va packets) .accessError :=
  answers_of_exec (by rw [exec_put va hs hw, if_neg (not_tooLong hl hp), h]; rfl)
theorem exec_put_begins {pas : List Nat} (h : s.reached w .wr (addrsFrom va packets.flatten.length) = some pas) :
    exec (.put w va packets) s = .next (s.beginOp { kind := .put, world := w } (writeParts (pas.zip packets.flatten))) := by
  rw [exec_put va hs hw, if_neg (not_tooLong hl hp), h]
  rfl
end
section
variable {n : Nat} (hn : n ≤ 65536)
include hn
theorem get_unreached (h : s.reached w .rd (addrsFrom va n) = none) : Answers s (.get w va n) .accessError :=
  answers_of_exec (by rw [exec_get va hs hw, if_neg (by omega), h]; rfl)
theorem exec_get_begins {pas : List Nat} (h : s.reached w .rd (addrsFrom va n) = some pas) :
    exec (.get w va n) s = .next (s.beginOp { kind := .get, world := w, len := n } (readParts pas)) := by
  rw [exec_get va hs hw, if_neg (by omega), h]
  rfl
end
end
theorem State.reached_of_empty {s : State} {w : Nat} (h : (s.world w).st = .empty) (p : Perm) (l : List Nat) : s.reached w p l = none :=
  if_neg (by simp [State.worldUp, h])
theorem State.reached_of_up {s : State} {w : Nat} (h : (s.world w).st ≠ .empty) (p : Perm) (l : List Nat) : s.reached w p l = s.translateAll w p l :=
  if_pos (by simp [State.worldUp, h])

/-- The parts of an operation on cells: groups that lie in one line each, in order, at the homes of their lines. -/
def Parts (l : List Host.Cell) (gs : List (List Host.Cell)) (ys : List Access) : Prop := gs.flatten = l ∧
  (∀ g ∈ gs, g ≠ [] ∧ ∀ c ∈ g, ∀ c' ∈ g, lineOf c.1 = lineOf c'.1) ∧
  (∀ (i : Nat) g g', gs[i]? = some g → gs[i + 1]? = some g' → ∀ c ∈ g, ∀ c' ∈ g', lineOf c.1 ≠ lineOf c'.1) ∧
  ys.map Access.home = gs.map (fun g => homeNode (g.headD (0, 0)).1)
theorem parts_of_home {l : List Host.Cell} {ys : List Access} (h : ys.map Access.home = (lineGroups l).map (fun g => homeNode (headAddr g))) :
    Parts l (lineGroups l) ys :=
  ⟨lineGroups_flatten l, (lineGroups_byLine l).1, byLine_neighbours (lineGroups_byLine l), h⟩
section
variable {s : State} {w : Nat} (va : Word) (hs : s.serves = true) (hu : (s.world w).st ≠ .empty) (hw : w < 256)
include hs hu hw
theorem put_posts {packets : List (List Byte)} (hl : packets.flatten.length ≤ 65536) (hp : ∀ p ∈ packets, p.length ≤ 4096)
    (hne : packets.flatten ≠ []) {pas : List Nat} (hlen : pas.length = packets.flatten.length)
    (ht : ∀ i < packets.flatten.length, translate (s.world w).windows (va.toNat + i) 1 .wr = pas[i]?) :
    Posts s w (.put w va packets) (fun ys => ∃ gs op, Parts (pas.zip packets.flatten) gs ys ∧
      ys.map Access.act = gs.map (fun g => Act.write { cells := g }) ∧ ∀ y ∈ ys, y.owed = .host op 0) := by
  have cells : pas.zip packets.flatten ≠ [] := fun e => hne (List.length_eq_zero_iff.1 (by simpa [hlen] using congrArg List.length e))
  have all : s.reached w .wr (addrsFrom va packets.flatten.length) = some pas :=
    (State.reached_of_up hu ..).trans (State.translateAll_addrsFrom hlen ht)
  refine posts_of_beginOp (exec_put_begins va hs hw hl hp all) ?_ ?_ (fun ys hys => ?_)
  · rw [writeParts_eq]
    exact fun e => lineGroups_ne_nil cells (List.map_eq_nil_iff.1 e)
  · rw [writeParts_eq]
    exact List.forall_mem_map.2 (fun _ _ => rfl)
  · obtain ⟨home, act, owed⟩ := map_of_isPart hys
    rw [writeParts_eq, List.map_map] at home act owed
    refine ⟨_, s.seqno, parts_of_home home, act, fun y hy => ?_⟩
    obtain ⟨g, -, hg⟩ := List.mem_map.1 (owed ▸ List.mem_map_of_mem hy)
    exact hg.symm
theorem get_posts {n : Nat} (h0 : n ≠ 0) (hn : n ≤ 65536) {pas : List Nat} (hlen : pas.length = n)
    (ht : ∀ i < n, translate (s.world w).windows (va.toNat + i) 1 .rd = pas[i]?) :
    Posts s w (.get w va n) (fun ys => ∃ gs op, Parts (pas.map (fun a => (a, 0))) gs ys ∧
      ys.map Access.act = gs.map (fun g => Act.read (g.zipIdx.map (fun c => { dst := c.2, src := c.1.1 }))) ∧
      ∀ (i : Nat) y, ys[i]? = some y → y.owed = .host op (gs.take i).flatten.length) := by
  have cells : pas.map (fun a => (a, (0 : Byte))) ≠ [] := fun e => h0 (by simpa [hlen] using congrArg List.length e)
  have all : s.reached w .rd (addrsFrom va n) = some pas := (State.reached_of_up hu ..).trans (State.translateAll_addrsFrom hlen ht)
  refine posts_of_beginOp (exec_get_begins va hs hw hn all) ?_ ?_ (fun ys hys => ?_)
  · rw [readParts_eq]
    exact fun e => lineGroups_ne_nil cells (List.mapIdx_eq_nil_iff.1 e)
  · rw [readParts_eq]
    intro x hx
    obtain ⟨i, hi, rfl⟩ := List.mem_mapIdx.1 hx
    rfl
  · obtain ⟨home, act, owed⟩ := map_of_isPart hys
    rw [readParts_eq] at home act owed
    refine ⟨_, s.seqno, parts_of_home (home.trans ?_), act.trans ?_, fun i y hy => ?_⟩
    · exact List.ext_getElem? (fun i => by simp [Function.comp_def])
    · exact List.ext_getElem? (fun i => by simp [Function.comp_def, readOf])
    · have place := congrArg (fun l : List Owed => l[i]?) owed
      simp only [List.getElem?_map, hy, List.getElem?_mapIdx, Option.map_some] at place
      obtain ⟨x, hx, hp⟩ := Option.map_eq_some_iff.1 place.symm
      obtain ⟨g, -, rfl⟩ := Option.map_eq_some_iff.1 hx
      exact hp.symm
theorem put_untranslated {packets : List (List Byte)} (hl : packets.flatten.length ≤ 65536) (hp : ∀ p ∈ packets, p.length ≤ 4096)
    (ht : ∃ i < packets.flatten.length, translate (s.world w).windows (va.toNat + i) 1 .wr = none) : Answers s (.put w va packets) .accessError :=
  put_unreached va hs hw hl hp ((State.reached_of_up hu ..).trans (State.translateAll_addrsFrom_none ht))
theorem get_untranslated {n : Nat} (hn : n ≤ 65536) (ht : ∃ i < n, translate (s.world w).windows (va.toNat + i) 1 .rd = none) :
    Answers s (.get w va n) .accessError :=
  get_unreached va hs hw hn ((State.reached_of_up hu ..).trans (State.translateAll_addrsFrom_none ht))
/-- An operation without bytes has no parts, and is answered at once. -/
theorem put_nothing {packets : List (List Byte)} (hb : packets.flatten = []) (hp : ∀ p ∈ packets, p.length ≤ 4096) :
    Answers s (.put w va packets) .done := by
  have all : s.reached w .wr (addrsFrom va packets.flatten.length) = some [] := by rw [State.reached_of_up hu, hb]; rfl
  have begins := exec_put_begins va hs hw (by simp [hb]) hp all
  exact answers_of_beginOp begins rfl rfl rfl
theorem get_nothing : Answers s (.get w va 0) (.bytes []) := by
  have all : s.reached w .rd (addrsFrom va 0) = some [] := State.reached_of_up hu ..
  have begins := exec_get_begins va hs hw (Nat.zero_le _) all
  exact answers_of_beginOp begins rfl rfl rfl
end

/-! ### Atomics (R54, log 61) -/

/-- The host's three atomics, each with what it performs at its word. -/
def HostAtomic (w : Nat) (va : Word) (pa : Nat) (i : Instr × Act) : Prop := ∃ aop v new,
  i.2 = .atomic pa 8 aop v new ∧ ∀ s : State, exec i.1 s = .next (s.hostAtomic w va aop v new)
theorem hostAtomic_of_mem {w pa : Nat} {va x cmp : Word} {i : Instr × Act} (h : i ∈ [(.fetchAndAdd w va x, Act.atomic pa 8 .add x 0),
    (.compareAndSwap w va cmp x, .atomic pa 8 .cas cmp x), (.swap w va x, .atomic pa 8 .swap x 0)]) : HostAtomic w va pa i := by
  simp only [List.mem_cons, List.not_mem_nil, or_false] at h
  rcases h with rfl | rfl | rfl
  · exact ⟨.add, x, 0, rfl, fun _ => rfl⟩
  · exact ⟨.cas, cmp, x, rfl, fun _ => rfl⟩
  · exact ⟨.swap, x, 0, rfl, fun _ => rfl⟩
section
variable {s : State} {w pa : Nat} {va : Word} {i : Instr × Act} (hi : HostAtomic w va pa i)
include hi
theorem atomic_silent (h : s.silentTo w = true) : exec i.1 s = .next s := by
  obtain ⟨aop, v, new, -, hx⟩ := hi
  rw [hx, State.hostAtomic, if_pos h]
variable (hs : s.serves = true)
include hs
theorem atomic_refused (h : (s.world w).st = .empty ∨ translate (s.world w).windows va.toNat 8 .atm = none) : Answers s i.1 .accessError := by
  obtain ⟨aop, v, new, -, hx⟩ := hi
  have none : (if s.worldUp w then s.feAddr w va.toNat 8 .atm else none) = none := by
    rcases h with h | h
    · exact if_neg (by simp [State.worldUp, h])
    · split
      · exact h
      · rfl
  refine answers_of_exec ?_
  rw [hx, State.hostAtomic, if_neg (by simp [s.silentTo_of_serves hs]), none, ite_self]
theorem atomic_posts (hw : w < 256) (hu : (s.world w).st ≠ .empty) (ha : va.toNat % 8 = 0) (ht : translate (s.world w).windows va.toNat 8 .atm = some pa) :
    Posts s w i.1 (fun ys => ∃ y op, ys = [y] ∧ y.act = i.2 ∧ y.home = homeNode pa ∧ y.owed = .host op 0) := by
  obtain ⟨aop, v, new, hact, hx⟩ := hi
  have begins : exec i.1 s = .next (s.beginOp { kind := .word, world := w } [(0, pa, .atomic pa 8 aop v new)]) := by
    rw [hx, State.hostAtomic, if_neg (by simp [s.silentTo_of_serves hs]), if_neg (by simp [deviceWorld, hw, ha]),
      show (if s.worldUp w then s.feAddr w va.toNat 8 .atm else none) = some pa from (if_pos (by simp [State.worldUp, hu])).trans ht]
  refine posts_of_beginOp begins (by simp) (by simp [Act.isFabric]) (fun ys hys => ?_)
  obtain ⟨y, ys, ⟨-, hh, ha, ho⟩, hn, rfl⟩ := List.forall₂_cons_right_iff.1 hys
  obtain rfl := List.forall₂_nil_right_iff.1 hn
  exact ⟨y, s.seqno, rfl, ha.trans hact.symm, hh, ho⟩
end

/-! ### The status window (R81) -/

theorem Ifs.code_lt (i : Ifs) : i.code < 256 := by cases i <;> decide
theorem toNat_ifstat {h : Hub} (hb : h.bst < 256) (hp : h.profile < 256) (hq : h.qerr < 2 ^ 32) :
    h.ifstat.toNat = h.ifs.code + 0x100 * h.bst + 0x10000 * h.profile + 0x100000000 * h.qerr := by
  have hc := h.ifs.code_lt
  rw [Hub.ifstat, BitVec.toNat_ofNat]
  omega
theorem statusWindowGet_answers {s : State} (h : s.hub.ifs ≠ .reset) : Answers s .statusWindowGet (.statusWindow s.statusWords) :=
  answers_of_exec (congrArg Host.Outcome.next (if_neg h))
theorem statusWindowGet_reset {s : State} (h : s.hub.ifs = .reset) : exec .statusWindowGet s = .next s :=
  congrArg Host.Outcome.next (if_pos h)

end Sys2Proof.Machine
end

section
/-! SUPPORT. Runs (02 R55, R56, 03 R62, R77): a run that arrives, a run that is closed, and a run that is not acknowledged. -/

namespace Sys2Proof.Machine

/-- A member as this package knows it. -/
def State.peer (s : State) (m : Nat) : Peer := SMap.get {} s.hub.domain.peers m
theorem State.peer_updPeer (s : State) (m : Nat) (f : Peer → Peer) : (s.updPeer m f).peer m = f (s.peer m) := SMap.get_upd_self ..
theorem State.peer_updPeer_ne (s : State) {m k : Nat} (f : Peer → Peer) (h : k ≠ m) : (s.updPeer m f).peer k = s.peer k := SMap.get_upd_ne _ _ _ h
@[simp] theorem State.peer_answer (s : State) (r : Reply) (m : Nat) : (s.answer r).peer m = s.peer m := rfl
@[simp] theorem State.peer_tell (s : State) (e : Event) (m : Nat) : (s.tell e).peer m = s.peer m := rfl

/-! ### A run that arrives (R56) -/

/-- No run is taken, and none is sent, while the device answers its status window alone (R62). -/
theorem runReceive_silent {s : State} (peer : Nat) (x : RunArrival) (h : s.serves = false) : exec (.runReceive peer x) s = .next s :=
  if_pos (by simp [h])
theorem runIdleClose_silent {s : State} (peer : Nat) (h : s.serves = false) : exec (.runIdleClose peer) s = .next s :=
  if_pos (by rw [State.mayClose, h]; rfl)
section
variable {s : State} {peer : Nat} (hs : s.serves = true)
include hs
theorem exec_runReceive_run (run : Run) : exec (.runReceive peer (.run run)) s = s.takeRun peer run := if_neg (by simp [hs])
theorem runReceive_ack (x : Word) : Does s (.runReceive peer (.ack x)) (fun t =>
    (t.peer peer).runs = (s.peer peer).runs.filter (fun q => decide (q.seq ≠ x.toNat))) :=
  does_of_eq (if_neg (by simp [hs])) rfl rfl (congrArg Peer.runs (s.peer_updPeer peer _))

variable (hf : s.hub.domain.formed = true) (hp : (s.peer peer).present = true)
include hf hp
theorem runReceive_stale {run : Run} (hk : run.kgen.toNat ≠ s.hub.domain.kgen) : Does s (.runReceive peer (.run run)) (fun t =>
    (t.peer peer).stale = (s.peer peer).stale + 1 ∧ t.hub.sent = s.hub.sent) := by
  refine does_of_eq ((exec_runReceive_run hs run).trans ((if_neg ?_).trans (if_pos hk))) rfl rfl ⟨congrArg Peer.stale (s.peer_updPeer peer _), rfl⟩
  rw [show (SMap.get ({} : Peer) s.hub.domain.peers peer).present = true from hp]
  simp [hf]
end
/-- A run under the present key is well formed and opens (R55, R56). -/
structure RunOpens (s : State) (peer : Nat) (run : Run) (plain : List Byte) : Prop where
  kgen : run.kgen.toNat = s.hub.domain.kgen
  form : 1 ≤ run.nfl.toNat ∧ run.nfl.toNat ≤ 64 ∧ run.flits.length = 64 * run.nfl.toNat ∧ run.flg.toNat < 2 ∧ run.rsv = 0
  text : gcmOpen (s.hub.domain.runKey peer s.hub.domain.self) (runIv s.hub.domain.kgen run.seq.toNat)
    (runHead run.seq.toNat run.kgen.toNat run.nfl.toNat run.flg.toNat run.rsv.toNat) run.flits run.tag = some plain
section
variable {s : State} {peer : Nat} {run : Run} {plain : List Byte} (hs : s.serves = true) (hf : s.hub.domain.formed = true)
  (hp : (s.peer peer).present = true) (ho : RunOpens s peer run plain)
include hs hf hp ho
theorem exec_runReceive_opens : exec (.runReceive peer (.run run)) s =
    .next (if seqOld (s.peer peer).seen run.seq.toNat then
        (s.answer (.runAck peer run.seq.toNat)).updPeer peer (fun p => { p with replays := p.replays + 1 })
      else if run.flg.getLsbD 0 then ((s.answer (.runAck peer run.seq.toNat)).updPeer peer (fun p => { p with seen := takeSeq p.seen run.seq.toNat })).updPeer
        peer (fun p => { p with barrierSeen := true })
      else ((s.answer (.runAck peer run.seq.toNat)).updPeer peer (fun p => { p with seen := takeSeq p.seen run.seq.toNat })).release peer
        (Config.runMessages plain)) := by
  rw [exec_runReceive_run hs]
  have present : (SMap.get ({} : Peer) s.hub.domain.peers peer).present = true := hp
  unfold State.takeRun
  dsimp only
  rw [present, hf, if_neg (by decide), if_neg (not_not_intro ho.kgen)]
  rw [if_pos ho.form, ho.text]
  dsimp only
  rw [apply_ite Host.Outcome.next, apply_ite Host.Outcome.next]
  rfl
theorem runReceive_replay (hm : run.seq.toNat ∈ (s.peer peer).seen) : Does s (.runReceive peer (.run run)) (fun t =>
    (t.peer peer).replays = (s.peer peer).replays + 1 ∧ t.hub.sent = s.hub.sent ++ [.runAck peer run.seq.toNat] ∧ t.posted = s.posted) := by
  have old : seqOld (s.peer peer).seen run.seq.toNat = true := by simp [seqOld, hm]
  refine does_of_eq ((exec_runReceive_opens hs hf hp ho).trans (congrArg Host.Outcome.next (if_pos old))) rfl rfl ⟨?_, rfl, rfl⟩
  exact congrArg Peer.replays (State.peer_updPeer ..)
variable (hn : run.seq.toNat ∉ (s.peer peer).seen) (hl : (s.peer peer).seen.length < 256)
include hn hl
omit hs hf hp ho in
theorem seqOld_of_new : ¬ seqOld (s.peer peer).seen run.seq.toNat = true := by
  have room : ¬ 256 ≤ (s.peer peer).seen.length := by omega
  simp [seqOld, hn, room]
omit hs hf hp ho hn in
/-- A window that is not full takes a number in. -/
theorem mem_takeSeq : run.seq.toNat ∈ takeSeq (s.peer peer).seen run.seq.toNat := by
  have up : ((s.peer peer).seen.filter (fun x => decide (run.seq.toNat < x))).length < 256 := (List.length_filter_le ..).trans_lt hl
  refine List.mem_take_iff_getElem.2 ⟨_, lt_min up (by simp), ?_⟩
  simp
theorem runReceive_barrier (hb : run.flg = 1) : Does s (.runReceive peer (.run run)) (fun t =>
    t.hub.sent = s.hub.sent ++ [.runAck peer run.seq.toNat] ∧ run.seq.toNat ∈ (t.peer peer).seen ∧ (t.peer peer).barrierSeen = true) := by
  refine does_of_eq ((exec_runReceive_opens hs hf hp ho).trans (congrArg Host.Outcome.next ((if_neg (seqOld_of_new hn hl)).trans (if_pos (by simp [hb])))))
    rfl rfl ⟨rfl, ?_, ?_⟩
  · rw [State.peer_updPeer, State.peer_updPeer]
    exact mem_takeSeq hl
  · rw [State.peer_updPeer]
/-- R56: a response that a new run carries reaches the operation that it answers. -/
theorem runReceive_reply (hb : run.flg = 0) {op w : Nat} {l : List Byte} {y : Access} {k : Option Afmt} {o : Option Nat} {moves : List Move}
    {pl : Payload} (hmsg : Config.runMessages plain = [.reply op w true l]) (hy : s.access op = some y) (hd : y.done = none)
    (ha : y.act = .fabric peer k o moves pl) : Does s (.runReceive peer (.run run)) (fun t =>
      t.access op = some { y with done := some ((moves.map Move.dst).zip l, 0) }) := by
  have taken := (exec_runReceive_opens hs hf hp ho).trans
    (congrArg Host.Outcome.next ((if_neg (seqOld_of_new hn hl)).trans (if_neg (by simp [hb]))))
  generalize hu : (s.answer (.runAck peer run.seq.toNat)).updPeer peer (fun p => { p with seen := takeSeq p.seen run.seq.toNat }) = u at taken
  have access : u.access op = some y := hu ▸ hy
  have release : u.release peer (Config.runMessages plain) = u.updAccess op (fun a => { a with done := some ((moves.map Move.dst).zip l, 0) }) := by
    rw [hmsg]
    show u.memberReply peer op true l = _
    unfold State.memberReply
    rw [access]
    dsimp only
    rw [ha]
    dsimp only
    rw [if_neg (by simp [hd]), if_pos rfl]
  rw [release] at taken
  subst hu
  exact does_of_eq taken rfl rfl (State.access_updAccess access (fun _ => rfl))
end

/-! ### A run that is closed (R55) -/

theorem length_of_mem_flitsOf {m : RunMsg} {f : List Byte} (h : f ∈ flitsOf m) : f.length = 64 := by
  obtain ⟨i, -, rfl⟩ := List.mem_map.1 h
  simp only [List.length_append, List.length_replicate, List.length_take]
  omega
theorem length_flatten_of_length {n : Nat} {l : List (List Byte)} (h : ∀ f ∈ l, f.length = n) : l.flatten.length = n * l.length := by
  induction l with
  | nil => rfl
  | cons f l ih =>
    obtain ⟨hf, hl⟩ := List.forall_mem_cons.1 h
    rw [List.flatten_cons, List.length_append, hf, ih hl, List.length_cons, Nat.mul_succ, Nat.add_comm]
/-- A state that another differs from by its free choices alone. -/
def State.Chose (s t : State) : Prop := ∃ n, t = { s with fresh := n }
theorem State.Chose.trans {s t u : State} (h : s.Chose t) (k : t.Chose u) : s.Chose u := by
  obtain ⟨n, rfl⟩ := h
  obtain ⟨m, rfl⟩ := k
  exact ⟨m, rfl⟩
theorem State.chose_refl (s : State) : s.Chose s := ⟨s.fresh, rfl⟩
theorem State.settlePayload_chose (s : State) (pl : Payload) : s.Chose (s.settlePayload pl).1 := by
  unfold State.settlePayload
  split
  · exact s.chose_refl
  · refine foldl_invariant (P := fun a : State × List Host.Cell => s.Chose a.1) s.chose_refl (fun a l _ ha => ?_)
    dsimp only
    split
    · exact ha
    · exact ha.trans ⟨a.1.fresh + 1, rfl⟩
theorem State.settleMsg_chose (s : State) (m : RunMsg) : s.Chose (s.settleMsg m).1 := by
  unfold State.settleMsg
  split
  · split
    · exact s.settlePayload_chose _
    · exact s.chose_refl
  · exact s.chose_refl
/-- A run takes up at most the flits asked for, of 64 bytes each, and choices alone are made for it. -/
theorem State.fillRun_fits (m : Nat) (l : List RunMsg) (s : State) (n cut : Nat) : s.Chose (s.fillRun m n l cut).s ∧
    (∀ f ∈ (s.fillRun m n l cut).flits, f.length = 64) ∧ (s.fillRun m n l cut).flits.length ≤ n := by
  induction l generalizing s n cut with
  | nil => exact ⟨s.chose_refl, by simp [State.fillRun], Nat.zero_le n⟩
  | cons x r ih =>
    rw [State.fillRun]
    split
    · exact ⟨s.chose_refl, by simp, Nat.zero_le n⟩
    · have chose : s.Chose (if cut = 0 then s.settleMsg x else (s, x)).1 := by
        split
        · exact s.settleMsg_chose x
        · exact s.chose_refl
      generalize (if cut = 0 then s.settleMsg x else (s, x)) = y at chose
      dsimp only
      split
      · rename_i hlen
        obtain ⟨hc, hf, hn⟩ := ih y.1 (n - ((flitsOf y.2).drop cut).length) 0
        refine ⟨chose.trans hc, fun f hm => ?_, ?_⟩
        · rcases List.mem_append.1 hm with hm | hm
          · exact length_of_mem_flitsOf (List.mem_of_mem_drop hm)
          · exact hf f hm
        · rw [List.length_append]
          omega
      · refine ⟨chose, fun f hm => length_of_mem_flitsOf (List.mem_of_mem_drop (List.mem_of_mem_take hm)), ?_⟩
        rw [List.length_take]
        exact min_le_left ..
section
variable {s : State} {peer : Nat} (hc : s.mayClose peer = true) (hn : peer ≠ s.hub.domain.self)
include hc hn
theorem exec_runIdleClose_sends (hu : (s.peer peer).spent = false) : exec (.runIdleClose peer) s =
    .next (let r := s.fillRun peer (Max.max 1 (Min.min s.hub.domain.runlen 64)) (s.peer peer).queued (s.peer peer).cut
      (r.s.updPeer peer (fun p => { p with queued := r.rest, cut := r.cut })).sendRun peer 0 r.flits.flatten r.ops) := by
  have unspent : ¬ (SMap.get ({} : Peer) s.hub.domain.peers peer).spent = true := Bool.eq_false_iff.1 hu
  exact (if_neg (by simp [hc])).trans ((if_neg hn).trans (if_neg unspent))
theorem exec_runIdleClose_spent (hu : (s.peer peer).spent = true) : exec (.runIdleClose peer) s =
    .next (let u := s.updPeer peer (fun p => { p with rekeyAsked := true })
      if s.hub.domain.coordinator = s.hub.domain.self then (if s.hub.domain.phase = .idle then u.quiesce else u) else u.controlHome .rekeyAsk) := by
  have spent : (SMap.get ({} : Peer) s.hub.domain.peers peer).spent = true := hu
  exact (if_neg (by simp [hc])).trans ((if_neg hn).trans (if_pos spent))
/-- R55, R56: a run is closed under the next number, and kept. -/
theorem runIdleClose_sends (hu : (s.peer peer).spent = false) : Does s (.runIdleClose peer) (fun t =>
    (t.peer peer).sendSeq = (s.peer peer).sendSeq + 1 ∧ ∃ c tag ops,
      t.hub.sent = s.hub.sent ++ [.run peer (s.peer peer).sendSeq s.hub.domain.kgen 0 c tag] ∧
      (t.peer peer).runs = (s.peer peer).runs ++ [{ seq := (s.peer peer).sendSeq, kgen := s.hub.domain.kgen, flg := 0, flits := c, tag := tag, ops := ops }] ∧
      c.length % 64 = 0 ∧ c.length ≤ 64 * Max.max 1 (Min.min s.hub.domain.runlen 64)) := by
  have sends := exec_runIdleClose_sends hc hn hu
  obtain ⟨⟨k, hk⟩, h64, hmax⟩ := State.fillRun_fits peer (s.peer peer).queued s (Max.max 1 (Min.min s.hub.domain.runlen 64)) (s.peer peer).cut
  generalize s.fillRun peer (Max.max 1 (Min.min s.hub.domain.runlen 64)) (s.peer peer).queued (s.peer peer).cut = r at sends hk h64 hmax
  obtain ⟨rs, flits, ops, rest, cut⟩ := r
  dsimp only at hk sends h64 hmax
  subst hk
  generalize hv : ({ s with fresh := k } : State).updPeer peer (fun p => { p with queued := rest, cut := cut }) = v at sends
  have peers : v.peer peer = { s.peer peer with queued := rest, cut := cut } := hv ▸ State.peer_updPeer ..
  have seq : (SMap.get ({} : Peer) v.hub.domain.peers peer).sendSeq = (s.peer peer).sendSeq := by
    show (v.peer peer).sendSeq = _
    rw [peers]
  have kgen : v.hub.domain.kgen = s.hub.domain.kgen := hv ▸ rfl
  have sent : v.hub.sent = s.hub.sent := hv ▸ rfl
  have same : v.cores = s.cores ∧ v.mem = s.mem := hv ▸ ⟨rfl, rfl⟩
  have length := length_flatten_of_length h64
  unfold State.sendRun at sends
  dsimp only at sends
  rw [seq, kgen] at sends
  generalize hg : gcmSeal _ _ _ flits.flatten = g at sends
  have sealed : g.1.length = 64 * flits.length := by rw [← hg, gcmSeal_length, length]
  refine does_of_eq sends same.1 same.2 ⟨?_, g.1, g.2, ops, ?_, ?_, ?_, ?_⟩
  · rw [State.peer_answer, State.peer_updPeer, peers]
  · exact congrArg (· ++ _) sent
  · rw [State.peer_answer, State.peer_updPeer, peers]
  · rw [sealed]
    exact Nat.mul_mod_right ..
  · rw [sealed]
    exact Nat.mul_le_mul_left 64 hmax
/-- R78: the last sequence number is left to a barrier run, so that a re-key is asked for (log 59). -/
theorem runIdleClose_asks (hu : (s.peer peer).spent = true) (hco : s.hub.domain.coordinator ≠ s.hub.domain.self) :
    Does s (.runIdleClose peer) (fun t => (t.peer peer).sendSeq = (s.peer peer).sendSeq ∧
      t.hub.sent = s.hub.sent ++ [.control s.hub.domain.coordinator (s.peer s.hub.domain.coordinator).session .rekeyAsk]) := by
  have asks := (exec_runIdleClose_spent hc hn hu).trans (congrArg Host.Outcome.next ((if_neg hco).trans (if_neg hco)))
  refine does_of_eq asks rfl rfl ⟨by rw [State.peer_answer, State.peer_updPeer], ?_⟩
  have session : ((s.updPeer peer (fun p => { p with rekeyAsked := true })).peer s.hub.domain.coordinator).session =
      (s.peer s.hub.domain.coordinator).session := by
    by_cases h : s.hub.domain.coordinator = peer
    · rw [h, State.peer_updPeer]
    · rw [State.peer_updPeer_ne _ _ h]
  exact congrArg (fun x => s.hub.sent ++ [Reply.control s.hub.domain.coordinator x .rekeyAsk]) session
theorem runIdleClose_quiesces (hu : (s.peer peer).spent = true) (hco : s.hub.domain.coordinator = s.hub.domain.self)
    (hph : s.hub.domain.phase = .idle) : Does s (.runIdleClose peer) (fun t =>
      t.hub.domain.phase = .quiesce ∧ t.hub.domain.target = s.hub.domain.kgen + 1) := by
  have begins := (exec_runIdleClose_spent hc hn hu).trans (congrArg Host.Outcome.next ((if_pos hco).trans (if_pos hph)))
  refine does_of_eq begins (State.quiesce_keeps State.cores _ (fun _ _ => rfl)) (State.quiesce_keeps State.mem _ (fun _ _ => rfl)) ?_
  rw [State.quiesce_domain]
  exact ⟨rfl, if_pos hph⟩
end
theorem Peer.spent_iff (p : Peer) : p.spent = true ↔ p.rekeyAsked = true ∨ 2 ^ 64 ≤ p.sendSeq + 1 := by simp [Peer.spent]

/-! ### A run that is not acknowledged (R56) -/

/-- An access as the operations that it may be one of fail. -/
def Access.failsIf (hit : Access → Bool) (a : Access) : Access :=
  match a.act with
  | .fabric _ _ _ _ _ => if hit a && a.done.isNone then { a with act := .read [], err := true } else a
  | _ => a
theorem State.failOps_posted (s : State) (hit : Access → Bool) : (s.failOps hit).posted = s.posted.map (Access.failsIf hit) := rfl
theorem Access.failsIf_of_not {hit : Access → Bool} {a : Access} (h : hit a = false) : a.failsIf hit = a := by
  unfold Access.failsIf
  split
  · exact if_neg (by simp [h])
  · rfl
theorem Access.failsIf_of_fabric {hit : Access → Bool} {a : Access} (h : hit a = true) (hd : a.done = none) (hf : a.act.isFabric = true) :
    a.failsIf hit = { a with act := .read [], err := true } := by
  unfold Access.failsIf
  split
  · exact if_pos (by simp [h, hd])
  · rename_i hne
    cases ha : a.act with
    | fabric m k o moves pl => exact absurd ha (hne m k o moves pl)
    | _ => simp [ha, Act.isFabric] at hf
theorem runRetryExhausted_effect {s : State} {peer : Nat} {q : SentRun} (hq : q ∈ (s.peer peer).runs)
    (hu : ∀ q' ∈ (s.peer peer).runs, q'.seq = q.seq → q' = q) : Does s (.runRetryExhausted ⟨peer, q.seq⟩) (fun t =>
      t.hub.queue = s.hub.queue ++ [.peerUnreachable peer] ∧ q ∉ (t.peer peer).runs ∧
      ∀ y ∈ s.posted, (y.id ∉ q.ops → y ∈ t.posted) ∧ (y.id ∈ q.ops → y.done = none → ∀ m k o moves pl, y.act = .fabric m k o moves pl →
        { y with act := .read [], err := true } ∈ t.posted)) := by
  have found : (s.peer peer).runs.find? (fun r => decide (r.seq = q.seq)) = some q := by
    have some : ((s.peer peer).runs.find? (fun r => decide (r.seq = q.seq))).isSome = true := List.find?_isSome.2 ⟨q, hq, by simp⟩
    obtain ⟨r, hr⟩ := Option.isSome_iff_exists.1 some
    rw [hr, hu r (List.mem_of_find?_eq_some hr) (by simpa using List.find?_some hr)]
  have fails : exec (.runRetryExhausted ⟨peer, q.seq⟩) s = .next (((s.failOps (fun a => q.ops.contains a.id)).updPeer peer (fun p =>
      { p with runs := p.runs.filter (fun r => decide (r.seq ≠ q.seq)) })).tell (.peerUnreachable peer)) := by
    show execRunRetryExhausted ⟨peer, q.seq⟩ s = _
    unfold execRunRetryExhausted
    dsimp only
    rw [show (SMap.get ({} : Peer) s.hub.domain.peers peer).runs.find? _ = some q from found]
  have posted : ∀ y ∈ s.posted, y.failsIf (fun a => q.ops.contains a.id) ∈ (s.failOps (fun a => q.ops.contains a.id)).posted :=
    fun y hy => by rw [State.failOps_posted]; exact List.mem_map_of_mem hy
  refine does_of_eq fails rfl rfl ⟨rfl, fun h => ?_, fun y hy => ⟨fun h => ?_, fun h hd m k o moves pl ha => ?_⟩⟩
  · rw [State.peer_tell, State.peer_updPeer] at h
    simp at h
  · have hm := posted y hy
    rwa [Access.failsIf_of_not (by simpa using h)] at hm
  · have hm := posted y hy
    rwa [Access.failsIf_of_fabric (by simpa using h) hd (by rw [ha]; rfl)] at hm

end Sys2Proof.Machine
end

section
/-! Settles O48: each operation and each run by its outcomes. -/

namespace Sys2Proof.Machine

/-- Settles O48, by the parts and the answers of operations on worlds (log 10, log 61), the status window, and runs; a sender's last number goes to a
barrier run (log 59). -/
theorem operationsFromOutside : Obligations.OperationsFromOutside := by
  unfold Obligations.OperationsFromOutside
  intro s w peer n pa va x cmp packets pas run h dm p does answers serves posts windows up bytes short parts atomics
  have serve : serves → s.serves = true := s.serves_iff.2
  have silent : ¬ serves → s.serves = false := fun hn => Bool.eq_false_iff.2 (mt s.serves_iff.1 hn)
  have atomic : ∀ i ∈ atomics, HostAtomic w va pa i := fun i hi => hostAtomic_of_mem hi
  refine ⟨?put, ?get, ?bounds, ?atomics, ?silent, ?empty, ?window, statusWindowGet_reset, ?silentRuns, ?runs⟩
  case put =>
    rintro ⟨hs, hu, hw⟩ ⟨hl, hp⟩ hne
    exact ⟨put_posts va (serve hs) hu hw hl hp hne, put_untranslated va (serve hs) hu hw hl hp⟩
  case get =>
    rintro ⟨hs, hu, hw⟩ h0 hn
    exact ⟨get_posts va (serve hs) hu hw h0 hn, get_untranslated va (serve hs) hu hw hn⟩
  case bounds =>
    rintro ⟨hs, hu, hw⟩
    exact ⟨put_nothing va (serve hs) hu hw, get_nothing va (serve hs) hu hw, put_long va (serve hs) hw, get_long va (serve hs) hw⟩
  case atomics =>
    rintro ⟨hs, hu, hw⟩ ha i hi
    exact ⟨atomic_posts (atomic i hi) (serve hs) hw hu ha, fun ht => atomic_refused (atomic i hi) (serve hs) (.inr ht)⟩
  case silent =>
    intro hn hw
    have quiet := State.silentTo_of_not_serves (silent hn) hw
    exact ⟨if_pos quiet, if_pos quiet, fun i hi => atomic_silent (atomic i hi) quiet⟩
  case empty =>
    intro hs hw he
    exact ⟨fun ⟨hl, hp⟩ _ => put_unreached va (serve hs) hw hl hp (State.reached_of_empty he ..),
      fun hn _ => get_unreached va (serve hs) hw hn (State.reached_of_empty he ..), fun i hi => atomic_refused (atomic i hi) (serve hs) (.inl he)⟩
  case window =>
    intro hr
    refine ⟨_, statusWindowGet_answers hr, rfl, rfl, _, rfl, fun hb hp hq => ?_⟩
    have hc := h.ifs.code_lt
    rw [toNat_ifstat hb hp hq]
    have hbst : h.bst < 256 := hb
    have hprof : h.profile < 256 := hp
    refine ⟨?_, ?_, ?_, ?_⟩ <;> omega
  case silentRuns =>
    exact fun hn => ⟨runReceive_silent peer _ (silent hn), runReceive_silent peer _ (silent hn), runIdleClose_silent peer (silent hn)⟩
  case runs =>
    intro hs hf hp
    refine ⟨runReceive_stale (serve hs) hf hp, fun plain hk h1 h64 hlen hrsv htext => ?_, runReceive_ack (serve hs) x, fun hn hc => ?_,
      fun q hq hu => runRetryExhausted_effect hq hu⟩
    · have opens : run.flg.toNat < 2 → RunOpens s peer run plain := fun h2 => ⟨hk, ⟨h1, h64, hlen, h2, hrsv⟩, by rw [hrsv]; exact htext⟩
      refine ⟨fun hm h2 => runReceive_replay (serve hs) hf hp (opens h2) hm, fun hnew hroom => ⟨fun hb => ?_, fun op l y k o moves pl hb => ?_⟩⟩
      · exact runReceive_barrier (serve hs) hf hp (opens (by simp [hb])) hnew hroom hb
      · exact runReceive_reply (serve hs) hf hp (opens (by simp [hb])) hnew hroom hb
    · refine ⟨fun ha hseq => runIdleClose_sends hc hn (Bool.eq_false_iff.2 (mt (Peer.spent_iff _).1 ?_)), fun hsp => ?_⟩
      · rintro (h | h)
        · exact absurd (h.symm.trans ha) (by decide)
        · exact absurd hseq (not_lt.2 h)
      · exact ⟨runIdleClose_asks hc hn ((Peer.spent_iff _).2 hsp), runIdleClose_quiesces hc hn ((Peer.spent_iff _).2 hsp)⟩

end Sys2Proof.Machine
end

section
/-! Settles O58: the state after reset is the one in which nothing is listed. -/

namespace Sys2Proof.Machine

/-- Settles O58: every map of the state after reset is empty, so that every key reads as an unlisted one, and memory reads zero (log 1). -/
theorem resetValues : Obligations.ResetValues := by
  refine ⟨rfl, rfl, rfl, rfl, rfl, rfl, State.reset_wf, fun _ => rfl, fun _ => rfl, fun _ => rfl, fun _ => rfl, fun _ => ⟨rfl, rfl⟩, fun c k => ⟨rfl, rfl, fun r => ⟨?_, rfl⟩⟩⟩
  show (if r = 0 then 0 else 0) = (0 : Word)
  exact ite_self _

end Sys2Proof.Machine
end


section
/-! SUPPORT. The SPDM responder (03 R63 to R66, logs 5 and 40): how a request is judged, and what each request is answered. -/

namespace Sys2Proof.Machine

/-! ### What a request runs -/

theorem exec_getVersion_eq (c : Nat) (b : Bool) (s : State) : exec (.getVersion c b) s = execGetVersion c b s := rfl
theorem exec_getCapabilities_eq (a : Asker) (s : State) : exec (.getCapabilities a) s = execGetCapabilities a s := rfl
theorem exec_negotiateAlgorithms_eq (a : Asker) (l : List SpdmAlg) (s : State) : exec (.negotiateAlgorithms a l) s = execNegotiateAlgorithms a l s := rfl
theorem exec_getDigests_eq (a : Asker) (s : State) : exec (.getDigests a) s = execGetDigests a s := rfl
theorem exec_getCertificate_eq (a : Asker) (slot off len : Nat) (s : State) :
    exec (.getCertificate a slot off len) s = execGetCertificate a slot off len s := rfl
theorem exec_challenge_eq (a : Asker) (slot : Nat) (nonce : Word) (busy : Bool) (s : State) :
    exec (.challenge a slot nonce busy) s = execChallenge a slot nonce busy s := rfl
theorem exec_keyExchange_eq (a : Asker) (slot : Nat) (l : List Byte) (busy : Bool) (s : State) :
    exec (.keyExchange a slot l busy) s = execKeyExchange a slot l busy s := rfl
theorem exec_getMeasurements_eq (c : Nat) (o : Option Nat) (slot index : Nat) (signed : Bool) (nonce : Word) (busy : Bool) (s : State) :
    exec (.getMeasurements c o slot index signed nonce busy) s = execGetMeasurements c o slot index signed nonce busy s := rfl
theorem exec_finish_eq (c n : Nat) (mac : BitVec 384) (s : State) : exec (.finish c n mac) s = s.spdm c [(s.inSession c n false, .unexpectedRequest),
    (decide (mac = hmac384 (digestBytes (s.session n).secret) (s.session n).th), .decryptError)] (fun _ =>
      (s.updSession n (fun x => { x with established := true, th := x.th ++ [0xE5, 0x65] ++ digestBytes mac })).answer (.spdm c .finishRsp [])) := rfl
theorem exec_endSession_eq (c n : Nat) (s : State) : exec (.endSession c n) s = execEndSession c n s := rfl

/-! ### How a request is judged (R66) -/

/-- A request draws an ERROR, and nothing else changes. -/
def SpdmErrs (s : State) (c : Nat) (i : Instr) (e : SpdmErr) : Prop := exec i s = .next (s.answer (.spdmError c e))
/-- The security engine serves another connection's signature. -/
def State.SignsElsewhere (s : State) (c : Nat) : Prop := ∃ d, s.hub.signing = some d ∧ d ≠ c
/-- A request is answered, unless the security engine is at work for another connection. -/
def SpdmAnswers (s : State) (c : Nat) (i : Instr) (r : Reply) (ok : State → Prop) : Prop :=
  (s.SignsElsewhere c → SpdmErrs s c i .busy) ∧ (¬ s.SignsElsewhere c →
    ∃ t, exec i s = .next t ∧ KeepsRegsAndMemory s t ∧ t.hub.sent = s.hub.sent ++ [r] ∧ ok t)
/-- An answered request leaves its connection in a state. -/
def SpdmBecomes (s : State) (c : Nat) (i : Instr) (r : Reply) (z : Conn) : Prop := SpdmAnswers s c i r (fun t => t.conn c = z)
/-- An answer that is signed. -/
def SpdmSigns (s : State) (c : Nat) (i : Instr) (r : Reply) (z : Conn) : Prop :=
  SpdmAnswers s c i r (fun t => t.conn c = z ∧ t.hub.signing = some c)

theorem State.signsFor_iff (s : State) (c : Nat) : s.signsFor c = true ↔ s.SignsElsewhere c := by
  simp [State.signsFor, State.SignsElsewhere, Option.any_eq_true]
theorem State.responds_of {s : State} {c : Nat} (h : s.hub.ifs = .config ∨ s.hub.ifs = .locked ∨ s.hub.ifs = .run ∨ s.hub.ifs = .drain)
    (hc : c < 16) : s.responds c = true := Bool.and_eq_true_iff.2 ⟨s.serves_iff.2 h, decide_eq_true hc⟩
@[simp] theorem State.conn_answer (s : State) (r : Reply) (c : Nat) : (s.answer r).conn c = s.conn c := rfl
@[simp] theorem State.session_answer (s : State) (r : Reply) (n : Nat) : (s.answer r).session n = s.session n := rfl
@[simp] theorem State.conn_updConn (s : State) (c : Nat) (f : Conn → Conn) : (s.updConn c f).conn c = f (s.conn c) := SMap.get_upd_self ..
theorem State.conn_answer_updConn (s : State) (c : Nat) (f : Conn → Conn) (r : Reply) : ((s.updConn c f).answer r).conn c = f (s.conn c) :=
  s.conn_updConn c f
@[simp] theorem State.session_updSession (s : State) (n : Nat) (f : Session → Session) : (s.updSession n f).session n = f (s.session n) :=
  SMap.get_upd_self ..

section
variable {s : State} {c : Nat} (hr : s.responds c = true)
include hr

section
variable {i : Instr} {checks : List (Bool × SpdmErr)} {f : Unit → State} (hx : exec i s = s.spdm c checks f)
include hx
/-- The first check that fails gives the ERROR. -/
theorem spdmErrs_of {b : Bool} {e : SpdmErr} (h : checks.find? (fun x => !x.1) = some (b, e)) : SpdmErrs s c i e := by
  rw [SpdmErrs, hx, State.spdm, if_neg (by simp [hr]), List.find?_append, h]
  exact congrArg Host.Outcome.next (if_pos hr)
/-- A request that passes its checks is answered, or draws Busy. -/
theorem spdmAnswers_of {r : Reply} {ok : State → Prop} (h : ∀ x ∈ checks, x.1 = true) (hc : (f ()).cores = s.cores) (hm : (f ()).mem = s.mem)
    (hs : (f ()).hub.sent = s.hub.sent ++ [r]) (hok : ok (f ())) : SpdmAnswers s c i r ok := by
  have pass : checks.find? (fun x => !x.1) = none := List.find?_eq_none.2 (fun x hx => by simp [h x hx])
  rw [State.spdm, if_neg (by simp [hr]), List.find?_append, pass] at hx
  refine ⟨fun hb => ?_, fun hb => ⟨f (), ?_, keeps_of_eq hc hm, hs, hok⟩⟩
  · rw [(s.signsFor_iff c).2 hb] at hx
    exact hx.trans (congrArg Host.Outcome.next (if_pos hr))
  · rw [Bool.eq_false_iff.2 (mt (s.signsFor_iff c).1 hb)] at hx
    exact hx
end

/-! ### Versions, capabilities and algorithms (R63, R65) -/

theorem unsupportedRequest_errs (code : BitVec 8) : SpdmErrs s c (.spdmUnsupportedRequest c code) .unsupportedRequest :=
  congrArg Host.Outcome.next (if_pos hr)
theorem getVersion_inside : SpdmErrs s c (.getVersion c true) .unexpectedRequest := spdmErrs_of hr (exec_getVersion_eq ..) rfl
theorem getVersion_anew : SpdmAnswers s c (.getVersion c false) (.spdm c .version [0x12]) (fun t =>
    t.conn c = { st := .afterVersion, a := versionExchange } ∧ ∀ e ∈ t.hub.sessions, ¬ (e.2.live = true ∧ e.2.conn = c)) := by
  refine spdmAnswers_of hr (exec_getVersion_eq ..) (by simp) rfl rfl rfl ⟨State.conn_answer_updConn .., fun e he => ?_⟩
  have kept := (List.mem_filter.1 he).2
  rintro ⟨live, conn⟩
  simp [live, conn] at kept
/-- R65: what may stand only outside a session is refused within one. -/
theorem inSession_refused {n : Nat} {i : Instr} (slot off len : Nat) (nonce : Word) (busy : Bool) (l : List Byte) (algs : List SpdmAlg)
    (hi : i ∈ [Instr.getCapabilities ⟨c, some n⟩, .negotiateAlgorithms ⟨c, some n⟩ algs, .getDigests ⟨c, some n⟩, .getCertificate ⟨c, some n⟩ slot off len,
      .challenge ⟨c, some n⟩ slot nonce busy, .keyExchange ⟨c, some n⟩ slot l busy]) : SpdmErrs s c i .unexpectedRequest := by
  simp only [List.mem_cons, List.not_mem_nil, or_false] at hi
  rcases hi with rfl | rfl | rfl | rfl | rfl | rfl
  · exact spdmErrs_of hr (exec_getCapabilities_eq ..) rfl
  · exact spdmErrs_of hr (exec_negotiateAlgorithms_eq ..) rfl
  · exact spdmErrs_of hr (exec_getDigests_eq ..) rfl
  · exact spdmErrs_of hr (exec_getCertificate_eq ..) rfl
  · exact spdmErrs_of hr (exec_challenge_eq ..) rfl
  · exact spdmErrs_of hr (exec_keyExchange_eq ..) rfl
theorem getCapabilities_next (h : (s.conn c).st = .afterVersion) : SpdmBecomes s c (.getCapabilities ⟨c, none⟩) (.spdm c .capabilities spdmCaps)
    { s.conn c with st := .afterCaps, a := versionExchange ++ [0xE1, 0x61] ++ spdmCaps } :=
  spdmAnswers_of hr (exec_getCapabilities_eq ..) (by simp [outside, h]) rfl rfl rfl (State.conn_answer_updConn ..)
theorem getCapabilities_refused (h : (s.conn c).st ≠ .afterVersion) : SpdmErrs s c (.getCapabilities ⟨c, none⟩) .unexpectedRequest :=
  spdmErrs_of (b := false) hr (exec_getCapabilities_eq ..) (by simp [outside, h])
/-- The codes of the algorithms that are selected of those offered (R63). -/
def selectedAlgs (algs : List SpdmAlg) : List Byte := (spdmAlgs.filter algs.contains).map SpdmAlg.code
omit hr in
theorem exec_negotiateAlgorithms (algs : List SpdmAlg) : exec (.negotiateAlgorithms ⟨c, none⟩ algs) s =
    s.spdm c [outside none, (decide ((s.conn c).st = .afterCaps), .unexpectedRequest)] (fun _ => if (selectedAlgs algs).isEmpty then
        (s.updConn c (fun x => { x with st := .afterVersion })).answer (.spdmError c .negotiationFail)
      else (s.updConn c (fun x => { x with st := .negotiated, a := x.a ++ [0xE3] ++ algs.map SpdmAlg.code ++ [0x63] ++ selectedAlgs algs })).answer
        (.spdm c .algorithms (selectedAlgs algs))) := rfl
theorem negotiateAlgorithms_selects {algs : List SpdmAlg} (h : (s.conn c).st = .afterCaps) (ha : selectedAlgs algs ≠ []) :
    SpdmBecomes s c (.negotiateAlgorithms ⟨c, none⟩ algs) (.spdm c .algorithms (selectedAlgs algs))
      { s.conn c with st := .negotiated, a := (s.conn c).a ++ [0xE3] ++ algs.map SpdmAlg.code ++ [0x63] ++ selectedAlgs algs } := by
  have hx := exec_negotiateAlgorithms (s := s) (c := c) algs
  rw [if_neg (by simp [ha])] at hx
  exact spdmAnswers_of hr hx (by simp [outside, h]) rfl rfl rfl (State.conn_answer_updConn ..)
theorem negotiateAlgorithms_fails {algs : List SpdmAlg} (h : (s.conn c).st = .afterCaps) (ha : selectedAlgs algs = []) :
    SpdmBecomes s c (.negotiateAlgorithms ⟨c, none⟩ algs) (.spdmError c .negotiationFail) { s.conn c with st := .afterVersion } := by
  have hx := exec_negotiateAlgorithms (s := s) (c := c) algs
  rw [if_pos (by simp [ha])] at hx
  exact spdmAnswers_of hr hx (by simp [outside, h]) rfl rfl rfl (State.conn_answer_updConn ..)
theorem negotiateAlgorithms_refused (algs : List SpdmAlg) (h : (s.conn c).st ≠ .afterCaps) :
    SpdmErrs s c (.negotiateAlgorithms ⟨c, none⟩ algs) .unexpectedRequest := spdmErrs_of (b := false) hr (exec_negotiateAlgorithms_eq ..) (by simp [outside, h])

/-! ### Digests, certificates and challenges (R64, R66) -/

theorem unnegotiated_refused {i : Instr} (slot off len index : Nat) (nonce : Word) (busy : Bool) (l : List Byte) (h : (s.conn c).st ≠ .negotiated)
    (hi : i ∈ [Instr.getDigests ⟨c, none⟩, .getCertificate ⟨c, none⟩ slot off len, .challenge ⟨c, none⟩ slot nonce busy,
      .getMeasurements c none slot index true nonce busy, .keyExchange ⟨c, none⟩ slot l busy]) : SpdmErrs s c i .unexpectedRequest := by
  have hn : s.negotiated c = false := decide_eq_false h
  simp only [List.mem_cons, List.not_mem_nil, or_false] at hi
  rcases hi with rfl | rfl | rfl | rfl | rfl
  · exact spdmErrs_of (b := false) hr (exec_getDigests_eq ..) (by simp [outside, hn])
  · exact spdmErrs_of (b := false) hr (exec_getCertificate_eq ..) (by simp [outside, hn])
  · exact spdmErrs_of (b := false) hr (exec_challenge_eq ..) (by simp [outside, hn])
  · exact spdmErrs_of (b := false) hr (exec_getMeasurements_eq ..) (by simp [hn])
  · exact spdmErrs_of (b := false) hr (exec_keyExchange_eq ..) (by simp [outside, hn])
section
variable (h : (s.conn c).st = .negotiated)
include h
theorem getDigests_next : SpdmBecomes s c (.getDigests ⟨c, none⟩) (.spdm c .digests (digestBytes (sha384 s.chain)))
    { s.conn c with digests := true, b := (s.conn c).b ++ [0x81, 0x01] ++ digestBytes (sha384 s.chain) } :=
  spdmAnswers_of hr (exec_getDigests_eq ..) (by simp [outside, State.negotiated, h]) rfl rfl rfl (State.conn_answer_updConn ..)
theorem otherSlot_refused {i : Instr} {slot : Nat} (off len : Nat) (nonce : Word) (busy : Bool) (hs : slot ≠ 0)
    (hi : i ∈ [Instr.getCertificate ⟨c, none⟩ slot off len, .challenge ⟨c, none⟩ slot nonce busy]) : SpdmErrs s c i .invalidRequest := by
  have hn : s.negotiated c = true := decide_eq_true h
  simp only [List.mem_cons, List.not_mem_nil, or_false] at hi
  rcases hi with rfl | rfl
  · exact spdmErrs_of (b := false) hr (exec_getCertificate_eq ..) (by simp [outside, hn, hs])
  · exact spdmErrs_of (b := false) hr (exec_challenge_eq ..) (by simp [outside, hn, hs])
theorem getCertificate_next (off len : Nat) : let piece := (s.chain.drop off).take (min len 1024)
    SpdmBecomes s c (.getCertificate ⟨c, none⟩ 0 off len) (.spdm c .certificate piece)
      { s.conn c with b := (s.conn c).b ++ [0x82] ++ leBytes 1 0 ++ leBytes 2 off ++ leBytes 2 len ++ [0x02] ++ piece } :=
  spdmAnswers_of hr (exec_getCertificate_eq ..) (by simp [outside, State.negotiated, h]) rfl rfl rfl (State.conn_answer_updConn ..)
theorem challenge_busy (nonce : Word) : SpdmErrs s c (.challenge ⟨c, none⟩ 0 nonce true) .busy :=
  spdmErrs_of (b := false) hr (exec_challenge_eq ..) (by simp [outside, State.negotiated, h])
/-- R64, R66: the signature is over messages A, B and C, of which B and C begin anew. -/
theorem challenge_signs (nonce : Word) : ∃ own, own.length = 8 ∧ let body := digestBytes (sha384 s.chain) ++ own
    SpdmSigns s c (.challenge ⟨c, none⟩ 0 nonce false) (.spdm c .challengeAuth (body ++ s.signed ((s.conn c).a ++ (s.conn c).b ++
      ((s.conn c).c ++ [0x83] ++ leBytes 1 0 ++ leBytes 8 nonce.toNat ++ [0x03] ++ body)))) { s.conn c with b := [], c := [] } :=
  ⟨leBytes 8 (Config.freeWord s.fresh).toNat, leBytes_length .., spdmAnswers_of hr (exec_challenge_eq ..) (by simp [outside, State.negotiated, h]) rfl rfl rfl
    ⟨State.conn_answer_updConn .., rfl⟩⟩

/-! ### Key exchange (R65, R66) -/

omit h in
theorem keyExchange_early (l : List Byte) (hd : (s.conn c).digests = false) : SpdmErrs s c (.keyExchange ⟨c, none⟩ 0 l false) .unexpectedRequest :=
  spdmErrs_of (b := false) hr (exec_keyExchange_eq ..) (by simp [outside, hd])
section
variable (l : List Byte) (hd : (s.conn c).digests = true)
include hd
theorem keyExchange_otherSlot {slot : Nat} (busy : Bool) (hs : slot ≠ 0) : SpdmErrs s c (.keyExchange ⟨c, none⟩ slot l busy) .invalidRequest :=
  spdmErrs_of (b := false) hr (exec_keyExchange_eq ..) (by simp [outside, State.negotiated, h, hd, hs])
theorem keyExchange_full (busy : Bool) (ha : ∀ m < 64, (s.session m).live = true) :
    SpdmErrs s c (.keyExchange ⟨c, none⟩ 0 l busy) .sessionLimitExceeded := by
  have none : s.freeSession = none := List.find?_eq_none.2 (fun m hm => by simp [ha m (List.mem_range.1 hm)])
  exact spdmErrs_of (b := false) hr (exec_keyExchange_eq ..) (by simp [outside, State.negotiated, h, hd, none])
omit hr h hd in
/-- The lowest number whose session is not live is the free one (R63). -/
theorem State.freeSession_of {n : Nat} (hn : n < 64) (hf : (s.session n).live = false) (ha : ∀ m < n, (s.session m).live = true) :
    s.freeSession = some n := by
  refine List.find?_range_eq_some.2 ⟨by simp [hf], List.mem_range.2 hn, fun m hm => ?_⟩
  simp [ha m hm]
variable {n : Nat} (hn : n < 64) (hf : (s.session n).live = false) (ha : ∀ m < n, (s.session m).live = true)
include hn hf ha
theorem keyExchange_busy : SpdmErrs s c (.keyExchange ⟨c, none⟩ 0 l true) .busy :=
  spdmErrs_of (b := false) hr (exec_keyExchange_eq ..) (by simp [outside, State.negotiated, h, hd, State.freeSession_of hn hf ha])
/-- The handshake of a new session: TH takes the request and the response with its signature. -/
theorem keyExchange_begins : ∃ own, let rsp := leBytes 2 n ++ own
    let th := (s.conn c).a ++ digestBytes (sha384 s.chain) ++ [0xE4] ++ leBytes 1 0 ++ l ++ [0x64] ++ rsp
    SpdmAnswers s c (.keyExchange ⟨c, none⟩ 0 l false) (.spdm c .keyExchangeRsp (rsp ++ s.signed th)) (fun t => let z := t.session n
      z.live = true ∧ z.conn = c ∧ z.established = false ∧ z.th = th ++ s.signed th ∧ t.hub.signing = some c) := by
  have free := State.freeSession_of hn hf ha
  refine ⟨Config.spdmPublic s.fresh, spdmAnswers_of hr (exec_keyExchange_eq ..) (by simp [outside, State.negotiated, h, hd, free]) rfl rfl ?_ ?_⟩
  · rw [free]
    rfl
  · rw [free]
    simp only [State.session_answer, Option.getD_some, State.session_updSession, true_and]
    rfl
end
end

/-! ### Measurements (R64) -/

/-- GET_MEASUREMENTS stands outside a session, or in an established one (R65). -/
def State.mayMeasure (s : State) (c : Nat) (o : Option Nat) : Bool :=
  match o with
  | none => s.negotiated c
  | some n => s.inSession c n true
omit hr in
theorem exec_getMeasurements_of (o : Option Nat) (slot index : Nat) (signed : Bool) (nonce : Word) (busy : Bool) :
    exec (.getMeasurements c o slot index signed nonce busy) s = s.spdm c [(s.mayMeasure c o, .unexpectedRequest),
      (decide (slot = 0) && (s.measurements index).isSome, .invalidRequest), (!busy, .busy)] (fun _ =>
    let body := (s.measurements index).getD []
    let l1 := (s.conn c).l1 ++ measureExchange slot index signed nonce body
    if signed then ((s.sign c).updConn c (fun x => { x with l1 := [] })).answer (.spdm c .measurements (body ++ s.signed l1))
    else (s.updConn c (fun x => { x with l1 := l1 })).answer (.spdm c .measurements body)) := by cases o <;> rfl
theorem getMeasurements_unexpected {o : Option Nat} (slot index : Nat) (nonce : Word) (busy : Bool) (h : s.mayMeasure c o = false) :
    SpdmErrs s c (.getMeasurements c o slot index true nonce busy) .unexpectedRequest :=
  spdmErrs_of (b := false) hr (exec_getMeasurements_of ..) (by simp [h])
section
variable {o : Option Nat} (hp : s.mayMeasure c o = true)
include hp
theorem getMeasurements_invalid {slot index : Nat} (nonce : Word) (busy : Bool) (h : slot ≠ 0 ∨ s.measurements index = none) :
    SpdmErrs s c (.getMeasurements c o slot index true nonce busy) .invalidRequest := by
  refine spdmErrs_of (b := false) hr (exec_getMeasurements_of ..) ?_
  rcases h with h | h <;> simp [hp, h]
section
variable {index : Nat} {m : List Byte} (hm : s.measurements index = some m) (nonce : Word)
include hm
theorem getMeasurements_busy : SpdmErrs s c (.getMeasurements c o 0 index true nonce true) .busy :=
  spdmErrs_of (b := false) hr (exec_getMeasurements_of ..) (by simp [hp, hm])
theorem getMeasurements_signed : SpdmSigns s c (.getMeasurements c o 0 index true nonce false)
    (.spdm c .measurements (m ++ s.signed ((s.conn c).l1 ++ measureExchange 0 index true nonce m))) { s.conn c with l1 := [] } := by
  have hx := exec_getMeasurements_of (s := s) (c := c) o 0 index true nonce false
  rw [hm] at hx
  exact spdmAnswers_of hr hx (by simp [hp]) rfl rfl rfl ⟨State.conn_answer_updConn .., rfl⟩
theorem getMeasurements_unsigned : SpdmBecomes s c (.getMeasurements c o 0 index false nonce false) (.spdm c .measurements m)
    { s.conn c with l1 := (s.conn c).l1 ++ measureExchange 0 index false nonce m } := by
  have hx := exec_getMeasurements_of (s := s) (c := c) o 0 index false nonce false
  rw [hm] at hx
  exact spdmAnswers_of hr hx (by simp [hp]) rfl rfl rfl (State.conn_answer_updConn ..)
end
end

/-! ### Sessions established and ended (R65, R67) -/

omit hr in
theorem State.inSession_iff (s : State) (c n : Nat) (b : Bool) : s.inSession c n b = true ↔
    (s.session n).live = true ∧ (s.session n).conn = c ∧ (s.session n).established = b := by
  simp [State.inSession, and_assoc]
section
variable {n : Nat} (h : s.inSession c n false = true)
include h
theorem finish_establishes {mac : BitVec 384} (hm : mac = hmac384 (digestBytes (s.session n).secret) (s.session n).th) :
    SpdmAnswers s c (.finish c n mac) (.spdm c .finishRsp []) (fun t => (t.session n).established = true ∧ (t.session n).live = true) := by
  refine spdmAnswers_of hr (exec_finish_eq ..) (by simp [h, hm]) rfl rfl rfl ?_
  rw [State.session_answer, State.session_updSession]
  exact ⟨rfl, ((s.inSession_iff c n false).1 h).1⟩
theorem finish_wrongMac {mac : BitVec 384} (hm : mac ≠ hmac384 (digestBytes (s.session n).secret) (s.session n).th) :
    SpdmErrs s c (.finish c n mac) .decryptError := spdmErrs_of (b := false) hr (exec_finish_eq ..) (by simp [h, hm])
end
theorem finish_unexpected {n : Nat} (mac : BitVec 384) (h : s.inSession c n false = false) : SpdmErrs s c (.finish c n mac) .unexpectedRequest :=
  spdmErrs_of (b := false) hr (exec_finish_eq ..) (by simp [h])
omit hr in
/-- A channel that closes keeps its session, and is closing where it still has something to carry out (R84). -/
theorem Channel.close_some {k k' : Channel} (h : k.close = some k') : k'.closing = true ∧ k'.session = k.session ∧ k'.world = k.world := by
  unfold Channel.close at h
  split at h
  · cases h
  · cases h
    exact ⟨rfl, rfl, rfl⟩
omit hr in
theorem mem_closeChannels {l : SMap Channel} {hit : Nat × Channel → Bool} {e : Nat × Channel} (h : e ∈ closeChannels l hit) :
    (e ∈ l ∧ hit e = false) ∨ ∃ k, (e.1, k) ∈ l ∧ hit (e.1, k) = true ∧ k.close = some e.2 := by
  obtain ⟨x, hx, he⟩ := List.mem_filterMap.1 h
  split at he
  · rename_i hh
    obtain ⟨k, hk, rfl⟩ := Option.map_eq_some_iff.1 he
    exact .inr ⟨x.2, hx, hh, hk⟩
  · rename_i hh
    cases he
    exact .inl ⟨hx, by simpa using hh⟩
/-- R67: the channels of a session that ends close. -/
theorem endSession_ends {n : Nat} (h : s.inSession c n true = true) : SpdmAnswers s c (.endSession c n) (.spdm c .endSessionAck []) (fun t =>
    (∀ e ∈ t.hub.sessions, e.1 ≠ n) ∧ ∀ e ∈ t.hub.channels, e.2.session = n → e.2.closing = true) := by
  obtain ⟨live, -, -⟩ := (s.inSession_iff c n true).1 h
  have listed : (n, s.session n) ∈ s.hub.sessions := SMap.mem_of_get_ne (fun e => by rw [State.session, e] at live; cases live)
  refine spdmAnswers_of hr (exec_endSession_eq ..) (by simp [h]) rfl rfl rfl ⟨fun e he => ?_, fun e he hn => ?_⟩
  · simpa using (List.mem_filter.1 he).2
  · rcases mem_closeChannels he with ⟨-, hh⟩ | ⟨k, -, -, hk⟩
    · simpa [hn] using List.any_eq_false.1 hh _ listed
    · exact (Channel.close_some hk).1
theorem endSession_unexpected {n : Nat} (h : s.inSession c n true = false) : SpdmErrs s c (.endSession c n) .unexpectedRequest :=
  spdmErrs_of (b := false) hr (exec_endSession_eq ..) (by simp [h])
end

end Sys2Proof.Machine
end


section
/-! Settles O49: each request is answered as 03 R63 to R66 say, by the theorems on the requests. -/

namespace Sys2Proof.Machine

theorem append_measureExchange (l1 : List Byte) (slot index : Nat) (signed : Bool) (nonce : Word) (body : List Byte) :
    l1 ++ measureExchange slot index signed nonce body =
      l1 ++ [0xE0] ++ leBytes 1 slot ++ leBytes 1 index ++ leBytes 1 signed.toNat ++ leBytes 8 nonce.toNat ++ [0x60] ++ body := by
  simp only [measureExchange, List.append_assoc]
/-- Settles O49, by one theorem for each request and each state of its connection or session. -/
theorem attestationAnswers : Obligations.AttestationAnswers := by
  intro s c n slot off len index nonce busy l algs mac code _ _ _ up _ _ _ _ _ _ _ _ _ _ _ inside ⟨hi, hc⟩
  have hr : s.responds c = true := State.responds_of hi hc
  have established : inside ↔ s.inSession c n true = true := (s.inSession_iff c n true).symm
  refine ⟨unsupportedRequest_errs hr code, getVersion_inside hr, getVersion_anew hr, fun i => inSession_refused hr slot off len nonce busy l algs, ?_, ?_,
    fun h i => unnegotiated_refused hr slot off len index nonce busy l h, fun h => ⟨getDigests_next hr h, fun hs i => otherSlot_refused hr h off len nonce busy hs,
      getCertificate_next hr h off len, challenge_busy hr h nonce, challenge_signs hr h nonce, keyExchange_early hr l, fun hd =>
        ⟨keyExchange_otherSlot hr h l hd busy, keyExchange_full hr h l hd busy, fun hn hf ha =>
          ⟨keyExchange_busy hr h l hd hn hf ha, keyExchange_begins hr h l hd hn hf ha⟩⟩⟩, fun o ho => ?_, fun h => ?_, ?_, ?_⟩
  · split
    · exact getCapabilities_next hr ‹_›
    · exact getCapabilities_refused hr ‹_›
  · split
    · exact ⟨negotiateAlgorithms_selects hr ‹_›, negotiateAlgorithms_fails hr ‹_›⟩
    · exact negotiateAlgorithms_refused hr algs ‹_›
  · have may : s.mayMeasure c o = true := by
      rcases ho with ⟨rfl, h⟩ | ⟨rfl, h⟩
      · exact decide_eq_true h
      · exact established.1 h
    refine ⟨getMeasurements_invalid hr may nonce busy, fun m hm => ⟨getMeasurements_busy hr may hm nonce, ?_, ?_⟩⟩
    · have signs := getMeasurements_signed hr may hm nonce
      rwa [append_measureExchange] at signs
    · have becomes := getMeasurements_unsigned hr may hm nonce
      rwa [append_measureExchange] at becomes
  · exact getMeasurements_unexpected hr slot index nonce busy (Bool.eq_false_iff.2 (mt established.2 h))
  · split
    · exact ⟨finish_establishes hr ((s.inSession_iff c n false).2 ‹_›), finish_wrongMac hr ((s.inSession_iff c n false).2 ‹_›)⟩
    · exact finish_unexpected hr mac (Bool.eq_false_iff.2 (mt (s.inSession_iff c n false).1 ‹_›))
  · split
    · exact endSession_ends hr (established.1 ‹_›)
    · exact endSession_unexpected hr (Bool.eq_false_iff.2 (mt established.2 ‹_›))

end Sys2Proof.Machine
end

section
/-! SUPPORT. The messages of a channel (03 R68, R69; 04 R84, R86): how one is accepted, and what an accepted one does. -/

namespace Sys2Proof.Machine

/-! ### A channel and its changes -/

@[simp] theorem State.channel_updChannel (s : State) (c : Nat) (f : Channel → Channel) : (s.updChannel c f).channel c = f (s.channel c) :=
  SMap.get_upd_self ..
section
variable (s : State) (c : Nat) (f : Channel → Channel)
theorem State.worlds_updChannel : (s.updChannel c f).worlds = s.worlds := rfl
theorem State.accesses_updChannel : (s.updChannel c f).accesses = s.accesses := rfl
theorem State.queue_updChannel : (s.updChannel c f).hub.queue = s.hub.queue := rfl
theorem keeps_updChannel : KeepsRegsAndMemory s (s.updChannel c f) := keeps_of_eq rfl rfl
end
theorem SMap.mem_set {α : Type} {m : SMap α} {k : Nat} {x : α} {e : Nat × α} (h : e ∈ SMap.set m k x) : e = (k, x) ∨ (e ∈ m ∧ e.1 ≠ k) := by
  rcases SMap.mem_insert _ _ _ e h with h | h
  · exact .inl h
  · exact .inr ⟨(List.mem_filter.1 (SMap.erase_eq_filter m k ▸ h)).1, SMap.keys_erase m k e h⟩
/-- Where a key is listed with one value only, it reads as that. -/
theorem SMap.get_of_mem {α : Type} {d : α} {m : SMap α} {k : Nat} {x : α} (h : (k, x) ∈ m) (hu : ∀ e ∈ m, e.1 = k → e.2 = x) :
    SMap.get d m k = x := by
  induction m with
  | nil => cases h
  | cons e r ih =>
    rw [SMap.get]
    split
    · exact hu e (List.mem_cons_self ..) ‹_›
    · rename_i hne
      rcases List.mem_cons.1 h with rfl | h
      · exact absurd rfl hne
      · exact ih h (fun e he => hu e (List.mem_cons_of_mem _ he))

/-! ### Accepting a message (R68, R69) -/

/-- The header is one that the channel takes. -/
def ChannelTakes (k : Channel) (m : ChMsg) : Prop :=
  k.dead = false ∧ k.closing = false ∧ k.world = m.world.toNat ∧ m.rsv0 = 0 ∧ m.rsv1 = 0 ∧ m.len.toNat = m.body.length ∧ m.body.length ≤ 65536 ∧
    m.ctr.toNat < 0x80000000 ∧ ∀ l, k.last = some l → l.toNat < m.ctr.toNat
/-- The payload, where the channel's key opens it. -/
def Channel.opens (k : Channel) (m : ChMsg) : Option (List Byte) :=
  gcmOpen k.key (BitVec.ofNat 96 (k.salt.toNat * 2 ^ 32 + m.ctr.toNat)) (msgHead m) m.body m.tag
/-- The channel of an accepted message. -/
def Channel.used (k : Channel) (m : ChMsg) : Channel := { k with last := some m.ctr, dead := decide (m.ctr.toNat = 0x7FFFFFFF) }
def State.useCtr (s : State) (m : ChMsg) : State := s.updChannel m.chid.toNat (fun k => k.used m)
/-- The message's CTR is the channel's last, and no wrong tag is counted. -/
def ChannelUsed (m : ChMsg) (k c : Channel) : Prop := c.last = some m.ctr ∧ (c.dead = true ↔ m.ctr.toNat = 0x7FFFFFFF) ∧ c.fails = k.fails
theorem channelUsed_of {m : ChMsg} {k c : Channel} (hl : c.last = (k.used m).last) (hd : c.dead = (k.used m).dead) (hf : c.fails = k.fails) :
    ChannelUsed m k c := ⟨hl, by rw [hd]; exact decide_eq_true_iff, hf⟩
/-- The state in which a message leaves its channel's device. -/
def State.hear (s : State) (m : ChMsg) (kind : Byte) (f : State → List Byte → State) : State :=
  match s.accept m kind with
  | .error t => t
  | .ok (t, l) => f t l
theorem exec_channelPut_status {m : ChMsg} (h : m.kind = 5) (s : State) :
    exec (.channelPut m) s = .next (s.hear m 5 (fun t _ => t.statusReply m.chid.toNat)) := by
  show execChannelPut m s = _
  rw [execChannelPut, if_pos h, State.hear]
  cases s.accept m 5 <;> rfl
theorem exec_channelPut_put {m : ChMsg} (h : m.kind = 1) (s : State) : exec (.channelPut m) s = .next (s.hear m 1 (fun t l =>
    t.channelJob m.chid.toNat (.put (BitVec.ofNat 64 (leNat (l.take 8))) (l.drop 8)))) := by
  show execChannelPut m s = _
  rw [execChannelPut, if_neg (by rw [h]; decide), State.hear]
  cases s.accept m 1 <;> rfl
/-- A payload of command packets is a queue's number, six zero bytes and 1 to 1,023 packets (R84). -/
theorem exec_commandPacketMessage_eq (m : ChMsg) (s : State) : exec (.commandPacketMessage m) s = .next (s.hear m 2 (fun t l =>
    if l.length = 8 + 64 * ((l.length - 8) / 64) ∧ 1 ≤ (l.length - 8) / 64 ∧ (l.length - 8) / 64 ≤ 1023 ∧ leNat ((l.drop 2).take 6) = 0 then
      t.channelJob m.chid.toNat (.packets (leNat (l.take 2)) (l.drop 8)) else t)) := by
  show execCommandPacketMessage m s = _
  rw [execCommandPacketMessage, State.hear]
  cases s.accept m 2 <;> rfl
theorem exec_tailWrite_eq (m : ChMsg) (s : State) : exec (.tailWrite m) s = .next (s.hear m 3 (fun t l =>
    if l.length = 8 ∧ leNat ((l.drop 2).take 2) = 0 then
      t.channelJob m.chid.toNat (.tail (leNat (l.take 2)) (BitVec.ofNat 32 (leNat (l.drop 4)))) else t)) := by
  show execTailWrite m s = _
  rw [execTailWrite, State.hear]
  cases s.accept m 3 <;> rfl
theorem exec_heartbeat_eq (m : ChMsg) (s : State) : exec (.heartbeat m) s = .next (s.hear m 4 (fun t _ =>
    t.updSession (t.channel m.chid.toNat).session (fun x => { x with beat := true }))) := by
  show execHeartbeat m s = _
  rw [execHeartbeat, State.hear]
  cases s.accept m 4 <;> rfl
theorem exec_channelClose_eq (m : ChMsg) (s : State) : exec (.channelClose m) s = .next (s.hear m 6 (fun t _ =>
    t.updHub (fun h => { h with channels := closeChannels h.channels (fun e => decide (e.1 = m.chid.toNat)) }))) := by
  show execChannelClose m s = _
  rw [execChannelClose, State.hear]
  cases s.accept m 6 <;> rfl
/-- A message of a channel, with its kind. -/
def ChannelKind (m : ChMsg) (i : Instr × Byte) : Prop := i ∈
  [(.channelPut m, 1), (.commandPacketMessage m, 2), (.tailWrite m, 3), (.heartbeat m, 4), (.channelPut m, 5), (.channelClose m, 6)]
theorem exec_of_kind {m : ChMsg} {i : Instr × Byte} (hi : ChannelKind m i) (hk : m.kind = i.2) (s : State) :
    ∃ f, exec i.1 s = .next (s.hear m i.2 f) := by
  simp only [ChannelKind, List.mem_cons, List.not_mem_nil, or_false] at hi
  rcases hi with rfl | rfl | rfl | rfl | rfl | rfl
  · exact ⟨_, exec_channelPut_put hk s⟩
  · exact ⟨_, exec_commandPacketMessage_eq m s⟩
  · exact ⟨_, exec_tailWrite_eq m s⟩
  · exact ⟨_, exec_heartbeat_eq m s⟩
  · exact ⟨_, exec_channelPut_status hk s⟩
  · exact ⟨_, exec_channelClose_eq m s⟩

section
variable {s : State} {m : ChMsg} (hs : s.serves = true) (hl : (s.channel m.chid.toNat).live = true)

include hl in
theorem headOk_iff : s.headOk m = true ↔ ChannelTakes (s.channel m.chid.toNat) m := by
  unfold State.headOk ChannelTakes
  generalize s.channel m.chid.toNat = k at hl
  cases last : k.last <;> simp [hl, last, and_assoc]
include hl in
theorem refuseMsg_eq : s.refuseMsg m = s.updChannel m.chid.toNat (fun c => { c with refused := c.refused + 1 }) := if_pos hl
/-- The state after a wrong tag. -/
def State.countTag (s : State) (m : ChMsg) : State :=
  (s.refuseMsg m).updChannel m.chid.toNat (fun c => { c with fails := c.fails + 1, dead := c.dead || decide (3 ≤ c.fails + 1) })
include hs in
theorem accept_unfit (h : s.headOk m = false) : s.accept m m.kind = .error (s.refuseMsg m) := by
  rw [State.accept, if_neg (by simp [hs]), if_pos (by simp [h])]
include hs in
theorem accept_wrongTag (h : s.headOk m = true) (ho : (s.channel m.chid.toNat).opens m = none) : s.accept m m.kind =
    .error (if (s.channel m.chid.toNat).fails + 1 = 3 then (s.countTag m).tell (.channelDead m.chid.toNat) else s.countTag m) := by
  rw [Channel.opens] at ho
  rw [State.accept, if_neg (by simp [hs]), if_neg (by simp [h])]
  dsimp only
  rw [ho]
  rfl
include hs in
theorem accept_right (h : s.headOk m = true) {plain : List Byte} (ho : (s.channel m.chid.toNat).opens m = some plain) :
    s.accept m m.kind = .ok (s.useCtr m, plain) := by
  rw [Channel.opens] at ho
  rw [State.accept, if_neg (by simp [hs]), if_neg (by simp [h])]
  dsimp only
  rw [ho]
  rfl
include hl in
theorem channel_countTag (hd : (s.channel m.chid.toNat).dead = false) : let c := (s.countTag m).channel m.chid.toNat
    c.refused = (s.channel m.chid.toNat).refused + 1 ∧ c.fails = (s.channel m.chid.toNat).fails + 1 ∧ c.last = (s.channel m.chid.toNat).last ∧
      (c.dead = true ↔ 3 ≤ (s.channel m.chid.toNat).fails + 1) := by
  dsimp only
  rw [State.countTag, refuseMsg_eq hl, State.channel_updChannel, State.channel_updChannel]
  exact ⟨rfl, rfl, rfl, by simp [hd]⟩
include hl in
theorem countTag_keeps : KeepsRegsAndMemory s (s.countTag m) := by
  rw [State.countTag, refuseMsg_eq hl]
  exact keeps_of_eq rfl rfl
variable {i : Instr × Byte} (hi : ChannelKind m i) (hk : m.kind = i.2)
include hs hl hi hk
/-- R69: a header that its channel does not take is refused without counting as a wrong tag (log 41). -/
theorem message_unfit (h : ¬ ChannelTakes (s.channel m.chid.toNat) m) : Does s i.1 (fun t =>
    t.channel m.chid.toNat = { s.channel m.chid.toNat with refused := (s.channel m.chid.toNat).refused + 1 }) := by
  obtain ⟨f, hx⟩ := exec_of_kind hi hk s
  rw [State.hear, ← hk, accept_unfit hs (Bool.eq_false_iff.2 (mt (headOk_iff hl).1 h)), refuseMsg_eq hl] at hx
  exact ⟨_, hx, keeps_of_eq rfl rfl, State.channel_updChannel ..⟩
/-- R69: after the third wrong tag the channel is DEAD. -/
theorem message_wrongTag (h : ChannelTakes (s.channel m.chid.toNat) m) (ho : (s.channel m.chid.toNat).opens m = none) : Does s i.1 (fun t =>
    let c := t.channel m.chid.toNat
    c.refused = (s.channel m.chid.toNat).refused + 1 ∧ c.fails = (s.channel m.chid.toNat).fails + 1 ∧ c.last = (s.channel m.chid.toNat).last ∧
      (c.dead = true ↔ 3 ≤ (s.channel m.chid.toNat).fails + 1)) := by
  obtain ⟨f, hx⟩ := exec_of_kind hi hk s
  rw [State.hear, ← hk, accept_wrongTag hs ((headOk_iff hl).2 h) ho] at hx
  dsimp only at hx
  split at hx
  · exact ⟨_, hx, keeps_trans (countTag_keeps hl) (keeps_of_eq rfl rfl), channel_countTag hl h.1⟩
  · exact ⟨_, hx, countTag_keeps hl, channel_countTag hl h.1⟩
end

section
variable {s : State} {m : ChMsg} (hs : s.serves = true) (hl : (s.channel m.chid.toNat).live = true) (h : ChannelTakes (s.channel m.chid.toNat) m)
  {plain : List Byte} (ho : (s.channel m.chid.toNat).opens m = some plain)
include hs hl h ho
/-- A message that is right uses its CTR, and does what it asks for. -/
theorem hear_right {kind : Byte} (hk : m.kind = kind) (f : State → List Byte → State) : s.hear m kind f = f (s.useCtr m) plain := by
  rw [State.hear, ← hk, accept_right hs ((headOk_iff hl).2 h) ho]
end
@[simp] theorem channel_useCtr (s : State) (m : ChMsg) : (s.useCtr m).channel m.chid.toNat = (s.channel m.chid.toNat).used m := State.channel_updChannel ..

/-! ### The jobs of a channel (R84) -/

/-- A job that is carried out. -/
def State.runJob (s : State) (ch w : Nat) : ChJob → State
  | .put va l => s.channelWrite ch w (l.zipIdx.map (fun b => (va.toNat + b.2, b.1)))
  | .packets q l =>
    let x := s.queueAt w q
    if q ≥ 16 || !x.present then s.tell (.qnone w q)
    else (s.updChannel ch (fun c => { c with jobs := .tail q (x.tail + BitVec.ofNat 32 (l.length / 64)) :: c.jobs })).channelWrite ch w
      (l.zipIdx.map (fun b => (x.slotAddr (x.tail.toNat + b.2 / 64) + b.2 % 64, b.1)))
  | .tail q t => s.writeTail w q t
  | .close => s.updHub (fun h => { h with channels := SMap.erase h.channels ch })
theorem channelStep_next {s : State} {ch : Nat} {j : ChJob} {r : List ChJob} (hb : (s.channel ch).busy = none) (hj : (s.channel ch).jobs = j :: r) :
    s.channelStep ch = (s.updChannel ch (fun c => { c with jobs := r })).runJob ch (s.channel ch).world j := by
  unfold State.channelStep
  simp only [hb, hj]
  cases j <;> rfl
/-- A job stands behind the earlier ones while a put of the channel is in progress. -/
theorem channelJob_behind {s : State} {ch : Nat} (j : ChJob) {op : Nat} (hb : (s.channel ch).busy = some op) :
    s.channelJob ch j = s.updChannel ch (fun c => { c with jobs := c.jobs ++ [j] }) := by
  have busy : ((s.updChannel ch (fun c => { c with jobs := c.jobs ++ [j] })).channel ch).busy = some op := by rw [State.channel_updChannel]; exact hb
  unfold State.channelJob State.channelStep
  simp only [busy]
/-- The state in which a channel has taken its one job out. -/
def State.takeJob (s : State) (ch : Nat) (j : ChJob) : State :=
  (s.updChannel ch (fun c => { c with jobs := c.jobs ++ [j] })).updChannel ch (fun c => { c with jobs := [] })
/-- A channel with nothing more to carry out. -/
def Channel.emptied (k : Channel) : Channel := { k with jobs := [] }
theorem channel_takeJob (s : State) (ch : Nat) (j : ChJob) : (s.takeJob ch j).channel ch = (s.channel ch).emptied := by
  rw [State.takeJob, State.channel_updChannel, State.channel_updChannel]
  rfl
/-- An idle channel carries a job out at once. -/
theorem channelJob_idle {s : State} {ch : Nat} (j : ChJob) (hb : (s.channel ch).busy = none) (hj : (s.channel ch).jobs = []) :
    s.channelJob ch j = (s.takeJob ch j).runJob ch (s.channel ch).world j := by
  rw [State.channelJob, channelStep_next (j := j) (r := []) (by rw [State.channel_updChannel]; exact hb) (by rw [State.channel_updChannel, hj]; rfl),
    State.channel_updChannel]
  rfl

/-! ### A put of a channel (R84, log 10) -/

/-- An operation that ends silently changes the list of operations, and which put its channel waits for. -/
theorem State.finishOp_of_silent {s : State} {op : Nat} {o : HostOp} (h : s.hub.ops.find? (fun e => decide (e.1 = op)) = some (op, o))
    (hw : o.waiting = 0) (hp : o.peer = none) (hs : o.silent = true) : s.finishOp op = s.updHub (fun h =>
      { h with ops := SMap.erase h.ops op
               channels := h.channels.map (fun c : Nat × Channel => (c.1, { c.2 with busy := if c.2.busy = some op then none else c.2.busy })) }) := by
  unfold State.finishOp
  rw [h]
  simp only [hw, hp, hs]
  rfl
/-- The bytes of a put that translate, at their physical addresses. -/
def State.reachedCells (s : State) (w : Nat) (cells : List (Nat × Byte)) : List Host.Cell :=
  cells.filterMap (fun c => (translate (s.world w).windows c.1 1 .wr).map (fun pa => (pa, c.2)))
theorem writeParts_not_fabric (l : List Host.Cell) : ∀ x ∈ writeParts l, x.2.2.isFabric = false := by
  intro x hx
  obtain ⟨g, -, rfl⟩ := List.mem_map.1 hx
  rfl
/-- A silent operation posts its parts; of its channel only what it waits for changes. -/
theorem State.beginOp_silent (s : State) {o : HostOp} {l : List (Nat × Nat × Act)} (h : ∀ x ∈ l, x.2.2.isFabric = false)
    (hp : o.peer = none) (hs : o.silent = true) (ch : Nat) : ∃ ys, (s.beginOp o l).accesses = s.accesses ++ ys ∧
      List.Forall₂ (fun y x => y.isPart s.seqno o.world x) ys l ∧ KeepsRegsAndMemory s (s.beginOp o l) ∧
      ∃ b, (s.beginOp o l).channel ch = { s.channel ch with busy := b } := by
  obtain ⟨ys, hacc, hys, hhub, hk⟩ := State.postParts_parts s.seqno o.world h (s.enrolled o l.length)
  have listed : ((s.enrolled o l.length).postParts s.seqno o.world l).hub.ops.find? (fun e => decide (e.1 = s.seqno)) =
      some (s.seqno, { o with waiting := l.length }) := by rw [hhub]; exact SMap.find?_set ..
  have keeps := keeps_trans (keeps_of_eq (t := s.enrolled o l.length) rfl rfl) hk
  have channel : ((s.enrolled o l.length).postParts s.seqno o.world l).channel ch = s.channel ch := by rw [State.channel, hhub]; rfl
  rw [State.beginOp_eq]
  by_cases hl : l.length = 0
  · rw [State.finishOp_of_silent listed hl hp hs]
    refine ⟨ys, hacc, hys, keeps_trans keeps (keeps_of_eq rfl rfl), if (s.channel ch).busy = some s.seqno then none else (s.channel ch).busy, ?_⟩
    rw [← channel]
    exact SMap.get_map (d := ({} : Channel)) _ (fun c => { c with busy := if c.busy = some s.seqno then none else c.busy }) rfl ch
  · rw [State.finishOp_of_waiting listed hl]
    exact ⟨ys, hacc, hys, keeps, _, channel⟩
/-- A put of a channel posts a part for each line of the bytes that translate. -/
theorem State.channelWrite_posts (s : State) (ch w : Nat) (cells : List (Nat × Byte)) : ∃ ys, (s.channelWrite ch w cells).accesses = s.accesses ++ ys ∧
    List.Forall₂ (fun y x => Access.isPart y s.seqno w x) ys (writeParts (s.reachedCells w cells)) ∧ KeepsRegsAndMemory s (s.channelWrite ch w cells) ∧
    ∃ b, (s.channelWrite ch w cells).channel ch = { s.channel ch with busy := b } := by
  obtain ⟨ys, hacc, hys, hk, b, hb⟩ := (s.updChannel ch (fun c => { c with busy := some s.seqno })).beginOp_silent
    (o := { kind := .put, world := w, silent := true }) (writeParts_not_fabric (s.reachedCells w cells)) rfl rfl ch
  rw [State.channel_updChannel] at hb
  exact ⟨ys, hacc, hys, keeps_trans (keeps_of_eq rfl rfl) hk, b, hb⟩
/-- Every byte of a put stands in one of its parts. -/
theorem mem_parts {op w : Nat} {ys : List Access} {l : List Host.Cell} (h : List.Forall₂ (fun y x => Access.isPart y op w x) ys (writeParts l))
    {c : Host.Cell} (hc : c ∈ l) : ∃ y ∈ ys, ∃ g, y.act = writeOf g ∧ c ∈ g := by
  obtain ⟨-, acts, -⟩ := map_of_isPart h
  rw [← lineGroups_flatten l, List.mem_flatten] at hc
  obtain ⟨g, hg, hcg⟩ := hc
  have listed : writeOf g ∈ ys.map Access.act := by
    rw [acts, writeParts_eq, List.map_map]
    exact List.mem_map_of_mem (f := fun g => writeOf g) hg
  obtain ⟨y, hy, hact⟩ := List.mem_map.1 listed
  exact ⟨y, hy, g, hact, hcg⟩

/-! ### Tail writes (R86) -/

section
variable {s : State} {w q : Nat} (t : BitVec 32)
theorem writeTail_none (h : ¬ (q < 16 ∧ (s.queueAt w q).present = true)) : s.writeTail w q t = s.tell (.qnone w q) :=
  if_pos (by
    rw [not_and_or, not_lt, Bool.not_eq_true] at h
    simpa using h)
variable (hq : q < 16 ∧ (s.queueAt w q).present = true)
include hq
theorem writeTail_present : s.writeTail w q t = if 2 ^ (s.queueAt w q).log2n < (t - (s.queueAt w q).head).toNat then (s.queueError w q).tell (.qover w q)
    else if (t - (s.queueAt w q).head).toNat < ((s.queueAt w q).tail - (s.queueAt w q).head).toNat then s.tell (.qback w q)
    else s.updQueue w q (fun x => { x with tail := t }) := if_neg (by
      obtain ⟨hq, hp⟩ := hq
      simp [hp, hq])
theorem writeTail_beyond (h : 2 ^ (s.queueAt w q).log2n < (t - (s.queueAt w q).head).toNat) :
    s.writeTail w q t = (s.queueError w q).tell (.qover w q) := by rw [writeTail_present t hq, if_pos h]
variable (hf : (t - (s.queueAt w q).head).toNat ≤ 2 ^ (s.queueAt w q).log2n)
include hf
theorem writeTail_back (h : (t - (s.queueAt w q).head).toNat < ((s.queueAt w q).tail - (s.queueAt w q).head).toNat) :
    s.writeTail w q t = s.tell (.qback w q) := by rw [writeTail_present t hq, if_neg (not_lt.2 hf), if_pos h]
theorem writeTail_moves (h : ((s.queueAt w q).tail - (s.queueAt w q).head).toNat ≤ (t - (s.queueAt w q).head).toNat) :
    s.writeTail w q t = s.updQueue w q (fun x => { x with tail := t }) := by rw [writeTail_present t hq, if_neg (not_lt.2 hf), if_neg (not_lt.2 h)]
end
theorem queueAt_queueError {s : State} {w q : Nat} (hp : (s.queueAt w q).present = true) :
    (s.queueError w q).queueAt w q = { s.queueAt w q with error := true } := by
  rw [State.queueError]
  dsimp only
  split
  · rename_i h
    have error : (s.queueAt w q).error = true := by simpa [hp] using h
    rw [← error]
  · exact State.queueAt_updQueue_self ..
theorem queueError_channels (s : State) (w q : Nat) : (s.queueError w q).hub.channels = s.hub.channels := by
  rw [State.queueError]
  split <;> rfl
theorem queueError_keeps (s : State) (w q : Nat) : KeepsRegsAndMemory s (s.queueError w q) := by
  rw [State.queueError]
  split
  · exact keeps_refl s
  · exact keeps_of_eq rfl rfl

/-! ### The status reply (R74, log 43) -/

/-- The message of the device: sealed under its next CTR. -/
def Channel.sealed (k : Channel) (ch : Nat) (kind : Byte) (plain : List Byte) : ChMsg :=
  let m : ChMsg :=
    { ctr := k.devCtr, chid := BitVec.ofNat 8 ch, world := BitVec.ofNat 8 k.world, kind := kind, rsv0 := 0,
      len := BitVec.ofNat 32 plain.length, rsv1 := 0, body := [], tag := 0 }
  let x := gcmSeal k.key (BitVec.ofNat 96 (k.salt.toNat * 2 ^ 32 + k.devCtr.toNat)) (msgHead m) plain
  { m with body := x.1, tag := x.2 }
theorem deviceMessage_eq {s : State} {ch : Nat} (hl : (s.channel ch).live = true) (hd : (s.channel ch).dead = false) (kind : Byte) (plain : List Byte) :
    s.deviceMessage ch kind plain = (s.updChannel ch (fun c => { c with devCtr := c.devCtr + 1, dead := decide (c.devCtr = 0xFFFFFFFF#32) })).answer
      (.channel ((s.channel ch).sealed ch kind plain)) := if_neg (by simp [hl, hd])

end Sys2Proof.Machine
end

section
/-! SUPPORT. What an accepted message of each kind does (04 R84, R86; logs 10, 41 and 43). -/

namespace Sys2Proof.Machine

section
variable {s : State} {m : ChMsg} (hs : s.serves = true) (hl : (s.channel m.chid.toNat).live = true) (h : ChannelTakes (s.channel m.chid.toNat) m)
  {plain : List Byte} (ho : (s.channel m.chid.toNat).opens m = some plain)

section
include hs hl h ho
theorem exec_channelPut_right (hk : m.kind = 1) : exec (.channelPut m) s = .next ((s.useCtr m).channelJob m.chid.toNat
    (.put (BitVec.ofNat 64 (leNat (plain.take 8))) (plain.drop 8))) := by
  rw [exec_channelPut_put hk, hear_right hs hl h ho hk]
theorem exec_commandPacketMessage_right (hk : m.kind = 2) {n : Nat} (hlen : plain.length = 8 + 64 * n) (h1 : 1 ≤ n) (h2 : n ≤ 1023)
    (hz : leNat ((plain.drop 2).take 6) = 0) : exec (.commandPacketMessage m) s = .next ((s.useCtr m).channelJob m.chid.toNat
      (.packets (leNat (plain.take 2)) (plain.drop 8))) := by
  rw [exec_commandPacketMessage_eq, hear_right hs hl h ho hk, if_pos ⟨by omega, by omega, by omega, hz⟩]
theorem exec_tailWrite_right (hk : m.kind = 3) (hlen : plain.length = 8) (hz : leNat ((plain.drop 2).take 2) = 0) :
    exec (.tailWrite m) s = .next ((s.useCtr m).channelJob m.chid.toNat (.tail (leNat (plain.take 2)) (BitVec.ofNat 32 (leNat ((plain.drop 4).take 4))))) := by
  have rest : (plain.drop 4).take 4 = plain.drop 4 := List.take_of_length_le (by simp [hlen])
  rw [exec_tailWrite_eq, hear_right hs hl h ho hk, if_pos ⟨hlen, hz⟩, rest]
/-- R70: the session's deadline moves. -/
theorem heartbeat_beats (hk : m.kind = 4) : Does s (.heartbeat m) (fun t => ChannelUsed m (s.channel m.chid.toNat) (t.channel m.chid.toNat) ∧
    (t.session (s.channel m.chid.toNat).session).beat = true) := by
  have hx := exec_heartbeat_eq m s
  rw [hear_right hs hl h ho hk, channel_useCtr] at hx
  refine ⟨_, hx, keeps_of_eq rfl rfl, ?_, ?_⟩
  · rw [show ∀ (t : State) n f, (t.updSession n f).channel m.chid.toNat = t.channel m.chid.toNat from fun _ _ _ => rfl, channel_useCtr]
    exact channelUsed_of rfl rfl rfl
  · exact congrArg Session.beat (State.session_updSession ..)
end

/-! ### Jobs of an accepted message -/

section
variable {i : Instr} {j : ChJob} (hx : exec i s = .next ((s.useCtr m).channelJob m.chid.toNat j))
include hx
theorem job_behind {op : Nat} (hb : (s.channel m.chid.toNat).busy = some op) : Does s i (fun t =>
    ChannelUsed m (s.channel m.chid.toNat) (t.channel m.chid.toNat) ∧ (t.channel m.chid.toNat).jobs = (s.channel m.chid.toNat).jobs ++ [j]) := by
  rw [channelJob_behind j (op := op) (by rw [channel_useCtr]; exact hb)] at hx
  refine ⟨_, hx, keeps_of_eq rfl rfl, ?_⟩
  dsimp only
  rw [State.channel_updChannel, channel_useCtr]
  exact ⟨channelUsed_of rfl rfl rfl, rfl⟩
/-- What a message that an idle channel has accepted leaves. -/
structure Accepted (s : State) (m : ChMsg) (u : State) : Prop where
  worlds : u.worlds = s.worlds
  accesses : u.accesses = s.accesses
  queue : u.hub.queue = s.hub.queue
  keeps : KeepsRegsAndMemory s u
  channel : u.channel m.chid.toNat = ((s.channel m.chid.toNat).used m).emptied
omit hx in
theorem accepted_takeJob (s : State) (m : ChMsg) (j : ChJob) : Accepted s m ((s.useCtr m).takeJob m.chid.toNat j) where
  worlds := by rw [State.takeJob, State.worlds_updChannel, State.worlds_updChannel, State.useCtr, State.worlds_updChannel]
  accesses := by rw [State.takeJob, State.accesses_updChannel, State.accesses_updChannel, State.useCtr, State.accesses_updChannel]
  queue := by rw [State.takeJob, State.queue_updChannel, State.queue_updChannel, State.useCtr, State.queue_updChannel]
  keeps := keeps_trans (keeps_updChannel ..) (keeps_trans (keeps_updChannel ..) (keeps_updChannel ..))
  channel := by rw [channel_takeJob, channel_useCtr]
theorem job_runs (hb : (s.channel m.chid.toNat).busy = none) (hj : (s.channel m.chid.toNat).jobs = []) :
    ∃ u, Accepted s m u ∧ exec i s = .next (u.runJob m.chid.toNat (s.channel m.chid.toNat).world j) := by
  refine ⟨(s.useCtr m).takeJob m.chid.toNat j, accepted_takeJob s m j, ?_⟩
  rw [hx, channelJob_idle j (by rw [channel_useCtr]; exact hb) (by rw [channel_useCtr]; exact hj), channel_useCtr]
  rfl
end

namespace Accepted
variable {u : State} (hu : Accepted s m u)
include hu
theorem world (w : Nat) : u.world w = s.world w := by rw [State.world, hu.worlds]; rfl
theorem queueAt (w q : Nat) : u.queueAt w q = s.queueAt w q := by rw [State.queueAt, hu.world]; rfl
/-- The channel keeps what the message has used, whatever jobs it has left. -/
theorem used {c : Channel} (hl : c.last = (u.channel m.chid.toNat).last) (hd : c.dead = (u.channel m.chid.toNat).dead)
    (hf : c.fails = (u.channel m.chid.toNat).fails) : ChannelUsed m (s.channel m.chid.toNat) c := by
  rw [hu.channel] at hl hd hf
  dsimp only [Channel.emptied, Channel.used] at hl hd hf
  exact ⟨hl, by rw [hd]; exact decide_eq_true_iff, hf⟩
end Accepted

section
variable (hb : (s.channel m.chid.toNat).busy = none) (hj : (s.channel m.chid.toNat).jobs = [])
include hb hj

/-- A put of one byte posts the one write. -/
theorem channelPut_posts {va : Word} {pa : Nat} {b : Byte} (ht : translate (s.world (s.channel m.chid.toNat).world).windows va.toNat 1 .wr = some pa)
    (hx : exec (.channelPut m) s = .next ((s.useCtr m).channelJob m.chid.toNat (.put va [b]))) : Does s (.channelPut m) (fun t =>
      ChannelUsed m (s.channel m.chid.toNat) (t.channel m.chid.toNat) ∧ ∃ y, t.accesses = s.accesses ++ [y] ∧
        y.world = (s.channel m.chid.toNat).world ∧ y.act = .write { cells := [(pa, b)] }) := by
  obtain ⟨u, hu, runs⟩ := job_runs hx hb hj
  obtain ⟨ys, hacc, hys, hk, busy, hch⟩ := u.channelWrite_posts m.chid.toNat (s.channel m.chid.toNat).world
    ([b].zipIdx.map (fun b => (va.toNat + b.2, b.1)))
  have cells : u.reachedCells (s.channel m.chid.toNat).world ([b].zipIdx.map (fun b => (va.toNat + b.2, b.1))) = [(pa, b)] := by
    simp [State.reachedCells, hu.world, ht]
  rw [cells] at hys
  cases hys with
  | @cons y _ ys _ hy hr =>
    cases hr
    obtain ⟨world, -, act, -⟩ := hy
    rw [hu.accesses] at hacc
    refine ⟨_, runs, keeps_trans hu.keeps hk, ?_, y, hacc, world, act⟩
    rw [State.runJob, hch]
    exact hu.used rfl rfl rfl

/-- Command packets are written to the places behind TAIL, and the tail write stands next (R84, R85). -/
theorem packets_post {q n : Nat} {l : List Byte} (hlen : l.length = 64 * n) (hq : q < 16)
    (hp : (s.queueAt (s.channel m.chid.toNat).world q).present = true)
    (hx : exec (.commandPacketMessage m) s = .next ((s.useCtr m).channelJob m.chid.toNat (.packets q l))) :
    let x := s.queueAt (s.channel m.chid.toNat).world q
    Does s (.commandPacketMessage m) (fun t => ChannelUsed m (s.channel m.chid.toNat) (t.channel m.chid.toNat) ∧
      (t.channel m.chid.toNat).jobs = [.tail q (x.tail + BitVec.ofNat 32 n)] ∧
      ∃ acts, t.accesses = s.accesses ++ acts ∧ ∀ i < 64 * n, ∀ p, translate (s.world (s.channel m.chid.toNat).world).windows
        (x.base.toNat + 64 * ((x.tail.toNat + i / 64) % 2 ^ x.log2n) + i % 64) 1 .wr = some p →
          ∃ y ∈ acts, ∃ w, y.act = .write w ∧ (p, l.getD i 0) ∈ w.cells) := by
  intro x
  obtain ⟨u, hu, runs⟩ := job_runs hx hb hj
  rw [State.runJob, hu.queueAt, if_neg (by simp [hq, hp]), hlen, Nat.mul_div_cancel_left n (by decide)] at runs
  obtain ⟨ys, hacc, hys, hk, busy, hch⟩ := (u.updChannel m.chid.toNat (fun c =>
    { c with jobs := .tail q (x.tail + BitVec.ofNat 32 n) :: c.jobs })).channelWrite_posts m.chid.toNat (s.channel m.chid.toNat).world
      (l.zipIdx.map (fun b => (x.slotAddr (x.tail.toNat + b.2 / 64) + b.2 % 64, b.1)))
  rw [State.channel_updChannel] at hch
  refine ⟨_, runs, keeps_trans hu.keeps (keeps_trans (keeps_of_eq rfl rfl) hk), ?_, ?_, ys, ?_, fun i hi p hp => ?_⟩
  · rw [hch]
    exact hu.used rfl rfl rfl
  · rw [hch, hu.channel]
    rfl
  · rw [hacc, ← hu.accesses]
    rfl
  · have hi' : i < l.length := hlen ▸ hi
    have listed : (p, l.getD i 0) ∈ u.reachedCells (s.channel m.chid.toNat).world
        (l.zipIdx.map (fun b => (x.slotAddr (x.tail.toNat + b.2 / 64) + b.2 % 64, b.1))) := by
      rw [State.reachedCells, hu.world]
      refine List.mem_filterMap.2 ⟨_, List.mem_map_of_mem (a := (l.getD i 0, i)) ?_, Option.map_eq_some_iff.2 ⟨p, hp, rfl⟩⟩
      rw [List.mem_zipIdx_iff_getElem?, List.getD_eq_getElem _ _ hi']
      exact List.getElem?_eq_getElem hi'
    obtain ⟨y, hy, g, hact, hg⟩ := mem_parts hys listed
    exact ⟨y, hy, { cells := g }, hact, hg⟩

/-- R86: the new tail of a queue is judged against its HEAD and its TAIL. -/
theorem tail_writes {q : Nat} {v : BitVec 32} (hx : exec (.tailWrite m) s = .next ((s.useCtr m).channelJob m.chid.toNat (.tail q v))) :
    let w := (s.channel m.chid.toNat).world
    let x := s.queueAt w q
    Does s (.tailWrite m) (fun t => ChannelUsed m (s.channel m.chid.toNat) (t.channel m.chid.toNat) ∧
      if q < 16 ∧ x.present = true then
        (2 ^ x.log2n < (v - x.head).toNat → (t.queueAt w q).error = true ∧ (t.queueAt w q).tail = x.tail) ∧
        ((v - x.head).toNat ≤ 2 ^ x.log2n → (v - x.head).toNat < (x.tail - x.head).toNat → t.queueAt w q = x ∧
          t.hub.queue = s.hub.queue ++ [.qback w q]) ∧
        ((v - x.head).toNat ≤ 2 ^ x.log2n → (x.tail - x.head).toNat ≤ (v - x.head).toNat →
          t.queueAt w q = { x with tail := v } ∧ t.hub.queue = s.hub.queue)
      else t.hub.queue = s.hub.queue ++ [.qnone w q] ∧ t.worlds = s.worlds) := by
  intro w x
  obtain ⟨u, hu, runs⟩ := job_runs hx hb hj
  have same : u.queueAt w q = x := hu.queueAt w q
  have used : ChannelUsed m (s.channel m.chid.toNat) (u.channel m.chid.toNat) := hu.used rfl rfl rfl
  rw [State.runJob] at runs
  by_cases hq : q < 16 ∧ x.present = true
  · have hqu : q < 16 ∧ (u.queueAt w q).present = true := same.symm ▸ hq
    by_cases hf : 2 ^ x.log2n < (v - x.head).toNat
    · rw [writeTail_beyond v hqu (by rwa [same])] at runs
      have queue : ((u.queueError w q).tell (.qover w q)).queueAt w q = { x with error := true } := same ▸ queueAt_queueError hqu.2
      refine ⟨_, runs, keeps_trans hu.keeps (keeps_trans (queueError_keeps u w q) (keeps_of_eq rfl rfl)), ?_, ?_⟩
      · rwa [show ((u.queueError w q).tell (.qover w q)).channel m.chid.toNat = u.channel m.chid.toNat from
          congrArg (fun l => SMap.get ({} : Channel) l m.chid.toNat) (queueError_channels u w q)]
      · rw [if_pos hq, queue]
        exact ⟨fun _ => ⟨rfl, rfl⟩, fun le => absurd hf (not_lt.2 le), fun le => absurd hf (not_lt.2 le)⟩
    · by_cases hback : (v - x.head).toNat < (x.tail - x.head).toNat
      · rw [writeTail_back v hqu (by rw [same]; exact not_lt.1 hf) (by rwa [same])] at runs
        refine ⟨_, runs, keeps_trans hu.keeps (keeps_of_eq rfl rfl), used, ?_⟩
        rw [if_pos hq, ← hu.queue]
        exact ⟨fun gt => absurd gt hf, fun _ _ => ⟨same, rfl⟩, fun _ le => absurd hback (not_lt.2 le)⟩
      · rw [writeTail_moves v hqu (by rw [same]; exact not_lt.1 hf) (by rw [same]; exact not_lt.1 hback)] at runs
        refine ⟨_, runs, keeps_trans hu.keeps (keeps_of_eq rfl rfl), used, ?_⟩
        rw [if_pos hq, ← hu.queue, State.queueAt_updQueue_self, same]
        exact ⟨fun gt => absurd gt hf, fun _ lt => absurd lt hback, fun _ _ => ⟨rfl, rfl⟩⟩
  · rw [writeTail_none v (same.symm ▸ hq)] at runs
    refine ⟨_, runs, keeps_trans hu.keeps (keeps_of_eq rfl rfl), used, ?_⟩
    rw [if_neg hq, ← hu.queue, ← hu.worlds]
    exact ⟨rfl, rfl⟩
end

/-! ### Status and close (R74, R68) -/

section
include hs hl h ho
theorem status_replies (hk : m.kind = 5) (hc : m.ctr.toNat ≠ 0x7FFFFFFF) : Does s (.channelPut m) (fun t =>
    let k := s.channel m.chid.toNat
    let told := digestBytes (s.world k.world).wmr ++ digestBytes (sha384 s.chain)
    (t.channel m.chid.toNat).last = some m.ctr ∧ (t.channel m.chid.toNat).devCtr = k.devCtr + 1 ∧
    ((t.channel m.chid.toNat).dead = true ↔ k.devCtr = 0xFFFFFFFF#32) ∧
    t.hub.sent = s.hub.sent ++ [.channel ((k.used m).sealed m.chid.toNat 5 (told ++ s.signed told))]) := by
  have hx := exec_channelPut_status hk s
  have live : ((s.useCtr m).channel m.chid.toNat).live = true := by rw [channel_useCtr]; exact hl
  have dead : ((s.useCtr m).channel m.chid.toNat).dead = false := by rw [channel_useCtr]; exact decide_eq_false hc
  rw [hear_right hs hl h ho hk, State.statusReply, deviceMessage_eq live dead, channel_useCtr] at hx
  refine ⟨_, hx, keeps_of_eq rfl rfl, ?_⟩
  have channel : (((s.useCtr m).updChannel m.chid.toNat (fun c => { c with devCtr := c.devCtr + 1, dead := decide (c.devCtr = 0xFFFFFFFF#32) })).channel
      m.chid.toNat) = { (s.channel m.chid.toNat).used m with
        devCtr := ((s.channel m.chid.toNat).used m).devCtr + 1
        dead := decide (((s.channel m.chid.toNat).used m).devCtr = 0xFFFFFFFF#32) } := by
    rw [State.channel_updChannel, channel_useCtr]
  refine ⟨(congrArg Channel.last channel).trans rfl, (congrArg Channel.devCtr channel).trans rfl, ?_, rfl⟩
  exact (iff_of_eq (congrArg (· = true) (congrArg Channel.dead channel))).trans decide_eq_true_iff
omit hs hl h ho in
theorem Channel.close_eq_none {k : Channel} : k.close = none ↔ k.jobs = [] ∧ k.busy = none := by
  unfold Channel.close
  split
  · rename_i h
    simpa using h
  · rename_i h
    simpa using h
omit hs hl h ho in
theorem Channel.close_jobs {k k' : Channel} (h : k.close = some k') (ho : k.closing = false) : k'.jobs = k.jobs ++ [.close] := by
  unfold Channel.close at h
  split at h
  · cases h
  · cases h
    exact if_neg (by simp [ho])
/-- R84: a channel that has nothing to carry out closes at once, another one behind its jobs. -/
theorem channelClose_closes (hk : m.kind = 6) : Does s (.channelClose m) (fun t =>
    let k := s.channel m.chid.toNat
    (∀ e ∈ t.hub.channels, e.1 = m.chid.toNat → e.2.closing = true) ∧
    (k.busy ≠ none ∨ k.jobs ≠ [] → (t.channel m.chid.toNat).jobs = k.jobs ++ [.close]) ∧
    (k.busy = none → k.jobs = [] → ∀ e ∈ t.hub.channels, e.1 ≠ m.chid.toNat)) := by
  have hx := exec_channelClose_eq m s
  rw [hear_right hs hl h ho hk] at hx
  have only : ∀ e ∈ (s.useCtr m).hub.channels, e.1 = m.chid.toNat → e.2 = (s.channel m.chid.toNat).used m := by
    intro e he hn
    rcases SMap.mem_set he with rfl | ⟨-, hne⟩
    · rfl
    · exact absurd hn hne
  have closes : ∀ e ∈ closeChannels (s.useCtr m).hub.channels (fun e => decide (e.1 = m.chid.toNat)), e.1 = m.chid.toNat →
      ((s.channel m.chid.toNat).used m).close = some e.2 := by
    intro e he hn
    rcases mem_closeChannels he with ⟨-, hh⟩ | ⟨k, hk, -, hc⟩
    · exact absurd hn (of_decide_eq_false hh)
    · rwa [show k = (s.channel m.chid.toNat).used m from only _ hk hn] at hc
  refine ⟨_, hx, keeps_of_eq rfl rfl, fun e he hn => (Channel.close_some (closes e he hn)).1, fun more => ?_, fun busy jobs e he hn => ?_⟩
  · obtain ⟨k', hk'⟩ : ∃ k', ((s.channel m.chid.toNat).used m).close = some k' := by
      refine Option.ne_none_iff_exists'.1 (fun e => ?_)
      obtain ⟨jobs, busy⟩ := Channel.close_eq_none.1 e
      rcases more with more | more
      · exact more busy
      · exact more jobs
    have listed : (m.chid.toNat, (s.channel m.chid.toNat).used m) ∈ (s.useCtr m).hub.channels := by
      have key := SMap.mem_of_get_ne (d := ({} : Channel)) (m := (s.useCtr m).hub.channels) (k := m.chid.toNat) (fun e => by
        have live := congrArg Channel.live ((channel_useCtr s m).symm.trans e)
        rw [show ((s.channel m.chid.toNat).used m).live = true from hl] at live
        cases live)
      rwa [show SMap.get {} (s.useCtr m).hub.channels m.chid.toNat = _ from channel_useCtr s m] at key
    have channel : SMap.get {} (closeChannels (s.useCtr m).hub.channels (fun e => decide (e.1 = m.chid.toNat))) m.chid.toNat = k' := by
      refine SMap.get_of_mem (List.mem_filterMap.2 ⟨_, listed, ?_⟩) (fun e he hn => Option.some.inj ((closes e he hn).symm.trans hk'))
      rw [if_pos (decide_eq_true rfl), hk']
      rfl
    exact (congrArg Channel.jobs channel).trans (Channel.close_jobs (k := (s.channel m.chid.toNat).used m) hk' h.2.1)
  · have := (closes e he hn).symm.trans (Channel.close_eq_none.2 ⟨jobs, busy⟩)
    cases this
end
end

end Sys2Proof.Machine
end

section
/-! SUPPORT. Channels opened, heartbeats, and the teardown of a world (03 R67, R70, R71). -/

namespace Sys2Proof.Machine

/-! ### Opening a channel (R67, R70, R105) -/

theorem keeps_updHub (s : State) (f : Hub → Hub) : KeepsRegsAndMemory s (s.updHub f) := keeps_of_eq rfl rfl
theorem keeps_updWorld (s : State) (w : Nat) (f : World → World) : KeepsRegsAndMemory s (s.updWorld w f) := keeps_of_eq rfl rfl
@[simp] theorem State.channel_answer (s : State) (r : Reply) (c : Nat) : (s.answer r).channel c = s.channel c := rfl
@[simp] theorem State.channel_updWorld (s : State) (w c : Nat) (f : World → World) : (s.updWorld w f).channel c = s.channel c := rfl
@[simp] theorem State.channel_updSession (s : State) (n c : Nat) (f : Session → Session) : (s.updSession n f).channel c = s.channel c := rfl
@[simp] theorem State.session_updWorld (s : State) (w n : Nat) (f : World → World) : (s.updWorld w f).session n = s.session n := rfl
@[simp] theorem State.world_answer (s : State) (r : Reply) (w : Nat) : (s.answer r).world w = s.world w := rfl
theorem exec_worldOpen_eq (n : Nat) (body : List Byte) (s : State) : exec (.worldOpen n body) s = execWorldOpen n body s := rfl
section
variable {s : State} {n : Nat} {body : List Byte}
/-- A channel can be opened with the packet, whoever presents it. -/
def Openable (s : State) (n : Nat) (body : List Byte) : Prop :=
  s.serves = true ∧ (s.session n).live = true ∧ (s.session n).established = true ∧ body.length = 64 ∧ packetOk (packetBits body) = true ∧
    pkOpc (packetBits body) = 0x0D ∧ pkField (packetBits body) 24 1 = 3 ∧ (s.world (pkField (packetBits body) 25 1)).st ≠ .empty ∧
    (s.channel (pkField (packetBits body) 28 1)).live = false
variable (h : Openable s n body)
include h
theorem worldOpen_refused (hc : pkField (packetBits body) 48 16 ≠ (s.world (pkField (packetBits body) 25 1)).cred.toNat) :
    exec (.worldOpen n body) s = .next (s.answer .accessError) := by
  obtain ⟨hs, hl, he, -⟩ := h
  rw [exec_worldOpen_eq, execWorldOpen]
  dsimp only
  rw [if_neg (by simp [hs, hl, he]), if_pos (by simp [hc])]
/-- The channel that a world's opening leaves. -/
def openedChannel (secret : BitVec 384) (n : Nat) (b : BitVec 512) : Channel :=
  { live := true, session := n, world := pkField b 25 1, key := channelKey secret (pkField b 28 1), salt := channelSalt secret (pkField b 28 1) }
/-- The state in which a channel has been opened. -/
def State.openChannel (s : State) (n : Nat) (b : BitVec 512) : State :=
  ((((s.updChannel (pkField b 28 1) (fun _ => openedChannel (s.session n).secret n b)).updSession n (fun x =>
    { x with period := if pkField b 27 1 = 0 then 10 else pkField b 27 1 })).updWorld (pkField b 25 1) (fun x => { x with hold := false })).answer .done)
theorem exec_worldOpen_opens (hc : pkField (packetBits body) 48 16 = (s.world (pkField (packetBits body) 25 1)).cred.toNat) :
    exec (.worldOpen n body) s = .next (s.openChannel n (packetBits body)) := by
  obtain ⟨hs, hl, he, hlen, hok, hopc, hsub, hw, hch⟩ := h
  rw [exec_worldOpen_eq, execWorldOpen]
  dsimp only
  rw [if_neg (by simp [hs, hl, he]), if_neg (by simp [hlen, hok, hopc, hsub, hc, hch, State.worldUp, hw])]
  rfl
end
section
variable (s : State) (n : Nat) (b : BitVec 512)
theorem openChannel_keeps : KeepsRegsAndMemory s (s.openChannel n b) :=
  keeps_trans (keeps_trans (keeps_trans (keeps_updHub ..) (keeps_updHub ..)) (keeps_updWorld ..)) (keeps_updHub ..)
theorem channel_openChannel : (s.openChannel n b).channel (pkField b 28 1) = openedChannel (s.session n).secret n b := by
  rw [State.openChannel, State.channel_answer, State.channel_updWorld, State.channel_updSession, State.channel_updChannel]
theorem hold_openChannel : ((s.openChannel n b).world (pkField b 25 1)).hold = false := by
  rw [State.openChannel, State.world_answer, State.world_updWorld_self]
theorem period_openChannel : ((s.openChannel n b).session n).period = (if pkField b 27 1 = 0 then 10 else pkField b 27 1) := by
  rw [State.openChannel, State.session_answer, State.session_updWorld, State.session_updSession]
theorem sent_openChannel : (s.openChannel n b).hub.sent = s.hub.sent ++ [.done] := rfl
end

/-! ### A world that is erased (R71) -/

/-- An erased world leaves what neither the calendar, memory, the cores nor the worlds show. -/
theorem State.eraseWorld_keeps {β : Type} (P : State → β) (s : State) (w : Nat)
    (h : ∀ t cl m o co ws, P { t with calendar := cl, mem := m, owner := o, cores := co, worlds := ws } = P t) : P (s.eraseWorld w) = P s := by
  have ungranted : P (s.ungrant w) = P s := State.foldl_regrant_keeps P (s.grantOf w) s (fun t cl m o co => h t cl m o co t.worlds)
  have forgotten : P ((s.ungrant w).forgetMemory w) = P (s.ungrant w) := by
    refine foldl_keeps P _ _ _ (fun t n => ?_)
    rw [State.writeCells_eq]
    exact h t t.calendar _ _ t.cores t.worlds
  have erased := h ((s.ungrant w).forgetMemory w) ((s.ungrant w).forgetMemory w).calendar ((s.ungrant w).forgetMemory w).mem
    ((s.ungrant w).forgetMemory w).owner ((s.ungrant w).forgetMemory w).cores (((s.ungrant w).forgetMemory w).updWorld w (fun _ => {})).worlds
  exact (Eq.trans erased forgotten).trans ungranted
@[simp] theorem State.world_eraseWorld (s : State) (w : Nat) : (s.eraseWorld w).world w = {} := State.world_updWorld_self ..
/-- Operations that are dropped leave what the hub does not show, and no event. -/
theorem State.dropOps_keeps {β : Type} (P : State → β) (s : State) (w : Nat) (h : ∀ t h', h'.queue = t.hub.queue → P { t with hub := h' } = P t) :
    P (s.dropOps w) = P s := by
  refine (foldl_keeps P _ _ _ (fun t e => ?_)).trans (h s _ rfl)
  split
  · exact h t _ rfl
  · split
    · rfl
    · exact h t _ rfl

theorem State.world_tell (s : State) (e : Event) (w : Nat) : (s.tell e).world w = s.world w := rfl
theorem teardown_world (s : State) (w : Nat) : (s.teardown w).world w = {} := by
  rw [State.teardown, State.world_tell, State.world_eraseWorld]
/-- What a teardown leaves of a world (R71, log 42). -/
def TornDown (s t : State) (w : Nat) : Prop :=
  t.world w = {} ∧ t.hub.queue = s.hub.queue ++ [.worldlost w] ∧ (∀ e ∈ t.fronds, e.2.world = w → e.2.ended = true) ∧
    (∀ p ∈ t.packets, p.world ≠ w) ∧ ∀ a ∈ t.posted, a.world ≠ w ∨ a.act = .void
/-- What is still posted for the world to another home is made void. -/
def voided (w : Nat) (a : Access) : Option Access :=
  if a.world ≠ w then some a
  else if a.act.writes && a.done.isNone then some { a with act := .void, owed := .none, err := false }
  else none
/-- A frond of the world is ended. -/
def endedAt (w now : Nat) (e : Nat × Frond) : Nat × Frond :=
  if e.2.world = w then (e.1, { e.2 with ended := true, endedAt := now, pending := [], running := [], thawAbort := none, slips := [] }) else e
theorem teardown_fronds (s : State) (w : Nat) : (s.teardown w).fronds = s.fronds.map (endedAt w s.now) :=
  (State.eraseWorld_keeps State.fronds (s.dropWork w) w (fun _ _ _ _ _ _ => rfl)).trans (State.dropOps_keeps State.fronds _ w (fun _ _ _ => rfl))
theorem teardown_packets (s : State) (w : Nat) : (s.teardown w).packets = s.packets.filter (fun p => decide (p.world ≠ w)) :=
  (State.eraseWorld_keeps State.packets (s.dropWork w) w (fun _ _ _ _ _ _ => rfl)).trans (State.dropOps_keeps State.packets _ w (fun _ _ _ => rfl))
theorem teardown_posted (s : State) (w : Nat) : (s.teardown w).posted = s.posted.filterMap (voided w) :=
  (State.eraseWorld_keeps State.posted (s.dropWork w) w (fun _ _ _ _ _ _ => rfl)).trans (State.dropOps_keeps State.posted _ w (fun _ _ _ => rfl))
theorem teardown_queue (s : State) (w : Nat) : (s.teardown w).hub.queue = s.hub.queue ++ [.worldlost w] :=
  congrArg (· ++ [Event.worldlost w]) ((State.eraseWorld_keeps (fun t => t.hub.queue) (s.dropWork w) w (fun _ _ _ _ _ _ => rfl)).trans
    (State.dropOps_keeps (fun t => t.hub.queue) _ w (fun _ _ e => e)))
theorem tornDown_teardown (s : State) (w : Nat) : TornDown s (s.teardown w) w := by
  refine ⟨teardown_world s w, teardown_queue s w, fun e he hw => ?_, fun p hp => ?_, fun a ha => ?_⟩
  · rw [teardown_fronds] at he
    obtain ⟨x, -, rfl⟩ := List.mem_map.1 he
    by_cases hx : x.2.world = w
    · rw [endedAt, if_pos hx]
    · rw [endedAt, if_neg hx] at hw
      exact absurd hw hx
  · rw [teardown_packets] at hp
    exact of_decide_eq_true (List.mem_filter.1 hp).2
  · rw [teardown_posted] at ha
    obtain ⟨x, -, hx⟩ := List.mem_filterMap.1 ha
    rw [voided] at hx
    split at hx
    · rename_i other
      cases hx
      exact .inl other
    · split at hx
      · cases hx
        exact .inr rfl
      · cases hx

/-! ### Heartbeats (R70) -/

theorem exec_heartbeatTimeout_eq (n : Nat) (s : State) : exec (.heartbeatTimeout n) s = execHeartbeatTimeout n s := rfl
theorem exec_keyHoldExpiry_eq (w : Nat) (s : State) : exec (.keyHoldExpiry w) s = .next (if (s.world w).hold then s.teardown w else s) := rfl
theorem keyHoldExpiry_ends {s : State} {w : Nat} (h : (s.world w).hold = true) : ∃ t, exec (.keyHoldExpiry w) s = .next t ∧ TornDown s t w :=
  ⟨_, by rw [exec_keyHoldExpiry_eq, if_pos h], tornDown_teardown s w⟩
theorem keyHoldExpiry_idle {s : State} {w : Nat} (h : (s.world w).hold = false) : exec (.keyHoldExpiry w) s = .next s := by
  rw [exec_keyHoldExpiry_eq, if_neg (by simp [h])]
theorem holdsWork_of_frond {s : State} {w : Nat} (h : ∃ f ∈ s.fronds, f.2.bound = true ∧ f.2.world = w) : s.holdsWork w = true := by
  obtain ⟨f, hf, hb, hw⟩ := h
  exact Bool.or_eq_true_iff.2 (.inl (List.any_eq_true.2 ⟨f, hf, by simp [hb, hw]⟩))
section
variable {s : State} {n : Nat} {e : Nat × Channel} (he : s.hub.channels = [e]) (hl : e.2.live = true) (hc : e.2.closing = false)
  (hs : e.2.session = n) (hy : (s.session n).live = true) (ht : s.now % frameCycles = 0)
include he hl hc hs
theorem sessionWorlds_of_single : s.sessionWorlds n = [e.2.world] := by
  have only : s.hub.channels.filter (fun x => x.2.live && !x.2.closing && decide (x.2.session = n)) = [e] := by simp [he, hl, hc, hs]
  rw [State.sessionWorlds, only]
  rfl
include hy ht
theorem heartbeatTimeout_beaten (hb : (s.session n).beat = true) : Does s (.heartbeatTimeout n) (fun t =>
    t.session n = { s.session n with beat := false } ∧ t.hub.channels = s.hub.channels) := by
  have hx := exec_heartbeatTimeout_eq n s
  rw [execHeartbeatTimeout, sessionWorlds_of_single he hl hc hs] at hx
  rw [if_neg (by simp [hy, ht]), if_pos hb] at hx
  exact ⟨_, hx, keeps_of_eq rfl rfl, State.session_updSession .., rfl⟩
theorem heartbeatTimeout_lapses (hb : (s.session n).beat = false) : exec (.heartbeatTimeout n) s = .next (s.lapse e.2.world) := by
  rw [exec_heartbeatTimeout_eq, execHeartbeatTimeout, sessionWorlds_of_single he hl hc hs]
  rw [if_neg (by simp [hy, ht]), if_neg (by simp [hb])]
  rfl
theorem heartbeatTimeout_tearsDown (hb : (s.session n).beat = false) (hw : e.2.world ≠ 0) (hf : s.holdsWork e.2.world = true) :
    ∃ t, exec (.heartbeatTimeout n) s = .next t ∧ TornDown s t e.2.world := by
  have hx := heartbeatTimeout_lapses he hl hc hs hy ht hb
  rw [State.lapse, if_pos ⟨hw, hf⟩] at hx
  exact ⟨_, hx, tornDown_teardown s _⟩
/-- R71: a world without work keeps its keys for the while, but for world 0, which never leaves READY (R72). -/
theorem heartbeatTimeout_holds (hb : (s.session n).beat = false) (hw : e.2.world = 0 ∨ s.holdsWork e.2.world = false) :
    Does s (.heartbeatTimeout n) (fun t => (∀ c ∈ t.hub.channels, c.2.closing = true) ∧ (e.2.jobs = [] → e.2.busy = none → t.hub.channels = []) ∧
      ((t.world e.2.world).hold = true ↔ e.2.world ≠ 0) ∧ (t.world e.2.world).st = (s.world e.2.world).st) := by
  have hx := heartbeatTimeout_lapses he hl hc hs hy ht hb
  rw [State.lapse, if_neg (by
    rintro ⟨h0, hf⟩
    rcases hw with hw | hw
    · exact h0 hw
    · rw [hw] at hf
      cases hf)] at hx
  have closes : ∀ c ∈ closeChannels s.hub.channels (fun x => decide (x.2.world = e.2.world)), e.2.close = some c.2 := by
    intro c hc
    rcases mem_closeChannels hc with ⟨hm, hh⟩ | ⟨k, hm, -, hk⟩
    · rw [he, List.mem_singleton] at hm
      rw [hm] at hh
      exact absurd rfl (of_decide_eq_false hh)
    · rw [he, List.mem_singleton] at hm
      rw [← hm]
      exact hk
  refine ⟨_, hx, keeps_of_eq rfl rfl, fun c hc => (Channel.close_some (closes c hc)).1, fun jobs busy => ?_, ?_, ?_⟩
  · refine List.eq_nil_iff_forall_not_mem.2 (fun c hc => ?_)
    have := (closes c hc).symm.trans (Channel.close_eq_none.2 ⟨jobs, busy⟩)
    cases this
  · rw [State.world_updWorld_self]
    exact decide_eq_true_iff
  · rw [State.world_updWorld_self]
    rfl
end

end Sys2Proof.Machine
end

section
/-! Settles O50: messages by their acceptance and their jobs, openings, and heartbeats. -/

namespace Sys2Proof.Machine

/-- A message of the device goes out under the channel's and the world's number. -/
theorem sealed_eq {k : Channel} {m : ChMsg} (hw : k.world = m.world.toNat) (kind : Byte) (l : List Byte) :
    let len : BitVec 32 := BitVec.ofNat 32 l.length
    let c := gcmSeal k.key (BitVec.ofNat 96 (k.salt.toNat * 2 ^ 32 + k.devCtr.toNat))
      (leBytes 4 k.devCtr.toNat ++ [m.chid, m.world, kind, 0] ++ leBytes 4 len.toNat ++ leBytes 4 0) l
    (k.used m).sealed m.chid.toNat kind l =
      { ctr := k.devCtr, chid := m.chid, world := m.world, kind := kind, rsv0 := 0, len := len, rsv1 := 0, body := c.1, tag := c.2 } := by
  have chid : BitVec.ofNat 8 m.chid.toNat = m.chid := by simp
  have world : BitVec.ofNat 8 (k.used m).world = m.world := (congrArg (BitVec.ofNat 8) hw).trans (by simp)
  rw [Channel.sealed, chid, world]
  rfl

/-- R67: the channel is new and its key is that of the session's secret. -/
theorem openChannel_effect (s : State) (n : Nat) (b : BitVec 512) : let c := (s.openChannel n b).channel (pkField b 28 1)
    c.live = true ∧ c.dead = false ∧ c.session = n ∧ c.world = pkField b 25 1 ∧ c.last = none ∧ ((s.openChannel n b).world (pkField b 25 1)).hold = false ∧
      ((s.openChannel n b).session n).period = (if pkField b 27 1 = 0 then 10 else pkField b 27 1) ∧
      (s.openChannel n b).hub.sent = s.hub.sent ++ [.done] ∧
      c.key.toNat = leNat ((digestBytes (hmac384 (digestBytes (s.session n).secret)
        ([0x63, 0x68, 0x61, 0x6E, 0x20, 0x6B, 0x65, 0x79] ++ leBytes 1 (pkField b 28 1)))).take 32) % 2 ^ 256 := by
  dsimp only
  rw [channel_openChannel]
  exact ⟨rfl, rfl, rfl, rfl, rfl, hold_openChannel s n b, period_openChannel s n b, sent_openChannel s n b, BitVec.toNat_ofNat ..⟩

section
variable {s : State} {m : ChMsg} (hs : s.serves = true) (hl : (s.channel m.chid.toNat).live = true) (h : ChannelTakes (s.channel m.chid.toNat) m)
  {plain : List Byte} (ho : (s.channel m.chid.toNat).opens m = some plain) (hb : (s.channel m.chid.toNat).busy = none)
  (hj : (s.channel m.chid.toNat).jobs = [])
include hs hl h ho hb hj
/-- R84: a put of one byte, at the 8-byte address that its payload begins with (log 10). -/
theorem channelPut_idle (hk : m.kind = 1) (hlen : plain.length = 9) {pa : Nat}
    (ht : translate (s.world (s.channel m.chid.toNat).world).windows (BitVec.ofNat 64 (leNat (plain.take 8))).toNat 1 .wr = some pa) :
    Does s (.channelPut m) (fun t => ChannelUsed m (s.channel m.chid.toNat) (t.channel m.chid.toNat) ∧ ∃ y, t.accesses = s.accesses ++ [y] ∧
      y.world = (s.channel m.chid.toNat).world ∧ y.act = .write { cells := [(pa, plain.getD 8 0)] }) := by
  have rest : plain.drop 8 = [plain.getD 8 0] := by
    rw [List.drop_eq_getElem_cons (by omega), List.drop_of_length_le (by omega), List.getD_eq_getElem _ _ (by omega)]
  have hx := exec_channelPut_right hs hl h ho hk
  rw [rest] at hx
  exact channelPut_posts hb hj ht hx
theorem commandPacketMessage_idle (hk : m.kind = 2) {n : Nat} (hlen : plain.length = 8 + 64 * n) (h1 : 1 ≤ n) (h2 : n ≤ 1023)
    (hz : leNat ((plain.drop 2).take 6) = 0) (hq : leNat (plain.take 2) < 16)
    (hp : (s.queueAt (s.channel m.chid.toNat).world (leNat (plain.take 2))).present = true) :
    let x := s.queueAt (s.channel m.chid.toNat).world (leNat (plain.take 2))
    Does s (.commandPacketMessage m) (fun t => ChannelUsed m (s.channel m.chid.toNat) (t.channel m.chid.toNat) ∧
      (t.channel m.chid.toNat).jobs = [.tail (leNat (plain.take 2)) (x.tail + BitVec.ofNat 32 n)] ∧
      ∃ acts, t.accesses = s.accesses ++ acts ∧ ∀ i < 64 * n, ∀ p, translate (s.world (s.channel m.chid.toNat).world).windows
        (x.base.toNat + 64 * ((x.tail.toNat + i / 64) % 2 ^ x.log2n) + i % 64) 1 .wr = some p →
          ∃ y ∈ acts, ∃ w, y.act = .write w ∧ (p, plain.getD (8 + i) 0) ∈ w.cells) := by
  obtain ⟨t, hx, hk, used, jobs, acts, hacc, cells⟩ := packets_post (n := n) hb hj (by rw [List.length_drop]; omega) hq hp
    (exec_commandPacketMessage_right hs hl h ho hk hlen h1 h2 hz)
  refine ⟨t, hx, hk, used, jobs, acts, hacc, fun i hi p ht => ?_⟩
  have cell := cells i hi p ht
  rwa [List.getD_eq_getElem?_getD, List.getElem?_drop, ← List.getD_eq_getElem?_getD] at cell
end

/-- Settles O50: what is accepted and what an accepted message does, then what opens a channel, then what a lapsed heartbeat does. -/
theorem channelsAndHeartbeats : Obligations.ChannelsAndHeartbeats := by
  intro s m plain body n pa _ _ _ _ _ _ _ _ _ _ _ _ _
  refine ⟨fun hi hl => ?_, ?_, fun e he hl hc hn hy ht => ⟨heartbeatTimeout_beaten he hl hc hn hy ht, fun hb hw hf => ?_,
    heartbeatTimeout_holds he hl hc hn hy ht⟩, keyHoldExpiry_ends, keyHoldExpiry_idle⟩
  · have hs := s.serves_iff.2 hi
    refine ⟨fun i hi hk hh => message_unfit hs hl hi hk hh, fun i hi hk hh ho => message_wrongTag hs hl hi hk hh ho, fun hh ho => ?_⟩
    refine ⟨fun op hb => ⟨fun hk => job_behind (exec_channelPut_right hs hl hh ho hk) hb,
      fun hk hlen h1 h2 hz => job_behind (exec_commandPacketMessage_right hs hl hh ho hk hlen h1 h2 hz) hb,
      fun hk hlen hz => job_behind (exec_tailWrite_right hs hl hh ho hk hlen hz) hb⟩,
      fun hb hj => ⟨fun hk hlen ht => channelPut_idle hs hl hh ho hb hj hk hlen ht,
        fun hk hlen h1 h2 hz hq hp => commandPacketMessage_idle hs hl hh ho hb hj hk hlen h1 h2 hz hq hp,
        fun hk hlen hz => tail_writes hb hj (exec_tailWrite_right hs hl hh ho hk hlen hz)⟩,
      heartbeat_beats hs hl hh ho, fun hk hc => ?_, fun hk => ?_⟩
    · obtain ⟨t, hx, keeps, last, ctr, dead, sent⟩ := status_replies hs hl hh ho hk hc
      obtain ⟨-, -, world, -⟩ : ChannelTakes (s.channel m.chid.toNat) m := hh
      rw [sealed_eq world] at sent
      exact ⟨t, hx, keeps, last, ctr, dead, sent⟩
    · obtain ⟨t, hx, keeps, closing, behind, gone⟩ := channelClose_closes hs hl hh ho hk
      exact ⟨t, hx, keeps, closing, behind, fun busy jobs _ => gone busy jobs⟩
  · intro _ b _ _ hi hy hest hlen hok hopc hsub hw hz
    have openable : Openable s n body := ⟨s.serves_iff.2 hi, hy, hest, hlen, hok, hopc, hsub, hw, hz⟩
    refine ⟨fun hc => ?_, worldOpen_refused openable⟩
    exact ⟨_, exec_worldOpen_opens openable hc, openChannel_keeps s n (packetBits body), openChannel_effect s n (packetBits body)⟩
  · exact heartbeatTimeout_tearsDown he hl hc hn hy ht hb hw (holdsWork_of_frond hf)

end Sys2Proof.Machine
end

section
/-! SUPPORT. The measured load to its step 7 (15 R333 to R345, 03 R74): a load that fails, the image of a version in memory, and the load of one page. -/

namespace Sys2Proof.Machine

/-! ### A load that fails (R74) -/

/-- A failed load leaves its world EMPTY, its cores free, and tells the manager. -/
def LoadFailed (s t : State) (w code : Nat) : Prop := t.world w = {} ∧ t.hub.queue = s.hub.queue ++ [.loadfail w code] ∧
  ∀ n, (s.core n).granted = true → (s.core n).world = w → (t.core n).granted = false ∧ (t.core n).ctxs = []
theorem core_eraseWorld (s : State) (w n : Nat) : (s.eraseWorld w).core n = (s.ungrant w).core n := by
  rw [State.core, State.eraseWorld, State.updWorld_cores, State.forgetMemory_cores]
  rfl
/-- A load may have changed what is neither the grant nor an event before it fails. -/
theorem loadFailed_failLoad {s u : State} {w : Nat} (code : Nat) (hq : u.hub.queue = s.hub.queue)
    (hg : ∀ n, (u.core n).granted = (s.core n).granted ∧ (u.core n).world = (s.core n).world) : LoadFailed s (u.failLoad w code) w code := by
  refine ⟨by rw [State.failLoad, State.world_tell, State.world_eraseWorld], ?_, fun n granted world => ?_⟩
  · rw [← hq]
    exact congrArg (· ++ [Event.loadfail w code]) (State.eraseWorld_keeps (fun t => t.hub.queue) u w (fun _ _ _ _ _ _ => rfl))
  · obtain ⟨hgr, hwo⟩ := hg n
    have core : (u.failLoad w code).core n = (u.ungrant w).core n := core_eraseWorld u w n
    rw [core, State.ungrant_eq]
    exact (State.foldl_regrant (State.mem_grantOf (hgr.trans granted) (hwo.trans world)) (Q := fun x => x.granted = false ∧ x.ctxs = [])
      (fun x => ⟨rfl, rfl⟩)).1

/-! ### The image of a version (R318) -/

theorem leNat_lt (l : List Byte) : leNat l < 256 ^ l.length := by
  induction l with
  | nil => simp [leNat]
  | cons b r ih =>
    have := b.isLt
    rw [leNat, List.length_cons, pow_succ']
    omega
theorem recNat_lt (l : List Byte) (off n : Nat) : recNat l off n < 256 ^ n :=
  (leNat_lt _).trans_le (Nat.pow_le_pow_right (by decide) (List.length_take_le ..))
theorem toNat_syllablesOf (l : List Byte) : (syllablesOf l).map BitVec.toNat = (List.range (l.length / 4)).map (fun i => recNat l (4 * i) 4) := by
  rw [syllablesOf, List.map_map]
  refine List.map_congr_left (fun i _ => ?_)
  exact (BitVec.toNat_ofNat ..).trans (Nat.mod_eq_of_lt (recNat_lt l (4 * i) 4))
/-- The cells of an image. -/
def imageCells (addr : Nat) (syl : List Syllable) : List Host.Cell := syl.zipIdx.flatMap (fun e => cellsAt (addr + 4 * e.2) 4 e.1.toNat)
theorem addr_cellsAt (pa n v : Nat) : (cellsAt pa n v).map Prod.fst = (List.range n).map (pa + ·) := by
  rw [cellsAt, List.map_map]
  rfl
theorem addrs_imageCells (addr : Nat) (syl : List Syllable) : (imageCells addr syl).map Prod.fst = (List.range (4 * syl.length)).map (addr + ·) := by
  rw [imageCells]
  have shifted : ∀ k, ((syl.zipIdx k).flatMap (fun e => cellsAt (addr + 4 * e.2) 4 e.1.toNat)).map Prod.fst =
      (List.range (4 * syl.length)).map (addr + 4 * k + ·) := by
    induction syl with
    | nil => simp
    | cons x r ih =>
      intro k
      rw [List.zipIdx_cons, List.flatMap_cons, List.map_append, addr_cellsAt, ih, List.length_cons,
        show 4 * (r.length + 1) = 4 + 4 * r.length by omega, List.range_add, List.map_append, List.map_map]
      exact congrArg _ (List.map_congr_left (fun i _ => by simp only [Function.comp_apply]; omega))
  exact shifted 0
theorem nodup_imageCells (addr : Nat) (syl : List Syllable) : ((imageCells addr syl).map Prod.fst).Nodup := by
  rw [addrs_imageCells]
  exact List.nodup_range.map (fun _ _ h => Nat.add_left_cancel h)
theorem mem_imageCells {addr : Nat} {syl : List Syllable} {i j : Nat} {x : Syllable} (hi : syl[i]? = some x) (hj : j < 4) :
    (addr + 4 * i + j, BitVec.ofNat 8 (x.toNat / 2 ^ (8 * j))) ∈ imageCells addr syl :=
  List.mem_flatMap.2 ⟨(x, i), List.mem_zipIdx_iff_getElem?.2 hi, List.mem_map.2 ⟨j, List.mem_range.2 hj, rfl⟩⟩
/-- Where an image has landed it is read back. -/
theorem load_imageCells {t : State} {addr : Nat} {syl : List Syllable} (ht : ∀ a b, (a, b) ∈ imageCells addr syl → t.byte a = b) :
    (List.range syl.length).map (fun i => BitVec.ofNat 32 (t.load (addr + 4 * i) 4)) = syl := by
  refine List.ext_getElem (by simp) (fun i hi hi' => ?_)
  rw [List.getElem_map, List.getElem_range, State.load, State.bytes,
    List.map_congr_left (fun j hj => ht _ _ (mem_imageCells (List.getElem?_eq_getElem hi') (List.mem_range.1 hj))), leNat_map_range]
  exact BitVec.eq_of_toNat_eq ((BitVec.toNat_ofNat ..).trans (by
    have := (syl[i]).isLt
    omega))
/-- What a world sees of memory depends on the worlds only by their keys. -/
theorem State.byte_seenBy_of_keys {s t : State} (hm : t.mem = s.mem) (ho : t.owner = s.owner) (hk : ∀ v, (t.world v).key = (s.world v).key) (w : Nat)
    (l : List Nat) (a : Nat) : (t.seenBy w l).byte a = (s.seenBy w l).byte a := by
  have hf : t.foreign w = s.foreign w := by funext n; rw [State.foreign, ho]; rfl
  have hc : t.seenCells w = s.seenCells w := by
    funext n
    simp only [State.seenCells, State.lineBytes, State.bytes, State.byte, hk, ho, hm]
  refine State.byte_of_mem_eq ?_ a
  rw [State.seenBy_eq_foldl, State.seenBy_eq_foldl, hf, hc]
  exact State.foldl_writeCells_mem_congr _ _ hm
theorem keepsOthers_congr {s t u : State} {w : Nat} {l : List Nat} (hm : u.mem = s.mem) (ho : u.owner = s.owner)
    (hk : ∀ v, (u.world v).key = (s.world v).key) (h : KeepsOthers u t w l) : KeepsOthers s t w l :=
  ⟨fun a ha => (h.1 a ha).trans (State.byte_seenBy_of_keys hm ho hk w l a), seesOwn s w l⟩

/-! ### A page of a load (R74, R345) -/

/-- The version that the table takes of a page in the clear. -/
def State.versionAt (s : State) (page : Nat) (syl : List Syllable) : Version :=
  { page := page, tag := versionTag syl, addr := s.imagePlace, len := (syl.getD 2 0).toNat % 256, loaded := true, sealed := false }
theorem State.cptAdd_eq (s : State) (w page : Nat) (syl : List Syllable) : s.cptAdd w page syl true false =
    (s.landAs 0 (imageCells s.imagePlace syl)).updWorld w (fun x => { x with cpt := x.cpt ++ [s.versionAt page syl] }) := rfl
theorem length_syllablesOf (l : List Byte) : (syllablesOf l).length = l.length / 4 := by simp [syllablesOf]
/-- A page that passes its checks is as long as its header says. -/
theorem length_of_pageOk {land : List Byte} {p : LoadPage} (h : pageOk land p = true) :
    p.image.length = 128 * (((syllablesOf p.image).getD 2 0).toNat % 256) := by
  unfold pageOk at h
  simp only [Bool.and_eq_true, decide_eq_true_eq] at h
  exact h.1.1.1.1.2

/-! ### The load of one page -/

theorem exec_measuredLoad_eq (w : Nat) (file : List Byte) (s : State) : exec (.measuredLoad w file) s = execMeasuredLoad w file s := rfl
theorem measuredLoad_stays {s : State} {w : Nat} (file : List Byte) (h : (s.world w).st ≠ .loading) : exec (.measuredLoad w file) s = .next s :=
  if_pos (.inl h)
theorem planOf_nil : planOf none [] = some ([], []) := rfl
theorem shiftsOf_nil : shiftsOf [] [] = some [] := rfl
theorem sortPages_single (p : LoadPage) : sortPages [p] = some [p] := by simp [sortPages]
/-- A section of a type that the file does not have is empty. -/
theorem bodyOf_of_not_mem {l : List Section} {n : Nat} (h : ∀ x ∈ l, x.ty ≠ n) : bodyOf l n = [] := by
  rw [bodyOf, List.find?_eq_none.2 (fun x hx => by simpa using h x hx)]
  rfl

section
variable {s : State} {w : Nat} {file : List Byte} (hst : (s.world w).st = .loading) (hload : (s.world w).load = none)
include hst hload
theorem load_begins : ¬ ((s.world w).st ≠ .loading ∨ (s.world w).load.isSome) := by simp [hst, hload]
/-- R333, R334: a file whose header or table is wrong. -/
theorem measuredLoad_badFile (h : sectionsOf file = none) : exec (.measuredLoad w file) s = .next (s.failLoad w 0x01) := by
  rw [exec_measuredLoad_eq, execMeasuredLoad, if_neg (load_begins hst hload), h]
variable {l : List Section} (hs : sectionsOf file = some l) (hr : ∀ r ∈ records 32 (bodyOf l 0x0A), recNat r 2 1 = 4)
include hs hr
omit hst hload hs in
theorem not_unlinked : unlinked file (bodyOf l 0x0A) = false := by
  rw [unlinked, List.any_eq_false.2 (fun r h => by simp [hr r h]), Bool.and_false]
theorem measuredLoad_unsigned (h : (l.find? (fun x => decide (x.ty = 0x0C))).bind (sigOk file) = none) :
    exec (.measuredLoad w file) s = .next (s.failLoad w 0x02) := by
  rw [exec_measuredLoad_eq, execMeasuredLoad, if_neg (load_begins hst hload), hs]
  dsimp only
  rw [if_neg (by simp [not_unlinked hr]), h]
variable {key : List Byte} (hk : (l.find? (fun x => decide (x.ty = 0x0C))).bind (sigOk file) = some key)
include hk
omit hst hload hs hr hk in
theorem world_extendWmr (s : State) (w : Nat) (d : BitVec 384) :
    (s.extendWmr w d).world w = { s.world w with wmr := sha384 (digestBytes (s.world w).wmr ++ digestBytes d) } := State.world_updWorld_self ..
theorem measuredLoad_otherWorld (h : decide (recNat file 6 2 % 2 = 1) ≠ (s.world w).confidential) :
    exec (.measuredLoad w file) s = .next ((s.extendWmr w (sha384 key)).failLoad w 0x03) := by
  rw [exec_measuredLoad_eq, execMeasuredLoad, if_neg (load_begins hst hload), hs]
  dsimp only
  rw [if_neg (by simp [not_unlinked hr]), hk]
  dsimp only
  rw [world_extendWmr, if_pos h]
theorem measuredLoad_opens (h : decide (recNat file 6 2 % 2 = 1) = (s.world w).confidential) (hn : bodyOf l 0x0B = []) :
    exec (.measuredLoad w file) s = .next ((s.extendWmr w (sha384 key)).loadOpened w l []) := by
  rw [exec_measuredLoad_eq, execMeasuredLoad, if_neg (load_begins hst hload), hs]
  dsimp only
  rw [if_neg (by simp [not_unlinked hr]), hk]
  dsimp only
  rw [world_extendWmr, if_neg (not_not.2 h), hn]
  rfl
end

section
variable {l : List Section} (ht : ∀ x ∈ l, x.ty ∈ [1, 2, 7, 0x0C])
include ht
theorem bodyOf_other {n : Nat} (h : n ∉ [1, 2, 7, 0x0C]) : bodyOf l n = [] := bodyOf_of_not_mem (fun x hx e => h (e ▸ ht x hx))
theorem no_section {n : Nat} (h : n ∉ [1, 2, 7, 0x0C]) : l.any (fun x => decide (x.ty = n)) = false :=
  List.any_eq_false.2 (fun x hx => by simpa using fun e : x.ty = n => h (e ▸ ht x hx))
/-- The page of the one CODE record. -/
def pageOf (hd img : List Byte) : LoadPage := { page := recNat hd 0 8, sealed := false, proc := recNat hd 12 4, image := img }
/-- The state in which a load of one page and one DATA record has reached step 7. -/
def State.loaded (s : State) (w : Nat) (p : LoadPage) (body : List Byte) (rec_ : Nat × List Byte) : State :=
  (((s.extendWmr w (sha384 p.image)).cptAdd w p.page (syllablesOf p.image) true false).extendWmr w (sha384 body)).updWorld w (fun x =>
    { x with step := 7, load := some { mprg := none, recs := [rec_], pages := [p] } })
omit ht in
theorem loadPages_single (s : State) (w : Nat) (land : List Byte) {p : LoadPage} (hp : p.sealed = false) : s.loadPages w land [p] =
    if pageOk land p = true then .ok ((s.extendWmr w (sha384 p.image)).cptAdd w p.page (syllablesOf p.image) true p.sealed) else .error 0x04 := by
  rw [State.loadPages, List.foldl_cons, List.foldl_nil]
  dsimp only
  rw [if_neg (by simp [hp])]
  by_cases ok : pageOk land p = true
  · rw [if_neg (by simp [ok]), if_pos ok]
  · rw [if_pos (by simp [ok]), if_neg ok]
omit ht in
theorem writeRegions_nil (ks : List Nat) (rd wr nrd nwr : Nat) (img : List Byte) : writeRegions [] ks rd wr nrd nwr img = img := rfl
variable {hd img dh data : List Byte} (h1 : headedOf codeSize (bodyOf l 1) = some [(hd, img)]) (h7 : headedOf sizeAt8 (bodyOf l 7) = some [(dh, data)])
include h1 h7
theorem loadOpened_page (s : State) (w : Nat) : s.loadOpened w l [] = if pageOk (bodyOf l 2) (pageOf hd img) = true then
    s.loaded w (pageOf hd img) (bodyOf l 7) (recNat dh 0 8, data) else s.failLoad w 0x04 := by
  have find3 : l.find? (fun x => decide (x.ty = 3)) = none :=
    List.find?_eq_none.2 (fun x hx => by simpa using fun e : x.ty = 3 => absurd (e ▸ ht x hx) (by decide))
  have has7 : l.any (fun x => decide (x.ty = 7)) = true := by
    by_contra no
    rw [bodyOf_of_not_mem (n := 7) (fun x hx e => no (List.any_eq_true.2 ⟨x, hx, decide_eq_true e⟩))] at h7
    cases h7
  have foot : bodyOf l 4 = [] := bodyOf_other ht (by decide)
  unfold State.loadOpened
  simp only [List.filter_nil, List.map_nil, List.append_nil]
  rw [find3, bodyOf_other ht (n := 3) (by decide), Option.map_none, planOf_nil]
  dsimp only
  rw [foot, if_neg (by decide), shiftsOf_nil]
  dsimp only
  rw [bodyOf_other ht (n := 0x0A) (by decide), show records 32 [] = [] from rfl, List.foldl_nil]
  dsimp only
  rw [h1, bodyOf_other ht (n := 5) (by decide), h7, show headedOf sizeAt8 [] = some [] from rfl, List.foldr_nil]
  dsimp only
  rw [show [(hd, img)].map (codePage false) ++ [].map (codePage true) = [pageOf hd img] from rfl, sortPages_single]
  dsimp only
  rw [loadPages_single _ _ _ rfl]
  by_cases ok : pageOk (bodyOf l 2) (pageOf hd img) = true
  · rw [if_pos ok, if_pos ok, no_section ht (n := 6) (by decide)]
    simp only [List.foldl_cons, List.foldl_nil, has7, no_section ht (n := 3) (by decide), no_section ht (n := 4) (by decide),
      no_section ht (n := 5) (by decide), no_section ht (n := 6) (by decide), writeRegions_nil]
    simp only [Bool.false_eq_true, if_false, if_true, List.map_nil, List.nil_append, List.map_cons, ite_self]
    rfl
  · rw [if_neg ok, if_neg ok]
end

/-! ### What the load of one page leaves -/

theorem State.world_landAs (s : State) (w : Nat) (l : List Host.Cell) (v : Nat) : (s.landAs w l).world v = s.world v := by
  rw [State.landAs_eq]
  rfl
theorem State.hub_landAs (s : State) (w : Nat) (l : List Host.Cell) : (s.landAs w l).hub = s.hub := by
  rw [State.landAs_eq]
theorem world_cptAdd (s : State) (w page : Nat) (syl : List Syllable) : (s.cptAdd w page syl true false).world w =
    { s.world w with cpt := (s.world w).cpt ++ [s.versionAt page syl] } := by
  rw [State.cptAdd_eq, State.world_updWorld_self, State.world_landAs]
theorem key_extendWmr (s : State) (w : Nat) (d : BitVec 384) (v : Nat) : ((s.extendWmr w d).world v).key = (s.world v).key := by
  rw [State.extendWmr, State.world_updWorld]
  split
  · rename_i e
    rw [e]
  · rfl
theorem hub_loaded (s : State) (w : Nat) (p : LoadPage) (body : List Byte) (r : Nat × List Byte) : (s.loaded w p body r).hub = s.hub :=
  State.hub_landAs ..
theorem mem_loaded (s : State) (w : Nat) (p : LoadPage) (body : List Byte) (r : Nat × List Byte) : (s.loaded w p body r).mem =
    ((s.extendWmr w (sha384 p.image)).landAs 0 (imageCells (s.extendWmr w (sha384 p.image)).imagePlace (syllablesOf p.image))).mem := rfl
/-- The version that a load's page enters in the table. -/
def State.loadedVersion (s : State) (w : Nat) (p : LoadPage) : Version := (s.extendWmr w (sha384 p.image)).versionAt p.page (syllablesOf p.image)
theorem world_loaded (s : State) (w : Nat) (p : LoadPage) (body : List Byte) (r : Nat × List Byte) : (s.loaded w p body r).world w =
    { s.world w with
      wmr := sha384 (digestBytes (sha384 (digestBytes (s.world w).wmr ++ digestBytes (sha384 p.image))) ++ digestBytes (sha384 body))
      cpt := (s.world w).cpt ++ [s.loadedVersion w p]
      step := 7
      load := some { mprg := none, recs := [r], pages := [p] } } := by
  rw [State.loaded, State.world_updWorld_self, world_extendWmr, world_cptAdd, world_extendWmr]
  rfl
section
variable {s u : State} {land : List Byte} {p : LoadPage} (h : pageOk land p = true) (w : Nat) (body : List Byte) (r : Nat × List Byte)
include h
theorem length_image : p.image.length = 4 * (syllablesOf p.image).length := by
  have len := length_of_pageOk h
  rw [length_syllablesOf]
  omega
/-- The image stands in memory as the file has it. -/
theorem image_loaded : ((s.loaded w p body r).image (s.loadedVersion w p)).map BitVec.toNat =
    (List.range (p.image.length / 4)).map (fun i => recNat p.image (4 * i) 4) := by
  have len : 32 * (s.loadedVersion w p).len = (syllablesOf p.image).length := by
    have := length_of_pageOk h
    rw [length_syllablesOf]
    show 32 * (((syllablesOf p.image).getD 2 0).toNat % 256) = _
    omega
  rw [← toNat_syllablesOf, State.image, len]
  refine congrArg (List.map BitVec.toNat) (load_imageCells (fun a b hm => ?_))
  rw [State.byte_of_mem_eq (mem_loaded s w p body r)]
  exact State.byte_landAs_of_nodup _ 0 (nodup_imageCells ..) hm
/-- Nothing but the image is written (R204, log 12). -/
theorem keepsOthers_loaded (hm : u.mem = s.mem) (ho : u.owner = s.owner) (hk : ∀ v, (u.world v).key = (s.world v).key) :
    KeepsOthers s (u.loaded w p body r) 0 ((List.range p.image.length).map ((u.loadedVersion w p).addr + ·)) := by
  have addrs : (List.range p.image.length).map ((u.loadedVersion w p).addr + ·) =
      (imageCells (u.extendWmr w (sha384 p.image)).imagePlace (syllablesOf p.image)).map Prod.fst := by
    rw [addrs_imageCells, length_image h]
    rfl
  have bytes := State.keepsOthers_landAs (u.extendWmr w (sha384 p.image)) 0 (imageCells (u.extendWmr w (sha384 p.image)).imagePlace (syllablesOf p.image))
  rw [← addrs] at bytes
  have others := keepsOthers_congr (s := s) ((State.updWorld_mem ..).trans hm) ((State.updWorld_owner ..).trans ho)
    (fun v => (key_extendWmr u w (sha384 p.image) v).trans (hk v)) bytes
  exact ⟨fun a ha => (State.byte_of_mem_eq (mem_loaded u w p body r) a).trans (others.1 a ha), others.2⟩
end

end Sys2Proof.Machine
end

section
/-! SUPPORT. The later steps of a load: the microprograms and the data, and the placement (15 R345, R347, R349). -/

namespace Sys2Proof.Machine

/-! ### Fenced cores (R349) -/

theorem State.dropFenced_of_none {s : State} {w : Nat} (h : ∀ n ∈ s.grantOf w, (s.core n).fenced = false) : s.dropFenced w = s := by
  rw [State.dropFenced, List.filter_eq_nil_iff.2 (fun n hn => by simp [h n hn]), List.foldl_nil]
section
variable {s : State} {w : Nat} {l : Loading} (hl : (s.world w).load = some l) (hf : ∀ n ∈ s.grantOf w, (s.core n).fenced = false)
include hl
theorem loadNext_fenced {n : Nat} (hn : n ∈ s.grantOf w) (h : (s.core n).fenced = true) (hd : ∃ e ∈ (s.core n).dir, e.2.sealed = true) :
    s.loadNext w = s.failLoad w 0x0A := by
  obtain ⟨e, he, hs⟩ := hd
  have holds : (s.grantOf w).any (fun c => (s.core c).fenced && (s.core c).dir.any (fun e => e.2.sealed)) = true :=
    List.any_eq_true.2 ⟨n, hn, Bool.and_eq_true_iff.2 ⟨h, List.any_eq_true.2 ⟨e, he, hs⟩⟩⟩
  unfold State.loadNext
  rw [hl]
  exact if_pos holds
include hf
omit hl in
theorem none_sealed : (s.grantOf w).any (fun c => (s.core c).fenced && (s.core c).dir.any (fun e => e.2.sealed)) = false :=
  List.any_eq_false.2 (fun n hn => by simp [hf n hn])
theorem loadNext_store (hc : l.cores = none) : s.loadNext w = s.loadStore w l := by
  unfold State.loadNext
  rw [hl]
  dsimp only
  rw [if_neg (by simp [none_sealed hf]), State.dropFenced_of_none hf, hc]
theorem loadNext_ready (hc : l.cores = some []) : s.loadNext w = s.updWorld w (fun x => { x with st := .ready, step := 9, load := none }) := by
  unfold State.loadNext
  rw [hl]
  dsimp only
  rw [if_neg (by simp [none_sealed hf]), State.dropFenced_of_none hf, hc]
/-- The next core of the grant takes the pages, or the load fails. -/
theorem loadNext_core {n : Nat} {r : List Nat} (hc : l.cores = some (n :: r)) (hn : n ∈ s.grantOf w) : s.loadNext w =
    ((s.core n).placePages l.pages).elim (s.failLoad w 0x0A)
      (fun x => (s.updCore n (fun _ => x)).updWorld w (fun y => { y with load := some { l with cores := some r } })) := by
  unfold State.loadNext
  rw [hl]
  dsimp only
  rw [if_neg (by simp [none_sealed hf]), State.dropFenced_of_none hf, hc]
  dsimp only
  rw [if_neg (by simp [hn])]
  cases (s.core n).placePages l.pages <;> rfl
end

/-! ### The placement of one page in a core (R347) -/

theorem placePages_single (x : Core) (p : LoadPage) : x.placePages [p] =
    if x.freeFrames.length < 1 + versionNcont (syllablesOf p.image) then (if p.sealed then none else some x)
    else some (x.place p.page p.sealed (syllablesOf p.image)) := by
  have single : [p].filter LoadPage.sealed ++ [p].filter (fun p => !p.sealed) = [p] := by
    cases h : p.sealed <;> simp [h]
  rw [Core.placePages, single]
  rfl

/-! ### The microprograms and the data (R345 step 8) -/

/-- The microprograms stand in every core of the grant. -/
def State.programmed (s : State) (w : Nat) (tab : List (Nat × BitVec 16)) (words : List (Nat × Word)) : State :=
  (s.grantOf w).foldl (fun s c => s.updCore c (fun x =>
    { x with engine := { x.engine with
        table := tab.foldl (fun m e => SMap.put 0 m e.1 e.2) x.engine.table
        store := words.foldl (fun m e => SMap.put 0 m e.1 e.2) x.engine.store } })) s
theorem State.programmed_keeps {β : Type} (P : State → β) (s : State) (w : Nat) (tab : List (Nat × BitVec 16)) (words : List (Nat × Word))
    (h : ∀ t co, P { t with cores := co } = P t) : P (s.programmed w tab words) = P s := foldl_keeps P _ _ s (fun t _ => h t _)
theorem core_programmed_nil (s : State) (w n : Nat) : (s.programmed w [] []).core n = s.core n := by
  refine foldl_keeps (fun t => t.core n) _ _ s (fun t c => ?_)
  dsimp only
  rw [State.core_updCore]
  split
  · rename_i e
    rw [e]
    rfl
  · rfl
section
variable {s : State} {w : Nat} {l : Loading}
theorem loadStore_badProgram {b : List Byte} (hb : l.mprg = some b) (h : mprgOf b = none) : s.loadStore w l = s.failLoad w 0x09 := by
  unfold State.loadStore
  rw [hb]
  dsimp only
  rw [h]
variable (hm : l.mprg = none) {va : Nat} {data : List Byte} (hr : l.recs = [(va, data)])
include hm hr
theorem loadStore_untranslated (h : (s.programmed w [] []).loadBytes w va data = none) :
    s.loadStore w l = (s.programmed w [] []).failLoad w 0x08 := by
  have rec_ : (s.programmed w [] []).loadRecords w l.recs = (s.programmed w [] [], false) := by
    rw [hr, State.loadRecords, List.foldl_cons, List.foldl_nil]
    dsimp only
    rw [h]
    rfl
  unfold State.loadStore
  rw [hm]
  dsimp only
  rw [show (s.grantOf w).foldl _ s = s.programmed w [] [] from rfl, rec_]
  exact if_pos rfl
theorem loadStore_stores {t : State} (h : (s.programmed w [] []).loadBytes w va data = some t) (hp : ∀ p ∈ l.pages, p.sealed = false) :
    s.loadStore w l = t.updWorld w (fun x => { x with step := 8, load := some { l with cores := some (s.grantOf w) } }) := by
  have rec_ : (s.programmed w [] []).loadRecords w l.recs = (t, true) := by
    rw [hr, State.loadRecords, List.foldl_cons, List.foldl_nil]
    dsimp only
    rw [h]
    rfl
  have clear : l.pages.any LoadPage.sealed = false := List.any_eq_false.2 (fun p hx => by simp [hp p hx])
  unfold State.loadStore
  rw [hm]
  dsimp only
  rw [show (s.grantOf w).foldl _ s = s.programmed w [] [] from rfl, rec_, if_neg (by simp), if_neg (by simp [clear])]
end
section
variable {s : State} {w va : Nat} {data : List Byte}
theorem loadBytes_untranslated (h : ∃ i < data.length, translate (s.world w).windows (va + i) 1 .wr = none) : s.loadBytes w va data = none := by
  obtain ⟨i, hi, h⟩ := h
  rw [State.loadBytes, State.translateAll_of_none (List.mem_map_of_mem (List.mem_range.2 hi)) h]
  rfl
/-- The cells of a record that lies in one piece. -/
def recordCells (g : Nat) (data : List Byte) : List Host.Cell := ((List.range data.length).map (g + ·)).zip data
theorem loadBytes_translated {g : Nat} (h : ∀ i < data.length, translate (s.world w).windows (va + i) 1 .wr = some (g + i)) :
    s.loadBytes w va data = some (s.landAs w (recordCells g data)) := by
  have all : s.translateAll w .wr ((List.range data.length).map (fun i => va + i)) = some ((List.range data.length).map (g + ·)) := by
    refine State.translateAll_of_some ?_
    rw [List.map_map, List.map_map]
    exact List.map_congr_left (fun i hi => h i (List.mem_range.1 hi))
  rw [State.loadBytes, all]
  rfl
theorem addrs_recordCells (g : Nat) (data : List Byte) : (recordCells g data).map Prod.fst = (List.range data.length).map (g + ·) :=
  List.map_fst_zip (by simp)
theorem byte_recordCells (s : State) (w g : Nat) (data : List Byte) {i : Nat} (hi : i < data.length) :
    (s.landAs w (recordCells g data)).byte (g + i) = data.getD i 0 := by
  refine State.byte_landAs_of_nodup s w ?_ (List.mem_iff_getElem.2 ⟨i, by simpa [recordCells] using hi, ?_⟩)
  · rw [addrs_recordCells]
    exact List.nodup_range.map (fun _ _ h => Nat.add_left_cancel h)
  · simp [recordCells, hi]
end

/-! ### What the steps leave -/

section
variable {s : State} {w : Nat} {l : Loading} (hl : (s.world w).load = some l) (hf : ∀ n ∈ s.grantOf w, (s.core n).fenced = false)
theorem fails_now (code : Nat) : LoadFailed s (s.failLoad w code) w code := loadFailed_failLoad code rfl (fun _ => ⟨rfl, rfl⟩)
include hl
theorem loadNext_fencedFails (h : ∃ n ∈ s.grantOf w, (s.core n).fenced = true ∧ ∃ e ∈ (s.core n).dir, e.2.sealed = true) :
    LoadFailed s (s.loadNext w) w 10 := by
  obtain ⟨n, hn, hfe, hd⟩ := h
  rw [loadNext_fenced hl hn hfe hd]
  exact fails_now _
include hf
theorem loadNext_badProgram (hc : l.cores = none) {b : List Byte} (hb : l.mprg = some b) (h : mprgOf b = none) : LoadFailed s (s.loadNext w) w 9 := by
  rw [loadNext_store hl hf hc, loadStore_badProgram hb h]
  exact fails_now _
section
variable (hc : l.cores = none) (hm : l.mprg = none) {va : Nat} {data : List Byte} (hr : l.recs = [(va, data)])
include hc hm hr
theorem loadNext_untranslated (h : ∃ i < data.length, translate (s.world w).windows (va + i) 1 .wr = none) : LoadFailed s (s.loadNext w) w 8 := by
  have world : (s.programmed w [] []).world w = s.world w := State.programmed_keeps (fun t => t.world w) s w [] [] (fun _ _ => rfl)
  rw [loadNext_store hl hf hc, loadStore_untranslated hm hr (loadBytes_untranslated (by rw [world]; exact h))]
  refine loadFailed_failLoad _ (State.programmed_keeps (fun t => t.hub.queue) s w [] [] (fun _ _ => rfl)) (fun n => ?_)
  rw [core_programmed_nil]
  exact ⟨rfl, rfl⟩
theorem loadNext_stores {g : Nat} (h : ∀ i < data.length, translate (s.world w).windows (va + i) 1 .wr = some (g + i))
    (hp : ∀ p ∈ l.pages, p.sealed = false) : let t := s.loadNext w
    (t.world w).step = 8 ∧ (t.world w).load = some { l with cores := some (s.grantOf w) } ∧ (∀ n, t.core n = s.core n) ∧
      (∀ i < data.length, t.byte (g + i) = data.getD i 0) ∧ KeepsOthers s t w ((List.range data.length).map (g + ·)) := by
  have worlds : (s.programmed w [] []).worlds = s.worlds := State.programmed_keeps State.worlds s w [] [] (fun _ _ => rfl)
  have world : ∀ v, (s.programmed w [] []).world v = s.world v := fun v => by rw [State.world, worlds]; rfl
  have others := State.keepsOthers_landAs (s.programmed w [] []) w (recordCells g data)
  rw [addrs_recordCells] at others
  intro t
  have ht : t = ((s.programmed w [] []).landAs w (recordCells g data)).updWorld w (fun x =>
      { x with step := 8, load := some { l with cores := some (s.grantOf w) } }) :=
    (loadNext_store hl hf hc).trans (loadStore_stores hm hr (loadBytes_translated (fun i hi => by rw [world]; exact h i hi)) hp)
  rw [ht]
  refine ⟨?_, ?_, fun n => ?_, fun i hi => ?_, ?_⟩
  · rw [State.world_updWorld_self]
  · rw [State.world_updWorld_self]
  · rw [State.core, State.updWorld_cores, State.landAs_eq]
    exact core_programmed_nil s w n
  · exact byte_recordCells _ w g data hi
  · exact keepsOthers_congr (State.programmed_keeps State.mem s w [] [] (fun _ _ => rfl)) (State.programmed_keeps State.owner s w [] [] (fun _ _ => rfl))
      (fun v => by rw [world]) ⟨others.1, others.2⟩
end
section
variable {n : Nat} {r : List Nat} {p : LoadPage} (hc : l.cores = some (n :: r)) (hn : n ∈ s.grantOf w) (hp : l.pages = [p])
include hc hn hp
theorem loadNext_full (h : (s.core n).freeFrames.length < 1 + versionNcont (syllablesOf p.image)) (hs : p.sealed = true) :
    LoadFailed s (s.loadNext w) w 10 := by
  rw [loadNext_core hl hf hc hn, hp, placePages_single, if_pos h, if_pos hs, Option.elim_none]
  exact fails_now _
theorem loadNext_places (h : ¬ ((s.core n).freeFrames.length < 1 + versionNcont (syllablesOf p.image) ∧ p.sealed = true)) : let t := s.loadNext w
    (t.world w).load = some { l with cores := some r } ∧ t.mem = s.mem ∧ (∀ m, m ≠ n → t.core m = s.core m) ∧
      ((s.core n).freeFrames.length < 1 + versionNcont (syllablesOf p.image) → t.core n = s.core n) ∧
      (¬ (s.core n).freeFrames.length < 1 + versionNcont (syllablesOf p.image) → t.core n = (s.core n).place p.page p.sealed (syllablesOf p.image)) := by
  obtain ⟨x, hx, full, fits⟩ : ∃ x, (s.core n).placePages l.pages = some x ∧
      ((s.core n).freeFrames.length < 1 + versionNcont (syllablesOf p.image) → x = s.core n) ∧
      (¬ (s.core n).freeFrames.length < 1 + versionNcont (syllablesOf p.image) → x = (s.core n).place p.page p.sealed (syllablesOf p.image)) := by
    rw [hp, placePages_single]
    by_cases full : (s.core n).freeFrames.length < 1 + versionNcont (syllablesOf p.image)
    · rw [if_pos full, if_neg (fun hs => h ⟨full, hs⟩)]
      exact ⟨_, rfl, fun _ => rfl, fun no => absurd full no⟩
    · rw [if_neg full]
      exact ⟨_, rfl, fun yes => absurd yes full, fun _ => rfl⟩
  have core : ∀ m, (s.loadNext w).core m = if m = n then x else s.core m := by
    intro m
    rw [loadNext_core hl hf hc hn, hx, Option.elim_some, State.core, State.updWorld_cores]
    exact State.core_updCore s n m (fun _ => x)
  dsimp only
  refine ⟨?_, ?_, fun m hm => ?_, fun h => ?_, fun h => ?_⟩
  · rw [loadNext_core hl hf hc hn, hx, Option.elim_some, State.world_updWorld_self]
  · rw [loadNext_core hl hf hc hn, hx, Option.elim_some]
    rfl
  · rw [core, if_neg hm]
  · rw [core, if_pos rfl, full h]
  · rw [core, if_pos rfl, fits h]
end
end

end Sys2Proof.Machine
end

section
/-! SUPPORT. A domain's control messages and re-keys (03 R76 to R80, logs 45 and 59): enrolment, members that go, and the phases. -/

namespace Sys2Proof.Machine

/-! ### Enrolment (R76, R77) -/

theorem exec_rekeyRequest_eq (ask : RekeyAsk) (s : State) : exec (.rekeyRequest ask) s = execRekeyRequest ask s := rfl
theorem SMap.get_foldl_set {α : Type} {d : α} (f : Nat → α) (l : List Nat) (acc : SMap α) (m : Nat) :
    SMap.get d (l.foldl (fun a k => SMap.set a k (f k)) acc) m = if m ∈ l then f m else SMap.get d acc m := by
  induction l generalizing acc with
  | nil => simp
  | cons k r ih =>
    rw [List.foldl_cons, ih, SMap.get_set]
    by_cases hr : m ∈ r
    · simp [hr]
    · by_cases hk : m = k
      · simp [hk]
      · simp [hr, hk]
theorem rekeyRequest_enrols {s : State} {k : Nat} (number : Nat) {self : Nat} (kgen timeout : Nat) (key : BitVec 256) (session : BitVec 384)
    (members : List Nat) (hs : s.serves = true) (hf : s.hub.domain.formed = false) (hk : self ≠ k) :
    Does s (.rekeyRequest ⟨k, .enrol number self kgen timeout key session members⟩) (fun t =>
      let e := t.hub.domain
      e.formed = true ∧ e.number = number ∧ e.self = self ∧ e.coordinator = k ∧ e.kgen = kgen ∧ e.secret = key ∧ e.timeout = timeout ∧
        e.phase = .idle ∧ ∀ m, (SMap.get {} e.peers m).present = true ↔ m = k ∨ (m ∈ members ∧ m ≠ self)) := by
  have hx := exec_rekeyRequest_eq ⟨k, .enrol number self kgen timeout key session members⟩ s
  rw [execRekeyRequest] at hx
  dsimp only at hx
  rw [if_neg (by simp [hs, hf, hk])] at hx
  refine ⟨_, hx, keeps_of_eq rfl rfl, rfl, rfl, rfl, rfl, rfl, rfl, rfl, rfl, fun m => ?_⟩
  have peer := SMap.get_foldl_set (d := ({} : Peer)) (fun m => { present := true, session := if m = k then session else 0 })
    (k :: members.filter (fun m => decide (m ≠ self ∧ m ≠ k))) [] m
  refine (iff_of_eq (congrArg (fun p : Peer => p.present = true) peer)).trans ?_
  by_cases hm : m = k
  · simp [hm]
  · by_cases hin : m ∈ members ∧ m ≠ self
    · simp [hm, hin]
    · rw [if_neg (by simpa [hm] using hin)]
      simp [SMap.get, hm, hin]

/-! ### A member that goes (R79) -/

theorem SMap.filter_insert_of_not {α : Type} {q : Nat × α → Bool} {k : Nat} {x : α} (h : q (k, x) = false) (m : SMap α) :
    (SMap.insert m k x).filter q = m.filter q := by
  induction m with
  | nil => exact List.filter_cons_of_neg (by simp [h])
  | cons e r ih =>
    rw [SMap.insert]
    split
    · exact List.filter_cons_of_neg (by simp [h])
    · rw [List.filter_cons, List.filter_cons, ih]
theorem SMap.filter_upd_of_not {α : Type} {d : α} {q : Nat × α → Bool} {k : Nat} {f : α → α} (m : SMap α) (h : q (k, f (SMap.get d m k)) = false) :
    (SMap.upd d m k f).filter q = (m.filter q).filter (fun e => decide (e.1 ≠ k)) := by
  rw [SMap.upd, SMap.set, SMap.filter_insert_of_not h, SMap.erase_eq_filter, List.filter_filter, List.filter_filter]
  exact List.filter_congr (fun e _ => Bool.and_comm ..)
/-- A peer whose operations have failed, and that is gone. -/
def Peer.gone (p : Peer) : Peer := { p with present := false, queued := [], cut := 0, runs := [] }
/-- The domain without a member. -/
def Domain.removed (d : Domain) (k : Nat) : Domain :=
  { d with
    peers := SMap.upd {} (SMap.upd {} d.peers k (fun p => { p with queued := [], cut := 0, runs := [] })) k (fun p => { p with present := false })
    held := d.held.filter (fun x => decide (x.1 ≠ k))
    again := d.again || d.secretSent }
section
variable (d : Domain) (k : Nat)
theorem peer_removed : SMap.get ({} : Peer) (d.removed k).peers k = (SMap.get ({} : Peer) d.peers k).gone := by
  rw [Domain.removed, SMap.get_upd_self, SMap.get_upd_self]
  rfl
theorem peer_removed_ne {m : Nat} (h : m ≠ k) : SMap.get ({} : Peer) (d.removed k).peers m = SMap.get ({} : Peer) d.peers m := by
  rw [Domain.removed, SMap.get_upd_ne _ _ _ h, SMap.get_upd_ne _ _ _ h]
theorem others_removed : (d.removed k).others = d.others.filter (fun m => decide (m ≠ k)) := by
  have twice : ∀ q : Nat × Peer → Bool, (∀ p : Peer, q (k, { p with present := false }) = false) →
      (d.removed k).peers.filter q = (d.peers.filter q).filter (fun e => decide (e.1 ≠ k)) := by
    intro q hq
    rw [Domain.removed, SMap.filter_upd_of_not _ (hq _), List.filter_comm, SMap.upd, SMap.set,
      SMap.filter_insert_of_not (decide_eq_false (not_not.2 rfl)), SMap.erase_eq_filter, List.filter_filter, List.filter_comm]
    rw [List.filter_filter, List.filter_filter]
    exact List.filter_congr (fun e _ => by cases q e <;> simp)
  rw [Domain.others, Domain.others, twice _ (fun p => rfl), List.filter_map]
  rfl
theorem again_removed : (d.removed k).again = true ↔ d.again = true ∨ d.phase = .switching ∨ d.phase = .switched := by
  simp [Domain.removed, Domain.secretSent]
end

/-- Messages of the coordinator to members. -/
def Domain.each (d : Domain) (l : List Nat) (c : Control) : List Reply := l.map (fun m => .control m (SMap.get {} d.peers m).session c)
theorem each_removed {d : Domain} {k : Nat} {l : List Nat} (h : k ∉ l) (c : Control) : (d.removed k).each l c = d.each l c :=
  List.map_congr_left (fun m hm => by rw [peer_removed_ne d k (fun e => h (e ▸ hm))])
/-- The other members without one. -/
def Domain.without (d : Domain) (k : Nat) : List Nat := d.others.filter (fun m => decide (m ≠ k))
theorem not_mem_without (d : Domain) (k : Nat) : k ∉ d.without k := fun h => of_decide_eq_true (List.mem_filter.1 h).2 rfl
/-- What the coordinator tells the others of a member that goes. -/
def Domain.told (d : Domain) (k : Nat) : List Reply := if d.coordinator = d.self then d.each (d.without k) (.members (d.without k)) else []
/-- The state in which a member is gone and nobody has been told. -/
def State.cutOff (s : State) (k : Nat) : State :=
  ((s.failMember k).updPeer k (fun p => { p with present := false })).updDomain (fun d => { d with again := d.again || d.secretSent })
section
variable (s : State) (k : Nat)
/-- The domain in which a member's operations have failed. -/
def Domain.failing (d : Domain) : Domain :=
  { d with
    peers := SMap.upd {} d.peers k (fun p => { p with queued := [], cut := 0, runs := [] })
    held := d.held.filter (fun x => decide (x.1 ≠ k)) }
theorem hub_failMember : (s.failMember k).hub = { s.hub with domain := Domain.failing k s.hub.domain } := rfl
theorem hub_updPeer (f : Peer → Peer) :
    (s.updPeer k f).hub = { s.hub with domain := { s.hub.domain with peers := SMap.upd {} s.hub.domain.peers k f } } := rfl
theorem hub_updDomain (f : Domain → Domain) : (s.updDomain f).hub = { s.hub with domain := f s.hub.domain } := rfl
theorem hub_cutOff : (s.cutOff k).hub = { s.hub with domain := s.hub.domain.removed k } := by
  rw [State.cutOff, hub_updDomain, hub_updPeer, hub_failMember]
  dsimp only [Domain.failing, Domain.removed, Domain.secretSent]
theorem State.removeMember_eq : s.removeMember k =
    if s.hub.domain.coordinator = s.hub.domain.self then (s.cutOff k).controlAll (.members (s.cutOff k).hub.domain.others) else s.cutOff k := by
  have same : (s.cutOff k).hub.domain.coordinator = s.hub.domain.coordinator ∧ (s.cutOff k).hub.domain.self = s.hub.domain.self := by
    rw [hub_cutOff]
    dsimp only [Domain.removed]
    exact ⟨rfl, rfl⟩
  rw [← same.1, ← same.2]
  rfl
end
theorem State.removeMember_domain (s : State) (k : Nat) : (s.removeMember k).hub.domain = s.hub.domain.removed k := by
  rw [State.removeMember_eq]
  split
  · rw [State.controlAll_hub, hub_cutOff]
  · rw [hub_cutOff]
theorem State.removeMember_sent (s : State) (k : Nat) : (s.removeMember k).hub.sent = s.hub.sent ++ s.hub.domain.told k := by
  rw [State.removeMember_eq, Domain.told]
  split
  · rw [State.controlAll_hub, hub_cutOff, others_removed]
    exact congrArg (s.hub.sent ++ ·) (each_removed (not_mem_without _ k) _)
  · rw [hub_cutOff, List.append_nil]
theorem State.removeMember_keeps {β : Type} (P : State → β) (s : State) (k : Nat) (h : ∀ t x po, P { t with hub := x, posted := po } = P t) :
    P (s.removeMember k) = P s := by
  rw [State.removeMember_eq]
  split
  · exact (State.controlAll_keeps P _ _ (fun t x => h t x t.posted)).trans (h s _ _)
  · exact h s _ _
theorem State.removeMember_posted (s : State) (k : Nat) : (s.removeMember k).posted =
    s.posted.map (Access.failsIf (fun a => match a.act with | .fabric n _ _ _ _ => decide (n = k) | _ => false)) := by
  rw [State.removeMember_eq]
  split
  · exact State.controlAll_keeps State.posted _ _ (fun _ _ => rfl)
  · rfl

/-! ### A re-key begins (R78, R79) -/

/-- Quiesce towards a generation. -/
def Quiets (d : Domain) (t : State) (target : Nat) : Prop :=
  t.hub.domain.phase = .quiesce ∧ t.hub.domain.target = target ∧ t.hub.domain.kgen = d.kgen ∧ t.hub.domain.next = none
theorem quiets_quiesce {s : State} {n : Nat} (h : (if s.hub.domain.phase = .idle then s.hub.domain.kgen + 1 else s.hub.domain.target) = n) :
    Quiets s.hub.domain s.quiesce n := by
  rw [Quiets, State.quiesce_domain]
  exact ⟨rfl, h, rfl, rfl⟩
theorem State.quiesce_sent_member {s : State} (hc : s.hub.domain.coordinator ≠ s.hub.domain.self) : s.quiesce.hub.sent = s.hub.sent := by
  rw [State.quiesce_eq, if_neg hc]
  rfl
theorem does_quiesce {s u : State} {i : Instr} {ok : State → Prop} (hx : exec i s = .next u.quiesce) (hc : u.cores = s.cores) (hm : u.mem = s.mem)
    (h : ok u.quiesce) : Does s i ok :=
  does_of_eq hx ((State.quiesce_keeps State.cores u (fun _ _ => rfl)).trans hc) ((State.quiesce_keeps State.mem u (fun _ _ => rfl)).trans hm) h
theorem does_removeMember {s : State} {k : Nat} {i : Instr} {ok : State → Prop} (hx : exec i s = .next (s.removeMember k)) (h : ok (s.removeMember k)) :
    Does s i ok :=
  does_of_eq hx (State.removeMember_keeps State.cores s k (fun _ _ _ => rfl)) (State.removeMember_keeps State.mem s k (fun _ _ _ => rfl)) h
/-- A member goes and a re-key begins without it. -/
theorem removed_quiesce {s : State} (k : Nat) : (s.removeMember k).quiesce.peer k = ((s.peer k).gone).quiesced ∧
    (s.hub.domain.coordinator = s.hub.domain.self → (s.removeMember k).quiesce.hub.sent = s.hub.sent ++ s.hub.domain.told k ++
      s.hub.domain.each (s.hub.domain.without k) (.quiesce s.hub.domain.kgen s.hub.domain.timeout)) := by
  have domain := State.removeMember_domain s k
  refine ⟨?_, fun hc => ?_⟩
  · rw [State.peer, State.quiesce_domain, domain, Domain.quiesced, SMap.get_map _ Peer.quiesced rfl, peer_removed]
    rfl
  · rw [State.quiesce_sent (by rw [domain]; exact hc), State.removeMember_sent, domain, others_removed]
    exact congrArg _ (each_removed (not_mem_without _ k) _)

end Sys2Proof.Machine
end

section
/-! SUPPORT. The requests, the phases and the timeouts of a re-key (03 R77 to R80, logs 45 and 59). -/

namespace Sys2Proof.Machine

/-! ### Requests of a member (R78, R79) -/

/-- Another re-key follows the one in progress. -/
def Again (d : Domain) (t : State) : Prop := t.hub.domain.again = true ↔ d.again = true ∨ d.phase = .switching ∨ d.phase = .switched
theorem rekeyRequest_busy {s : State} {k : Nat} (h : s.hub.domain.phase ≠ .idle) : exec (.rekeyRequest ⟨k, .ask⟩) s = .next s := by
  rw [exec_rekeyRequest_eq, execRekeyRequest]
  dsimp only
  rw [if_neg (by simp [h])]
theorem removeMember_effect (s : State) (k : Nat) : (s.removeMember k).hub.domain.phase = s.hub.domain.phase ∧
    ((s.removeMember k).peer k).present = false ∧ ((s.removeMember k).peer k).queued = [] ∧ Again s.hub.domain (s.removeMember k) ∧
    (s.removeMember k).hub.sent = s.hub.sent ++ s.hub.domain.told k := by
  have domain := State.removeMember_domain s k
  have peer : (s.removeMember k).peer k = (s.peer k).gone := by rw [State.peer, domain, peer_removed]; rfl
  refine ⟨by rw [domain, Domain.removed], by rw [peer, Peer.gone], by rw [peer, Peer.gone], ?_, State.removeMember_sent s k⟩
  rw [Again, domain]
  exact again_removed ..
section
variable {s : State} {k : Nat} (hf : s.hub.domain.formed = true) (hp : (s.peer k).present = true) (hk : k ≠ s.hub.domain.self)
include hf hp hk
theorem heard : (s.hub.domain.formed && (SMap.get {} s.hub.domain.peers k).present && decide (k ≠ s.hub.domain.self)) = true := by
  rw [hf, show (SMap.get ({} : Peer) s.hub.domain.peers k).present = true from hp, decide_eq_true hk]
  rfl
section
variable (hl : s.hub.domain.coordinator = s.hub.domain.self)
include hl
theorem rekeyRequest_ask (hi : s.hub.domain.phase = .idle) : Does s (.rekeyRequest ⟨k, .ask⟩) (fun t =>
    Quiets s.hub.domain t (s.hub.domain.kgen + 1) ∧
    t.hub.sent = s.hub.sent ++ s.hub.domain.each s.hub.domain.others (.quiesce s.hub.domain.kgen s.hub.domain.timeout)) := by
  have hx := exec_rekeyRequest_eq ⟨k, .ask⟩ s
  rw [execRekeyRequest] at hx
  dsimp only at hx
  rw [if_pos (by rw [heard hf hp hk]; simp [hl, hi])] at hx
  exact does_quiesce hx rfl rfl ⟨quiets_quiesce (if_pos hi), State.quiesce_sent hl⟩
theorem rekeyRequest_leaveIdle (hi : s.hub.domain.phase = .idle) : Does s (.rekeyRequest ⟨k, .leave⟩) (fun t =>
    Quiets s.hub.domain t (s.hub.domain.kgen + 1) ∧ (t.peer k).present = false ∧ t.hub.sent = s.hub.sent ++ s.hub.domain.told k ++
      s.hub.domain.each (s.hub.domain.without k) (.quiesce s.hub.domain.kgen s.hub.domain.timeout)) := by
  have hx := exec_rekeyRequest_eq ⟨k, .leave⟩ s
  rw [execRekeyRequest] at hx
  dsimp only at hx
  rw [if_neg (by rw [heard hf hp hk]; simp [hl]), if_pos hi] at hx
  obtain ⟨peer, sent⟩ := removed_quiesce (s := s) k
  have quiet := quiets_quiesce (s := s.removeMember k) rfl
  rw [State.removeMember_domain] at quiet
  obtain ⟨phase, target, kgen, next⟩ := quiet
  refine does_quiesce hx (State.removeMember_keeps State.cores s k (fun _ _ _ => rfl)) (State.removeMember_keeps State.mem s k (fun _ _ _ => rfl))
    ⟨⟨phase, target.trans (if_pos hi), kgen, next⟩, ?_, sent hl⟩
  rw [peer]
  rfl
theorem rekeyRequest_leaveBusy (hi : s.hub.domain.phase ≠ .idle) : Does s (.rekeyRequest ⟨k, .leave⟩) (fun t =>
    t.hub.domain.phase = s.hub.domain.phase ∧ (t.peer k).present = false ∧ Again s.hub.domain t ∧ t.hub.sent = s.hub.sent ++ s.hub.domain.told k) := by
  have hx := exec_rekeyRequest_eq ⟨k, .leave⟩ s
  rw [execRekeyRequest] at hx
  dsimp only at hx
  rw [if_neg (by rw [heard hf hp hk]; simp [hl]), if_neg hi] at hx
  obtain ⟨phase, present, -, again, sent⟩ := removeMember_effect s k
  exact does_removeMember hx ⟨phase, present, again, sent⟩
omit hk in
theorem leads_busy (hi : s.hub.domain.phase ≠ .idle) : (s.leads s.hub.domain.number && (SMap.get {} s.hub.domain.peers k).present) = true := by
  have leads : s.leads s.hub.domain.number = true := by simp [State.leads, hf, hl, hi]
  rw [leads, show (SMap.get ({} : Peer) s.hub.domain.peers k).present = true from hp]
  rfl
theorem rekeyDrained_member (hi : s.hub.domain.phase ≠ .idle) : Does s (.rekeyDrained ⟨s.hub.domain.number, k⟩) (fun t => (t.peer k).drained = true) := by
  have hx : exec (.rekeyDrained ⟨s.hub.domain.number, k⟩) s = .next (s.updPeer k (fun p => { p with drained := true })) :=
    congrArg Host.Outcome.next ((if_pos hk).trans (if_pos (leads_busy hf hp hl hi)))
  exact ⟨_, hx, keeps_of_eq rfl rfl, congrArg Peer.drained (s.peer_updPeer k _)⟩
theorem rekeySwitched_member (secret : BitVec 256) (hi : s.hub.domain.phase ≠ .idle) : Does s (.rekeySwitched ⟨s.hub.domain.number, k⟩ secret) (fun t =>
    (t.peer k).switched = true ∧ t.hub.domain.kgen = s.hub.domain.kgen) := by
  have hx : exec (.rekeySwitched ⟨s.hub.domain.number, k⟩ secret) s = .next (s.updPeer k (fun p => { p with switched := true })) :=
    (if_pos hk).trans (congrArg Host.Outcome.next (if_pos (leads_busy hf hp hl hi)))
  exact ⟨_, hx, keeps_of_eq rfl rfl, congrArg Peer.switched (s.peer_updPeer k _), rfl⟩
end

/-! ### What the coordinator says (R76, R78) -/

omit hf hp hk in
theorem rekeyRequest_otherQuiesce (n : Nat) (hc : k ≠ s.hub.domain.coordinator) : exec (.rekeyRequest ⟨k, .quiesce n⟩) s = .next s := by
  rw [exec_rekeyRequest_eq, execRekeyRequest]
  dsimp only
  rw [if_neg (by simp [hc])]
omit hf hp hk in
theorem rekeyRequest_otherMembers (l : List Nat) (hc : k ≠ s.hub.domain.coordinator) : exec (.rekeyRequest ⟨k, .members l⟩) s = .next s := by
  rw [exec_rekeyRequest_eq, execRekeyRequest]
  dsimp only
  rw [if_neg (by simp [hc])]
variable (hl : ¬ s.hub.domain.coordinator = s.hub.domain.self) (hc : k = s.hub.domain.coordinator)
include hl hc
theorem rekeyRequest_quiesce (n : Nat) : Does s (.rekeyRequest ⟨k, .quiesce n⟩) (fun t =>
    Quiets s.hub.domain t (if s.hub.domain.phase = .idle then s.hub.domain.kgen + 1 else s.hub.domain.target) ∧ t.hub.domain.timeout = n ∧
      t.hub.sent = s.hub.sent) := by
  have hx := exec_rekeyRequest_eq ⟨k, .quiesce n⟩ s
  rw [execRekeyRequest] at hx
  dsimp only at hx
  rw [if_pos (by rw [heard hf hp hk]; simp [hc])] at hx
  have domain := State.quiesce_domain (s.updDomain (fun d => { d with timeout := n }))
  refine does_quiesce hx rfl rfl ⟨?_, ?_, State.quiesce_sent_member hl⟩
  · exact quiets_quiesce (s := s.updDomain (fun d => { d with timeout := n })) rfl
  · rw [domain]
    rfl
omit hf hp hk hl hc in
/-- A member that keeps nobody's role removes members without telling the others. -/
theorem foldl_removeMember (l : List Nat) (s : State) (hl : s.hub.domain.coordinator ≠ s.hub.domain.self) :
    (l.foldl State.removeMember s).hub.domain.phase = s.hub.domain.phase ∧ (l.foldl State.removeMember s).hub.sent = s.hub.sent ∧
      ∀ m, ((l.foldl State.removeMember s).peer m).present = true ↔ (s.peer m).present = true ∧ m ∉ l := by
  induction l generalizing s with
  | nil => exact ⟨rfl, rfl, fun m => by simp⟩
  | cons k r ih =>
    have domain := State.removeMember_domain s k
    have sent := State.removeMember_sent s k
    rw [Domain.told, if_neg hl, List.append_nil] at sent
    obtain ⟨phase, rest, present⟩ := ih (s.removeMember k) (by rw [domain]; exact hl)
    rw [domain] at phase
    refine ⟨phase, rest.trans sent, fun m => (present m).trans ?_⟩
    rw [State.peer, domain]
    by_cases hm : m = k
    · rw [hm, peer_removed]
      simp [Peer.gone]
    · rw [peer_removed_ne _ _ hm]
      simp [hm, State.peer]
theorem rekeyRequest_members (l : List Nat) : Does s (.rekeyRequest ⟨k, .members l⟩) (fun t =>
    t.hub.domain.phase = s.hub.domain.phase ∧ t.hub.sent = s.hub.sent ∧
      ∀ m, m ≠ s.hub.domain.self → (s.peer m).present = true → ((t.peer m).present = true ↔ m ∈ l ∨ m = k)) := by
  have hx := exec_rekeyRequest_eq ⟨k, .members l⟩ s
  rw [execRekeyRequest] at hx
  dsimp only at hx
  rw [if_pos (by rw [heard hf hp hk]; simp [hc])] at hx
  obtain ⟨phase, sent, present⟩ := foldl_removeMember (s.hub.domain.others.filter (fun m => decide (m ≠ s.hub.domain.coordinator) && !l.contains m)) s hl
  refine does_of_eq hx (foldl_keeps State.cores _ _ s (fun t m => State.removeMember_keeps State.cores t m (fun _ _ _ => rfl)))
    (foldl_keeps State.mem _ _ s (fun t m => State.removeMember_keeps State.mem t m (fun _ _ _ => rfl))) ⟨phase, sent, fun m hm here => ?_⟩
  rw [present, List.mem_filter, hc]
  have other : m ∈ s.hub.domain.others := Domain.mem_others here hm
  simp only [here, other, true_and, Bool.and_eq_true, decide_eq_true_eq, Bool.not_eq_true', List.contains_eq_mem, decide_eq_false_iff_not, not_and,
    not_not, ne_eq]
  tauto
end

/-! ### The phases at this package (R77, R78, R80) -/

theorem exec_rekeyDrained_eq (r : RekeyReport) (s : State) : exec (.rekeyDrained r) s = execRekeyDrained r s := rfl
theorem exec_rekeySwitch_eq (n : Nat) (s : State) : exec (.rekeySwitch n) s = execRekeySwitch n s := rfl
theorem exec_rekeySwitched_eq (r : RekeyReport) (k : BitVec 256) (s : State) : exec (.rekeySwitched r k) s = execRekeySwitched r k s := rfl
theorem exec_rekeyResume_eq (n : Nat) (s : State) : exec (.rekeyResume n) s = execRekeyResume n s := rfl
/-- What is said to the coordinator. -/
def Domain.home (d : Domain) (c : Control) : List Reply := if d.coordinator = d.self then [] else
  [.control d.coordinator (SMap.get {} d.peers d.coordinator).session c]
theorem controlHome_hub (s : State) (c : Control) : (s.controlHome c).hub = { s.hub with sent := s.hub.sent ++ s.hub.domain.home c } := by
  rw [State.controlHome, Domain.home]
  split
  · rw [List.append_nil]
  · rfl
theorem controlHome_keeps {β : Type} (P : State → β) (s : State) (c : Control) (h : ∀ t x, P { t with hub := x } = P t) :
    P (s.controlHome c) = P s := by
  rw [State.controlHome]
  split
  · rfl
  · exact h ..
theorem inDomain_of {s : State} {ph : Phase} (hf : s.hub.domain.formed = true) (hph : s.hub.domain.phase = ph) :
    s.inDomain s.hub.domain.number ph = true := by simp [State.inDomain, hf, hph]

/-- Every operation of this package has been answered, or is held, and nothing waits to leave. -/
def Drained (s : State) : Prop := (∀ a ∈ s.posted, ∀ x, a.request = some x → a.done ≠ none ∨ ∃ y ∈ s.hub.domain.held, runOp y.2 = runOp x.2) ∧
  ∀ e ∈ s.hub.domain.peers, e.2.queued = []
theorem domainDrained_iff (s : State) : s.domainDrained = true ↔ Drained s := by
  rw [State.domainDrained, Drained, Bool.and_eq_true, List.all_eq_true, List.all_eq_true]
  refine and_congr (forall₂_congr (fun a _ => ?_)) (forall₂_congr (fun e _ => List.isEmpty_iff))
  cases hr : a.request with
  | none => simp
  | some x =>
    simp only [Bool.or_eq_true, List.any_eq_true, decide_eq_true_eq, Option.some.injEq, forall_eq']
    exact or_congr Option.isSome_iff_ne_none Iff.rfl
section
variable {s : State} (hf : s.hub.domain.formed = true)
include hf
section
variable (hph : s.hub.domain.phase = .quiesce)
include hph
theorem rekeyDrained_reports (h : Drained s) : Does s (.rekeyDrained ⟨s.hub.domain.number, s.hub.domain.self⟩) (fun t =>
    t.hub.domain = { s.hub.domain with phase := .drained } ∧ t.hub.sent = s.hub.sent ++ s.hub.domain.home (.drained s.hub.domain.kgen)) := by
  have hx := exec_rekeyDrained_eq ⟨s.hub.domain.number, s.hub.domain.self⟩ s
  rw [execRekeyDrained] at hx
  dsimp only at hx
  rw [if_neg (by simp), if_pos (by rw [inDomain_of hf hph, (domainDrained_iff s).2 h]; rfl)] at hx
  have hub := controlHome_hub (s.updDomain (fun d => { d with phase := .drained })) (.drained s.hub.domain.kgen)
  refine does_of_eq hx (controlHome_keeps State.cores _ _ (fun _ _ => rfl)) (controlHome_keeps State.mem _ _ (fun _ _ => rfl)) ⟨?_, ?_⟩
  · rw [hub]
    rfl
  · rw [hub]
    rfl
omit hf hph in
theorem rekeyDrained_waits (h : ¬ Drained s) : exec (.rekeyDrained ⟨s.hub.domain.number, s.hub.domain.self⟩) s = .next s := by
  have not : s.domainDrained = false := Bool.eq_false_iff.2 (mt (domainDrained_iff s).1 h)
  rw [exec_rekeyDrained_eq, execRekeyDrained]
  dsimp only
  rw [if_neg (by simp), if_neg (by simp [not])]
end
end

end Sys2Proof.Machine
end

section
/-! SUPPORT. The Switch and Resume phases of a re-key, and its timeouts (03 R77 to R80). -/

namespace Sys2Proof.Machine

/-! ### SWITCH (R77, R78) -/

/-- A run goes out under the next number of its member. -/
theorem sendRun_effect (s : State) (m flg : Nat) (flits : List Byte) (ops : List Nat) : ∃ c tag,
    (s.sendRun m flg flits ops).hub.sent = s.hub.sent ++ [.run m (s.peer m).sendSeq s.hub.domain.kgen flg c tag] ∧
    ((s.sendRun m flg flits ops).peer m).sendSeq = (s.peer m).sendSeq + 1 ∧
    (∃ l, (s.sendRun m flg flits ops).hub.domain = { s.hub.domain with peers := l }) ∧ KeepsRegsAndMemory s (s.sendRun m flg flits ops) := by
  unfold State.sendRun
  dsimp only
  generalize gcmSeal _ _ _ flits = g
  refine ⟨g.1, g.2, rfl, ?_, ⟨_, rfl⟩, keeps_of_eq rfl rfl⟩
  rw [State.peer_answer, State.peer_updPeer]
/-- The state in which the Switch phase has begun, under the secret that this package has drawn, if it has. -/
def State.switching (s : State) (fresh : Nat) (key : Option (BitVec 256)) : State :=
  { s with fresh := fresh }.updDomain (fun d => { d with phase := .switching, next := key })
section
variable {s : State} {e : Nat × Peer} (hf : s.hub.domain.formed = true) (hph : s.hub.domain.phase = .drained)
  (he : s.hub.domain.peers = [e]) (hp : e.2.present = true) (hk : e.1 ≠ s.hub.domain.self)
include he hp hk
theorem others_single : s.hub.domain.others = [e.1] := by simp [Domain.others, he, hp, hk]
omit hp hk in
theorem peer_single : s.peer e.1 = e.2 := by rw [State.peer, he]; exact if_pos rfl
theorem reported_single (f : Peer → Bool) : s.hub.domain.reported f = true ↔ ¬ s.hub.domain.coordinator = s.hub.domain.self ∨ f e.2 = true := by
  have peer : SMap.get {} s.hub.domain.peers e.1 = e.2 := peer_single he
  rw [Domain.reported, others_single he hp hk, List.all_cons, List.all_nil, peer]
  simp
theorem rekeySwitch_waits (hl : s.hub.domain.coordinator = s.hub.domain.self) (hd : e.2.drained = false) :
    exec (.rekeySwitch s.hub.domain.number) s = .next s := by
  have not : s.hub.domain.reported Peer.drained = false := Bool.eq_false_iff.2 (fun h => by
    rcases (reported_single he hp hk _).1 h with h | h
    · exact h hl
    · rw [hd] at h
      cases h)
  rw [exec_rekeySwitch_eq, execRekeySwitch]
  dsimp only
  rw [if_pos (by simp [not])]
include hf hph
theorem exec_rekeySwitch_member (hl : ¬ s.hub.domain.coordinator = s.hub.domain.self) : exec (.rekeySwitch s.hub.domain.number) s =
    .next ((s.switching s.fresh none).sendRun e.1 1 (List.replicate 64 0) []) := by
  have reported : s.hub.domain.reported Peer.drained = true := (reported_single he hp hk _).2 (.inl hl)
  rw [exec_rekeySwitch_eq, execRekeySwitch]
  dsimp only
  rw [if_neg (by simp [reported, inDomain_of hf hph]), others_single he hp hk]
  simp only [hl]
  rfl
theorem exec_rekeySwitch_lead (hl : s.hub.domain.coordinator = s.hub.domain.self) (hd : e.2.drained = true) :
    exec (.rekeySwitch s.hub.domain.number) s = .next ((((s.switching (s.fresh + 4) (some (drawSecret s.fresh))).controlAll
      (.secret s.hub.domain.target (drawSecret s.fresh))).controlAll (.switch s.hub.domain.target)).sendRun e.1 1 (List.replicate 64 0) []) := by
  have reported : s.hub.domain.reported Peer.drained = true := (reported_single he hp hk _).2 (.inr hd)
  rw [exec_rekeySwitch_eq, execRekeySwitch]
  dsimp only
  rw [if_neg (by simp [reported, inDomain_of hf hph]), others_single he hp hk]
  simp only [hl]
  rfl
theorem rekeySwitch_member (hl : ¬ s.hub.domain.coordinator = s.hub.domain.self) : Does s (.rekeySwitch s.hub.domain.number) (fun t =>
    t.hub.domain.phase = .switching ∧ t.hub.domain.kgen = s.hub.domain.kgen ∧ (t.peer e.1).sendSeq = e.2.sendSeq + 1 ∧ t.hub.domain.next = none ∧
      ∃ cells tag, t.hub.sent = s.hub.sent ++ [.run e.1 e.2.sendSeq s.hub.domain.kgen 1 cells tag]) := by
  obtain ⟨c, tag, sent, seq, ⟨l, domain⟩, keeps⟩ := sendRun_effect (s.switching s.fresh none) e.1 1 (List.replicate 64 0) []
  have peer : (s.switching s.fresh none).peer e.1 = e.2 := peer_single he
  rw [peer] at sent seq
  refine ⟨_, exec_rekeySwitch_member hf hph he hp hk hl, keeps_trans (keeps_of_eq rfl rfl) keeps, ?_, ?_, seq, ?_, c, tag, sent⟩
  · rw [domain]
    rfl
  · rw [domain]
    rfl
  · rw [domain]
    rfl
theorem rekeySwitch_lead (hl : s.hub.domain.coordinator = s.hub.domain.self) (hd : e.2.drained = true) : Does s (.rekeySwitch s.hub.domain.number) (fun t =>
    t.hub.domain.phase = .switching ∧ t.hub.domain.kgen = s.hub.domain.kgen ∧ (t.peer e.1).sendSeq = e.2.sendSeq + 1 ∧ ∃ key cells tag,
      t.hub.domain.next = some key ∧ t.hub.sent = s.hub.sent ++ [.control e.1 e.2.session (.secret s.hub.domain.target key),
        .control e.1 e.2.session (.switch s.hub.domain.target), .run e.1 e.2.sendSeq s.hub.domain.kgen 1 cells tag]) := by
  have hx := exec_rekeySwitch_lead hf hph he hp hk hl hd
  generalize hu : ((s.switching (s.fresh + 4) (some (drawSecret s.fresh))).controlAll (.secret s.hub.domain.target (drawSecret s.fresh))).controlAll
    (.switch s.hub.domain.target) = u at hx
  have keptAll : ∀ {β : Type} (P : State → β), (∀ t x, P { t with hub := x } = P t) → P u = P (s.switching (s.fresh + 4) (some (drawSecret s.fresh))) := by
    intro β P hP
    rw [← hu, State.controlAll_keeps P _ _ hP, State.controlAll_keeps P _ _ hP]
  have domain : u.hub.domain = { s.hub.domain with phase := .switching, next := some (drawSecret s.fresh) } := by
    rw [← hu, State.controlAll_hub, State.controlAll_hub]
    rfl
  have others : (s.switching (s.fresh + 4) (some (drawSecret s.fresh))).hub.domain.others = [e.1] := others_single he hp hk
  have session : (SMap.get ({} : Peer) (s.switching (s.fresh + 4) (some (drawSecret s.fresh))).hub.domain.peers e.1).session = e.2.session :=
    congrArg Peer.session (peer_single he)
  have sent : u.hub.sent = s.hub.sent ++ [.control e.1 e.2.session (.secret s.hub.domain.target (drawSecret s.fresh)),
      .control e.1 e.2.session (.switch s.hub.domain.target)] := by
    rw [← hu, State.controlAll_hub, State.controlAll_hub]
    dsimp only
    rw [others, List.map_singleton, List.map_singleton, session, List.append_assoc]
    rfl
  obtain ⟨c, tag, out, seq, ⟨l, after⟩, keeps⟩ := sendRun_effect u e.1 1 (List.replicate 64 0) []
  have peer : u.peer e.1 = e.2 := by
    rw [State.peer, domain]
    exact peer_single he
  rw [peer, domain, sent, List.append_assoc] at out
  rw [peer] at seq
  rw [domain] at after
  refine ⟨_, hx, keeps_trans (keeps_of_eq (keptAll State.cores (fun _ _ => rfl)) (keptAll State.mem (fun _ _ => rfl))) keeps, ?_, ?_, seq,
    drawSecret s.fresh, c, tag, ?_, out⟩
  · rw [after]
  · rw [after]
  · rw [after]
end

/-! ### A domain is dissolved (R77) -/

theorem failMember_keeps {β : Type} (P : State → β) (s : State) (m : Nat) (h : ∀ t x po, x.queue = t.hub.queue → P { t with hub := x, posted := po } = P t) :
    P (s.failMember m) = P s := h s (s.failMember m).hub (s.failMember m).posted rfl
theorem dissolve_effect (s : State) : KeepsRegsAndMemory s s.dissolve ∧ s.dissolve.hub.domain.formed = false ∧
    s.dissolve.hub.queue = s.hub.queue ++ [.domainDissolved s.hub.domain.number] := by
  have keeps : ∀ {β : Type} (P : State → β), (∀ t x po, x.queue = t.hub.queue → P { t with hub := x, posted := po } = P t) →
      P ((SMap.keys s.hub.domain.peers).foldl State.failMember s) = P s := fun P h => foldl_keeps P _ _ s (fun t m => failMember_keeps P t m h)
  refine ⟨keeps_of_eq ?_ ?_, rfl, ?_⟩
  · exact keeps State.cores (fun _ _ _ _ => rfl)
  · exact keeps State.mem (fun _ _ _ _ => rfl)
  · exact congrArg (· ++ [Event.domainDissolved s.hub.domain.number]) (keeps (fun t => t.hub.queue) (fun _ _ _ h => h))

/-! ### SWITCHED (R77, R78) -/

section
variable {s : State} (hf : s.hub.domain.formed = true) (secret : BitVec 256)
section
variable (hph : s.hub.domain.phase = .switching)
include hf hph
theorem switchDone_of (h : ∀ m ∈ s.hub.domain.others, (s.peer m).barrierSeen = true ∧ (s.peer m).runs = []) : s.switchDone s.hub.domain.number = true := by
  rw [State.switchDone, inDomain_of hf hph, Bool.true_and, List.all_eq_true]
  intro m hm
  obtain ⟨seen, runs⟩ := h m hm
  rw [show (SMap.get ({} : Peer) s.hub.domain.peers m).barrierSeen = true from seen, show (SMap.get ({} : Peer) s.hub.domain.peers m).runs = [] from runs]
  rfl
omit hf hph in
theorem rekeySwitched_waits {m : Nat} (hm : m ∈ s.hub.domain.others) (h : (s.peer m).barrierSeen = false ∨ (s.peer m).runs ≠ []) :
    exec (.rekeySwitched ⟨s.hub.domain.number, s.hub.domain.self⟩ secret) s = .next s := by
  have not : s.switchDone s.hub.domain.number = false := by
    refine Bool.eq_false_iff.2 (fun all => ?_)
    rw [State.switchDone, Bool.and_eq_true, List.all_eq_true] at all
    have seen := Bool.and_eq_true_iff.1 (all.2 m hm)
    rcases h with h | h
    · exact Bool.false_ne_true (h.symm.trans seen.1)
    · exact h (List.isEmpty_iff.1 seen.2)
  rw [exec_rekeySwitched_eq, execRekeySwitched]
  dsimp only
  rw [if_neg (by simp), if_pos (by simp [not])]
variable (h : ∀ m ∈ s.hub.domain.others, (s.peer m).barrierSeen = true ∧ (s.peer m).runs = [])
include h
theorem rekeySwitched_installs (ht : s.hub.domain.target < 2 ^ 32) : Does s (.rekeySwitched ⟨s.hub.domain.number, s.hub.domain.self⟩ secret) (fun t =>
    t.hub.domain.phase = .switched ∧ t.hub.domain.kgen = s.hub.domain.target ∧ t.hub.domain.secret = s.hub.domain.next.getD secret ∧
      (∀ e ∈ t.hub.domain.peers, e.2.sendSeq = 0 ∧ e.2.seen = []) ∧ t.hub.sent = s.hub.sent ++ s.hub.domain.home (.switched s.hub.domain.target)) := by
  have hx := exec_rekeySwitched_eq ⟨s.hub.domain.number, s.hub.domain.self⟩ secret s
  rw [execRekeySwitched] at hx
  dsimp only at hx
  rw [if_neg (by simp), if_neg (by simp [switchDone_of hf hph h]), if_neg (not_le.2 ht)] at hx
  have hub := controlHome_hub (s.updDomain (fun d =>
      { d with phase := .switched, kgen := d.target, secret := d.next.getD secret, next := none,
               peers := d.peers.map (fun e : Nat × Peer =>
                 (e.1, { e.2 with sendSeq := 0, seen := [], barrierSeen := false, rekeyAsked := false })) })) (.switched s.hub.domain.target)
  refine does_of_eq hx (controlHome_keeps State.cores _ _ (fun _ _ => rfl)) (controlHome_keeps State.mem _ _ (fun _ _ => rfl)) ?_
  rw [hub]
  refine ⟨rfl, rfl, rfl, fun e he => ?_, congrArg (s.hub.sent ++ ·) ?_⟩
  · obtain ⟨x, -, rfl⟩ := List.mem_map.1 he
    exact ⟨rfl, rfl⟩
  · rw [Domain.home, Domain.home]
    dsimp only [State.updDomain, State.updHub]
    rw [SMap.get_map s.hub.domain.peers (fun p => { p with sendSeq := 0, seen := [], barrierSeen := false, rekeyAsked := false }) rfl]
    rfl
theorem rekeySwitched_dissolves (ht : 2 ^ 32 ≤ s.hub.domain.target) : Does s (.rekeySwitched ⟨s.hub.domain.number, s.hub.domain.self⟩ secret) (fun t =>
    t.hub.domain.formed = false ∧ t.hub.queue = s.hub.queue ++ [.domainDissolved s.hub.domain.number]) := by
  obtain ⟨keeps, formed, queue⟩ := dissolve_effect s
  refine ⟨s.dissolve, ?_, keeps, formed, queue⟩
  rw [exec_rekeySwitched_eq, execRekeySwitched]
  dsimp only
  rw [if_neg (by simp), if_neg (by simp [switchDone_of hf hph h]), if_pos ht]
end

/-! ### RESUME (R78, R80) -/

section
variable (hph : s.hub.domain.phase = .switched)
theorem reported_iff (f : Peer → Bool) : s.hub.domain.reported f = true ↔
    (s.hub.domain.coordinator = s.hub.domain.self → ∀ m ∈ s.hub.domain.others, f (s.peer m) = true) := by
  rw [Domain.reported, Bool.or_eq_true, decide_eq_true_eq, List.all_eq_true]
  exact (imp_iff_not_or (a := s.hub.domain.coordinator = s.hub.domain.self)).symm
theorem rekeyResume_waits (hl : s.hub.domain.coordinator = s.hub.domain.self) (h : ∃ m ∈ s.hub.domain.others, (s.peer m).switched = false) :
    exec (.rekeyResume s.hub.domain.number) s = .next s := by
  have not : s.hub.domain.reported Peer.switched = false := by
    refine Bool.eq_false_iff.2 (fun all => ?_)
    obtain ⟨m, hm, no⟩ := h
    exact Bool.false_ne_true (no.symm.trans ((reported_iff _).1 all hl m hm))
  rw [exec_rekeyResume_eq, execRekeyResume]
  dsimp only
  rw [if_pos (by simp [not])]
/-- Held operations are queued in the order they were held. -/
theorem foldl_queueMsg (l : List (Nat × RunMsg)) (s : State) : let t := l.foldl (fun s x => s.queueMsg x.1 x.2) s
    (∀ m, (t.peer m).queued = (s.peer m).queued ++ (l.filter (fun x => decide (x.1 = m))).map Prod.snd) ∧ t.hub.sent = s.hub.sent ∧
      t.hub.domain.phase = s.hub.domain.phase ∧ t.hub.domain.held = s.hub.domain.held := by
  induction l generalizing s with
  | nil => exact ⟨fun m => by simp, rfl, rfl, rfl⟩
  | cons x r ih =>
    obtain ⟨queued, sent, phase, held⟩ := ih (s.queueMsg x.1 x.2)
    refine ⟨fun m => (queued m).trans ?_, sent, phase, held⟩
    by_cases hm : m = x.1
    · rw [hm, State.queueMsg, State.peer_updPeer]
      simp
    · rw [State.queueMsg, State.peer_updPeer_ne _ _ hm]
      simp [Ne.symm hm]
include hf hph
variable (hall : s.hub.domain.coordinator = s.hub.domain.self → ∀ m ∈ s.hub.domain.others, (s.peer m).switched = true)
include hall
theorem rekeyResume_again (hl : s.hub.domain.coordinator = s.hub.domain.self) (ha : s.hub.domain.again = true) :
    Does s (.rekeyResume s.hub.domain.number) (fun t => Quiets s.hub.domain t (s.hub.domain.kgen + 1) ∧ t.hub.domain.again = false ∧
      t.hub.sent = s.hub.sent ++ s.hub.domain.each s.hub.domain.others (.quiesce s.hub.domain.kgen s.hub.domain.timeout) ∧
      ∀ x ∈ s.hub.domain.held, x ∈ t.hub.domain.held) := by
  have hx := exec_rekeyResume_eq s.hub.domain.number s
  rw [execRekeyResume] at hx
  dsimp only at hx
  rw [if_neg (by simp [inDomain_of hf hph, (reported_iff _).2 hall]), if_pos (by simp [ha, hl])] at hx
  have domain := State.quiesce_domain (s.updDomain (fun d => { d with phase := .idle, again := false }))
  refine does_quiesce hx rfl rfl ⟨?_, ?_, ?_, fun x hx => ?_⟩
  · exact quiets_quiesce (s := s.updDomain (fun d => { d with phase := .idle, again := false })) rfl
  · rw [domain]
    rfl
  · exact State.quiesce_sent (s := s.updDomain (fun d => { d with phase := .idle, again := false })) hl
  · rw [domain]
    exact List.mem_append_right _ hx
theorem rekeyResume_resumes (ha : ¬ s.hub.domain.coordinator = s.hub.domain.self ∨ s.hub.domain.again = false) :
    Does s (.rekeyResume s.hub.domain.number) (fun t => t.hub.domain.phase = .idle ∧ t.hub.domain.held = [] ∧
      t.hub.sent = s.hub.sent ++ (if s.hub.domain.coordinator = s.hub.domain.self then s.hub.domain.each s.hub.domain.others (.resume s.hub.domain.kgen) else []) ∧
      ∀ m, (t.peer m).queued = (s.peer m).queued ++ (s.hub.domain.held.filter (fun x => decide (x.1 = m))).map Prod.snd) := by
  have hx := exec_rekeyResume_eq s.hub.domain.number s
  rw [execRekeyResume] at hx
  dsimp only at hx
  rw [if_neg (by simp [inDomain_of hf hph, (reported_iff _).2 hall]), if_neg (by
    rw [Bool.and_eq_true, decide_eq_true_eq]
    rintro ⟨again, lead⟩
    rcases ha with ha | ha
    · exact ha lead
    · rw [ha] at again
      cases again)] at hx
  generalize hu : (if s.hub.domain.coordinator = s.hub.domain.self then s.controlAll (.resume s.hub.domain.kgen) else s) = u at hx
  have keptAll : ∀ {β : Type} (P : State → β), (∀ t x, P { t with hub := x } = P t) → P u = P s := by
    intro β P hP
    rw [← hu]
    split
    · exact State.controlAll_keeps P _ _ hP
    · rfl
  have domain : u.hub.domain = s.hub.domain := by
    rw [← hu]
    split
    · rw [State.controlAll_hub]
    · rfl
  have sent : u.hub.sent = s.hub.sent ++
      (if s.hub.domain.coordinator = s.hub.domain.self then s.hub.domain.each s.hub.domain.others (.resume s.hub.domain.kgen) else []) := by
    rw [← hu]
    split
    · rw [State.controlAll_hub]
      rfl
    · rw [List.append_nil]
  obtain ⟨queued, out, phase, held⟩ := foldl_queueMsg s.hub.domain.held (u.updDomain (fun d => { d with phase := .idle, held := [] }))
  have peer : ∀ m, (u.updDomain (fun d => { d with phase := .idle, held := [] })).peer m = s.peer m := fun m => by
    rw [State.peer, hub_updDomain, domain]
    rfl
  have fills : ∀ {β : Type} (P : State → β), (∀ t x, P { t with hub := x } = P t) →
      P (s.hub.domain.held.foldl (fun s x => s.queueMsg x.1 x.2) (u.updDomain (fun d => { d with phase := .idle, held := [] }))) = P s :=
    fun P hP => (foldl_keeps P _ _ _ (fun t _ => hP t _)).trans ((hP u _).trans (keptAll P hP))
  refine does_of_eq hx (fills State.cores (fun _ _ => rfl)) (fills State.mem (fun _ _ => rfl)) ⟨phase, held, out.trans sent, fun m => ?_⟩
  rw [queued, peer]
end
end

/-! ### A phase's timeout (R79) -/

theorem exec_rekeyPhaseTimeout_eq (n k : Nat) (s : State) : exec (.rekeyPhaseTimeout n k) s = execRekeyPhaseTimeout n k s := rfl
section
variable {s : State} {k : Nat} (hf : s.hub.domain.formed = true) (hi : s.hub.domain.phase ≠ .idle)
include hf hi
theorem rekeyPhaseTimeout_dissolves (hk : k = s.hub.domain.self) : Does s (.rekeyPhaseTimeout s.hub.domain.number k) (fun t =>
    t.hub.domain.formed = false ∧ t.hub.queue = s.hub.queue ++ [.domainDissolved s.hub.domain.number]) := by
  obtain ⟨keeps, formed, queue⟩ := dissolve_effect s
  refine ⟨s.dissolve, ?_, keeps, formed, queue⟩
  rw [exec_rekeyPhaseTimeout_eq, execRekeyPhaseTimeout]
  dsimp only
  rw [if_neg (by simp [hf, hi]), if_pos hk]
variable (hk : k ≠ s.hub.domain.self) (hp : (s.peer k).present = true)
include hk hp
theorem rekeyPhaseTimeout_removes (hc : k ≠ s.hub.domain.coordinator) : Does s (.rekeyPhaseTimeout s.hub.domain.number k) (fun t =>
    (t.peer k).present = false ∧ (t.peer k).queued = [] ∧ t.hub.domain.phase = s.hub.domain.phase ∧ Again s.hub.domain t ∧
      t.hub.sent = s.hub.sent ++ s.hub.domain.told k ∧
      ∀ a ∈ s.posted, a.done = none → (∃ add sync moves pl, a.act = .fabric k add sync moves pl) → { a with act := .read [], err := true } ∈ t.posted) := by
  have hx := exec_rekeyPhaseTimeout_eq s.hub.domain.number k s
  rw [execRekeyPhaseTimeout] at hx
  dsimp only at hx
  rw [if_neg (by simp [hf, hi]), if_neg hk, show (SMap.get ({} : Peer) s.hub.domain.peers k).present = true from hp, if_neg (by decide), if_pos hc] at hx
  obtain ⟨phase, present, queued, again, sent⟩ := removeMember_effect s k
  refine does_removeMember hx ⟨present, queued, phase, again, sent, fun a ha hd hact => ?_⟩
  obtain ⟨add, sync, moves, pl, hact⟩ := hact
  rw [State.removeMember_posted, ← Access.failsIf_of_fabric (hit := fun a => match a.act with | .fabric n _ _ _ _ => decide (n = k) | _ => false)
    (by rw [hact]; exact decide_eq_true rfl) hd (by rw [hact]; rfl)]
  exact List.mem_map_of_mem ha
omit hf hi hk hp in
theorem foldl_min_le (l : List Nat) (n : Nat) : l.foldl Min.min n ≤ n := by
  induction l generalizing n with
  | nil => exact le_rfl
  | cons a r ih => exact (ih (min n a)).trans (min_le_left ..)
/-- The member of lowest index takes the role, and what this package says then it says as the coordinator. -/
theorem rekeyPhaseTimeout_takesRole (hc : k = s.hub.domain.coordinator) : Does s (.rekeyPhaseTimeout s.hub.domain.number k) (fun t =>
    Quiets s.hub.domain t s.hub.domain.target ∧ t.hub.domain.coordinator ≤ s.hub.domain.self ∧ (t.peer k).present = false ∧
      (t.hub.domain.coordinator = s.hub.domain.self →
        t.hub.sent = s.hub.sent ++ s.hub.domain.each (s.hub.domain.without k) (.quiesce s.hub.domain.kgen s.hub.domain.timeout))) := by
  have hx := exec_rekeyPhaseTimeout_eq s.hub.domain.number k s
  rw [execRekeyPhaseTimeout] at hx
  dsimp only at hx
  rw [if_neg (by simp [hf, hi]), if_neg hk, show (SMap.get ({} : Peer) s.hub.domain.peers k).present = true from hp, if_neg (by decide),
    if_neg (not_not.2 hc)] at hx
  have hl : s.hub.domain.coordinator ≠ s.hub.domain.self := hc ▸ hk
  have told := State.removeMember_sent s k
  rw [Domain.told, if_neg hl, List.append_nil] at told
  have domain : ((s.removeMember k).updDomain (fun d => { d with coordinator := d.others.foldl Min.min d.self })).hub.domain =
      { s.hub.domain.removed k with coordinator := (s.hub.domain.removed k).others.foldl Min.min s.hub.domain.self } := by
    rw [hub_updDomain, State.removeMember_domain]
    rfl
  have quiesced := State.quiesce_domain ((s.removeMember k).updDomain (fun d => { d with coordinator := d.others.foldl Min.min d.self }))
  rw [domain] at quiesced
  have coordinator := congrArg Domain.coordinator quiesced
  refine does_quiesce hx (State.removeMember_keeps State.cores s k (fun _ _ _ => rfl)) (State.removeMember_keeps State.mem s k (fun _ _ _ => rfl))
    ⟨?_, ?_, ?_, fun lead => ?_⟩
  · rw [Quiets, quiesced]
    exact ⟨rfl, if_neg hi, rfl, rfl⟩
  · rw [coordinator]
    exact foldl_min_le ..
  · rw [State.peer, quiesced, Domain.quiesced, SMap.get_map _ Peer.quiesced rfl]
    exact congrArg (fun p : Peer => p.quiesced.present) (peer_removed s.hub.domain k)
  · rw [coordinator] at lead
    rw [State.quiesce_sent (by rw [domain]; exact lead), domain]
    refine congrArg₂ (· ++ ·) told ?_
    have others : ({ s.hub.domain.removed k with coordinator := (s.hub.domain.removed k).others.foldl Min.min s.hub.domain.self } : Domain).others =
        s.hub.domain.without k := others_removed s.hub.domain k
    rw [others]
    exact each_removed (not_mem_without _ k) _
end

end Sys2Proof.Machine
end

section
/-! SUPPORT. Checkpoints (04 R107 to R109, 13 R294, log 20): the barrier, the save, the stream and its blob, and the end. -/

namespace Sys2Proof.Machine

/-! ### The end of a checkpoint (R108 step 6) -/

theorem ckptEnd_ckpt (s : State) (q : Checkpoint) (status : Nat) : (s.ckptEnd q status).hub.ckpt = none := by
  rw [State.ckptEnd, State.dispatchAll_keeps _ (fun t => t.hub.ckpt) (fun _ _ _ _ _ _ _ => rfl) (fun _ _ _ => rfl)]
  exact congrArg Hub.ckpt (State.resumeStopped_hub ..)
/-- Its packet completes with its status. -/
theorem packet_ckptEnd (s : State) {q : Checkpoint} (status : Nat) {p : Packet} (hp : p ∈ s.packets) (hid : p.id = q.packet) (he : p.entry = none) :
    p.finish status ∈ (s.ckptEnd q status).packets := by
  refine State.mem_packets_dispatchAll _ ?_ he
  show _ ∈ (((s.updHub (fun h => { h with ckpt := none })).resumeStopped q.stopped).packets.map _)
  rw [State.resumeStopped_packets]
  exact List.mem_map.2 ⟨p, hp, if_pos hid⟩

/-! ### The barrier and its budget (R108 step 2) -/

theorem exec_checkpointBarrier_eq (s : State) : exec .checkpointBarrier s = execCheckpointBarrier s := rfl
theorem exec_checkpointBudgetExpiry_eq (s : State) : exec .checkpointBudgetExpiry s = execCheckpointBudgetExpiry s := rfl
theorem exec_checkpointSaveDone_eq (s : State) : exec .checkpointSaveDone s = execCheckpointSaveDone s := rfl
theorem exec_checkpointStreamDone_eq (b : Bool) (s : State) : exec (.checkpointStreamDone b) s = execCheckpointStreamDone b s := rfl
theorem exec_checkpointBlobDone_eq (s : State) : exec .checkpointBlobDone s = execCheckpointBlobDone s := rfl
theorem mem_toSave {s : State} {a b : Nat} {st : CtxState} (h : (a, b, st) ∈ s.toSave) :
    (st = .trapped ∨ st = .preempted) ∧ ∃ e ∈ s.cores, e.1 = a ∧ ∃ x ∈ e.2.ctxs, x.1 = b ∧ x.2.st = st := by
  obtain ⟨e, he, h⟩ := List.mem_flatMap.1 h
  obtain ⟨x, hx, h⟩ := List.mem_map.1 h
  obtain ⟨hx, hst⟩ := List.mem_filter.1 hx
  cases h
  exact ⟨of_decide_eq_true hst, e, (List.mem_filter.1 he).1, rfl, x, hx, rfl, rfl⟩
section
variable {s : State} {q : Checkpoint} (hq : s.hub.ckpt = some q)
include hq
theorem ckpt_updCkpt (f : Checkpoint → Checkpoint) : (s.updCkpt f).hub.ckpt = some (f q) := by
  rw [State.updCkpt, State.updHub_hub]
  dsimp only
  rw [hq]
  rfl
theorem checkpointBarrier_saves (h2 : q.step = 2) (ht : s.now % frameCycles = 0) (hz : s.ckptQuiet = true) : Does s .checkpointBarrier (fun t =>
    ∃ r, t.hub.ckpt = some r ∧ r.step = 3 ∧ (∀ a b st, (a, b, st) ∈ r.kept → (st = .trapped ∨ st = .preempted) ∧
      ∃ e ∈ s.cores, e.1 = a ∧ ∃ x ∈ e.2.ctxs, x.1 = b ∧ x.2.st = st) ∧ r.packet = q.packet) := by
  have due : s.barrierDue = true := by simp [State.barrierDue, hq, h2, ht, hz]
  have hx := exec_checkpointBarrier_eq s
  rw [execCheckpointBarrier, if_pos due] at hx
  exact ⟨_, hx, keeps_of_eq rfl rfl, _, ckpt_updCkpt hq _, rfl, fun _ _ _ h => mem_toSave h, rfl⟩
omit hq in
theorem checkpointBarrier_waits (hz : s.ckptQuiet = false) : exec .checkpointBarrier s = .next s := by
  rw [exec_checkpointBarrier_eq, execCheckpointBarrier, if_neg (by simp [State.barrierDue, hz])]
theorem checkpointBudgetExpiry_ends (h2 : q.step = 2) (hb : q.began + q.budget ≤ s.gtick.toNat) : ∃ t, exec .checkpointBudgetExpiry s = .next t ∧
    t.hub.ckpt = none ∧ ∀ p ∈ s.packets, p.id = q.packet → p.entry = none → ∃ r ∈ t.packets, r.id = p.id ∧ r.st = .done ∧ r.status = 7 := by
  have hx := exec_checkpointBudgetExpiry_eq s
  rw [execCheckpointBudgetExpiry, hq] at hx
  dsimp only at hx
  rw [if_pos ⟨h2, hb⟩] at hx
  exact ⟨_, hx, ckptEnd_ckpt .., fun p hp hid he => ⟨_, packet_ckptEnd s 7 hp hid he, rfl, rfl, rfl⟩⟩
theorem checkpointBudgetExpiry_waits (hb : s.gtick.toNat < q.began + q.budget) : exec .checkpointBudgetExpiry s = .next s := by
  rw [exec_checkpointBudgetExpiry_eq, execCheckpointBudgetExpiry, hq]
  dsimp only
  rw [if_neg (fun h => absurd h.2 (not_le.2 hb))]

/-! ### The save (R108 step 3, R291, R294) -/

omit hq in
/-- A save block changes neither a core nor the hub. -/
theorem writeRange_keeps {β : Type} (P : State → β) (s : State) (w lo n : Nat) (l : List Host.Cell)
    (h : ∀ t m tg ow, P { t with mem := m, tags := tg, owner := ow } = P t) : P (s.writeRange w lo n l) = P s := by
  rw [State.writeRange, State.timedWrite, State.tagLines, State.writeCells_eq]
  exact h s _ _ _
omit hq in
theorem saveBlock_keeps {β : Type} (P : State → β) (s : State) (c : Nat) (h : ∀ t m tg ow, P { t with mem := m, tags := tg, owner := ow } = P t) :
    P (s.saveBlock c) = P s := by
  rw [State.saveBlock]
  exact (writeRange_keeps P _ _ _ _ _ h).trans (foldl_keeps P _ _ s (fun t k => writeRange_keeps P t _ _ _ _ h))
/-- The state in which the contexts and the blocks have been saved. -/
def State.savedAll (s : State) (live : List (Nat × Nat × CtxState)) : State :=
  let u := live.foldl (fun s e => s.saveCtx e.1 e.2.1) s
  ((u.cores.filter (fun e => e.2.granted)).map Prod.fst).foldl State.saveBlock u
omit hq in
theorem savedAll_keeps {β : Type} (P : State → β) (s : State) (live : List (Nat × Nat × CtxState))
    (h : ∀ t m tg ow, P { t with mem := m, tags := tg, owner := ow } = P t) : P (s.savedAll live) = P (live.foldl (fun s e => s.saveCtx e.1 e.2.1) s) :=
  foldl_keeps P _ _ _ (fun t c => saveBlock_keeps P t c h)
omit hq in
theorem saveCtx_hub (s : State) (c k : Nat) : (s.saveCtx c k).hub = s.hub := by
  rw [State.saveCtx]
  exact writeRange_keeps State.hub s (s.core c).world (saveArea (s.core c).savebase k) 0x10000 _ (fun _ _ _ _ => rfl)
omit hq in
theorem savedAll_hub (s : State) (live : List (Nat × Nat × CtxState)) : (s.savedAll live).hub = s.hub :=
  (savedAll_keeps State.hub s live (fun _ _ _ _ => rfl)).trans (foldl_keeps State.hub _ _ s (fun t _ => saveCtx_hub t _ _))
section
variable (h3 : q.step = 3)
include h3
theorem checkpointSaveDone_saves (hd : (s.keptLive q).all (fun e => s.drained e.1 e.2.1) = true) :
    exec .checkpointSaveDone s = .next ((s.savedAll (s.keptLive q)).updCkpt (fun r => { r with step := 4, kept := s.keptLive q })) := by
  have drained : s.ckptDrained = true := by
    rw [State.ckptDrained, hq, Option.any_some, h3, hd]
    rfl
  rw [exec_checkpointSaveDone_eq, execCheckpointSaveDone, hq]
  dsimp only
  rw [if_neg (by simp [drained])]
  rfl
omit h3 in
theorem checkpointSaveDone_waits (hd : (s.keptLive q).all (fun e => s.drained e.1 e.2.1) = false) : exec .checkpointSaveDone s = .next s := by
  have busy : s.ckptDrained = false := by
    rw [State.ckptDrained, hq, Option.any_some, hd, Bool.and_false]
  rw [exec_checkpointSaveDone_eq, execCheckpointSaveDone, hq]
  dsimp only
  rw [if_pos (by simp [busy])]
omit h3 in
theorem ckpt_saved (live : List (Nat × Nat × CtxState)) : ((s.savedAll live).updCkpt (fun q => { q with step := 4, kept := live })).hub.ckpt =
    some { q with step := 4, kept := live } := ckpt_updCkpt (s := s.savedAll live) (by rw [savedAll_hub]; exact hq) _
variable {c k : Nat} (hk : q.kept = [(c, k, (s.ctx c k).st)])
include hk
omit hq h3 in
theorem keptLive_single (hf : (s.core c).fenced = false) : s.keptLive q = [(c, k, (s.ctx c k).st)] := by
  rw [State.keptLive, hk]
  simp [hf]
omit hq h3 in
theorem keptLive_fenced (hf : (s.core c).fenced = true) : s.keptLive q = [] := by
  rw [State.keptLive, hk]
  simp [hf]
theorem checkpointSaveDone_single (hf : (s.core c).fenced = false) (hd : s.drained c k = true) : ∃ t, exec .checkpointSaveDone s = .next t ∧
    (∃ r, t.hub.ckpt = some r ∧ r.step = 4 ∧ r.kept = q.kept) ∧ (t.ctx c k).st = .saved ∧ (t.ctx c k).savedAt = some (s.core c).savebase := by
  have live := keptLive_single hk hf
  have hx := checkpointSaveDone_saves hq h3 (by rw [live]; simp [hd])
  have ctx : ((s.savedAll (s.keptLive q)).updCkpt (fun r => { r with step := 4, kept := s.keptLive q })).ctx c k = (s.saveCtx c k).ctx c k := by
    rw [live]
    exact savedAll_keeps (fun t => t.ctx c k) s [(c, k, (s.ctx c k).st)] (fun _ _ _ _ => rfl)
  have saved : ∃ x : Ctx, (s.saveCtx c k).ctx c k = { x.bare with savedAt := some (s.core c).savebase } := by
    rw [State.saveCtx]
    exact ⟨_, State.ctx_updCtx_self ..⟩
  obtain ⟨x, saved⟩ := saved
  refine ⟨_, hx, ⟨{ q with step := 4, kept := s.keptLive q }, ckpt_saved hq _, rfl, live.trans hk.symm⟩, ?_, ?_⟩
  · rw [ctx, saved]
    rfl
  · rw [ctx, saved]
omit h3 in
theorem checkpointSaveDone_undrained (hf : (s.core c).fenced = false) (hd : s.drained c k = false) : exec .checkpointSaveDone s = .next s :=
  checkpointSaveDone_waits hq (by rw [keptLive_single hk hf]; simp [hd])
/-- Of a fenced core nothing is saved (R136). -/
theorem checkpointSaveDone_fenced (hf : (s.core c).fenced = true) : ∃ t, exec .checkpointSaveDone s = .next t ∧
    (∃ r, t.hub.ckpt = some r ∧ r.step = 4 ∧ r.kept = []) ∧ t.ctx c k = s.ctx c k := by
  have live := keptLive_fenced hk hf
  have hx := checkpointSaveDone_saves hq h3 (by rw [live]; rfl)
  refine ⟨_, hx, ⟨{ q with step := 4, kept := s.keptLive q }, ckpt_saved hq _, rfl, live⟩, ?_⟩
  rw [live]
  exact savedAll_keeps (fun t => t.ctx c k) s [] (fun _ _ _ _ => rfl)
end

/-! ### The stream and the blob (R108 steps 4 and 5, R109) -/

omit hq in
/-- A number with a bit among the lowest eight. -/
theorem exists_testBit {n : Nat} (h : n % 256 ≠ 0) : ∃ i < 8, n.testBit i = true := by
  by_contra no
  refine h (Nat.eq_of_testBit_eq (fun i => ?_))
  rw [show 256 = 2 ^ 8 from rfl, Nat.testBit_mod_two_pow, Nat.zero_testBit]
  by_cases hi : i < 8
  · have zero : n.testBit i = false := Bool.eq_false_iff.2 (fun one => no ⟨i, hi, one⟩)
    rw [zero, Bool.and_false]
  · rw [decide_eq_false hi, Bool.false_and]
omit hq in
/-- The ports of a mask are taken in turn. -/
theorem testBit_port {mask : Nat} (h : mask % 256 ≠ 0) (m : Nat) :
    let ports := (List.range 8).filter mask.testBit
    mask.testBit (ports.getD (m % ports.length) 0) = true := by
  intro ports
  obtain ⟨i, hi, hb⟩ := exists_testBit h
  have pos : 0 < ports.length := List.length_pos_of_mem (List.mem_filter.2 ⟨List.mem_range.2 hi, hb⟩)
  have lt : m % ports.length < ports.length := Nat.mod_lt m pos
  rw [List.getD_eq_getElem _ _ lt]
  exact (List.mem_filter.1 (List.getElem_mem lt)).2
omit hq in
theorem mem_streamed {s : State} {q : Checkpoint} {y : Reply} (h : y ∈ s.streamed q) : ∃ port a cells, y = .stream port q.peer a cells ∧
    (∀ e ∈ cells, e.1 < 65536 ∧ e.2 ≠ 0) ∧ (q.pmask % 256 ≠ 0 → q.pmask.testBit port = true) := by
  obtain ⟨m, -, rfl⟩ := List.mem_map.1 h
  refine ⟨_, _, _, rfl, fun e he => ?_, fun hm => testBit_port hm m⟩
  obtain ⟨c, hc, rfl⟩ := List.mem_map.1 he
  obtain ⟨x, hx, hp⟩ := List.mem_filterMap.1 (List.mem_filter.1 hc).1
  obtain ⟨p, -, rfl⟩ := Option.map_eq_some_iff.1 hp
  obtain ⟨n, -, hx⟩ := List.mem_flatMap.1 hx
  exact ⟨Nat.mod_lt _ (by decide), of_decide_eq_true (List.mem_filter.1 hx).2⟩
/-- The checkpoint as its stream is done. -/
def Checkpoint.streamedTo (q : Checkpoint) (s : State) (ok : Bool) : Checkpoint :=
  { q with step := 5, sinkOk := ok, cxlOff := if q.incx then (List.range 4).filter (SMap.get false s.hub.offline) else [] }
omit hq in
theorem mem_cxlOff (s : State) (ok : Bool) (p : Nat) : p ∈ (q.streamedTo s ok).cxlOff ↔ p < 4 ∧ q.incx = true ∧ SMap.get false s.hub.offline p = true := by
  rw [Checkpoint.streamedTo]
  cases q.incx
  · simp
  · simp
omit hq in
theorem logBad_keeps {β : Type} (P : State → β) (s : State) (w : Nat) (l : List (Nat × Nat)) (h : ∀ t d, P { t with dies := d } = P t) :
    P (s.logBad w l) = P s := foldl_keeps P _ _ s (fun t _ => h t _)
theorem checkpointStreamDone_unreached (h4 : q.step = 4) : Does s (.checkpointStreamDone false) (fun t =>
    (∃ r, t.hub.ckpt = some r ∧ r.step = 5 ∧ r.sinkOk = false) ∧ t.hub.sent = s.hub.sent) := by
  have hx := exec_checkpointStreamDone_eq false s
  rw [execCheckpointStreamDone, hq] at hx
  dsimp only at hx
  rw [if_neg (not_not.2 h4), if_neg (by decide)] at hx
  exact ⟨_, hx, keeps_of_eq rfl rfl, ⟨_, ckpt_updCkpt hq _, rfl, rfl⟩, rfl⟩
/-- The state in which the stream and the signed blob have left. -/
def State.sentBlob (s : State) (q : Checkpoint) : State :=
  ((s.streamed q).foldl State.answer s).answer (.blob (s.blob q) (s.signed (blobBytes (s.blob q))))
omit hq in
theorem sentBlob_hub (s : State) (q : Checkpoint) : (s.sentBlob q).hub =
    { s.hub with sent := s.hub.sent ++ s.streamed q ++ [.blob (s.blob q) (s.signed (blobBytes (s.blob q)))] } := by
  have stream := State.sent_foldl_answer (s.streamed q) id s
  rw [List.map_id] at stream
  have out : (s.sentBlob q).hub = { ((s.streamed q).foldl State.answer s).hub with
      sent := ((s.streamed q).foldl State.answer s).hub.sent ++ [.blob (s.blob q) (s.signed (blobBytes (s.blob q)))] } := rfl
  rw [out, show (s.streamed q).foldl State.answer s = (s.streamed q).foldl (fun s e => s.answer (id e)) s from rfl, stream]
omit hq in
theorem sentBlob_keeps {β : Type} (P : State → β) (s : State) (q : Checkpoint) (h : ∀ t x, P { t with hub := x } = P t) : P (s.sentBlob q) = P s :=
  (h _ _).trans (foldl_keeps P _ _ s (fun t _ => h t _))
theorem checkpointStreamDone_sends (h4 : q.step = 4) : let r := q.streamedTo s true
    let u := s.updCkpt (fun _ => r)
    Does s (.checkpointStreamDone true) (fun t => t.hub.ckpt = some r ∧
      t.hub.sent = s.hub.sent ++ u.streamed r ++ [.blob (u.blob r) (u.signed (blobBytes (u.blob r)))]) := by
  intro r u
  have hx : exec (.checkpointStreamDone true) s = .next ((u.sentBlob r).logBad 0 (u.streamRanges r.incx)) := by
    rw [exec_checkpointStreamDone_eq, execCheckpointStreamDone, hq]
    dsimp only
    rw [if_neg (not_not.2 h4), if_pos rfl]
    rfl
  have hub : ((u.sentBlob r).logBad 0 (u.streamRanges r.incx)).hub = (u.sentBlob r).hub := logBad_keeps State.hub _ _ _ (fun _ _ => rfl)
  refine ⟨_, hx, keeps_of_eq ((logBad_keeps State.cores _ _ _ (fun _ _ => rfl)).trans (sentBlob_keeps State.cores u r (fun _ _ => rfl)))
    ((logBad_keeps State.mem _ _ _ (fun _ _ => rfl)).trans (sentBlob_keeps State.mem u r (fun _ _ => rfl))), ?_, ?_⟩
  · rw [hub, sentBlob_hub]
    exact ckpt_updCkpt hq _
  · rw [hub, sentBlob_hub]
    rfl
omit hq in
theorem streamed_updCkpt (s : State) (f : Checkpoint → Checkpoint) (r : Checkpoint) : (s.updCkpt f).streamed r = s.streamed r := rfl
omit hq in
theorem worlds_blob (s : State) (r : Checkpoint) : (s.blob r).worlds.map BlobWorld.world =
    (s.worlds.filter (fun e => decide (e.2.st ≠ .empty))).map Prod.fst := by
  rw [State.blob, List.map_map]
  rfl

/-! ### The end of a checkpoint that has been sent -/

omit hq in
theorem ckptStatus_cases (s : State) (q : Checkpoint) : (q.sinkOk = false → s.ckptStatus q = 0x13) ∧
    (q.sinkOk = true → q.cxlOff ≠ [] ∨ (q.incx = true ∧ ∃ e ∈ s.hub.offline, e.2 = true) → s.ckptStatus q = 0x14) ∧
    (q.sinkOk = true → q.cxlOff = [] → q.incx = false ∨ (∀ e ∈ s.hub.offline, e.2 = false) → s.ckptStatus q = 0) := by
  refine ⟨fun h => if_pos (by simp [h]), fun h hc => (if_neg (by simp [h])).trans (if_pos ?_), fun h hc ho => (if_neg (by simp [h])).trans (if_neg ?_)⟩
  · rcases hc with hc | ⟨hi, e, he, hoff⟩
    · simp [hc]
    · rw [hi, Bool.true_and, List.any_eq_true.2 ⟨e, he, hoff⟩, Bool.or_true]
  · rcases ho with ho | ho
    · simp [hc, ho]
    · rw [hc, List.any_eq_false.2 (fun e he => by simp [ho e he])]
      simp
theorem checkpointBlobDone_ends (h5 : q.step = 5) (hk : q.kept = []) : ∃ t, exec .checkpointBlobDone s = .next t ∧ t.hub.ckpt = none ∧
    ∀ p ∈ s.packets, p.id = q.packet → p.entry = none → ∃ r ∈ t.packets, r.id = p.id ∧ r.st = .done ∧ r.status = s.ckptStatus q := by
  have hx := exec_checkpointBlobDone_eq s
  rw [execCheckpointBlobDone, hq] at hx
  dsimp only at hx
  rw [if_neg (not_not.2 h5), hk] at hx
  exact ⟨_, hx, ckptEnd_ckpt .., fun p hp hid he => ⟨_, packet_ckptEnd s (s.ckptStatus q) hp hid he, rfl, rfl, rfl⟩⟩
end

end Sys2Proof.Machine
end

section
/-! SUPPORT. Restores (03 R75, log 20): the streamed image, the worlds that unwrap, and the lines of their windows. -/

namespace Sys2Proof.Machine

/-! ### Lines that are decrypted in place -/

/-- A line of the image becomes a world's, decrypted under its key. -/
def State.decryptLine (key : BitVec 512) (w : Nat) (s : State) (n : Nat) : State :=
  { s.writeCells (lineCells n (lineSeen none (some key) n (s.lineBytes n))) with owner := SMap.put 0 s.owner n (w + 1) }
/-- Several lines of the image become a world's. -/
def State.decryptLines (key : BitVec 512) (w : Nat) (l : List Nat) (s : State) : State := l.foldl (State.decryptLine key w) s
variable (key : BitVec 512) (w : Nat) (s : State)
/-- Who owns a line is nothing to its bytes. -/
theorem byte_owned (o : SMap Nat) (a : Nat) : { s with owner := o }.byte a = s.byte a := rfl
theorem keys_lineCells (n : Nat) (l : List Byte) : ((lineCells n l).map Prod.fst).Nodup := by
  rw [lineCells, List.map_map]
  exact List.nodup_range.map (fun a b h => Nat.add_left_cancel h)
theorem byte_decryptLine_of_ne {n a : Nat} (h : lineOf a ≠ n) : (s.decryptLine key w n).byte a = s.byte a := by
  rw [State.decryptLine, byte_owned, State.byte_writeCells_of_not_mem s _ a (fun _ hc e => h (e ▸ lineOf_of_mem_lineCells hc))]
theorem byte_writeCells_lineCells (n : Nat) (l : List Byte) {i : Nat} (hi : i < 64) : (s.writeCells (lineCells n l)).byte (64 * n + i) = l.getD i 0 :=
  State.byte_writeCells_of_nodup s (keys_lineCells ..) (List.mem_map.2 ⟨i, List.mem_range.2 hi, rfl⟩)
theorem lineSeen_raw (n : Nat) (l : List Byte) : lineSeen none (some key) n l = xtsDecrypt key (64 * n) l := rfl
theorem byte_decryptLine (n : Nat) {i : Nat} (hi : i < 64) :
    (s.decryptLine key w n).byte (64 * n + i) = (xtsDecrypt key (64 * n) (s.lineBytes n)).getD i 0 := by
  rw [State.decryptLine, byte_owned, lineSeen_raw, byte_writeCells_lineCells s n _ hi]
theorem decryptLines_cons (n : Nat) (r : List Nat) : s.decryptLines key w (n :: r) = (s.decryptLine key w n).decryptLines key w r := by
  rw [State.decryptLines, List.foldl_cons, State.decryptLines]
theorem worlds_decryptLines (l : List Nat) : (s.decryptLines key w l).worlds = s.worlds := by
  refine foldl_keeps State.worlds _ l s (fun t n => ?_)
  rw [State.decryptLine]
  generalize lineCells n (lineSeen none (some key) n (t.lineBytes n)) = c
  rw [State.writeCells_eq]
theorem byte_decryptLines_of_not_mem {l : List Nat} {a : Nat} (h : lineOf a ∉ l) : (s.decryptLines key w l).byte a = s.byte a := by
  induction l generalizing s with
  | nil => rfl
  | cons n r ih =>
    rw [decryptLines_cons, ih _ (fun hr => h (List.mem_cons_of_mem _ hr)), byte_decryptLine_of_ne key w s (fun e => h (e ▸ List.mem_cons_self ..))]
theorem lineOf_add {n i : Nat} (hi : i < 64) : lineOf (64 * n + i) = n := by
  rw [lineOf]
  omega
theorem byte_decryptLines {l : List Nat} (nodup : l.Nodup) {n i : Nat} (hn : n ∈ l) (hi : i < 64) :
    (s.decryptLines key w l).byte (64 * n + i) = (xtsDecrypt key (64 * n) (s.lineBytes n)).getD i 0 := by
  induction l generalizing s with
  | nil => cases hn
  | cons m r ih =>
    obtain ⟨hm, nodup⟩ := List.nodup_cons.1 nodup
    rw [decryptLines_cons]
    by_cases e : n = m
    · subst e
      rw [byte_decryptLines_of_not_mem key w _ (by rwa [lineOf_add hi]), byte_decryptLine key w s n hi]
    · have same : (s.decryptLine key w m).lineBytes n = s.lineBytes n := List.map_congr_left (fun j hj =>
        byte_decryptLine_of_ne key w s (by rwa [lineOf_add (List.mem_range.1 hj)]))
      rw [← same]
      exact ih _ nodup ((List.mem_cons.1 hn).resolve_left e)

theorem decryptLines_eq (l : List Nat) : s.decryptLines key w l =
    l.foldl (fun s n => { s.writeCells (lineCells n (lineSeen none (some key) n (s.lineBytes n))) with owner := SMap.put 0 s.owner n (w + 1) }) s := rfl

/-! ### A world of the blob -/

/-- A world as its blob gives it, under the key that unwraps. -/
def State.reopened (s : State) (b : BlobWorld) (key : BitVec 512) : World :=
  { st := .ofCode b.st, confidential := b.confidential, key := some key, wmr := b.wmr, cred := b.cred, step := b.step,
    queues := b.queues.foldl (fun m q => SMap.set m q.number
      { present := true, base := q.base, log2n := q.log2n, head := q.head, tail := q.tail, error := q.error }) [],
    cpt := b.pages.map (fun p => { page := p.page, tag := p.tag, addr := p.addr, len := p.len, loaded := p.loaded, sealed := p.sealed }),
    windows := s.worldTable b.world }
/-- A line of the image lies in a window of the world. -/
def State.ownLine (s : State) (w n : Nat) : Bool :=
  decide (SMap.get 0 s.owner n = 0) &&
    (encrypted (64 * n) && ((s.world w).windows.any (fun v => v.2.v && decide (v.2.pbase ≤ 64 * n ∧ 64 * n < v.2.pbase + v.2.bytes)) || false))
/-- The lines of the image that become the world's. -/
def State.ownLines (s : State) (w : Nat) : List Nat := (linesOf (s.mem.map Prod.fst)).filter (s.ownLine w)
theorem ownLines_nodup : (s.ownLines w).Nodup := List.Nodup.filter _ ((linesOf_ascend _).imp Nat.ne_of_lt)
theorem mem_ownLines {n a : Nat} (ha : s.byte a ≠ 0) (hl : lineOf a = n) (ho : SMap.get 0 s.owner n = 0) (he : encrypted (64 * n) = true)
    (hw : ∃ e ∈ (s.world w).windows, e.2.v = true ∧ e.2.pbase ≤ 64 * n ∧ 64 * n < e.2.pbase + (e.2.size + 1) * 0x200000) : n ∈ s.ownLines w := by
  obtain ⟨e, hmem, hv, lo, hi⟩ := hw
  refine List.mem_filter.2 ⟨(mem_linesOf _ _).2 ?_, ?_⟩
  · exact List.mem_map.2 ⟨a, List.mem_map.2 ⟨_, SMap.mem_of_get_ne ha, rfl⟩, hl⟩
  · have inside : (s.world w).windows.any (fun v => v.2.v && decide (v.2.pbase ≤ 64 * n ∧ 64 * n < v.2.pbase + v.2.bytes)) = true :=
      List.any_eq_true.2 ⟨e, hmem, by rw [hv, Bool.true_and]; exact decide_eq_true ⟨lo, hi⟩⟩
    rw [State.ownLine, inside, he, ho]
    rfl
theorem ownLines_nil (h : ∀ e ∈ (s.world w).windows, e.2.v = false) : s.ownLines w = [] := by
  refine List.filter_eq_nil_iff.2 (fun n _ => ?_)
  rw [State.ownLine, List.any_eq_false.2 (fun e he => by simp [h e he])]
  simp
section
variable {s : State} {b : BlobWorld} (hw : b.world ≠ 0) (he : (s.world b.world).st = .empty)
include hw he
theorem restoreWorld_unwraps {key : BitVec 512} (hk : keyUnwrap s.hub.slk b.wrapped = some key) (hg : b.grant = []) :
    let u := s.updWorld b.world (fun _ => s.reopened b key)
    s.restoreWorld b = u.decryptLines key b.world (u.ownLines b.world) := by
  intro u
  rw [State.restoreWorld, if_neg (by simp [hw, he]), hk, decryptLines_eq]
  dsimp only
  rw [hg, List.filter_nil, List.foldl_nil]
  rfl
theorem restoreWorld_refuses (hk : keyUnwrap s.hub.slk b.wrapped = none) : s.restoreWorld b = s := by
  rw [State.restoreWorld, if_neg (by simp [hw, he]), hk]
end

/-! ### The restore of an image of one byte -/

section
variable {s : State} {id : Nat} {v : Byte} {blob : Blob}
/-- The package with the one byte of the image, whose line is no world's yet. -/
def State.imaged (s : State) (id : Nat) (v : Byte) : State :=
  { s.setByte id v with owner := SMap.put 0 s.owner (lineOf id) 0 }
theorem byte_imaged (s : State) (id : Nat) (v : Byte) (a : Nat) : (s.imaged id v).byte a = if a = id then v else s.byte a :=
  State.byte_setByte s id a v
theorem checkpointRestore_takes (hs : s.hub.ifs = .config ∨ s.hub.ifs = .locked ∨ s.hub.ifs = .run ∨ s.hub.ifs = .drain) (hc : s.hub.ckpt = none)
    (hp : blob.profile = s.hub.profile) (ht : blob.partition = (List.range 4).map s.part) (hm : blob.mem = [(id, v)]) :
    exec (.checkpointRestore blob) s = .next (blob.worlds.foldl State.restoreWorld (s.imaged id v)) := by
  have hx : exec (.checkpointRestore blob) s = execCheckpointRestore blob s := rfl
  rw [hx, execCheckpointRestore, if_neg (by simp [s.serves_iff.2 hs, hc, hp, ht]), hm]
  rfl
section
variable {b : BlobWorld} {key : BitVec 512} (hw : b.world ≠ 0) (he : (s.world b.world).st = .empty) (hg : b.grant = [])
  (hk : keyUnwrap s.hub.slk b.wrapped = some key)
include hw he hg hk
theorem world_restoreWorld : ((s.imaged id v).restoreWorld b).world b.world = (s.imaged id v).reopened b key := by
  rw [restoreWorld_unwraps (s := s.imaged id v) hw he hk hg, State.world, worlds_decryptLines]
  exact State.world_updWorld_self ..
theorem byte_restoreWorld_outside (hout : ∀ e ∈ ((s.imaged id v).reopened b key).windows, e.2.v = false) :
    ((s.imaged id v).restoreWorld b).byte id = v := by
  rw [restoreWorld_unwraps (s := s.imaged id v) hw he hk hg, ownLines_nil _ _ (by rw [State.world_updWorld_self]; exact hout)]
  exact (byte_imaged s id v id).trans (if_pos rfl)
theorem byte_restoreWorld_inside (hv : v ≠ 0) (hen : encrypted (64 * (id / 64)) = true)
    (hin : ∃ e ∈ ((s.imaged id v).reopened b key).windows, e.2.v = true ∧ e.2.pbase ≤ 64 * (id / 64) ∧
      64 * (id / 64) < e.2.pbase + (e.2.size + 1) * 0x200000) {i : Nat} (hi : i < 64) :
    ((s.imaged id v).restoreWorld b).byte (64 * (id / 64) + i) =
      (xtsDecrypt key (64 * (id / 64)) ((s.setByte id v).bytes (64 * (id / 64)) 64)).getD i 0 := by
  have own : id / 64 ∈ ((s.imaged id v).updWorld b.world (fun _ => (s.imaged id v).reopened b key)).ownLines b.world := by
    refine mem_ownLines _ _ (a := id) ?_ rfl (SMap.get_put_self 0 s.owner (id / 64) 0) hen (by rw [State.world_updWorld_self]; exact hin)
    exact ((byte_imaged s id v id).trans (if_pos rfl)).trans_ne hv
  rw [restoreWorld_unwraps (s := s.imaged id v) hw he hk hg]
  exact byte_decryptLines key b.world _ (ownLines_nodup ..) own hi
end
end

end Sys2Proof.Machine
end

section
/-! Settles O51: loads, enrolment, re-keys, checkpoints and restores. -/

namespace Sys2Proof.Machine

/-! ### The load of one page, from its file -/

section
variable {s : State} {w : Nat} {file : List Byte} {l : List Section} {key hd img dh data : List Byte}
  (hst : (s.world w).st = .loading) (hload : (s.world w).load = none) (hs : sectionsOf file = some l)
  (hr : ∀ r ∈ records 32 (bodyOf l 0x0A), recNat r 2 1 = 4) (hk : (l.find? (fun x => decide (x.ty = 0x0C))).bind (sigOk file) = some key)
  (hc : decide (recNat file 6 2 % 2 = 1) = (s.world w).confidential) (ht : ∀ x ∈ l, x.ty ∈ [1, 2, 7, 0x0C])
  (h1 : headedOf codeSize (bodyOf l 1) = some [(hd, img)]) (h7 : headedOf sizeAt8 (bodyOf l 7) = some [(dh, data)])
include hst hload hs hr hk hc ht h1 h7
theorem measuredLoad_badPage (h : pageOk (bodyOf l 2) (pageOf hd img) = false) :
    ∃ t, exec (.measuredLoad w file) s = .next t ∧ LoadFailed s t w 4 := by
  have hx := measuredLoad_opens hst hload hs hr hk hc (bodyOf_other ht (by decide))
  rw [loadOpened_page ht h1 h7, if_neg (by simp [h])] at hx
  exact ⟨_, hx, loadFailed_failLoad 4 rfl (fun _ => ⟨rfl, rfl⟩)⟩
theorem measuredLoad_page (h : pageOk (bodyOf l 2) (pageOf hd img) = true) : ∃ t, exec (.measuredLoad w file) s = .next t ∧
    let ext (a b : BitVec 384) : BitVec 384 := sha384 (leBytes 48 a.toNat ++ leBytes 48 b.toNat)
    let y := t.world w
    y.st = .loading ∧ y.step = 7 ∧ y.load = some { mprg := none, recs := [(recNat dh 0 8, data)], pages := [pageOf hd img] } ∧
      y.wmr = ext (ext (ext (s.world w).wmr (sha384 key)) (sha384 img)) (sha384 (bodyOf l 7)) ∧ t.hub.queue = s.hub.queue ∧
      ∃ x, y.cpt = (s.world w).cpt ++ [x] ∧ x.page = recNat hd 0 8 ∧ x.loaded = true ∧ x.sealed = false ∧
        (t.image x).map BitVec.toNat = (List.range (img.length / 4)).map (fun i => recNat img (4 * i) 4) ∧
        KeepsOthers s t 0 ((List.range img.length).map (x.addr + ·)) := by
  have hx := measuredLoad_opens hst hload hs hr hk hc (bodyOf_other ht (by decide))
  rw [loadOpened_page ht h1 h7, if_pos h] at hx
  refine ⟨_, hx, ?_⟩
  dsimp only
  rw [world_loaded, world_extendWmr, hub_loaded]
  refine ⟨hst, rfl, rfl, rfl, rfl, (s.extendWmr w (sha384 key)).loadedVersion w (pageOf hd img), rfl, rfl, rfl, rfl, image_loaded h w _ _,
    keepsOthers_loaded h w _ _ rfl rfl (key_extendWmr s w (sha384 key))⟩
end

/-! ### A Switch of one member, and a stream that leaves -/

theorem rekeySwitch_single {s : State} {e : Nat × Peer} (hf : s.hub.domain.formed = true) (hph : s.hub.domain.phase = .drained)
    (he : s.hub.domain.peers = [e]) (hp : e.2.present = true) (hk : e.1 ≠ s.hub.domain.self)
    (h : ¬ s.hub.domain.coordinator = s.hub.domain.self ∨ e.2.drained = true) : Does s (.rekeySwitch s.hub.domain.number) (fun t =>
      t.hub.domain.phase = .switching ∧ t.hub.domain.kgen = s.hub.domain.kgen ∧ (t.peer e.1).sendSeq = e.2.sendSeq + 1 ∧ ∃ key cells tag,
        (¬ s.hub.domain.coordinator = s.hub.domain.self →
          t.hub.sent = s.hub.sent ++ [.run e.1 e.2.sendSeq s.hub.domain.kgen 1 cells tag] ∧ t.hub.domain.next = none) ∧
        (s.hub.domain.coordinator = s.hub.domain.self → t.hub.domain.next = some key ∧
          t.hub.sent = s.hub.sent ++ [.control e.1 e.2.session (.secret s.hub.domain.target key), .control e.1 e.2.session (.switch s.hub.domain.target),
            .run e.1 e.2.sendSeq s.hub.domain.kgen 1 cells tag])) := by
  by_cases hl : s.hub.domain.coordinator = s.hub.domain.self
  · obtain ⟨t, hx, keeps, phase, kgen, seq, key, cells, tag, next, sent⟩ := rekeySwitch_lead hf hph he hp hk hl (h.resolve_left (not_not.2 hl))
    exact ⟨t, hx, keeps, phase, kgen, seq, key, cells, tag, fun no => absurd hl no, fun _ => ⟨next, sent⟩⟩
  · obtain ⟨t, hx, keeps, phase, kgen, seq, next, cells, tag, sent⟩ := rekeySwitch_member hf hph he hp hk hl
    exact ⟨t, hx, keeps, phase, kgen, seq, 0, cells, tag, fun _ => ⟨sent, next⟩, fun yes => absurd yes hl⟩
theorem checkpointStreamDone_streams {s : State} {q : Checkpoint} (hq : s.hub.ckpt = some q) (h4 : q.step = 4) :
    Does s (.checkpointStreamDone true) (fun t => ∃ r b, t.hub.ckpt = some r ∧ r.step = 5 ∧ r.sinkOk = true ∧
      t.hub.sent = s.hub.sent ++ s.streamed r ++ [.blob b (ecdsaSign s.hub.alk (sha384 (blobBytes b)))] ∧ b.gtick = s.gtick ∧
      b.profile = s.hub.profile ∧ b.partition = (List.range 4).map s.part ∧ b.msl = (List.range 32).map (SMap.get 0 s.hub.msl) ∧
      b.cxlOff = r.cxlOff ∧ b.worlds.map BlobWorld.world = (s.worlds.filter (fun e => decide (e.2.st ≠ .empty))).map Prod.fst ∧
      (∀ p, p ∈ r.cxlOff ↔ p < 4 ∧ q.incx = true ∧ SMap.get false s.hub.offline p = true) ∧
      ∀ y ∈ s.streamed r, ∃ port a cells, y = .stream port q.peer a cells ∧ (∀ e ∈ cells, e.1 < 65536 ∧ e.2 ≠ 0) ∧
        (q.pmask % 256 ≠ 0 → q.pmask.testBit port = true)) := by
  obtain ⟨t, hx, keeps, ckpt, sent⟩ := checkpointStreamDone_sends hq h4
  rw [streamed_updCkpt] at sent
  exact ⟨t, hx, keeps, _, _, ckpt, rfl, rfl, sent, rfl, rfl, rfl, rfl, rfl, worlds_blob _ _, mem_cxlOff s true, fun y hy =>
    mem_streamed (q := q.streamedTo s true) hy⟩

/-- Settles O51: loads and their later steps, enrolment, re-keys phase by phase, checkpoints step by step, and restores. -/
theorem loadsRekeysAndCheckpoints : Obligations.LoadsRekeysAndCheckpoints := by
  intro s w c k id v file secret q blob _ _ _ _ _ _
  refine ⟨fun hst hload => ⟨fun hs => ⟨_, measuredLoad_badFile hst hload hs, fails_now 1⟩, fun l hs hr => ⟨fun h => ?_, fun key hk h => ?_,
    fun key hd img dh data hk h ht h1 h7 => ?_⟩⟩, fun h => measuredLoad_stays file h, fun l hl => ?_, fun h hd => ?_, fun number self kgen timeout key session members hi hf hk => ?_, fun hf => ?_, fun hq => ?_,
    fun hi hc hp ht hm => ?_⟩
  -- loads, to step 7
  · exact ⟨_, measuredLoad_unsigned hst hload hs hr h, fails_now 2⟩
  · exact ⟨_, measuredLoad_otherWorld hst hload hs hr hk h, loadFailed_failLoad 3 rfl (fun _ => ⟨rfl, rfl⟩)⟩
  · exact ⟨measuredLoad_badPage hst hload hs hr hk h ht h1 h7, measuredLoad_page hst hload hs hr hk h ht h1 h7⟩
  -- the later steps of a load
  · intro _ hf
    exact ⟨fun hc => ⟨fun b hb h => loadNext_badProgram hl hf hc hb h, fun hm va data hr => ⟨fun h => loadNext_untranslated hl hf hc hm hr h,
      fun g h hp => loadNext_stores hl hf hc hm hr h hp⟩⟩, loadNext_ready hl hf, fun n r p hc hn hp =>
      ⟨fun h hs => loadNext_full hl hf hc hn hp h hs, fun h => loadNext_places hl hf hc hn hp h⟩⟩
  · obtain ⟨l, hl⟩ := Option.ne_none_iff_exists'.1 h
    exact loadNext_fencedFails hl hd
  -- enrolment
  · exact rekeyRequest_enrols number kgen timeout key session members (s.serves_iff.2 hi) hf hk
  -- re-keys
  · intro _ _ _ _ _ _ _ _ _ _ _
    refine ⟨fun hl hp hk => ⟨fun hi => ⟨rekeyRequest_ask hf hp hk hl hi, rekeyRequest_leaveIdle hf hp hk hl hi⟩, fun hi =>
      ⟨rekeyRequest_leaveBusy hf hp hk hl hi, rekeyDrained_member hf hp hk hl hi, rekeySwitched_member hf hp hk hl secret hi⟩⟩, rekeyRequest_busy,
      fun hl hp hk => ⟨fun n hc => rekeyRequest_quiesce hf hp hk hl hc n, fun l hc => rekeyRequest_members hf hp hk hl hc l, fun n l hc =>
        ⟨rekeyRequest_otherQuiesce n hc, rekeyRequest_otherMembers l hc⟩⟩,
      fun hph => ⟨rekeyDrained_reports hf hph, rekeyDrained_waits⟩,
      fun hph e he hp hk => ⟨rekeySwitch_waits he hp hk, rekeySwitch_single hf hph he hp hk⟩,
      fun hph => ⟨fun h => ⟨rekeySwitched_installs hf secret hph h, rekeySwitched_dissolves hf secret hph h⟩, fun m hm h =>
        rekeySwitched_waits secret hm h⟩,
      fun hph => ⟨rekeyResume_resumes hf hph, rekeyResume_again hf hph, rekeyResume_waits⟩,
      fun hi hk hp hc => rekeyPhaseTimeout_removes hf hi hk hp hc, fun hi hk hp hc => rekeyPhaseTimeout_takesRole hf hi hk hp hc,
      fun hi hk => rekeyPhaseTimeout_dissolves hf hi hk⟩
  -- checkpoints
  · refine ⟨checkpointBarrier_saves hq, fun _ => checkpointBarrier_waits, checkpointBudgetExpiry_ends hq, fun _ => checkpointBudgetExpiry_waits hq,
      fun h3 hk => ⟨checkpointSaveDone_single hq h3 hk, checkpointSaveDone_undrained hq hk, checkpointSaveDone_fenced hq h3 hk⟩,
      fun h4 => ⟨checkpointStreamDone_streams hq h4, checkpointStreamDone_unreached hq h4⟩, fun h5 hk => ?_⟩
    obtain ⟨t, hx, ended, packet⟩ := checkpointBlobDone_ends hq h5 hk
    refine ⟨t, hx, ended, fun p hp hid he => ?_⟩
    obtain ⟨r, hr, rid, done, status⟩ := packet p hp hid he
    obtain ⟨unreached, offline, all⟩ := ckptStatus_cases s q
    exact ⟨r, hr, rid, done, fun h => status.trans (unreached h), fun h hc => status.trans (offline h hc), fun h hc ho => status.trans (all h hc ho)⟩
  -- restores
  · have hx := checkpointRestore_takes hi hc hp ht hm
    refine ⟨fun none => ?_, fun b hb hw he hg => ⟨fun key hk => ?_, fun hk => ?_⟩⟩
    · rw [none, List.foldl_nil] at hx
      exact ⟨_, hx, (byte_imaged s id v id).trans (if_pos rfl), fun a ha => (byte_imaged s id v a).trans (if_neg ha), rfl⟩
    · rw [hb, List.foldl_cons, List.foldl_nil] at hx
      refine ⟨_, hx, ?_⟩
      dsimp only
      rw [world_restoreWorld hw he hg hk]
      exact ⟨rfl, rfl, rfl, rfl, rfl, rfl, byte_restoreWorld_outside hw he hg hk, fun hv hen hin i hi =>
        byte_restoreWorld_inside hw he hg hk hv hen hin hi⟩
    · rw [hb, List.foldl_cons, List.foldl_nil, restoreWorld_refuses (s := s.imaged id v) hw he hk] at hx
      exact ⟨_, hx, (byte_imaged s id v id).trans (if_pos rfl), rfl⟩

end Sys2Proof.Machine
end

section
/-! Refutes O43: the KEY clause has no hypothesis that the number of the front end's next access is free (log 4). -/

namespace Sys2Proof.Machine

/-- A read of the front end that translates, that no wheel and no home holds back, and that nothing refuses, is carried out (R87, R101). -/
theorem State.feRead_eq_ok {s : State} {w va n cls pa : Nat} (ha : s.feAddr w va n .rd = some pa) (hx : s.crosses (s.feStub w pa n cls) = true)
    (hr : s.refusal (s.feStub w pa n cls) = none) (hb : s.badRead (s.feStub w pa n cls).act.touches = none)
    (hs : s.canServe (s.feStub w pa n cls) = true) :
    s.feRead w va n cls = .ok ((s.seenBy w ((List.range n).map (fun i => pa + i))).bytes pa n)
      (s.mergeTags 0 ((List.range ((n + 127) / 64)).map (fun i => pa + 64 * i))) := by
  simp [State.feRead, ha, hx, hr, hb, hs]

/-- The ring of queue 0 of world 1, at address 0, holds an ERASELOAD packet (R104). An access that has been served and whose response is still on its
way bears `seqno`, the number that the front end gives the write which is to erase the packet. -/
def numberTaken : State where
  mem := [(0, 9), (24, 2)]
  worlds := [(1, { st := .ready, windows := [(0, { v := true, rd := true })], queues := [(0, { present := true, tail := 1 })] })]
  posted := [{ id := 1, core := 512, ctx := 0, frond := 384, world := 1, node := 0, home := 0, tag := [(0, 1)], act := .read [], owed := .none,
               done := some ([], 0) }]
  hub := { ifs := .run }

/-- The packet at HEAD is read, it is a KEY packet, and the write that is to erase it counts as carried out. -/
theorem numberTaken_reads : ∃ l u, numberTaken.feRead 1 0 64 = .ok l u ∧ pkOpc (packetBits l) = 9 ∧ (u.feWrite 1 0 (cellsAt 0 64 0)).isSome :=
  ⟨_, _, State.feRead_eq_ok (pa := 0) (by decide +kernel) (by decide +kernel) (by decide +kernel) (by decide +kernel) (by decide +kernel),
    by decide +kernel, by decide +kernel⟩
/-- The front end looks its write up by its number, finds the access that has been served, and takes that for the write carried out: the packet's
first byte still reads its opcode. -/
theorem numberTaken_keeps_key {t : State} (h : exec (.packetConsume 1 0) numberTaken = .next t) : t.byte 0 = 9 := by
  have stays : (match exec (.packetConsume 1 0) numberTaken with | .next u => u.byte 0 | _ => 9) = 9 := by decide +kernel
  rwa [h] at stays

/-- Refutes O43: its clause on KEY packets does not ask that no posted access bears the number of the front end's next one, and in `numberTaken`
one does; so the packet's bytes in the ring are not overwritten with zero. -/
theorem not_packetsRun : ¬ Obligations.PacketsRun := by
  intro h
  obtain ⟨l, u, hread, hkey, hwrites⟩ := numberTaken_reads
  obtain ⟨v, hwrite⟩ := Option.isSome_iff_exists.1 hwrites
  have near : ∀ j < 64, ∀ c o, region (0 + j) ≠ .spad c o := by
    intro j hj c o
    rw [region, if_pos (by omega)]
    exact Region.noConfusion
  have consumption := (h numberTaken u 0 1 0 0 0 { id := 0, world := 1, queue := 0, bits := 0 } l).1
  obtain ⟨-, -, -, key⟩ := consumption rfl rfl (by decide) (by decide +kernel) hread
  obtain ⟨t, r, runs, -, zeroed, -⟩ := key v hkey (by decide +kernel) near hwrite
  have opcode := numberTaken_keeps_key runs
  rw [zeroed 0 (by decide)] at opcode
  exact absurd opcode (by decide)

end Sys2Proof.Machine
end

section
/-! SUPPORT. A core changed, and the end of a bundle (08 R176, 17 R389): what commits, which fences are recorded, and how an item ends. -/

namespace Sys2Proof.Machine

/-! ### A core after a change -/

theorem State.ctx_updCore (s : State) (c d k : Nat) (f : Core → Core) :
    (s.updCore c f).ctx d k = if d = c then (f (s.core c)).ctx k else s.ctx d k := by
  rw [State.ctx, State.core_updCore]
  split <;> rfl
theorem State.ctx_updCore_self (s : State) (c k : Nat) (f : Core → Core) : (s.updCore c f).ctx c k = (f (s.core c)).ctx k :=
  congrArg (fun x => Core.ctx x k) (s.core_updCore_self c f)
/-- A change of one core that keeps the registers of its contexts. -/
theorem keeps_updCore (s : State) (c : Nat) {f : Core → Core} (h : ∀ k, SameRegs (s.ctx c k) ((f (s.core c)).ctx k)) :
    KeepsRegsAndMemory s (s.updCore c f) := by
  refine ⟨fun d k => ?_, fun _ => rfl⟩
  rw [State.ctx_updCore]
  split
  · rename_i e
    exact e ▸ h k
  · exact sameRegs_refl _

/-! ### A slot that blocks (R149) -/

/-- A slot that blocks leaves its context BLOCKED, with the arrival that its effect noted, and touches no frond. -/
theorem settle_block (s t : State) (w : Wait) : ∃ u, settle s (t, some (.block w)) = .next u ∧ u.curCore = t.curCore ∧ u.curCtx = t.curCtx ∧
    u.fronds = t.fronds ∧ (u.ctx s.curCore s.curCtx).st = .blocked ∧
    (u.ctx s.curCore s.curCtx).arrived = (t.ctx s.curCore s.curCtx).arrived := by
  refine ⟨_, rfl, rfl, rfl, rfl, ?_⟩
  rw [State.ctx_updCore_self, Core.leave_ctx, Core.ctx_updCtx_self]
  exact ⟨rfl, rfl⟩

/-! ### Staged changes -/

theorem State.stage_keeps (s : State) (f : Staged → Staged) : KeepsRegsAndMemory s (s.stage f) :=
  keeps_updCtx s s.curCore s.curCtx _ ⟨rfl, rfl, rfl, rfl, rfl, rfl, rfl, rfl, rfl, rfl, rfl, rfl, rfl, rfl, rfl, rfl⟩
@[simp] theorem State.cur_stage (s : State) (f : Staged → Staged) : (s.stage f).cur = { s.cur with staged := f s.cur.staged } := s.cur_updCur _
/-- A change that is staged is no access. -/
theorem State.unperformed_stage (s : State) (f : Staged → Staged) (fr : Nat) (sc : Scope) :
    (s.stage f).unperformed s.curCore s.curCtx fr sc = s.unperformed s.curCore s.curCtx fr sc := by
  have context : (s.stage f).ctx s.curCore s.curCtx = { s.cur with staged := f s.cur.staged } := s.cur_stage f
  have core : ((s.stage f).core s.curCore).engine = (s.core s.curCore).engine := by
    rw [State.stage, State.updCur, State.updCtx, State.core_updCore_self]
    rfl
  unfold State.unperformed
  rw [context, core]
  rfl

/-! ### What a bundle commits (R286) -/

/-- A bundle that passes changes the layout registers and their pending writes alone (R189). -/
theorem Ctx.passY_eq (c : Ctx) : ∃ y w, c.passY = { c with y := y, ywrites := w } := by
  unfold Ctx.passY
  exact foldl_invariant (P := fun x : Ctx => ∃ y w, x = { c with y := y, ywrites := w }) ⟨_, _, rfl⟩
    (fun _ _ _ ⟨_, _, e⟩ => e ▸ ⟨_, _, rfl⟩)
/-- A commit without a `vbank` value leaves the item, the results in flight and the fences, and the hold is the one staged. -/
theorem Ctx.commit_leaves {c : Ctx} (now len : Nat) (h : c.staged.vbank = none) : (c.commit now len).item = c.item ∧
    (c.commit now len).inflight = c.inflight ∧ (c.commit now len).fences = c.fences ∧ (c.commit now len).hold = c.staged.hold := by
  obtain ⟨y, w, e⟩ := c.popQueues.passY_eq
  simp only [Ctx.commit, h, e, and_true]
  exact ⟨rfl, rfl, rfl⟩

/-- The state in which a bundle has committed, but for the end of its item. -/
def State.bundleDone (s : State) (len : Nat) : State :=
  let t := (s.addFences s.cur.staged.fences).updCur (fun c => c.commit (s.addFences s.cur.staged.fences).now len)
  t.updCore t.curCore (fun x => { x with nextIssue := t.now + 1 })
theorem State.addFences_keeps {β : Type} (P : State → β) (s : State) (l : List Scope) (h : ∀ t co n, P { t with cores := co, seqno := n } = P t) :
    P (s.addFences l) = P s := by
  induction l generalizing s with
  | nil => rfl
  | cons sc r ih => exact (ih _).trans (h s _ _)
theorem State.bundleDone_keeps {β : Type} (P : State → β) (s : State) (len : Nat) (h : ∀ t co n, P { t with cores := co, seqno := n } = P t) :
    P (s.bundleDone len) = P s :=
  (h (s.addFences s.cur.staged.fences) _ (s.addFences s.cur.staged.fences).seqno).trans (s.addFences_keeps P _ h)
theorem State.finish_eq (s : State) (len : Nat) : s.finish len =
    if s.cur.staged.halt then (s.bundleDone len).endItem (s.bundleDone len).curCore (s.bundleDone len).curCtx else s.bundleDone len := rfl
/-- The present context after the commit: what its fences have left of it, committed. -/
theorem State.ctx_bundleDone (s : State) (len : Nat) :
    (s.bundleDone len).ctx s.curCore s.curCtx = (s.addFences s.cur.staged.fences).cur.commit s.now len := by
  have hc := s.addFences_keeps State.curCore s.cur.staged.fences (fun _ _ _ => rfl)
  have hk := s.addFences_keeps State.curCtx s.cur.staged.fences (fun _ _ _ => rfl)
  have hn := s.addFences_keeps State.now s.cur.staged.fences (fun _ _ _ => rfl)
  set t := s.addFences s.cur.staged.fences with ht
  have e : (s.bundleDone len).ctx t.curCore t.curCtx = (t.updCur (fun c => c.commit t.now len)).cur := State.ctx_updCore_self ..
  rw [← hc, ← hk, e, State.cur_updCur, hn]

theorem State.ctx_bundleDone_of_noFence {s : State} (len : Nat) (h : s.cur.staged.fences = []) :
    (s.bundleDone len).ctx s.curCore s.curCtx = s.cur.commit s.now len := by
  rw [State.ctx_bundleDone, h, State.addFences]

/-! ### The end of an item (R389) -/

theorem State.ctx_idle_self (s : State) (c k : Nat) : (s.idle c k).ctx c k =
    { s.ctx c k with st := .idle, item := none, loop := {}, armed := 0, staged := {}, wait := [], sig := none, arrived := false,
                       hold := none, pre := none, preResume := false, saving := false, point := .entry 0 0 1, tslc := 0, popped := [], asked := [] } := by
  rw [State.idle, State.ctx_updCore_self, Core.leave_ctx, Core.ctx_updCtx_self]
  rfl
theorem State.ctx_endItem (s : State) (c k : Nat) : (s.endItem c k).ctx c k = (s.idle c k).ctx c k := by
  unfold State.endItem
  split <;> rfl
/-- The frond of an item that ends counts it among its running ones no more (R125). -/
theorem State.running_endItem {s : State} {c k : Nat} {it : Item} (h : (s.ctx c k).item = some it) :
    ((s.endItem c k).frond it.frond).running = (s.frond it.frond).running.erase it.wid.toNat := by
  rw [State.endItem, h]
  dsimp only
  rw [State.frond_updFrond, if_pos rfl]
  rfl

end Sys2Proof.Machine
end

section
/-! Settles O29: each instruction of the C slot by its own effect, and by what its bundle commits. -/

namespace Sys2Proof.Machine

section
variable {s : State} {p : BitVec 4} {it : Item}

theorem exec_barL_eq (p : BitVec 4) (lev : BitVec 3) (s : State) : exec (.barL p lev) s = execBarL p lev s := rfl

/-! ### Barriers (R123, R376) -/

section
variable {lev : BitVec 3} (hf : Fires s (.barL p lev) p)
  (hl : (s.frond s.cur.frond).kind = .almanac ∨ (s.frond s.cur.frond).rlev ≤ lev.toNat)
include hf hl
/-- At a level that its frond keeps resident, `bar.l` announces its arrival, waits, or issues. -/
theorem exec_barL_kept : exec (.barL p lev) s = settle s (
    if !s.cur.arrived then (announceBar s lev, some (.block (.barrier lev.toNat)))
    else if s.cur.heldev.any (fun h => decide (h.ev = .arrive lev.toNat)) || !s.barrierOpen s.curCore s.curCtx lev.toNat then
      (s, some (.block (.barrier lev.toNat)))
    else (s.updCur (fun c => { c with arrived := false }), none)) := by
  rw [exec_barL_eq, execBarL, runSlot_fires _ hf]
  dsimp only
  rw [if_neg (fun ⟨hk, hlt⟩ => hl.elim hk (Nat.not_le.2 hlt))]
/-- The arrival of an item that holds no fence is recorded at once, in the item and in its frond. -/
theorem barL_arrives (hi : s.cur.item = some it) (hn : s.cur.fences = []) (ha : s.cur.arrived = false) :
    ∃ t, exec (.barL p lev) s = .next t ∧ t.cur.st = .blocked ∧ t.cur.arrived = true ∧
      SMap.get 0 (t.frond it.frond).arrivals (arriveKey it.wid.toNat lev.toNat) = SMap.get 0 it.arrivals lev.toNat + 1 := by
  set u := s.updCur (fun c => { c with arrived := true }) with hu
  have cur : u.ctx s.curCore s.curCtx = { s.cur with arrived := true } := s.cur_updCur _
  have announced : announceBar s lev = u.arrive s.curCore s.curCtx lev.toNat := by
    refine if_neg ?_
    rw [State.cur_updCur, Ctx.holds, hn]
    decide
  have arrival : u.arrive s.curCore s.curCtx lev.toNat = (u.updCtx s.curCore s.curCtx (fun x =>
      { x with item := some { it with arrivals := SMap.put 0 it.arrivals lev.toNat (SMap.get 0 it.arrivals lev.toNat + 1) } })).updFrond it.frond
      (fun fr => { fr with arrivals := SMap.put 0 fr.arrivals (arriveKey it.wid.toNat lev.toNat) (SMap.get 0 it.arrivals lev.toNat + 1) }) := by
    rw [State.arrive, cur, hi]
  obtain ⟨t, ht, hc, hk, hfr, hst, har⟩ := settle_block s (announceBar s lev) (.barrier lev.toNat)
  rw [announced, arrival] at hc hk hfr har
  have context : t.cur = t.ctx s.curCore s.curCtx := by
    rw [State.cur, hc, hk]
    rfl
  refine ⟨t, ?_, ?_, ?_, ?_⟩
  · rw [exec_barL_kept hf hl, ha]
    exact ht
  · rw [context, hst]
  · rw [context, har]
    change ((u.updCtx s.curCore s.curCtx _).ctx s.curCore s.curCtx).arrived = true
    rw [State.ctx_updCtx_self, cur]
  · rw [State.frond_of_fronds_eq hfr, State.frond_updFrond, if_pos rfl]
    dsimp only
    rw [SMap.get_put_self]
/-- Once the barrier is open, `bar.l` issues and makes no second arrival. -/
theorem barL_issues (ha : s.cur.arrived = true) (hh : ∀ h ∈ s.cur.heldev, h.ev ≠ .arrive lev.toNat)
    (ho : s.barrierOpen s.curCore s.curCtx lev.toNat = true) :
    exec (.barL p lev) s = .next (s.updCur (fun c => { c with arrived := false })) := by
  have made : s.cur.heldev.any (fun h => decide (h.ev = .arrive lev.toNat)) = false :=
    List.any_eq_false.2 (fun h hm => by simpa using hh h hm)
  rw [exec_barL_kept hf hl, ha, made, ho]
  rfl
end

/-! ### Changes that come with the bundle (R377, R389, R176) -/

/-- Each of these instructions, where it fires, only stages a change. -/
theorem exec_tkalign_fires {off : BitVec 10} (hf : Fires s (.tkalign p off) p) :
    exec (.tkalign p off) s = .next (s.stage (fun g => { g with hold := some (nextTick s.now + off.toNat) })) :=
  (runSlot_fires (fun s => (s.stage (fun g => { g with hold := some (nextTick s.now + off.toNat) }), none)) hf).trans (settle_none ..)
theorem exec_halt_fires (hf : Fires s (.halt p) p) : exec (.halt p) s = .next (s.stage (fun g => { g with halt := true })) :=
  (runSlot_fires (fun s => (s.stage (fun g => { g with halt := true }), none)) hf).trans (settle_none ..)
theorem exec_fence_fires {sc : Scope} (hf : Fires s (.fence p sc) p) :
    exec (.fence p sc) s = .next (s.stage (fun g => { g with fences := g.fences ++ [sc] })) :=
  (runSlot_fires (fun s => (s.stage (fun g => { g with fences := g.fences ++ [sc] }), none)) hf).trans (settle_none ..)
variable (hg : s.cur.staged = {}) (n : Nat)
include hg
/-- `tkalign` alone holds the context to the next frame tick plus its offset. -/
theorem tkalign_holds {off : BitVec 10} (hf : Fires s (.tkalign p off) p) : ∃ t, exec (.tkalign p off) s = .next t ∧ KeepsRegsAndMemory s t ∧
    ((t.finish n).ctx s.curCore s.curCtx).hold = some (nextTick s.now + off.toNat) := by
  refine ⟨_, exec_tkalign_fires hf, s.stage_keeps _, ?_⟩
  set t := s.stage (fun g => { g with hold := some (nextTick s.now + off.toNat) }) with ht
  have staged : t.cur.staged = { hold := some (nextTick s.now + off.toNat) } := by rw [ht, State.cur_stage, hg]
  have context : (t.finish n).ctx t.curCore t.curCtx = t.cur.commit t.now n := by
    rw [State.finish_eq, if_neg (by simp [staged]), State.ctx_bundleDone_of_noFence n (by rw [staged])]
  obtain ⟨-, -, -, hold⟩ := t.cur.commit_leaves t.now n (by rw [staged])
  exact (congrArg Ctx.hold context).trans (hold.trans (by rw [staged]))
/-- `halt` ends the item with its bundle, and what is in flight lands all the same. -/
theorem halt_ends (hi : s.cur.item = some it) (hf : Fires s (.halt p) p) : ∃ t, exec (.halt p) s = .next t ∧ KeepsRegsAndMemory s t ∧
    let x := (t.finish n).ctx s.curCore s.curCtx
    x.st = .idle ∧ x.item = none ∧ x.loop.active = false ∧ x.armed = 0 ∧ x.inflight = s.cur.inflight ∧
      ((t.finish n).frond it.frond).running = (s.frond it.frond).running.erase it.wid.toNat := by
  refine ⟨_, exec_halt_fires hf, s.stage_keeps _, ?_⟩
  set t := s.stage (fun g => { g with halt := true }) with ht
  have staged : t.cur.staged = { halt := true } := by rw [ht, State.cur_stage, hg]
  obtain ⟨item, inflight, -, -⟩ := t.cur.commit_leaves t.now n (by rw [staged])
  have core : (t.bundleDone n).curCore = s.curCore := t.bundleDone_keeps State.curCore n (fun _ _ _ => rfl)
  have ctx : (t.bundleDone n).curCtx = s.curCtx := t.bundleDone_keeps State.curCtx n (fun _ _ _ => rfl)
  have context : (t.bundleDone n).ctx s.curCore s.curCtx = t.cur.commit t.now n := State.ctx_bundleDone_of_noFence n (by rw [staged])
  have ends : t.finish n = (t.bundleDone n).endItem s.curCore s.curCtx := by rw [State.finish_eq, if_pos (by rw [staged]), core, ctx]
  rw [ends, State.ctx_endItem, State.ctx_idle_self, context]
  refine ⟨rfl, rfl, rfl, rfl, inflight.trans (by rw [ht, State.cur_stage]), ?_⟩
  rw [State.running_endItem (it := it), State.frond_of_fronds_eq (s := s) (t.bundleDone_keeps State.fronds n (fun _ _ _ => rfl))]
  rw [context, item, ht, State.cur_stage, hi]
/-- A fence is recorded with its bundle, for the accesses of the context that are not yet performed. -/
theorem fence_recorded {sc : Scope} (hf : Fires s (.fence p sc) p) : ∃ t, exec (.fence p sc) s = .next t ∧ KeepsRegsAndMemory s t ∧
    ((t.finish n).ctx s.curCore s.curCtx).fences = s.cur.fences ++
      [{ id := s.seqno, scope := sc, set := s.unperformed s.curCore s.curCtx s.cur.frond sc }] := by
  refine ⟨_, exec_fence_fires hf, s.stage_keeps _, ?_⟩
  have unperformed := s.unperformed_stage (fun g => { g with fences := g.fences ++ [sc] }) s.cur.frond sc
  set t := s.stage (fun g => { g with fences := g.fences ++ [sc] }) with ht
  have cur : t.cur = { s.cur with staged := { fences := [sc] } } := by rw [ht, State.cur_stage, hg]; rfl
  have recorded : (t.addFences t.cur.staged.fences).cur = { t.cur with fences := t.cur.fences ++
      [{ id := t.seqno, scope := sc, set := t.unperformed t.curCore t.curCtx t.cur.frond sc }] } := by
    rw [cur]
    exact (t.cur_updCur _).trans (by rw [cur])
  have context : (t.finish n).ctx t.curCore t.curCtx = (t.addFences t.cur.staged.fences).cur.commit t.now n := by
    rw [State.finish_eq, if_neg (by simp [cur]), State.ctx_bundleDone]
  obtain ⟨-, -, fences, -⟩ := (t.addFences t.cur.staged.fences).cur.commit_leaves t.now n (by rw [recorded, cur])
  refine (congrArg Ctx.fences context).trans (fences.trans ?_)
  rw [recorded, cur, ← unperformed]
  rfl
end

/-- The next frame tick is the multiple of 1,024 that follows the cycle (R35). -/
theorem nextTick_bounds (n : Nat) : n < nextTick n ∧ nextTick n ≤ n + 1024 ∧ nextTick n % 1024 = 0 := by
  rw [nextTick, frameCycles]
  omega

/-- Settles O29: `bar.l` by its two attempts, and the others by what they stage and their bundle commits. -/
theorem barriersAndEnds : Obligations.BarriersAndEnds := by
  unfold Obligations.BarriersAndEnds
  intro s p lev off imm sc n it hg hi fr
  have frond : s.cur.frond = it.frond := by rw [Ctx.frond, hi]
  refine ⟨fun hf hl hn => ?_, fun hf => ?_, fun hf => ?_, halt_ends hg n hi, fun hf => ?_⟩
  · rw [show fr = s.frond s.cur.frond by rw [frond]] at hl
    exact ⟨barL_arrives hf hl hi hn, barL_issues hf hl⟩
  · obtain ⟨t, ht, hk, hold⟩ := tkalign_holds hg n hf
    refine ⟨t, ht, hk, _, hold, ?_⟩
    rw [Nat.add_sub_cancel]
    exact nextTick_bounds s.now
  · exact (runSlot_fires (fun s => (s, some (.trap 0x13 (zx imm)))) hf).trans (settle_trap ..)
  · obtain ⟨t, ht, hk, fences⟩ := fence_recorded hg n hf
    exact ⟨t, ht, hk, _, fences, rfl, rfl, rfl⟩

end Sys2Proof.Machine
end

section
/-! SUPPORT. The instruction store and the resident page directory (14 R297 to R299), a version placed in free frames (R462), and an abort as
the instruction that makes it leaves the frond. -/

namespace Sys2Proof.Machine

/-! ### Refused writes (R139) -/

/-- A refused write of configuration space is logged at its die, with the die that made it. -/
theorem log_cfgErrorBy {s : State} {d : Nat} (src : Nat) (a : Word) (h : (s.die d).log.length < 64) : ∃ y,
    ((s.cfgErrorBy src d a).die d).log = (s.die d).log ++ [y] ∧ y.kind = 0x0A ∧ y.addr = a ∧ y.srccore = 0xFFFF ∧ y.srcdie = src :=
  ⟨_, State.log_logFault _ h, rfl, rfl, rfl, rfl⟩
theorem State.cfgErrorBy_keeps (s : State) (src d : Nat) (a : Word) : KeepsRegsAndMemory s (s.cfgErrorBy src d a) := s.logFault_keeps d _

/-! ### Syllables (R297) -/

theorem Core.syl_setSyl (x : Core) {f o g i : Nat} (v : Syllable) (ho : o < 1024) (hi : i < 1024) :
    (x.setSyl f o v).syl g i = if g = f ∧ i = o then v else x.syl g i := by
  have key : 1024 * g + i = 1024 * f + o ↔ g = f ∧ i = o := by omega
  simp only [Core.syl, Core.setSyl, SMap.get_put, key]

/-! ### Directory entries (R298, R299) -/

/-- An entry once another version of a page has become the current one. -/
def DirEnt.superseded (page : Nat) (y : DirEnt) : DirEnt := if y.v && !y.cont && decide (y.page = page) then { y with cur := false } else y
/-- The entry that a write leaves. -/
def dirEntOf (w : Word) : DirEnt :=
  { page := (fld w 0 40).toNat, v := w.getLsbD 40, cur := w.getLsbD 41, cont := w.getLsbD 42,
    cidx := if w.getLsbD 42 then (fld w 43 2).toNat else 0, sealed := false }
theorem Core.dirWrite_dir (x : Core) (f : Nat) (w : Word) : (x.dirWrite f w).dir = SMap.put {}
    (if w.getLsbD 40 && w.getLsbD 41 && !w.getLsbD 42 then x.dir.map (fun e => (e.1, e.2.superseded (fld w 0 40).toNat)) else x.dir)
    f (dirEntOf w) := by
  have pass : x.dir.map (fun e : Nat × DirEnt =>
      if e.2.v && !e.2.cont && decide (e.2.page = (fld w 0 40).toNat) then (e.1, { e.2 with cur := false }) else e) =
      x.dir.map (fun e => (e.1, e.2.superseded (fld w 0 40).toNat)) := by
    refine List.map_congr_left (fun e _ => ?_)
    unfold DirEnt.superseded
    split <;> rfl
  exact congrArg (fun l => SMap.put {} (if w.getLsbD 40 && w.getLsbD 41 && !w.getLsbD 42 then l else x.dir) f (dirEntOf w)) pass
theorem Core.entryAt_dirWrite (x : Core) (f : Nat) (w : Word) : (x.dirWrite f w).entryAt f = dirEntOf w := by
  rw [Core.entryAt, Core.dirWrite_dir, SMap.get_put_self]
theorem Core.entryAt_dirWrite_ne (x : Core) {f g : Nat} (w : Word) (h : g ≠ f) : (x.dirWrite f w).entryAt g =
    if w.getLsbD 40 && w.getLsbD 41 && !w.getLsbD 42 then (x.entryAt g).superseded (fld w 0 40).toNat else x.entryAt g := by
  rw [Core.entryAt, Core.dirWrite_dir, SMap.get_put_ne _ _ _ h]
  split
  · exact SMap.get_map _ _ rfl g
  · rfl

/-! ### Placement (R462) -/

theorem SMap.put_of_ne {α : Type} [DecidableEq α] {d x : α} (m : SMap α) (k : Nat) (h : x ≠ d) : SMap.put d m k x = SMap.set m k x := if_neg h
/-- The entry of the base frame of a version that Freino places. -/
def baseEntry (page : Nat) : DirEnt := { page := page, v := true, cur := true }
/-- The word that enters it. -/
def baseWord (page : Nat) : Word := BitVec.ofNat 64 (page + 2 ^ 40 + 2 ^ 41)
theorem dirEntOf_current {page : Nat} (h : page < 2 ^ 40) : dirEntOf (baseWord page) = baseEntry page := by
  have number : (baseWord page).toNat = page + 2 ^ 40 + 2 ^ 41 := by
    rw [baseWord, BitVec.toNat_ofNat, Nat.mod_eq_of_lt (by omega)]
  have bit (i : Nat) : (baseWord page).getLsbD i = decide ((page + 2 ^ 40 + 2 ^ 41) / 2 ^ i % 2 = 1) := by
    rw [BitVec.getLsbD, number, Nat.testBit_eq_decide_div_mod_eq]
  have page_ : (fld (baseWord page) 0 40).toNat = page := by
    rw [toNat_fld, number]
    omega
  have v : (page + 2 ^ 40 + 2 ^ 41) / 2 ^ 40 % 2 = 1 := by omega
  have cur : (page + 2 ^ 40 + 2 ^ 41) / 2 ^ 41 % 2 = 1 := by omega
  have cont : (page + 2 ^ 40 + 2 ^ 41) / 2 ^ 42 % 2 = 0 := by omega
  rw [dirEntOf, page_, bit, bit, bit, v, cur, cont]
  rfl

/-- A directory in which the version at one base frame is the only one, and current. -/
def Core.onlyVersion (x : Core) (page base : Nat) : Prop := (base, baseEntry page) ∈ x.dir ∧ ∀ e ∈ x.dir, e.2.cont = false → e = (base, baseEntry page)
theorem Core.onlyVersion.current {x : Core} {page base : Nat} (h : x.onlyVersion page base) : x.current page = some base := by
  obtain ⟨hm, hu⟩ := h
  have found : (x.dir.find? (fun e => e.2.v && !e.2.cont && e.2.cur && decide (e.2.page = page))).isSome :=
    List.find?_isSome.2 ⟨_, hm, by simp [baseEntry]⟩
  obtain ⟨e, he⟩ := Option.isSome_iff_exists.1 found
  have cont : e.2.cont = false := by
    have := List.find?_some he
    simp_all
  rw [Core.current, he, hu e (List.mem_of_find?_eq_some he) cont]
  rfl
/-- Then no other version of the page is to be freed. -/
theorem Core.onlyVersion.none_old {x : Core} {page base : Nat} (h : x.onlyVersion page base) (hb : x.entryAt base = baseEntry page) :
    x.bases.filter (fun b => decide ((x.entryAt b).page = page) && !(x.entryAt b).cur) = [] := by
  refine List.filter_eq_nil_iff.2 (fun b hm => ?_)
  obtain ⟨e, he, rfl⟩ := List.mem_map.1 hm
  obtain ⟨hd, hq⟩ := List.mem_filter.1 he
  rw [h.2 e hd (by simp_all), hb]
  simp [baseEntry]

section
variable (x : Core) (page : Nat) (sealed : Bool) (syl : List Syllable) (base : Nat) (conts : List Nat)
/-- The frames of a version filled, and the entries of its continuation frames written. -/
def Core.filled : Core :=
  (base :: conts).zipIdx.foldl (fun y f => y.fillFrame f.1 ((withFrames syl conts).drop (1024 * f.2))) x
def Core.continued : Core :=
  conts.zipIdx.foldl (fun y c =>
    { y with dir := SMap.put {} y.dir c.1 { page := page, v := true, cont := true, cidx := c.2 + 1, sealed := sealed } }) (x.filled syl base conts)
theorem Core.placeIn_cons : x.placeIn page sealed syl (base :: conts) =
    let y := (x.continued page sealed syl base conts).dirWrite base (baseWord page)
    { y with dir := SMap.upd {} y.dir base (fun e => { e with sealed := sealed }), cursor := ((base :: conts).getLastD 0 + 1) % 64 } := rfl
theorem Core.fillFrame_dir (f : Nat) (l : List Syllable) : (x.fillFrame f l).dir = x.dir := by rw [Core.fillFrame]
theorem Core.fillFrame_ctxs (f : Nat) (l : List Syllable) : (x.fillFrame f l).ctxs = x.ctxs := by rw [Core.fillFrame]
theorem Core.filled_dir : (x.filled syl base conts).dir = x.dir :=
  foldl_keeps Core.dir (fun (y : Core) (f : Nat × Nat) => y.fillFrame f.1 ((withFrames syl conts).drop (1024 * f.2))) _ x
    (fun y _ => y.fillFrame_dir ..)
theorem Core.filled_ctxs : (x.filled syl base conts).ctxs = x.ctxs :=
  foldl_keeps Core.ctxs (fun (y : Core) (f : Nat × Nat) => y.fillFrame f.1 ((withFrames syl conts).drop (1024 * f.2))) _ x
    (fun y _ => y.fillFrame_ctxs ..)
theorem Core.continued_ctxs : (x.continued page sealed syl base conts).ctxs = x.ctxs :=
  (foldl_keeps Core.ctxs (fun (y : Core) (c : Nat × Nat) =>
    { y with dir := SMap.put {} y.dir c.1 { page := page, v := true, cont := true, cidx := c.2 + 1, sealed := sealed } }) _ _ (fun _ _ => rfl)).trans
    (x.filled_ctxs ..)
theorem Core.dirWrite_ctxs (f : Nat) (w : Word) : (x.dirWrite f w).ctxs = x.ctxs := by rw [Core.dirWrite]
theorem Core.continued_dir (hx : x.dir = []) : ∀ e ∈ (x.continued page sealed syl base conts).dir, e.2.cont = true := by
  refine foldl_invariant (P := fun y : Core => ∀ e ∈ y.dir, e.2.cont = true) (by simp [Core.filled_dir, hx]) (fun y c _ hy e he => ?_)
  dsimp only at he
  rw [SMap.put_of_ne _ _ (by simp)] at he
  rcases SMap.mem_set he with rfl | ⟨hm, -⟩
  · rfl
  · exact hy e hm
theorem Core.placeIn_ctxs (l : List Nat) : (x.placeIn page sealed syl l).ctxs = x.ctxs := by
  cases l with
  | nil => rfl
  | cons base conts =>
    rw [Core.placeIn_cons]
    dsimp only
    rw [Core.dirWrite_ctxs, Core.continued_ctxs]
/-- A version placed in an empty directory is the only one there, and current. -/
theorem Core.placeIn_only (hx : x.dir = []) (hp : page < 2 ^ 40) : (x.placeIn page false syl (base :: conts)).onlyVersion page base ∧
    (x.placeIn page false syl (base :: conts)).entryAt base = baseEntry page := by
  obtain ⟨y, hy⟩ : ∃ y, y = (x.continued page false syl base conts).dirWrite base (baseWord page) := ⟨_, rfl⟩
  have dir : (x.placeIn page false syl (base :: conts)).dir = SMap.upd {} y.dir base (fun e => { e with sealed := false }) := by
    rw [Core.placeIn_cons, hy]
  have entry : SMap.get {} y.dir base = baseEntry page := by
    rw [← Core.entryAt, hy, Core.entryAt_dirWrite, dirEntOf_current hp]
  have entry' : SMap.get {} (SMap.upd {} y.dir base (fun e => { e with sealed := false })) base = baseEntry page := by
    rw [SMap.get_upd_self, entry]
    rfl
  refine ⟨⟨?_, fun e he hc => ?_⟩, by rw [Core.entryAt, dir, entry']⟩
  · have := SMap.mem_of_get_ne (d := ({} : DirEnt)) (m := (x.placeIn page false syl (base :: conts)).dir) (k := base)
      (by rw [dir, entry']; simp [baseEntry])
    rwa [dir, entry', ← dir] at this
  · rw [dir] at he
    rcases SMap.mem_set he with rfl | ⟨hm, hne⟩
    · rw [entry]
      rfl
    · rw [hy, Core.dirWrite_dir, dirEntOf_current hp, SMap.put_of_ne _ _ (by simp [baseEntry])] at hm
      obtain ⟨hm, -⟩ := (SMap.mem_set hm).resolve_left (fun h => hne (by rw [h]))
      have old : e.2.cont = true := by
        split at hm
        · obtain ⟨o, ho, rfl⟩ := List.mem_map.1 hm
          have := Core.continued_dir x page false syl base conts hx o ho
          simp [DirEnt.superseded, this]
        · exact Core.continued_dir x page false syl base conts hx e hm
      exact absurd (old.symm.trans hc) (by decide)
end
/-- In an empty directory the frames are taken from the cursor on. -/
theorem Core.pickFrames_empty {x : Core} (n : Nat) (hx : x.dir = []) : ∃ conts, x.pickFrames (1 + n) = x.cursor % 64 :: conts := by
  have free : ((List.range 64).map (fun i => (x.cursor + i) % 64)).filter (fun f => !(x.entryAt f).v) =
      (List.range 64).map (fun i => (x.cursor + i) % 64) :=
    List.filter_eq_self.2 (fun f _ => by simp [Core.entryAt, hx, SMap.get])
  rw [Core.pickFrames, free, show List.range 64 = 0 :: (List.range 63).map Nat.succ from rfl, List.map_cons, Nat.add_comm 1 n, List.take_succ_cons]
  exact ⟨_, rfl⟩
/-- A version placed in an empty directory is current at the cursor's frame, and no context changes. -/
theorem Core.place_empty {x : Core} {page : Nat} (syl : List Syllable) (hx : x.dir = []) (hp : page < 2 ^ 40) :
    (x.place page false syl).onlyVersion page (x.cursor % 64) ∧ (x.place page false syl).entryAt (x.cursor % 64) = baseEntry page ∧
    (x.place page false syl).ctxs = x.ctxs := by
  obtain ⟨conts, hf⟩ := Core.pickFrames_empty (versionNcont syl) hx
  rw [Core.place, hf]
  exact ⟨(x.placeIn_only page syl _ _ hx hp).1, (x.placeIn_only page syl _ _ hx hp).2, x.placeIn_ctxs ..⟩

/-! ### Contexts that resume -/

theorem State.core_resume (s : State) (c k d : Nat) : ((s.resume c k).core d).dir = (s.core d).dir := by
  rw [State.resume, State.updCtx, State.core_updCore]
  split
  · rename_i e
    rw [e]
    rfl
  · rfl
theorem State.ctx_resume_ne (s : State) {c k j : Nat} (h : j ≠ k) : (s.resume c k).ctx c j = s.ctx c j := by
  rw [State.resume, State.ctx_updCtx, if_neg (fun e => h e.2)]
/-- A trapped context is READY once a pass of resumptions has come to it. -/
theorem State.ctx_foldl_resume {s : State} {l : List Nat} {c k : Nat} (hk : k ∈ l) (h : (s.ctx c k).st = .trapped) :
    (l.foldl (fun s j => s.resume c j) s).ctx c k = { s.ctx c k with st := .ready } := by
  refine foldl_reaches (P := fun t : State => t.ctx c k = s.ctx c k) (Q := fun t : State => t.ctx c k = { s.ctx c k with st := .ready }) hk rfl
    (fun t ht => ?_) (fun t j hj ht => (t.ctx_resume_ne hj.symm).trans ht) (fun t j ht => ?_)
  · rw [State.resume, State.ctx_updCtx_self, ht, h]
  · by_cases hj : k = j
    · rw [State.resume, ← hj, State.ctx_updCtx_self, ht]
    · exact (t.ctx_resume_ne hj).trans ht

/-! ### Aborts (R96) -/

/-- An instruction that aborts a frond that runs leaves none of its items running or to start. -/
theorem aborts_of {s t : State} {i : Instr} {f : Nat} {why : Nat × Nat} (hx : exec i s = .next t) (ht : t.fronds = (s.abortFrond f why).fronds)
    (hr : (s.frond f).runs) : ∃ t, exec i s = .next t ∧ (t.frond f).abort = some why ∧ (t.frond f).running = [] ∧ (t.frond f).pending = [] := by
  refine ⟨t, hx, ?_⟩
  rw [State.frond_of_fronds_eq ht, State.frond_abortFrond why f hr, if_pos rfl]
  exact ⟨rfl, rfl, rfl⟩

end Sys2Proof.Machine
end

section
/-! Settles O42: writes by their checks, entry traps by what the world's table holds, and waits by their age. -/

namespace Sys2Proof.Machine

variable {s : State} {core ctx : Nat}

/-! ### Writes (R297 to R299) -/

/-- A refused write is logged at the core's own die, and leaves the core. -/
theorem logs_of {i : Instr} {a : Word} (hx : exec i s = .next (s.cfgError (coreDie core) a)) (hl : (s.die (coreDie core)).log.length < 64) :
    ∃ t x, exec i s = .next t ∧ KeepsRegsAndMemory s t ∧ t.core core = s.core core ∧
      (t.die (coreDie core)).log = (s.die (coreDie core)).log ++ [x] ∧ x.kind = 0x0A ∧ x.addr = a := by
  obtain ⟨y, hy, kind, addr, -⟩ := log_cfgErrorBy (coreDie core) a hl
  exact ⟨_, y, hx, s.cfgErrorBy_keeps .., rfl, hy, kind, addr⟩
theorem instructionStoreWrite_takes {frame o : Nat} (v : Syllable) (hf : frame < 64) (ho : o < 1024)
    (hv : ((s.core core).entryAt frame).v = false) : Does s (.instructionStoreWrite core frame o v) (fun t =>
      (t.core core).syl frame o = v ∧ ∀ f i, i < 1024 → (f, i) ≠ (frame, o) → (t.core core).syl f i = (s.core core).syl f i) := by
  refine does_of (congrArg Host.Outcome.next (if_pos ?_)) (keeps_updCore s core (fun _ => sameRegs_refl _)) ?_
  · simp [State.storeOk, hf, ho, hv]
  · rw [State.core_updCore_self]
    refine ⟨?_, fun f i hi hne => ?_⟩
    · rw [Core.syl_setSyl _ _ ho ho, if_pos ⟨rfl, rfl⟩]
    · rw [Core.syl_setSyl _ _ ho hi, if_neg (fun h => hne (by rw [h.1, h.2]))]
theorem exec_instructionStoreWrite_refused {frame o : Nat} (v : Syllable) (h : ((s.core core).entryAt frame).v = true ∨ 64 ≤ frame ∨ 1024 ≤ o) :
    exec (.instructionStoreWrite core frame o v) s = .next (s.cfgError (coreDie core) (storeAddr core frame o)) := by
  refine congrArg Host.Outcome.next (if_neg ?_)
  simp only [State.storeOk, Bool.and_eq_true, decide_eq_true_eq, Bool.not_eq_true']
  rintro ⟨⟨hf, ho⟩, hv⟩
  rcases h with h | h | h
  · exact absurd (h.symm.trans hv) (by decide)
  · omega
  · omega
theorem directoryWrite_takes {frame : Nat} {w : Word} (h : (s.core core).dirOk frame w = true) : Does s (.directoryWrite core frame w) (fun t =>
    t.core core = (s.core core).dirWrite frame w) := by
  refine does_of (congrArg Host.Outcome.next (if_pos h)) (keeps_updCore s core (fun _ => sameRegs_refl _)) ?_
  rw [State.core_updCore_self]
theorem exec_directoryWrite_refused {frame : Nat} {w : Word} (h : (s.core core).dirOk frame w = false) :
    exec (.directoryWrite core frame w) s = .next (s.cfgError (coreDie core) (dirAddr core frame)) :=
  congrArg Host.Outcome.next (if_neg (by simp [h]))

/-! ### Entry traps (R311, R462) -/

section
variable {p idx kind : Nat} (ht : (s.ctx core ctx).st = .trapped) (hc : (s.ctx core ctx).xcause = 0x11 ∨ (s.ctx core ctx).xcause = 0x12)
  (hp : (s.ctx core ctx).point = .entry p idx kind)
include ht hc hp
theorem Ctx.trappedAt_entry : (s.ctx core ctx).trappedAt p = true := by
  rcases hc with h | h <;> simp [Ctx.trappedAt, ht, hp, h]
variable (hk : (s.frond (s.ctx core ctx).frond).kind ≠ .almanac)
include hk
theorem exec_freinoEntryTrap_sealed (hs : ∃ y ∈ (s.world (s.core core).world).cpt, y.page = p ∧ y.sealed = true) :
    exec (.freinoEntryTrap core ctx) s =
      .next ((s.abortFrond (s.ctx core ctx).frond (abortStatus 5 3)).tell (.sealstale (s.core core).world p)) := by
  obtain ⟨y, hy, hpage, hseal⟩ := hs
  have sealed : (s.world (s.core core).world).cpt.any (fun v => decide (v.page = p) && v.sealed) = true :=
    List.any_eq_true.2 ⟨y, hy, by simp [hpage, hseal]⟩
  show execFreinoEntryTrap core ctx s = _
  unfold execFreinoEntryTrap
  simp only [hp, Point.page, Ctx.trappedAt_entry ht hc hp, hk, sealed]
  rfl
variable {y : Version} (hy : (s.world (s.core core).world).cpt = [y]) (hpage : y.page = p) (hseal : y.sealed = false) (htag : y.tag = s.tag core)
include hy hpage hseal htag
/-- A version of the core's tag that the table holds is placed, and the contexts trapped at the page resume. -/
theorem exec_freinoEntryTrap_places (hlt : p < 2 ^ 40) (hn : 1 + versionNcont (s.image y) ≤ (s.core core).freeFrames.length)
    (hd : (s.core core).dir = []) : exec (.freinoEntryTrap core ctx) s =
      let x := (s.core core).place p false (s.image y)
      .next (((SMap.keys x.ctxs).filter (fun k => (x.ctx k).trappedAt p)).foldl (fun s k => s.resume core k) (s.updCore core (fun _ => x))) := by
  have notSealed : (s.world (s.core core).world).cpt.any (fun v => decide (v.page = p) && v.sealed) = false := by simp [hy, hseal]
  have version : s.versionFor (s.core core).world p (s.tag core) = some (s.image y) := by simp [State.versionFor, hy, hpage, htag]
  have held : s.cptInsert (s.core core).world p (s.tag core) (s.image y) = s := by simp [State.cptInsert, hy, hpage, htag]
  obtain ⟨only, entry, -⟩ := Core.place_empty (x := s.core core) (s.image y) hd hlt
  have fits : ¬ (s.core core).freeFrames.length < 1 + versionNcont (s.image y) := Nat.not_lt.2 hn
  show execFreinoEntryTrap core ctx s = _
  unfold execFreinoEntryTrap
  simp only [hp, Point.page, Ctx.trappedAt_entry ht hc hp, hk, notSealed, version, held, if_neg fits, only.none_old entry]
  simp
theorem freinoEntryTrap_resumes (hlt : p < 2 ^ 40) (hn : 1 + versionNcont (s.image y) ≤ (s.core core).freeFrames.length)
    (hd : (s.core core).dir = []) : ∃ t, exec (.freinoEntryTrap core ctx) s = .next t ∧ t.ctx core ctx = { s.ctx core ctx with st := .ready } ∧
      (t.core core).current p = some ((s.core core).cursor % 64) ∧ ∀ a, t.byte a = s.byte a := by
  obtain ⟨only, -, ctxs⟩ := Core.place_empty (x := s.core core) (s.image y) hd hlt
  refine ⟨_, exec_freinoEntryTrap_places ht hc hp hk hy hpage hseal htag hlt hn hd, ?_⟩
  set x := (s.core core).place p false (s.image y) with hx
  set l := (SMap.keys x.ctxs).filter (fun k => (x.ctx k).trappedAt p) with hl
  have context : x.ctx ctx = s.ctx core ctx := by rw [Core.ctx, ctxs]; rfl
  have before : (s.updCore core (fun _ => x)).ctx core ctx = s.ctx core ctx := (State.ctx_updCore_self ..).trans context
  have listed : ctx ∈ l := by
    refine List.mem_filter.2 ⟨List.mem_map.2 ⟨_, SMap.mem_of_get_ne (d := ({} : Ctx)) (k := ctx) (fun e => ?_), rfl⟩, ?_⟩
    · have none_ : x.ctx ctx = {} := e
      rw [← context, none_] at ht
      exact absurd ht (by decide)
    · rw [context]
      exact Ctx.trappedAt_entry ht hc hp
  refine ⟨?_, ?_, fun a => ?_⟩
  · rw [State.ctx_foldl_resume listed (by rw [before]; exact ht), before]
  · have dir := foldl_keeps (fun t : State => (t.core core).dir) (fun s k => s.resume core k) l (s.updCore core (fun _ => x))
      (fun t k => t.core_resume core k core)
    rw [State.core_updCore_self] at dir
    have current := only.current
    unfold Core.current at current ⊢
    rw [← current]
    exact congrArg (fun d : SMap DirEnt => (d.find? _).map Prod.fst) dir
  · exact State.byte_of_mem_eq (foldl_keeps State.mem (fun s k => s.resume core k) l _ (fun _ _ => rfl)) a
end

/-! ### Waits of 65,536 frames (R123, R386) -/

section
variable (hb : (s.ctx core ctx).st = .blocked) (hw : 65536 ≤ s.gtick.toNat - (s.ctx core ctx).since.toNat)
include hb hw
theorem waitedOut_of_blocked : s.waitedOut core ctx = true := by
  have age : (s.gtick - (s.ctx core ctx).since).toNat = s.gtick.toNat - (s.ctx core ctx).since.toNat := by
    rw [BitVec.toNat_sub_of_le (by rw [BitVec.le_def]; omega)]
  simp [State.waitedOut, hb, age, timeoutFrames, hw]
theorem exec_barrierTimeout_aborts (ha : (s.ctx core ctx).atBarrier = true) :
    exec (.barrierTimeout core ctx) s = .next (s.abortFrond (s.ctx core ctx).frond (abortStatus 2 2)) :=
  congrArg Host.Outcome.next (if_pos (by rw [waitedOut_of_blocked hb hw, ha]; rfl))
theorem exec_waitTimeout_aborts (ha : (s.ctx core ctx).atWait = true) :
    exec (.waitTimeout core ctx) s = .next (s.abortFrond (s.ctx core ctx).frond (abortStatus 3 0)) :=
  congrArg Host.Outcome.next (if_pos (by rw [waitedOut_of_blocked hb hw, ha]; rfl))
end

/-- Settles O42: each write, entry trap and timeout by its own equation, and what it leaves by the rules above. -/
theorem pagesAndTimeouts : Obligations.PagesAndTimeouts := by
  unfold Obligations.PagesAndTimeouts
  intro s core ctx frame o v w e d c logs aborts page
  refine ⟨fun hf ho hv => instructionStoreWrite_takes v hf ho hv, fun h hl => logs_of (exec_instructionStoreWrite_refused v h) hl, fun h => ?directory,
    fun h hl => logs_of (exec_directoryWrite_refused h) hl, fun ht hc p idx kind hp hk => ⟨fun hs hb he ha => ?sealed, fun y hy hpage hlt hseal htag hn hd => ?placed⟩,
    fun hb hw => ⟨fun lev hq hbound he ha => ?_, fun pa m hq hbound he ha => ?_, fun hq hbound he ha => ?_, fun hq hbound he ha => ?_⟩⟩
  case directory =>
    obtain ⟨t, hx, hk, core_⟩ := directoryWrite_takes h
    have page_ : (fld w 0 40).toNat = page := (toNat_fld w 0 40).trans (by rw [pow_zero, Nat.div_one])
    refine ⟨t, hx, hk, ?_⟩
    rw [core_]
    intro x
    have entry : x = dirEntOf w := Core.entryAt_dirWrite ..
    rw [entry]
    refine ⟨page_, rfl, rfl, rfl, rfl, fun f hf => ?_⟩
    intro y
    refine (Core.entryAt_dirWrite_ne (s.core core) w hf).trans ?_
    rw [page_]
    by_cases hcur : (w.getLsbD 40 && w.getLsbD 41 && !w.getLsbD 42) = true
    · rw [if_pos hcur, hcur, Bool.true_and]
      rfl
    · rw [if_neg hcur, Bool.eq_false_iff.2 hcur]
      rfl
  case sealed => exact aborts_of (exec_freinoEntryTrap_sealed ht hc hp hk hs) rfl ⟨hb, he, ha⟩
  case placed =>
    obtain ⟨t, hx, context, current, byte⟩ := freinoEntryTrap_resumes ht hc hp hk hy hpage hseal htag hlt hn hd
    exact ⟨t, hx, by rw [context], by rw [context], current, byte⟩
  · exact aborts_of (exec_barrierTimeout_aborts hb hw (by rw [Ctx.atBarrier, hq]; rfl)) rfl ⟨hbound, he, ha⟩
  all_goals exact aborts_of (exec_waitTimeout_aborts hb hw (by rw [Ctx.atWait, hq]; rfl)) rfl ⟨hbound, he, ha⟩

end Sys2Proof.Machine
end

section
/-! SUPPORT. The scheduler's own operations (05 R110 to R125): the lease, records refused and accepted, items started, and fronds that end. -/

namespace Sys2Proof.Machine

/-! ### The lease (R110, R111) -/

/-- A claim that is taken. -/
def State.mayClaim (s : State) (die : BitVec 8) : Prop := die ≠ 0xFF ∧ (s.hub.holder = 0xFF ∨ s.outranks die.toNat = true)
/-- A renewal by the lease's holder. -/
def State.renews (s : State) (die : BitVec 8) (epoch : BitVec 32) : Prop := die ≠ 0xFF ∧ s.hub.holder = die.toNat ∧ s.hub.epoch = epoch.toNat
theorem die_ne_iff (die : BitVec 8) : die.toNat ≠ 0xFF ↔ die ≠ 0xFF := (BitVec.toNat_inj (x := die) (y := 0xFF)).not
/-- What holds once the lease has gone to a die. -/
def Granted (s : State) (die : BitVec 8) (t : State) : Prop := t.hub.holder = die.toNat ∧ t.hub.epoch = (s.hub.epoch + 1) % 2 ^ 32 ∧
  t.hub.queue = s.hub.queue ++ [.leader die.toNat ((s.hub.epoch + 1) % 2 ^ 32)]
/-- What holds once a claim has been refused. -/
def ClaimRefused (s : State) (die : BitVec 8) (t : State) : Prop := ∃ y, (t.die 0).log = (s.die 0).log ++ [y] ∧
  y.kind = 0x0A ∧ y.addr = 0x100 ∧ y.srccore = 0xFFFF ∧ y.srcdie = die.toNat ∧ t.hub = s.hub
section
variable {s : State} {die : BitVec 8} {i : Instr} (hx : exec i s = .next ((s.leaseClaim die.toNat).getD (s.cfgErrorBy die.toNat 0 leaseAddr)))
include hx
theorem claim_granted (h : s.mayClaim die) : Does s i (Granted s die) := by
  obtain ⟨hd, ho⟩ := h
  rw [State.leaseClaim, if_pos ⟨(die_ne_iff die).2 hd, ho⟩, Option.getD_some] at hx
  exact does_of_eq hx rfl rfl ⟨rfl, rfl, rfl⟩
theorem claim_refused (h : ¬ s.mayClaim die) (hl : (s.die 0).log.length < 64) : Does s i (ClaimRefused s die) := by
  rw [State.leaseClaim, if_neg (fun hc => h ⟨(die_ne_iff die).1 hc.1, hc.2⟩), Option.getD_none] at hx
  obtain ⟨y, hy, kind, addr, core, src⟩ := log_cfgErrorBy die.toNat leaseAddr hl
  exact does_of_eq hx rfl rfl ⟨y, hy, kind, addr, core, src, rfl⟩
end
theorem exec_leaseRenew_renews {s : State} {die : BitVec 8} {epoch : BitVec 32} (h : s.renews die epoch) :
    exec (.leaseRenew die epoch) s = .next s := congrArg Host.Outcome.next (if_pos ⟨h.2.1, h.1, h.2.2⟩)
theorem exec_leaseRenew_claims {s : State} {die : BitVec 8} {epoch : BitVec 32} (h : ¬ s.renews die epoch) : exec (.leaseRenew die epoch) s =
    .next ((s.leaseClaim die.toNat).getD (s.cfgErrorBy die.toNat 0 leaseAddr)) :=
  congrArg Host.Outcome.next (if_neg (fun hc => h ⟨hc.2.1, hc.1, hc.2.2⟩))

/-! ### Bind records and their entries (R112, R116, R117) -/

/-- A refused write of the slot table is logged at H, and the hub is as it was. -/
theorem logs_at_hub {s : State} {i : Instr} {a : Word} (hx : exec i s = .next (s.cfgError 0 a)) (hl : (s.die 0).log.length < 64) :
    Does s i (fun t => ∃ y, (t.die 0).log = (s.die 0).log ++ [y] ∧ y.kind = 0x0A ∧ y.addr = a ∧ t.hub = s.hub) := by
  obtain ⟨y, hy, kind, addr, -⟩ := log_cfgErrorBy 0 a hl
  exact does_of_eq hx rfl rfl ⟨y, hy, kind, addr, rfl⟩
theorem cfgAddr_hub (off : Nat) : cfgAddr 0 off = BitVec.ofNat 64 off := by rw [cfgAddr, Nat.mul_zero, Nat.zero_add]
theorem bindRecordWrite_takes {s : State} {i word : Nat} (v : Word) (hi : i < 256) (hw : word < 8) (hp : (s.slot i).st = .pending) :
    Does s (.bindRecordWrite i word v) (fun t => (t.slot i).word word = v ∧ (t.slot i).st = .pending ∧
      ∀ n, n ≠ word → (t.slot i).word n = (s.slot i).word n) := by
  refine does_of_eq (congrArg Host.Outcome.next (if_pos ⟨hi, hw, hp⟩)) rfl rfl ?_
  rw [State.slot_updSlot, if_pos rfl]
  exact ⟨SMap.get_put_self .., hp, fun n hn => SMap.get_put_ne _ _ _ hn⟩
theorem exec_bindRecordWrite_refused {s : State} {i word : Nat} (v : Word) (hp : (s.slot i).st ≠ .pending) : exec (.bindRecordWrite i word v) s =
    .next (s.cfgError 0 (cfgAddr 0 (0x10000 + 64 * i + 8 * word))) := congrArg Host.Outcome.next (if_neg (fun h => hp h.2.2))

/-- What a refusal leaves: the entry is FREE with the bytes of its record, and its packets are done with the status. -/
def RecordRefused (s : State) (i status aux : Nat) (t : State) : Prop := (t.slot i).st = .free ∧ (∀ n, (t.slot i).word n = (s.slot i).word n) ∧
  ∀ p ∈ s.packets, p.entry = some i → ∃ q ∈ t.packets, q.id = p.id ∧ q.st = .done ∧ q.status = status ∧ q.aux = aux
theorem State.refuseRecord_refuses (s : State) (i status aux : Nat) : RecordRefused s i status aux (s.refuseRecord i status aux) := by
  have slot : (s.refuseRecord i status aux).slot i = (s.slot i).freed := by
    have freed : (s.updSlot i Entry.freed).slot i = (s.slot i).freed := by rw [State.slot_updSlot, if_pos rfl]
    rw [← freed]
    unfold State.refuseRecord
    dsimp only
    split <;> rfl
  have packets : (s.refuseRecord i status aux).packets = s.packets.map (fun p : Packet =>
      if p.entry = some i then { p.finish status aux with entry := none } else p) := by
    unfold State.refuseRecord
    dsimp only
    split <;> rfl
  refine ⟨by rw [slot]; rfl, fun n => by rw [slot]; rfl, fun p hp he => ⟨_, packets ▸ List.mem_map_of_mem hp, ?_⟩⟩
  rw [if_pos he]
  exact ⟨rfl, rfl, rfl, rfl⟩
theorem State.refuseRecord_keepsRegs (s : State) (i status aux : Nat) : KeepsRegsAndMemory s (s.refuseRecord i status aux) :=
  keeps_of_eq (s.refuseRecord_keeps State.cores i status aux (fun _ _ _ _ => rfl)) (s.refuseRecord_keeps State.mem i status aux (fun _ _ _ _ => rfl))
/-- A refusal after a change that left the slots' records and the packets as they were. -/
theorem RecordRefused.congr {s u t : State} {i status aux : Nat} (hw : ∀ n, (u.slot i).word n = (s.slot i).word n) (hp : u.packets = s.packets)
    (h : RecordRefused u i status aux t) : RecordRefused s i status aux t := by
  obtain ⟨free, words, packets⟩ := h
  exact ⟨free, fun n => (words n).trans (hw n), fun p hm => packets p (hp ▸ hm)⟩

/-! ### A commit (R112, R117) -/

/-- A `COMMIT` that the slot table takes: its word names the present epoch and asks for a commit, the entry is PENDING under that epoch, and the
lease is held. -/
structure TakesCommit (s : State) (i : Nat) (v : Word) : Prop where
  index : i < 256
  asks : v.getLsbD 0 = true
  reserved : v.toNat / 2 % 2 ^ 31 = 0
  pending : (s.slot i).st = .pending
  held : s.hub.holder ≠ 0xFF
  epoch : v.toNat / 2 ^ 32 = s.hub.epoch
  record : ((s.slot i).word 7).toNat = s.hub.epoch
/-- Nothing holds the check of a committed entry. -/
structure Checks (s : State) (i : Nat) : Prop where
  started : s.entryStarted i = true
  role : s.hub.role = none
  ckpt : s.hub.ckpt = none
theorem toNat_fld_epoch (v : Word) : (fld v 32 32).toNat = v.toNat / 2 ^ 32 := by
  rw [toNat_fld]
  have := v.isLt
  omega
/-- The entry marked as committed. -/
def State.commitEntry (s : State) (i : Nat) : State := s.updSlot i (fun e => { e with committed := true })
theorem State.slot_commitEntry (s : State) (i : Nat) : (s.commitEntry i).slot i = { s.slot i with committed := true } := by
  rw [State.commitEntry, State.slot_updSlot, if_pos rfl]
theorem exec_commit_taken {s : State} {i : Nat} {v : Word} (h : TakesCommit s i v) : exec (.commit i v) s = .next ((s.commitEntry i).dispatch i) := by
  have reserved : fld v 1 31 = 0#31 := BitVec.eq_of_toNat_eq (by rw [toNat_fld, pow_one, h.reserved]; rfl)
  refine if_neg ?_
  rintro (hc | hc | hc | hc | hc | hc | hc)
  · exact absurd h.index (Nat.not_lt.2 hc)
  · exact absurd (h.asks.symm.trans hc) (by decide)
  · exact hc reserved
  · exact hc h.pending
  · exact h.held hc
  · exact hc ((toNat_fld_epoch v).trans h.epoch)
  · exact hc h.record
theorem exec_commit_wrongEpoch {s : State} {i : Nat} {v : Word} (h : v.toNat / 2 ^ 32 ≠ s.hub.epoch) :
    exec (.commit i v) s = .next (s.cfgError 0 (cfgAddr 0 (0x14000 + 8 * i))) :=
  if_pos (.inr (.inr (.inr (.inr (.inr (.inl (by rw [toNat_fld_epoch]; exact h)))))))
theorem State.word_commitEntry (s : State) (i n : Nat) : ((s.commitEntry i).slot i).word n = (s.slot i).word n := by
  rw [State.slot_commitEntry]
  rfl
theorem refused_commitEntry (s : State) (i status aux : Nat) : RecordRefused s i status aux ((s.commitEntry i).refuseRecord i status aux) :=
  RecordRefused.congr (s.word_commitEntry i) rfl (State.refuseRecord_refuses ..)
/-- The slots that are free on the wheels go by the fronds alone (R118). -/
theorem State.takeSlots_of_fronds_eq {s t : State} (h : t.fronds = s.fronds) (held : Frond → List (Nat × Nat)) (n want : Nat) (l : List Nat) :
    t.takeSlots held n want l = s.takeSlots held n want l := by
  induction l with
  | nil => rfl
  | cons w r ih => rw [State.takeSlots, State.takeSlots, ih, State.slotsOpen, State.slotsOpen, h]
theorem State.linkSlotsFor_commitEntry (s : State) (i : Nat) (l : List Nat) (n : Nat) : (s.commitEntry i).linkSlotsFor l n = s.linkSlotsFor l n :=
  State.takeSlots_of_fronds_eq (s := s) (t := s.commitEntry i) rfl ..
theorem State.memSlotsFor_commitEntry (s : State) (i : Nat) (l : List Nat) (n : Nat) : (s.commitEntry i).memSlotsFor l n = s.memSlotsFor l n :=
  State.takeSlots_of_fronds_eq (s := s) (t := s.commitEntry i) rfl ..
/-- The check does not ask whether the entry is committed. -/
theorem State.checkRecord_commitEntry (s : State) (i : Nat) :
    (s.commitEntry i).checkRecord { s.slot i with committed := true } = s.checkRecord (s.slot i) := by
  simp only [State.checkRecord, State.slotsFree, State.linkSlotsFor_commitEntry, State.memSlotsFor_commitEntry]
  rfl

section
variable {s : State} {i : Nat} (hp : (s.slot i).st = .pending) (hc : Checks s i)
include hp hc
/-- What the check of a committed entry that nothing holds comes to. -/
theorem dispatch_commitEntry : (s.commitEntry i).dispatch i =
    if (s.slot i).kind = .almanac ∧ ((s.slot i).start.toNat - 4) * 1024 < s.now then (s.commitEntry i).refuseRecord i 0x0E 0
    else match s.checkRecord (s.slot i) with
      | .error aux =>
        (match (if aux = 7 then (s.commitEntry i).tableBad ((s.slot i).word 3).toNat else none) with
          | some b => (s.commitEntry i).logFault (addrDie b) ((s.commitEntry i).readFault b 512 (s.slot i).world 0)
          | none => s.commitEntry i).refuseRecord i 0x12 aux
      | .ok (cores, t) =>
        if (s.slot i).kind = .almanac ∧ cores.any (fun c => decide ((s.slot i).image.tag ≠ (s.commitEntry i).tag c)) then
          (s.commitEntry i).refuseRecord i 0x02 0
        else (s.commitEntry i).acceptRecord i cores t := by
  have role (e : Entry) : (s.commitEntry i).columnHeld e = false := by
    have none_ : (s.commitEntry i).hub.role = none := hc.role
    rw [State.columnHeld, none_]
  have started : (s.commitEntry i).entryStarted i = true := hc.started
  have ckpt : (s.commitEntry i).dispatchHeld = false := by
    have none_ : (s.commitEntry i).hub.ckpt = none := hc.ckpt
    rw [State.dispatchHeld, none_]
    rfl
  unfold State.dispatch
  rw [State.slot_commitEntry]
  dsimp only
  rw [if_neg (by simp [hp, role, started, ckpt]), State.checkRecord_commitEntry]
  rfl
end

/-! ### Accepted records (R118) -/

/-- A check passed, and what follows it. -/
theorem ok_of_checked {α : Type} {c : Prop} [Decidable c] {aux : Nat} {x : Except Nat α} {y : α} (h : (if c then Except.error aux else x) = .ok y) :
    ¬ c ∧ x = .ok y := by
  by_cases hc : c
  · rw [if_pos hc] at h
    cases h
  · exact ⟨hc, by rwa [if_neg hc] at h⟩
/-- A record that passes the checks finds slots on every wheel of its cores (R49). -/
theorem State.slotsFree_of_checkRecord {s : State} {e : Entry} {l : List Nat} {t : SMap Window} (h : s.checkRecord e = .ok (l, t)) :
    s.slotsFree l (e.field 9 1) (e.field 10 1) = true := by
  obtain ⟨-, h⟩ := ok_of_checked h
  cases hr : s.recordCores e with
  | none =>
    rw [hr] at h
    cases h
  | some cores =>
    rw [hr] at h
    obtain ⟨-, h⟩ := ok_of_checked h
    obtain ⟨-, h⟩ := ok_of_checked h
    obtain ⟨-, h⟩ := ok_of_checked h
    obtain ⟨free, h⟩ := ok_of_checked h
    obtain ⟨-, h⟩ := ok_of_checked h
    dsimp only at h
    split at h
    · obtain ⟨rfl, -⟩ := Prod.mk.inj (Except.ok.inj h)
      simpa using free
    · cases h
/-- The frond that the record of a launch binds. -/
def State.launchFrond (s : State) (e : Entry) (i : Nat) (l : List Nat) : Frond :=
  { bound := true, kind := .launch, world := e.world, entry := i, first := e.field 4 2, cores := l, ctxm := e.field 8 1,
    base := (tickFrom (s.now + 4 * frameCycles) * frameCycles : Int) - (e.word 2).toNat, start := tickFrom (s.now + 4 * frameCycles),
    wlay := wlayOf e.launch, rlev := e.launch.rlev, args := e.launch.args, tiles := tilesOf e.launch,
    pending := idRanges e.wbase.toNat e.wcnt.toNat, limit := if e.limit = 0 then none else some (e.start.toNat + e.limit), depth := e.depth,
    lslt := e.field 9 1, mslt := e.field 10 1, linkSlots := (s.linkSlotsFor l (e.field 9 1)).getD [],
    memSlots := (s.memSlotsFor l (e.field 10 1)).getD [] }
/-- The table of windows stands in every core of a list. -/
def State.withTable (s : State) (l : List Nat) (t : SMap Window) : State := l.foldl (fun s c => s.updCore c (fun x => { x with windows := t })) s
theorem State.withTable_keepsRegs (s : State) (l : List Nat) (t : SMap Window) : KeepsRegsAndMemory s (s.withTable l t) :=
  foldl_invariant (P := fun u : State => KeepsRegsAndMemory s u) (keeps_refl s)
    (fun u c _ h => keeps_trans h (keeps_updCore u c (fun _ => sameRegs_refl _)))
theorem State.withTable_keeps {β : Type} (P : State → β) (s : State) (l : List Nat) (t : SMap Window) (h : ∀ u co, P { u with cores := co } = P u) :
    P (s.withTable l t) = P s := foldl_keeps P _ _ s (fun u _ => h u _)
theorem State.windows_withTable (s : State) {l : List Nat} (t : SMap Window) {d : Nat} (hd : d ∈ l) : ((s.withTable l t).core d).windows = t := by
  refine foldl_establishes (P := fun u : State => (u.core d).windows = t) hd (fun u => ?_) (fun u c _ h => ?_)
  · rw [State.core_updCore_self]
  · rw [State.core_updCore]
    split
    · rfl
    · exact h
theorem State.acceptRecord_launch {s : State} {i : Nat} (l : List Nat) (t : SMap Window) (h : (s.slot i).kind = .launch) :
    s.acceptRecord i l t = ((({ s with fronds := SMap.set s.fronds ((s.slot i).field 2 2) (s.launchFrond (s.slot i) i l) } : State).withTable l t).updWorld
      (s.slot i).world (fun w => { w with windows := t })).updSlot i
        (fun e => { e with st := .bound, frond := (s.slot i).field 2 2, committed := false }) := by
  unfold State.acceptRecord State.launchFrond
  simp only [h]
  rfl
theorem State.acceptRecord_keepsRegs {s : State} {i : Nat} (l : List Nat) (t : SMap Window) (h : (s.slot i).kind = .launch) :
    KeepsRegsAndMemory s (s.acceptRecord i l t) := by
  rw [State.acceptRecord_launch l t h]
  set v : State := { s with fronds := SMap.set s.fronds ((s.slot i).field 2 2) (s.launchFrond (s.slot i) i l) } with hv
  exact keeps_trans (t := v) (keeps_of_eq rfl rfl) (keeps_trans (v.withTable_keepsRegs l t) (keeps_of_eq rfl rfl))
/-- An accepted record of a launch binds its frond and its entry, and the table stands in every core. -/
theorem State.acceptRecord_binds {s : State} {i : Nat} (l : List Nat) (t : SMap Window) (h : (s.slot i).kind = .launch) : let u := s.acceptRecord i l t
    (u.slot i).st = .bound ∧ (u.slot i).frond = (s.slot i).field 2 2 ∧ u.frond ((s.slot i).field 2 2) = s.launchFrond (s.slot i) i l ∧
    ∀ d ∈ l, (u.core d).windows = t := by
  rw [State.acceptRecord_launch l t h]
  set v : State := { s with fronds := SMap.set s.fronds ((s.slot i).field 2 2) (s.launchFrond (s.slot i) i l) } with hv
  have frond : ((v.withTable l t)).frond ((s.slot i).field 2 2) = s.launchFrond (s.slot i) i l :=
    (v.withTable_keeps (fun u => u.frond ((s.slot i).field 2 2)) l t (fun _ _ => rfl)).trans (SMap.get_set_self ..)
  intro u
  have slot : u.slot i = { (v.withTable l t).slot i with st := .bound, frond := (s.slot i).field 2 2, committed := false } :=
    (State.slot_updSlot ..).trans (if_pos rfl)
  rw [slot]
  exact ⟨rfl, rfl, frond, fun d hd => v.windows_withTable t hd⟩

/-! ### Items (R124, R125) -/

theorem SMap.get_foldl_put_succ {α : Type} [DecidableEq α] (d : α) (n : Nat) (f : Nat → α) (m : SMap α) (j : Nat) :
    SMap.get d ((List.range n).foldl (fun g i => SMap.put d g (i + 1) (f i)) m) j = if 1 ≤ j ∧ j ≤ n then f (j - 1) else SMap.get d m j := by
  induction n with
  | zero => exact (if_neg (by omega)).symm
  | succ n ih =>
    rw [List.range_succ, List.foldl_append, List.foldl_cons, List.foldl_nil, SMap.get_put, ih]
    by_cases h : j = n + 1
    · rw [if_pos h, if_pos (by omega), h, Nat.add_sub_cancel]
    · have same : (1 ≤ j ∧ j ≤ n + 1) ↔ (1 ≤ j ∧ j ≤ n) := by omega
      rw [if_neg h, if_congr same rfl rfl]
/-- At level 0 a frond's last item is its last group. -/
theorem Frond.nextGroup_last {fr : Frond} {n : Nat} (hr : fr.rlev = 0) (hp : fr.pending = [(n, 1)]) : fr.nextGroup = some ([n], []) := by
  simp [Frond.nextGroup, hr, hp]
theorem exec_itemStart_last {s : State} {f c k n : Nat} (hd : s.itemDue f = true) (hr : (s.frond f).rlev = 0)
    (hp : (s.frond f).pending = [(n, 1)]) (hk : (s.freeCtxs f).head? = some (c, k)) : exec (.itemStart f) s =
      .next ((s.startItem f c k n).updFrond f (fun fr => { fr with pending := [], running := fr.running ++ [n] })) := by
  obtain ⟨r, hl⟩ := List.head?_eq_some_iff.1 hk
  show execItemStart f s = _
  unfold execItemStart
  rw [hd, Frond.nextGroup_last hr hp, hl, if_neg (by decide)]
  dsimp only
  rw [List.zip_cons_cons, List.zip_nil_right]
  rfl
/-- The registers that a context has as its item starts. -/
theorem State.ctx_startItem (s : State) (f c k n : Nat) : let x := (s.startItem f c k n).ctx c k
    let y := s.ctx c k
    let m := (s.slot (s.frond f).entry).launch.entry
    x.st = .ready ∧ x.wid = BitVec.ofNat 64 n ∧ x.wlay = (s.frond f).wlay ∧
      x.point = .entry (m.toNat / 2 ^ 24) (m.toNat / 2 ^ 16 % 2 ^ 8) 1 ∧
      (∀ j, SMap.get 0 x.g j = if 1 ≤ j ∧ j ≤ 4 then (s.frond f).args.getD (j - 1) 0 else SMap.get 0 y.g j) ∧
      x.a = y.a ∧ x.p = y.p ∧ x.v = y.v ∧ x.m = y.m ∧ x.y = y.y := by
  intro x
  have context : x = _ := s.ctx_updCtx_self c k _
  rw [context]
  exact ⟨rfl, rfl, rfl, rfl, fun j => SMap.get_foldl_put_succ 0 4 (fun i => (s.frond f).args.getD i 0) (s.ctx c k).g j, rfl, rfl, rfl, rfl, rfl⟩
theorem State.ctx_startItem_ne (s : State) {f c k n d j : Nat} (h : (d, j) ≠ (c, k)) : (s.startItem f c k n).ctx d j = s.ctx d j := by
  rw [State.startItem, State.ctx_updCtx, if_neg (fun e => h (by rw [e.1, e.2]))]

/-! ### Armed starts (R150) -/

theorem SMap.get_map_listed {α : Type} {d : α} {m : SMap α} {k : Nat} (f : Nat → α → α) (h : ∃ e ∈ m, e.1 = k) :
    SMap.get d (m.map (fun e => (e.1, f e.1 e.2))) k = f k (SMap.get d m k) := by
  induction m with
  | nil => simp at h
  | cons e r ih =>
    rw [List.map_cons, SMap.get, SMap.get]
    by_cases he : e.1 = k
    · rw [if_pos he, if_pos he, he]
    · obtain ⟨x, hx, hk⟩ := h
      rw [if_neg he, if_neg he, ih ⟨x, (List.mem_cons.1 hx).resolve_left (fun e' => he (e' ▸ hk)), hk⟩]
/-- A core whose armed cycle has come: whatever runs leaves the issue position and stays ready. -/
def Core.disarmed (x : Core) (now : Nat) : Core :=
  { x with armedAt := none, running := none, nextIssue := now
           ctxs := x.ctxs.map (fun e => (e.1, if x.running = some e.1 then { e.2 with st := .ready } else e.2)) }
theorem exec_armedStart_armed {s : State} {c a : Nat} (h : (s.core c).armedAt = some a) :
    exec (.armedStart c) s = .next ((s.updCore c (fun x => x.disarmed s.now)).take c 0) := by
  have pass (x : Core) : (fun e : Nat × Ctx => if x.running = some e.1 then (e.1, { e.2 with st := .ready }) else e) =
      fun e => (e.1, if x.running = some e.1 then { e.2 with st := .ready } else e.2) := by
    funext e
    split <;> rfl
  show execArmedStart c s = _
  unfold execArmedStart
  rw [h]
  dsimp only
  simp only [pass]
  rfl
theorem Core.disarmed_regs (x : Core) (now k : Nat) : SameRegs (x.ctx k) ((x.disarmed now).ctx k) :=
  SMap.rel_get_map (R := SameRegs) x.ctxs (fun e => (e.1, if x.running = some e.1 then { e.2 with st := .ready } else e.2)) (sameRegs_refl _)
    (fun e => ⟨rfl, by
    dsimp only
    split <;> exact ⟨rfl, rfl, rfl, rfl, rfl, rfl, rfl, rfl, rfl, rfl, rfl, rfl, rfl, rfl, rfl, rfl⟩⟩) k
/-- A context that takes the issue position, its record landing from a cycle on (R288). -/
def Ctx.issuing (x : Ctx) (tau : Nat) : Ctx := { x with st := .running, inflight := x.inflight ++ fromRecord tau x.record, record := [] }
theorem State.take_eq (s : State) (c k : Nat) : s.take c k = s.updCore c (fun x =>
    { x.updCtx k (fun y => y.issuing (Max.max s.now x.nextIssue)) with running := some k, nextIssue := Max.max s.now x.nextIssue }) := rfl
theorem State.core_take (s : State) (c k : Nat) : (s.take c k).core c =
    { (s.core c).updCtx k (fun y => y.issuing (Max.max s.now (s.core c).nextIssue)) with
      running := some k, nextIssue := Max.max s.now (s.core c).nextIssue } := by
  rw [State.take_eq, State.core_updCore_self]
theorem State.ctx_take (s : State) (c k j : Nat) : (s.take c k).ctx c j =
    if j = k then (s.ctx c k).issuing (Max.max s.now (s.core c).nextIssue) else s.ctx c j := by
  rw [State.ctx, State.core_take]
  exact (s.core c).ctx_updCtx k j (fun y => y.issuing (Max.max s.now (s.core c).nextIssue))
theorem State.take_keeps (s : State) (c k : Nat) : KeepsRegsAndMemory s (s.take c k) := by
  refine ⟨fun d j => ?_, fun _ => rfl⟩
  by_cases hd : d = c
  · rw [hd, State.ctx_take]
    split
    · rename_i e
      rw [e]
      exact ⟨rfl, rfl, rfl, rfl, rfl, rfl, rfl, rfl, rfl, rfl, rfl, rfl, rfl, rfl, rfl, rfl⟩
    · exact sameRegs_refl _
  · rw [State.take_eq, State.ctx_updCore, if_neg hd]
    exact sameRegs_refl _

/-! ### Fronds that end (R119) -/

/-- A context whose untimed copies bear other numbers of fronds. -/
def Ctx.refronded (x : Ctx) (r : Nat → Nat) : Ctx := { x with copies := x.copies.map (fun y => { y with frond := r y.frond }) }
/-- A core whose contexts, ports and engine do. -/
def Core.refronded (x : Core) (r : Nat → Nat) : Core :=
  { x with
    ctxs := x.ctxs.map (fun k => (k.1, k.2.refronded r))
    landPort := x.landPort.map (fun h => (h.1, r h.2))
    readPort := x.readPort.map (fun h => (h.1, r h.2))
    engine := { x.engine with owner := r x.engine.owner, calls := x.engine.calls.map (fun c => { c with frond := r c.frond }) } }
theorem State.renumber_cores (s : State) (f : Nat) : (s.renumber f).cores =
    s.cores.map (fun e => (e.1, e.2.refronded (fun n => if n = f then 1024 + s.seqno else n))) := rfl
theorem Core.refronded_regs (x : Core) (r : Nat → Nat) (k : Nat) : SameRegs (x.ctx k) ((x.refronded r).ctx k) :=
  SMap.rel_get_map (R := SameRegs) x.ctxs (fun e => (e.1, e.2.refronded r)) (sameRegs_refl _)
    (fun _ => ⟨rfl, rfl, rfl, rfl, rfl, rfl, rfl, rfl, rfl, rfl, rfl, rfl, rfl, rfl, rfl, rfl, rfl⟩) k
/-- A frond whose work is renumbered keeps every register and every byte. -/
theorem State.renumber_keeps (s : State) (f : Nat) : KeepsRegsAndMemory s (s.renumber f) := by
  refine ⟨fun c k => ?_, fun _ => rfl⟩
  rw [State.ctx, State.ctx, State.core, State.core, State.renumber_cores]
  exact SMap.rel_get_map (R := fun x y : Core => ∀ k, SameRegs (x.ctx k) (y.ctx k)) s.cores
    (fun e => (e.1, e.2.refronded (fun n => if n = f then 1024 + s.seqno else n))) (fun _ => sameRegs_refl _) (fun e => ⟨rfl, e.2.refronded_regs _⟩) c k
theorem State.frond_renumber (s : State) (f n : Nat) : (s.renumber f).frond n = if n = 1024 + s.seqno then
    { s.frond f with bound := false, released := true } else if n = f then {} else s.frond n := by
  refine (SMap.get_set ..).trans (if_congr Iff.rfl rfl ?_)
  split
  · rename_i e
    rw [e]
    exact SMap.get_erase_self ..
  · rename_i e
    exact SMap.get_erase_ne _ _ e

end Sys2Proof.Machine
end

section
/-! Settles O45: the lease by its claims, bind records and commits by their checks, and fronds from start to end by their own events. -/

namespace Sys2Proof.Machine

/-! ### Commits (R112, R116, R117) -/

section
variable {s : State} {i : Nat} {v : Word} (ht : TakesCommit s i v) (hc : Checks s i)
include ht hc
/-- A commit after an almanac's tick S - 4 is late (R95). -/
theorem commit_late (hl : (s.slot i).kind = .almanac ∧ ((s.slot i).start.toNat - 4) * 1024 < s.now) :
    Does s (.commit i v) (RecordRefused s i 0x0E 0) := by
  refine does_of (exec_commit_taken ht) ?_ ?_
  · rw [dispatch_commitEntry ht.pending hc, if_pos hl]
    exact keeps_trans (t := s.commitEntry i) (keeps_of_eq rfl rfl) (State.refuseRecord_keepsRegs ..)
  · rw [dispatch_commitEntry ht.pending hc, if_pos hl]
    exact refused_commitEntry ..
variable (hl : ¬ ((s.slot i).kind = .almanac ∧ ((s.slot i).start.toNat - 4) * 1024 < s.now))
include hl
/-- A record that fails a check is refused with it, and a table that cannot be read is logged too (R138). -/
theorem commit_fails {aux : Nat} (he : s.checkRecord (s.slot i) = .error aux) : Does s (.commit i v) (RecordRefused s i 0x12 aux) := by
  have outcome : (s.commitEntry i).dispatch i = (s.commitEntry i).refuseRecord i 0x12 aux ∨
      ∃ d e, (s.commitEntry i).dispatch i = ((s.commitEntry i).logFault d e).refuseRecord i 0x12 aux := by
    rw [dispatch_commitEntry ht.pending hc, if_neg hl, he]
    dsimp only
    split
    · exact .inr ⟨_, _, rfl⟩
    · exact .inl rfl
  have marked : KeepsRegsAndMemory s (s.commitEntry i) := keeps_of_eq rfl rfl
  rcases outcome with h | ⟨d, e, h⟩
  · refine does_of (exec_commit_taken ht) ?_ ?_ <;> rw [h]
    · exact keeps_trans marked (State.refuseRecord_keepsRegs ..)
    · exact refused_commitEntry ..
  · refine does_of (exec_commit_taken ht) ?_ ?_ <;> rw [h]
    · exact keeps_trans marked (keeps_trans (State.logFault_keeps _ d e) (State.refuseRecord_keepsRegs ..))
    · exact RecordRefused.congr (u := (s.commitEntry i).logFault d e) (s.word_commitEntry i) rfl (State.refuseRecord_refuses ..)
/-- A launch whose record passes is bound. -/
theorem commit_binds {l : List Nat} {t : SMap Window} (hk : (s.slot i).kind = .launch) (ho : s.checkRecord (s.slot i) = .ok (l, t)) :
    Does s (.commit i v) (fun u => (u.slot i).st = .bound ∧ (u.slot i).frond = (s.slot i).field 2 2 ∧
      u.frond ((s.slot i).field 2 2) = s.launchFrond (s.slot i) i l ∧ ∀ d ∈ l, (u.core d).windows = t) := by
  have launch : ((s.commitEntry i).slot i).kind = .launch := by rw [State.slot_commitEntry]; exact hk
  have accepted : (s.commitEntry i).dispatch i = (s.commitEntry i).acceptRecord i l t := by
    rw [dispatch_commitEntry ht.pending hc, if_neg hl, ho]
    exact if_neg (fun h => by simp [hk] at h)
  have frond : (s.commitEntry i).launchFrond { s.slot i with committed := true } i l = s.launchFrond (s.slot i) i l := by
    simp only [State.launchFrond, State.linkSlotsFor_commitEntry, State.memSlotsFor_commitEntry]
    rfl
  obtain ⟨st, number, bound, windows⟩ := State.acceptRecord_binds l t launch
  rw [State.slot_commitEntry] at number bound
  rw [frond] at bound
  refine does_of (exec_commit_taken ht) ?_ ?_ <;> rw [accepted]
  · exact keeps_trans (t := s.commitEntry i) (keeps_of_eq rfl rfl) (State.acceptRecord_keepsRegs l t launch)
  · exact ⟨st, number, bound, windows⟩
end
theorem almanacBindDeadline_refuses {s : State} {i : Nat} (hp : (s.slot i).st = .pending) (hk : (s.slot i).kind = .almanac)
    (hl : ((s.slot i).start.toNat - 4) * 1024 < s.now) : Does s (.almanacBindDeadline i) (RecordRefused s i 0x0E 0) :=
  does_of (congrArg Host.Outcome.next (if_pos ⟨hp, hk, hl⟩)) (State.refuseRecord_keepsRegs ..) (State.refuseRecord_refuses ..)

/-! ### Starts (R95, R118, R150) -/

section
variable {s : State} {f : Nat}
theorem almanacStart_starts (hb : (s.frond f).bound = true) (hn : (s.frond f).started = false) (hk : (s.frond f).kind = .almanac)
    (hs : (s.frond f).start * 1024 ≤ s.now) : Does s (.almanacStart f) (fun t => (t.frond f).started = true ∧ (t.frond f).base = s.now) := by
  refine does_of_eq (congrArg Host.Outcome.next (if_pos (by simp [hb, hn, hk, frameCycles, hs]))) rfl rfl ?_
  rw [State.frond_updFrond, if_pos rfl]
  exact ⟨rfl, rfl⟩
/-- Domain time at the start is DTIME0, which stands in the frond as the distance from its tick (R118). -/
theorem frondStart_starts (hd : s.startDue f = true) : Does s (.frondStart f) (fun t => (t.frond f).started = true ∧
    ((s.frond f).freezeEnd ≤ s.now → t.dtime f = ((s.frond f).start : Int) * 1024 - (s.frond f).base - (s.frond f).frozen)) := by
  refine does_of_eq (congrArg Host.Outcome.next (if_pos hd)) rfl rfl ?_
  rw [State.dtime, State.frond_updFrond, if_pos rfl]
  refine ⟨rfl, fun hz => ?_⟩
  dsimp only
  rw [State.updFrond_now, Nat.max_eq_left hz]
  simp only [frameCycles]
  push_cast
  ring
end
/-- At its armed cycle context 0 takes the issue position. -/
theorem armedStart_runs {s : State} {c a : Nat} (h : (s.core c).armedAt = some a) : ∃ t, exec (.armedStart c) s = .next t ∧
    (t.core c).armedAt = none ∧ (t.core c).running = some 0 ∧ (t.core c).nextIssue = s.now ∧ (t.ctx c 0).st = .running ∧
    (∀ j, j ≠ 0 → (s.core c).running = some j → (∃ x ∈ (s.core c).ctxs, x.1 = j) → (t.ctx c j).st = .ready) ∧ KeepsRegsAndMemory s t := by
  refine ⟨_, exec_armedStart_armed h, ?_⟩
  set u := s.updCore c (fun x => x.disarmed s.now) with hu
  have core : u.core c = (s.core c).disarmed s.now := State.core_updCore_self ..
  have kept : KeepsRegsAndMemory s u := keeps_updCore s c ((s.core c).disarmed_regs s.now)
  refine ⟨?_, ?_, ?_, ?_, fun j hj hr hm => ?_, keeps_trans kept (u.take_keeps c 0)⟩
  · rw [State.core_take, core]
    rfl
  · rw [State.core_take]
  · rw [State.core_take, core]
    exact Nat.max_self s.now
  · rw [State.ctx_take, if_pos rfl]
    rfl
  · rw [State.ctx_take, if_neg hj, State.ctx, core]
    refine (congrArg Ctx.st (SMap.get_map_listed (fun k y => if (s.core c).running = some k then { y with st := .ready } else y) hm)).trans ?_
    rw [if_pos hr]

/-! ### Ends (R95, R119) -/

section
variable {s : State} {f : Nat}
theorem almanacLimitExpiry_aborts (hr : (s.frond f).runs) (hk : (s.frond f).kind = .almanac) (hh : ∃ d ∈ (s.frond f).cores, d ∉ (s.frond f).halted)
    {n : Nat} (hl : (s.frond f).limit = some n) (hn : n * 1024 ≤ s.now) : ∃ t, exec (.almanacLimitExpiry f) s = .next t ∧
      (t.frond f).abort = some (0x11, 0) ∧ ∀ a, t.byte a = s.byte a := by
  obtain ⟨hb, he, ha⟩ := hr
  have running : (s.frond f).cores.all (s.frond f).halted.contains = false := by
    obtain ⟨d, hd, hnd⟩ := hh
    exact List.all_eq_false.2 ⟨d, hd, by simpa using hnd⟩
  refine ⟨_, congrArg Host.Outcome.next (if_pos (by simp only [hb, ha, he, hk, hl, running]; simp [frameCycles, hn])), ?_,
    State.byte_of_mem_eq (State.abortFrond_mem ..)⟩
  rw [State.frond_abortFrond _ f ⟨hb, he, ha⟩, if_pos rfl]
  rfl
theorem endDue_of (hb : (s.frond f).bound = true) (he : (s.frond f).ended = true ∨ (s.frond f).abort.isSome = true)
    (hn : (s.frond f).endedAt < s.now) (ht : s.now % 1024 = 0) : s.endDue f = true := by
  simp [State.endDue, hb, he, hn, ht, frameCycles]
/-- A frond that is due to end is bound no more; one that has not ended goes on under a number of its own. -/
theorem frondEnd_frees (hd : s.endDue f = true) : Does s (.frondEnd f) (fun t =>
    (t.frond f).bound = false ∧ (∀ n, n ≠ f → n ≠ 1024 + s.seqno → t.frond n = s.frond n) ∧
    ((s.frond f).ended = false → t.frond (1024 + s.seqno) = { s.frond f with bound := false, released := true })) := by
  have due : exec (.frondEnd f) s = .next (if (s.frond f).ended then { s with fronds := SMap.erase s.fronds f } else s.renumber f) :=
    congrArg Host.Outcome.next (if_neg (by simp [hd]))
  by_cases he : (s.frond f).ended = true
  · rw [if_pos he] at due
    exact does_of_eq due rfl rfl ⟨congrArg Frond.bound (SMap.get_erase_self ..), fun n hn _ => SMap.get_erase_ne _ _ hn,
      fun h => absurd (he.symm.trans h) (by decide)⟩
  · rw [if_neg he] at due
    refine does_of due (State.renumber_keeps ..) ⟨?_, fun n hf hn => ?_, fun _ => ?_⟩
    · rw [State.frond_renumber]
      split
      · rfl
      · rw [if_pos rfl]
    · rw [State.frond_renumber, if_neg hn, if_neg hf]
    · rw [State.frond_renumber, if_pos rfl]
end

/-- Settles O45: each operation of the scheduler by its own theorem. (That a claim of lower rank takes the lease from the one granted is log 68, and
that a refused claim bears the die that makes it, log 69.) -/
theorem frondsAndLease : Obligations.FrondsAndLease := by
  unfold Obligations.FrondsAndLease
  intro s i word fr c k v die epoch h e f free may late does logs refused
  refine ⟨⟨claim_granted rfl, claim_refused rfl, exec_leaseRenew_renews, fun hr => claim_granted (exec_leaseRenew_claims hr),
      fun hr => claim_refused (exec_leaseRenew_claims hr)⟩, does_of_eq rfl rfl rfl ⟨rfl, rfl⟩,
    fun hi hw => ⟨bindRecordWrite_takes v hi hw, fun hp hl => ?write⟩, fun hi hv hz hp hh he h7 hs hr hk => ⟨fun hl => ?late, fun aux hl hx => ?fails,
      fun l t ho hkind => ?binds⟩, fun hi hne hl => ?epoch, fun hp hk hl => ?deadline, almanacStart_starts, frondStart_starts,
    fun a ha _ => armedStart_runs ha, fun hb he ha hk hh n hl hn => almanacLimitExpiry_aborts ⟨hb, he, ha⟩ hk hh hl hn,
    fun hd hr n m hp hk hm => ?item, fun hb he hn ht => frondEnd_frees (endDue_of hb he hn ht)⟩
  case write =>
    rw [← cfgAddr_hub]
    exact logs_at_hub (exec_bindRecordWrite_refused v hp) hl
  case epoch =>
    rw [← cfgAddr_hub]
    exact logs_at_hub (exec_commit_wrongEpoch hne) hl
  case late =>
    obtain ⟨t, hx, hkeep, free_, -, packets⟩ := commit_late ⟨hi, hv, hz, hp, hh, he, h7⟩ ⟨hs, hr, hk⟩ hl
    exact ⟨t, hx, hkeep, free_, fun p hm hpe => (packets p hm hpe).imp (fun q ⟨hq, id, st, status, _⟩ => ⟨hq, id, st, status⟩)⟩
  case fails => exact commit_fails ⟨hi, hv, hz, hp, hh, he, h7⟩ ⟨hs, hr, hk⟩ hl hx
  case binds =>
    have launch : ¬ late := fun hl => absurd (hkind.symm.trans hl.1) (by decide)
    obtain ⟨t', hx, hkeep, st, number, frond, windows⟩ := commit_binds ⟨hi, hv, hz, hp, hh, he, h7⟩ ⟨hs, hr, hk⟩ launch hkind ho
    have slots := State.slotsFree_of_checkRecord ho
    rw [State.slotsFree, Bool.and_eq_true] at slots
    refine ⟨t', hx, hkeep, ?_⟩
    dsimp only
    rw [show t'.frond (e.field 2 2) = s.launchFrond e i l from frond]
    exact ⟨st, number, rfl, rfl, rfl, rfl, rfl, rfl, rfl, (Option.some_get slots.1).symm.trans (congrArg some (Option.get_eq_getD ..)),
      (Option.some_get slots.2).symm.trans (congrArg some (Option.get_eq_getD ..)), windows⟩
  case deadline =>
    obtain ⟨t, hx, hkeep, free_, -, packets⟩ := almanacBindDeadline_refuses hp hk hl
    exact ⟨t, hx, hkeep, free_, fun p hm hpe => (packets p hm hpe).imp (fun q ⟨hq, id, st, status, _⟩ => ⟨hq, id, st, status⟩)⟩
  case item =>
    obtain ⟨st, wid, wlay, point, g, a, p, v', m', y⟩ := s.ctx_startItem fr c k n
    refine ⟨_, exec_itemStart_last hd hr hp hk, fun _ => rfl, st, wid, wlay, hm ▸ point, g, a, p, v', m', y, ?_, ?_, fun d j hne => s.ctx_startItem_ne hne⟩
    · rw [State.frond_updFrond, if_pos rfl]
    · rw [State.frond_updFrond, if_pos rfl]
      rfl

end Sys2Proof.Machine
end

section
/-! SUPPORT. Accesses at their homes (08 R167, R173, R174, R198): what their payloads settle to, and what latches, arrivals and landings leave. -/

namespace Sys2Proof.Machine

/-! ### Lines and loads (R167) -/

/-- Addresses of the same lines have the same list of lines. -/
theorem linesOf_congr {l m : List Nat} (h : ∀ n, n ∈ l.map lineOf ↔ n ∈ m.map lineOf) : linesOf l = linesOf m :=
  (linesOf_ascend l).eq_of_mem_iff (linesOf_ascend m) (fun {n} => by rw [mem_linesOf, mem_linesOf, h])
theorem State.seenBy_congr_lines (s : State) (w : Nat) {l m : List Nat} (h : linesOf l = linesOf m) : s.seenBy w l = s.seenBy w m := by
  unfold State.seenBy
  rw [h]

theorem State.load_congr {s t : State} {pa n : Nat} (h : ∀ i < n, t.byte (pa + i) = s.byte (pa + i)) : t.load pa n = s.load pa n :=
  congrArg leNat (List.map_congr_left (fun i hi => h i (List.mem_range.1 hi)))
theorem mem_cellsAt {pa n v x : Nat} {b : Byte} : (x, b) ∈ cellsAt pa n v ↔ ∃ i < n, x = pa + i ∧ b = BitVec.ofNat 8 (v / 2 ^ (8 * i)) := by
  simp only [cellsAt, List.mem_map, List.mem_range, Prod.mk.injEq, eq_comm]
theorem cellsAt_nodup (pa n v : Nat) : ((cellsAt pa n v).map Prod.fst).Nodup := by
  rw [cellsAt, List.map_map]
  exact List.nodup_range.map (fun i j h => Nat.add_left_cancel h)
theorem State.load_store (s : State) (pa n v : Nat) : (s.store pa n v).load pa n = v % 2 ^ (8 * n) := by
  rw [← leNat_map_range, State.load, State.bytes]
  refine congrArg leNat (List.map_congr_left (fun i hi => ?_))
  exact State.byte_writeCells_of_nodup _ (cellsAt_nodup ..) (mem_cellsAt.2 ⟨i, List.mem_range.1 hi, rfl, rfl⟩)
theorem State.load_store_of_outside (s : State) {a n v pa k : Nat} (h : pa + k ≤ a ∨ a + n ≤ pa) : (s.store a n v).load pa k = s.load pa k :=
  State.load_congr (fun i hi => State.byte_store_of_outside _ _ _ _ _ (by omega))

/-- No two cells differ about a byte. -/
def Agree (l : List Host.Cell) : Prop := ∀ x b b', (x, b) ∈ l → (x, b') ∈ l → b' = b
theorem agree_of_nodup {l : List Host.Cell} (h : (l.map Prod.fst).Nodup) : Agree l :=
  fun _ _ _ hb hb' => congrArg Prod.snd (List.inj_on_of_nodup_map h hb' hb rfl)

/-! ### A payload at its home (R198) -/

/-- The cells of lines whose old and new cells are the same are joined as they are. -/
theorem foldl_append_unchanged {σ : Type} (f : Nat → List Host.Cell) (g : σ × List Host.Cell → Nat → σ × List Host.Cell) (l : List Nat) (a : σ)
    (m : List Host.Cell) : l.foldl (fun x n => if f n = f n then (x.1, x.2 ++ f n) else g x n) (a, m) = (a, m ++ l.flatMap f) := by
  induction l generalizing m with
  | nil => simp
  | cons n l ih => rw [List.foldl_cons, if_pos rfl, ih, List.flatMap_cons, List.append_assoc]
/-- A payload is settled as it was issued where it names no sources, or where they hold what they held at issue: its cells are the payload's, line by
line. -/
theorem State.settlePayload_plain {s : State} {pl : Payload} (h : pl.srcs = [] ∨ pl.srcs.map s.byte = pl.cells.map Prod.snd) :
    ∃ l, s.settlePayload pl = (s, l) ∧ ∀ c, c ∈ l ↔ c ∈ pl.cells := by
  by_cases hl : pl.srcs.length = pl.cells.length
  case neg => exact ⟨pl.cells, if_pos hl, fun _ => Iff.rfl⟩
  have held : pl.srcs.map s.byte = pl.cells.map Prod.snd := by
    refine h.elim (fun e => ?_) id
    rw [e, List.length_nil, eq_comm, List.length_eq_zero_iff] at hl
    rw [e, hl]
    rfl
  have fresh : (pl.cells.zip pl.srcs).map (fun x => (x.1.1, s.byte x.2)) = pl.cells := by
    refine List.ext_getElem (by simp [hl]) (fun i hi hi' => ?_)
    have := List.getElem_of_eq held (i := i) (by simpa [hl] using hi')
    simp only [List.getElem_map] at this
    simp [this]
  refine ⟨((pl.cells.map (fun c => lineOf c.1)).eraseDups).flatMap (fun n => pl.cells.filter (fun c => decide (lineOf c.1 = n))), ?_, fun c => ?_⟩
  · unfold State.settlePayload
    rw [if_neg (by simp [hl]), fresh]
    exact foldl_append_unchanged ..
  · simp only [List.mem_flatMap, List.mem_eraseDups, List.mem_map, List.mem_filter, decide_eq_true_eq]
    exact ⟨fun ⟨_, _, hc, _⟩ => hc, fun hc => ⟨_, ⟨c, hc, rfl⟩, hc, rfl⟩⟩

/-! ### What touches the cores alone (R200, R385) -/

/-- A state that another differs from in its cores alone, with every register as it was. -/
def State.Noted (s t : State) : Prop := (∃ c, t = { s with cores := c }) ∧ ∀ c k, SameRegs (s.ctx c k) (t.ctx c k)
theorem State.noted_refl (s : State) : s.Noted s := ⟨⟨s.cores, rfl⟩, fun _ _ => sameRegs_refl _⟩
theorem State.Noted.trans {s t u : State} (h : s.Noted t) (k : t.Noted u) : s.Noted u := by
  obtain ⟨⟨c, rfl⟩, hr⟩ := h
  obtain ⟨⟨d, rfl⟩, kr⟩ := k
  exact ⟨⟨d, rfl⟩, fun c k => sameRegs_trans (hr c k) (kr c k)⟩
theorem State.noted_updCore (s : State) (c : Nat) {f : Core → Core} (h : ∀ k, SameRegs (s.ctx c k) ((f (s.core c)).ctx k)) :
    s.Noted (s.updCore c f) := ⟨⟨_, rfl⟩, (keeps_updCore s c h).1⟩
theorem State.noted_updCtx (s : State) (c k : Nat) {f : Ctx → Ctx} (h : SameRegs (s.ctx c k) (f (s.ctx c k))) :
    s.Noted (s.updCtx c k f) := ⟨⟨_, rfl⟩, (keeps_updCtx s c k f h).1⟩
theorem State.Noted.keeps {s t : State} (h : s.Noted t) : KeepsRegsAndMemory s t := by
  obtain ⟨⟨c, rfl⟩, hr⟩ := h
  exact ⟨hr, fun _ => rfl⟩
theorem State.noted_latchCore (s : State) (c : Nat) : s.Noted (s.latchCore c) :=
  foldl_invariant (P := s.Noted) s.noted_refl (fun t k _ h => h.trans (t.noted_updCtx c k
    ⟨rfl, rfl, rfl, rfl, rfl, rfl, rfl, rfl, rfl, rfl, rfl, rfl, rfl, rfl, rfl, rfl⟩))
theorem State.noted_latchFor (s : State) (l : List Nat) : s.Noted (s.latchFor l) :=
  foldl_invariant (P := s.Noted) s.noted_refl (fun t c _ h => h.trans (t.noted_latchCore c))
theorem State.tags_latchFor (s : State) (l : List Nat) : (s.latchFor l).tags = s.tags := by
  obtain ⟨⟨c, e⟩, -⟩ := s.noted_latchFor l
  rw [e]
/-- Every context of the core has its latch set (R385). -/
theorem State.latch_latchCore (s : State) (c : Nat) {k : Nat} (hk : k < 4) : ((s.latchCore c).ctx c k).latch = true := by
  refine foldl_establishes (P := fun t : State => (t.ctx c k).latch = true) (List.mem_range.2 hk) (fun t => ?_) (fun t j _ ht => ?_)
  · rw [State.ctx_updCtx_self]
  · rw [State.ctx_updCtx]
    split
    · rfl
    · exact ht
/-- An access that is counted raises its node's count, and an arrival in a scratchpad is noted (R173, R200). -/
theorem State.noted_countApply (s : State) (a : Access) :
    ({ s with applied := SMap.put 0 s.applied (7 * a.home + a.node) (s.appliedAt a.home a.node + 1) } : State).Noted (s.countApply a) := by
  unfold State.countApply
  split
  · exact State.noted_updCore _ _ (fun k => sameRegs_refl _)
  · exact State.noted_refl _

/-! ### What a home does to memory (R173, R204) -/

/-- A state that another agrees with in what a home's write to memory leaves alone: the posted accesses, the counts and every register. -/
structure State.AtHome (s v : State) : Prop where
  posted : v.posted = s.posted
  applied : v.applied = s.applied
  regs : ∀ c k, SameRegs (s.ctx c k) (v.ctx c k)
theorem State.atHome_of_eq {s v : State} (hp : v.posted = s.posted) (ha : v.applied = s.applied) (hc : v.cores = s.cores) : s.AtHome v :=
  ⟨hp, ha, fun c k => State.ctx_of_cores_eq hc c k ▸ sameRegs_refl _⟩
theorem State.Noted.atHome {s v : State} (h : s.Noted v) : s.AtHome v := by
  obtain ⟨⟨c, rfl⟩, hr⟩ := h
  exact ⟨rfl, rfl, hr⟩
theorem State.AtHome.trans {s t v : State} (h : s.AtHome t) (k : t.AtHome v) : s.AtHome v :=
  ⟨k.posted.trans h.posted, k.applied.trans h.applied, fun c i => sameRegs_trans (h.regs c i) (k.regs c i)⟩
theorem State.atHome_writeCells (s : State) (l : List Host.Cell) : s.AtHome (s.writeCells l) := by
  rw [State.writeCells_eq]
  exact State.atHome_of_eq rfl rfl rfl
theorem State.atHome_mergeTags (s : State) (n : Nat) (l : List Nat) : s.AtHome (s.mergeTags n l) := by
  rw [State.mergeTags_eq]
  exact State.atHome_of_eq rfl rfl rfl

theorem State.atHome_clk (s : State) (c : SMap Nat) : s.AtHome { s with clk := c } := ⟨rfl, rfl, fun _ _ => sameRegs_refl _⟩
theorem State.byte_seenBy_clk (s : State) (c : SMap Nat) (w : Nat) (l : List Nat) (x : Nat) :
    (({ s with clk := c } : State).seenBy w l).byte x = (s.seenBy w l).byte x :=
  State.byte_seenBy_congr (s := s) (t := { s with clk := c }) rfl rfl rfl w l x

/-- What a home reads after a serve and a claim is what its world sees (R204). -/
theorem State.load_served (s : State) (n w pa k : Nat) (l : List Nat) : ((s.mergeTags n l).claim w l).load pa k = (s.seenBy w l).load pa k := by
  refine State.load_congr (fun i _ => ?_)
  rw [State.byte_claim, State.mergeTags_eq]
  exact s.byte_seenBy_clk ..

/-- An access is performed: its home counts it, it becomes what its response is made of, and every register stays (R173). -/
structure Performed (s t : State) (id : Nat) (a b : Access) : Prop where
  regs : ∀ c k, SameRegs (s.ctx c k) (t.ctx c k)
  counted : SMap.get 0 t.applied (7 * a.home + a.node) = SMap.get 0 s.applied (7 * a.home + a.node) + 1
  answer : t.access id = some b
/-- Counting and answering an access leaves memory, its tags and the dies as they were. -/
theorem State.AtHome.performed {s v : State} {id : Nat} {a : Access} {g : Access → Access} (h : s.AtHome v) (ha : s.access id = some a)
    (hg : ∀ x, (g x).id = x.id) : let t := (v.countApply a).updAccess id g
    Performed s t id a (g a) ∧ (∀ x, t.byte x = v.byte x) ∧ t.tags = v.tags ∧ t.dies = v.dies := by
  obtain ⟨⟨c, e⟩, regs⟩ := v.noted_countApply a
  have posted : (v.countApply a).access id = some a := by
    rw [e]
    exact (congrArg (List.find? _) h.posted).trans ha
  refine ⟨⟨fun d k => sameRegs_trans (h.regs d k) (regs d k), ?_, State.access_updAccess posted hg⟩, fun x => ?_, ?_, ?_⟩
  · show SMap.get 0 (v.countApply a).applied _ = _
    rw [e]
    exact (SMap.get_put_self ..).trans (congrArg (fun m => SMap.get 0 m (7 * a.home + a.node) + 1) h.applied)
  · show (v.countApply a).byte x = _
    rw [e]
    rfl
  · show (v.countApply a).tags = _
    rw [e]
  · show (v.countApply a).dies = _
    rw [e]

/-- Cells that land as a world's write at their home: the lines of some addresses are claimed, and those of the cells marked take the access's tag. -/
def State.landAt (s : State) (w : Nat) (l : List Nat) (cells marks : List Host.Cell) (tag : SMap Nat) : State :=
  (((s.claim w l).writeCells cells).tagLines marks tag).latchFor l
section
variable (s : State) (w : Nat) (l : List Nat) (cells marks : List Host.Cell) (tag : SMap Nat)
theorem State.atHome_landAt : s.AtHome (s.landAt w l cells marks tag) := by
  refine State.AtHome.trans ?_ (State.noted_latchFor _ l).atHome
  rw [State.writeCells_eq, State.claim_eq]
  exact State.atHome_of_eq rfl rfl rfl
theorem State.byte_landAt (x : Nat) : (s.landAt w l cells marks tag).byte x = ((s.claim w l).writeCells cells).byte x :=
  (State.noted_latchFor _ l).keeps.2 x
theorem State.byte_landAt_of_not_mem {x : Nat} (h : x ∉ cells.map Prod.fst) : (s.landAt w l cells marks tag).byte x = (s.seenBy w l).byte x := by
  rw [State.byte_landAt, State.byte_writeCells_of_not_mem, State.byte_claim]
  rintro c hc rfl
  exact h (List.mem_map_of_mem hc)
/-- The lines of the marked cells have the tag (R173). -/
theorem State.tags_landAt {c : Host.Cell} (h : c ∈ marks) : SMap.get [] (s.landAt w l cells marks tag).tags (lineOf c.1) = tag := by
  rw [State.landAt, State.tags_latchFor]
  refine foldl_establishes (P := fun m => SMap.get [] m (lineOf c.1) = tag) h (fun m => SMap.get_put_self ..) (fun m d _ hm => ?_)
  rw [SMap.get_put]
  split
  · rfl
  · exact hm
end
/-- Cells stand as a world has written them to the lines of some addresses, and every other byte as it saw it (R204). -/
def Holds (s t : State) (w : Nat) (l : List Nat) (cells : List Host.Cell) : Prop := (∀ x b, (x, b) ∈ cells → t.byte x = b) ∧
  (∀ x, x ∉ cells.map Prod.fst → t.byte x = (s.seenBy w l).byte x) ∧ SeesOwn s w l
/-- An access whose cells have landed at its home is counted and answered. A serve before it has changed clocks alone. -/
theorem landAt_performed {s u : State} {id : Nat} {a : Access} (ha : s.access id = some a) (hu : ∃ c, u = { s with clk := c }) (l : List Nat)
    {cells : List Host.Cell} (marks : List Host.Cell) (r : List Host.Cell × Word) (hn : Agree cells) :
    let t := ((u.landAt a.world l cells marks a.tag).countApply a).updAccess id (fun x => { x with done := some r })
    Performed s t id a { a with done := some r } ∧ Holds s t a.world l cells ∧ ∀ c ∈ marks, SMap.get [] t.tags (lineOf c.1) = a.tag := by
  obtain ⟨c, rfl⟩ := hu
  have home : s.AtHome (({ s with clk := c } : State).landAt a.world l cells marks a.tag) :=
    (s.atHome_clk c).trans (State.atHome_landAt ..)
  obtain ⟨performed, bytes, tags, -⟩ := home.performed ha (g := fun x => { x with done := some r }) (fun _ => rfl)
  refine ⟨performed, ⟨fun x b hm => ?_, fun x hx => ?_, seesOwn s a.world l⟩, fun y hy => ?_⟩
  · rw [bytes, State.byte_landAt]
    exact State.byte_writeCells_of_agree _ hm (fun b' => hn x b b' hm)
  · rw [bytes, State.byte_landAt_of_not_mem _ _ _ _ _ _ hx]
    exact s.byte_seenBy_clk ..
  · rw [tags]
    exact State.tags_landAt _ _ _ _ _ _ hy

/-! ### Sync words (R200) -/

theorem State.syncArrive_eq (s : State) (c pa b : Nat) : let r := syncStep (s.load pa 4) (s.load (pa + 4) 4) (s.load (pa + 8) 4) b
    ((s.store (pa + 4) 4 r.1).store (pa + 8) 4 r.2.1).Noted (s.syncArrive c (some pa) b) := by
  intro r
  unfold State.syncArrive
  dsimp only
  split
  · exact State.noted_latchCore ..
  · exact State.noted_refl _
theorem State.atHome_syncArrive (s : State) (c : Nat) (w : Option Nat) (b : Nat) : s.AtHome (s.syncArrive c w b) := by
  cases w with
  | none => exact s.noted_refl.atHome
  | some pa => exact ((s.atHome_writeCells _).trans (State.atHome_writeCells _ _)).trans (s.syncArrive_eq c pa b).atHome
/-- COUNT and GEN after an arrival; no other byte changes. -/
theorem State.syncArrive_word (s : State) (c w b : Nat) : let t := s.syncArrive c (some w) b
    let n := s.load (w + 4) 4 + b
    let full := s.load w 4 ≠ 0 ∧ s.load w 4 ≤ n
    t.load (w + 4) 4 = (if full then n - s.load w 4 else n) % 2 ^ 32 ∧ t.load (w + 8) 4 = (s.load (w + 8) 4 + if full then 1 else 0) % 2 ^ 32 ∧
      ∀ x, x < w + 4 ∨ w + 12 ≤ x → t.byte x = s.byte x := by
  intro t n full
  have bytes := (s.syncArrive_eq c w b).keeps.2
  have load (pa : Nat) : t.load pa 4 = _ := State.load_congr (fun i _ => bytes (pa + i))
  have gen : s.load (w + 8) 4 < 2 ^ 32 := by
    simpa [State.load, State.bytes] using leNat_lt (s.bytes (w + 8) 4)
  refine ⟨?_, ?_, fun x hx => ?_⟩
  · rw [load, State.load_store_of_outside _ (by omega), State.load_store, syncStep]
    by_cases h : full
    · rw [if_pos h, if_pos h, Nat.mod_mod]
    · rw [if_neg h, if_neg h, Nat.mod_mod]
  · rw [load, State.load_store, syncStep]
    by_cases h : full
    · rw [if_pos h, if_pos h, Nat.mod_mod]
    · rw [if_neg h, if_neg h]
      rfl
  · rw [bytes, State.byte_store_of_outside _ _ _ _ _ (by omega), State.byte_store_of_outside _ _ _ _ _ (by omega)]

/-! ### Arrivals at a plane (R261) -/

/-- An arrival that a plane takes changes memory alone. -/
theorem State.saArrive_ok {s t : State} {c : Nat} {cells : List Host.Cell} (h : s.saArrive c cells = .ok t) : ∃ m, t = { s with mem := m } := by
  unfold State.saArrive at h
  dsimp only at h
  split at h
  · cases h
  split at h
  · obtain rfl := Arrival.ok.inj h
    refine foldl_invariant (P := fun t : State => ∃ m, t = { s with mem := m }) ?_ (fun t o _ ht => ?_)
    · refine foldl_invariant (P := fun t : State => ∃ m, t = { s with mem := m }) ⟨s.mem, rfl⟩ (fun t o _ ht => ?_)
      obtain ⟨m, rfl⟩ := ht
      exact ⟨_, State.writeCells_eq ..⟩
    · obtain ⟨m, rfl⟩ := ht
      exact ⟨_, rfl⟩
  · cases h

/-! ### Tags merged by a serve (R168) -/

section
variable {s : State} {n pa i k x : Nat}
theorem State.clk_mergeTag (s : State) (n pa : Nat) : (s.mergeTag n pa).clk = (List.range 49).foldl (fun m i => SMap.put 0 m (49 * n + i)
    (Max.max (SMap.get 0 m (49 * n + i)) (SMap.get 0 (SMap.get [] s.tags (lineOf pa)) i))) s.clk := by
  unfold State.mergeTag
  dsimp only
theorem State.tags_mergeTag (s : State) (n pa : Nat) : (s.mergeTag n pa).tags = s.tags := by
  unfold State.mergeTag
  dsimp only
/-- A merge lowers no clock. -/
theorem State.le_clk_mergeTag (h : x ≤ SMap.get 0 s.clk k) : x ≤ SMap.get 0 (s.mergeTag n pa).clk k := by
  rw [State.clk_mergeTag]
  refine foldl_invariant (P := fun m => x ≤ SMap.get 0 m k) h (fun m j _ hm => ?_)
  rw [SMap.get_put]
  split
  · rename_i e
    exact e ▸ hm.trans (Nat.le_max_left ..)
  · exact hm
/-- It raises the reader's clock to the tag of the line. -/
theorem State.tag_le_clk_mergeTag (hi : i < 49) : SMap.get 0 (SMap.get [] s.tags (lineOf pa)) i ≤ SMap.get 0 (s.mergeTag n pa).clk (49 * n + i) := by
  rw [State.clk_mergeTag]
  refine foldl_establishes (P := fun m => SMap.get 0 (SMap.get [] s.tags (lineOf pa)) i ≤ SMap.get 0 m (49 * n + i)) (List.mem_range.2 hi)
    (fun m => ?_) (fun m j _ hm => ?_)
  · rw [SMap.get_put_self]
    exact Nat.le_max_right ..
  · rw [SMap.get_put]
    split
    · rename_i e
      exact e ▸ hm.trans (Nat.le_max_left ..)
    · exact hm
/-- A serve of lines raises it to the tags of them all. -/
theorem State.tag_le_clk_mergeTags {l : List Nat} (hl : pa ∈ l) (hi : i < 49) :
    SMap.get 0 (SMap.get [] s.tags (lineOf pa)) i ≤ SMap.get 0 (s.mergeTags n l).clk (49 * n + i) := by
  refine foldl_establishes (g := fun t a => t.mergeTag n a) (s := s) (P := fun t : State => t.tags = s.tags →
    SMap.get 0 (SMap.get [] s.tags (lineOf pa)) i ≤ SMap.get 0 t.clk (49 * n + i)) hl (fun t ht => ?_) (fun t b _ h ht => ?_) ?_
  · show _ ≤ SMap.get 0 (t.mergeTag n pa).clk _
    rw [← (t.tags_mergeTag n pa).symm.trans ht]
    exact State.tag_le_clk_mergeTag hi
  · show _ ≤ SMap.get 0 (t.mergeTag n b).clk _
    exact State.le_clk_mergeTag (h ((t.tags_mergeTag n b).symm.trans ht))
  · show (s.mergeTags n l).tags = s.tags
    rw [State.mergeTags_eq]
end

/-! ### Tables of a world (R134, R205) -/

theorem Window.mapsFrame_iff (w : Window) (frame : Nat) : w.mapsFrame frame = true ↔
    w.v = true ∧ w.pbase ≤ frame ∧ frame + 0x200000 ≤ w.pbase + 0x200000 * (w.size + 1) := by
  rw [Window.mapsFrame, Bool.and_eq_true, decide_eq_true_eq, Window.bytes, Nat.mul_comm]
  rfl
/-- The tables of a world, at its cores and its own, are changed. -/
def State.retable (s : State) (w : Nat) (f : SMap Window → SMap Window) : State :=
  ({ s with cores := s.cores.map (fun e : Nat × Core => if e.2.world = w then (e.1, { e.2 with windows := f e.2.windows }) else e) } : State).updWorld w
    (fun x => { x with windows := f x.windows })
theorem State.core_retable (s : State) (w d : Nat) {f : SMap Window → SMap Window} (hf : f [] = []) :
    (s.retable w f).core d = if (s.core d).world = w then { s.core d with windows := f (s.core d).windows } else s.core d := by
  have each : (fun e : Nat × Core => if e.2.world = w then (e.1, { e.2 with windows := f e.2.windows }) else e) =
      fun e => (e.1, if e.2.world = w then { e.2 with windows := f e.2.windows } else e.2) := by
    funext e
    split <;> rfl
  have listed := SMap.get_map (d := ({} : Core)) s.cores (fun x : Core => if x.world = w then { x with windows := f x.windows } else x)
    (by dsimp only; rw [hf, ite_self]) d
  exact (congrArg (fun g => SMap.get ({} : Core) (s.cores.map g) d) each).trans listed
theorem State.retable_keeps (s : State) (w : Nat) {f : SMap Window → SMap Window} (hf : f [] = []) : KeepsRegsAndMemory s (s.retable w f) := by
  refine ⟨fun d k => ?_, fun _ => rfl⟩
  show SameRegs ((s.core d).ctx k) (((s.retable w f).core d).ctx k)
  rw [State.core_retable s w d hf]
  split <;> exact sameRegs_refl _
theorem State.windows_retable {s : State} {w d : Nat} {f : SMap Window → SMap Window} (hf : f [] = []) (h : (s.core d).world = w) :
    ((s.retable w f).core d).windows = f (s.core d).windows := by
  rw [State.core_retable s w d hf, if_pos h]
/-- The table of a core does not change with its contexts. -/
theorem State.windows_updCtx (s : State) (c k d : Nat) (f : Ctx → Ctx) : ((s.updCtx c k f).core d).windows = (s.core d).windows := by
  rw [State.updCtx, State.core_updCore]
  split
  · rename_i h
    rw [h]
    rfl
  · rfl

end Sys2Proof.Machine
end

section
/-! SUPPORT. Writes, reads, atomics and pushes at their homes (08 R173, R174, R200; 12 R261), each by what it stores and answers. -/

namespace Sys2Proof.Machine

section
variable {s : State} {id : Nat} {a : Access} (ha : s.access id = some a) (hd : a.done = none)
include ha hd

/-! ### Writes and reads (R173) -/

/-- A write stores its cells, line by line, on the lines as its world sees them, and the lines take its tag. -/
theorem untimedApply_writes {pl : Payload} (hr : s.refusal a = none) (hw : a.act = .write pl) (hc : s.canApply a = true)
    (hn : (pl.cells.map Prod.fst).Nodup) (hp : pl.srcs = [] ∨ pl.srcs.map s.byte = pl.cells.map Prod.snd) :
    ∃ t, exec (.untimedApply id) s = .next t ∧ Performed s t id a { a with done := some ([], 0) } ∧
      Holds s t a.world (pl.cells.map Prod.fst) pl.cells ∧ ∀ c ∈ pl.cells, SMap.get [] t.tags (lineOf c.1) = a.tag := by
  obtain ⟨l, hl, hm⟩ := State.settlePayload_plain hp
  have hx : exec (.untimedApply id) s = .next (((s.landAt a.world (l.map Prod.fst) l l a.tag).countApply a).updAccess id
      (fun x => { x with done := some ([], 0) })) := by
    show execUntimedApply id s = _
    simp only [execUntimedApply, ha, hd, hc, hw, hr, hl, Option.isSome_none, Bool.not_true, Bool.or_self, Bool.false_eq_true, if_false]
    rfl
  have agree : Agree l := fun x b b' h h' => agree_of_nodup hn x b b' ((hm _).1 h) ((hm _).1 h')
  have named (x : Nat) : x ∈ l.map Prod.fst ↔ x ∈ pl.cells.map Prod.fst := by simp only [List.mem_map, hm]
  have lines : linesOf (l.map Prod.fst) = linesOf (pl.cells.map Prod.fst) :=
    linesOf_congr (fun n => by simp only [List.mem_map (f := lineOf), named])
  obtain ⟨performed, ⟨stored, others, -⟩, tags⟩ := landAt_performed (u := s) ha ⟨s.clk, rfl⟩ (l.map Prod.fst) l ([], 0) agree
  refine ⟨_, hx, performed, ⟨fun x b h => stored x b ((hm _).2 h), fun x h => ?_, seesOwn s _ _⟩, fun c h => tags c ((hm c).2 h)⟩
  rw [← s.seenBy_congr_lines a.world lines]
  exact others x (fun h' => h ((named x).1 h'))

/-- A read takes its bytes as its world sees them, and its node's clock takes the tags of their lines. -/
theorem untimedServe_reads {moves : List Move} (he : a.err = false) (hf : s.faulty = []) (hr : s.refusal a = none) (hw : a.act = .read moves)
    (hc : s.canServe a = true) : ∃ t, exec (.untimedServe id) s = .next t ∧ KeepsRegsAndMemory s t ∧
      t.access id = some { a with done := some (moves.map (fun m => (m.dst, (s.seenBy a.world (moves.map Move.src)).byte m.src)), 0) } ∧
      ∀ m ∈ moves, ∀ i < 49, SMap.get 0 (SMap.get [] s.tags (lineOf m.src)) i ≤ SMap.get 0 t.clk (49 * a.node + i) := by
  have hx : exec (.untimedServe id) s = .next ((s.mergeTags a.node (moves.map Move.src)).updAccess id (fun x =>
      { x with done := some (moves.map (fun m => (m.dst, (s.seenBy a.world (moves.map Move.src)).byte m.src)), 0) })) := by
    show execUntimedServe id s = _
    simp only [execUntimedServe, ha, hd, he, hc, hw, hr, State.badRead_of_sound hf, Option.isSome_none, Bool.not_true, Bool.or_self,
      Bool.false_eq_true, if_false]
  have merged := s.mergeTags_eq a.node (moves.map Move.src)
  refine ⟨_, hx, keeps_of_eq ?_ ?_, ?_, fun m hm i hi => State.tag_le_clk_mergeTags (List.mem_map_of_mem hm) hi⟩
  · show (s.mergeTags a.node (moves.map Move.src)).cores = s.cores
    rw [merged]
  · show (s.mergeTags a.node (moves.map Move.src)).mem = s.mem
    rw [merged]
  · refine State.access_updAccess (x := a) ?_ (fun _ => rfl)
    rw [merged]
    exact ha

/-! ### Atomics (R174, R202) -/

section
variable {pa : Nat} (hf : s.faulty = []) (hr : s.refusal a = none) (hc : s.canApply a = true) (hs : s.canServe a = true)
include hf hr hc hs
/-- An atomic answers the old value and stores the new one. -/
theorem untimedAtomic_stores {n : Nat} {aop : Aop} {v cmp : Word} (hw : a.act = .atomic pa n aop v cmp) :
    let old := (s.seenBy a.world [pa]).load pa n
    ∃ t, exec (.untimedAtomic id) s = .next t ∧ Performed s t id a { a with done := some ([], BitVec.ofNat 64 old) } ∧
      Holds s t a.world [pa] (cellsAt pa n (atomNew aop (8 * n) old (v.toNat % 2 ^ (8 * n)) (cmp.toNat % 2 ^ (8 * n)))) := by
  intro old
  have hx : exec (.untimedAtomic id) s = .next ((((s.mergeTags a.node [pa]).landAt a.world [pa]
      (cellsAt pa n (atomNew aop (8 * n) old (v.toNat % 2 ^ (8 * n)) (cmp.toNat % 2 ^ (8 * n)))) [(pa, 0)] a.tag).countApply a).updAccess id
        (fun x => { x with done := some ([], BitVec.ofNat 64 old) })) := by
    show execUntimedAtomic id s = _
    simp only [execUntimedAtomic, ha, hd, hc, hs, hw, hr, State.badRead_of_sound hf, Option.isSome_none, Bool.not_true, Bool.or_self,
      Bool.false_eq_true, if_false, Act.touches, State.atomicAt, State.load_served]
    rfl
  obtain ⟨performed, held, -⟩ := landAt_performed ha ⟨_, s.mergeTags_eq a.node [pa]⟩ [pa] [(pa, 0)] ([], BitVec.ofNat 64 old)
    (agree_of_nodup (cellsAt_nodup pa n _))
  exact ⟨_, hx, performed, held⟩
/-- A signal's decrement answers the old value and stores what is left of it. -/
theorem untimedAtomic_decrements {k : Word} (hw : a.act = .dec pa k) : let old := BitVec.ofNat 64 ((s.seenBy a.world [pa]).load pa 8)
    ∃ t, exec (.untimedAtomic id) s = .next t ∧ Performed s t id a { a with done := some ([], old) } ∧
      Holds s t a.world [pa] (cellsAt pa 8 (old - k).toNat) := by
  intro old
  have hx : exec (.untimedAtomic id) s = .next ((((s.mergeTags a.node [pa]).landAt a.world [pa] (cellsAt pa 8 (old - k).toNat) [(pa, 0)]
      a.tag).countApply a).updAccess id (fun x => { x with done := some ([], old) })) := by
    show execUntimedAtomic id s = _
    simp only [execUntimedAtomic, ha, hd, hc, hs, hw, hr, State.badRead_of_sound hf, Option.isSome_none, Bool.not_true, Bool.or_self,
      Bool.false_eq_true, if_false, Act.touches, State.atomicAt, State.load_served]
    rfl
  obtain ⟨performed, held, -⟩ := landAt_performed ha ⟨_, s.mergeTags_eq a.node [pa]⟩ [pa] [(pa, 0)] ([], old)
    (agree_of_nodup (cellsAt_nodup pa 8 _))
  exact ⟨_, hx, performed, held⟩
end

/-! ### Pushes (R167, R200, R261) -/

/-- A push stores its cells and updates its sync word. -/
theorem pushArrival_stores {w b : Nat} {pl : Payload} (hr : s.refusal a = none) (hw : a.act = .push none (some w) b pl) (hc : s.canApply a = true)
    (hn : (pl.cells.map Prod.fst).Nodup) (hp : pl.srcs = [] ∨ pl.srcs.map s.byte = pl.cells.map Prod.snd)
    (hout : ∀ x b, (x, b) ∈ pl.cells → x + 1 ≤ w ∨ w + 16 ≤ x) :
    let n := s.load (w + 4) 4 + b
    let full := s.load w 4 ≠ 0 ∧ s.load w 4 ≤ n
    ∃ t, exec (.pushArrival id) s = .next t ∧ Performed s t id a { a with done := some ([], 0) } ∧ (∀ x b, (x, b) ∈ pl.cells → t.byte x = b) ∧
      t.load w 4 = s.load w 4 ∧ t.load (w + 4) 4 = (if full then n - s.load w 4 else n) % 2 ^ 32 ∧
      t.load (w + 8) 4 = (s.load (w + 8) 4 + if full then 1 else 0) % 2 ^ 32 ∧
      ∀ x, x ∉ pl.cells.map Prod.fst → x < w + 4 ∨ w + 12 ≤ x → t.byte x = s.byte x := by
  obtain ⟨l, hl, hm⟩ := State.settlePayload_plain hp
  set u := (((s.writeCells l).tagLines l a.tag).latchFor (l.map Prod.fst)) with hu
  have hx : exec (.pushArrival id) s = .next (((u.syncArrive (pushCore (some w) pl) (some w) b).countApply a).updAccess id
      (fun x => { x with done := some ([], 0) })) := by
    show execPushArrival id s = _
    simp only [execPushArrival, ha, hd, hw, hr, hl, State.ready, Act.writes, Act.serves, hc, Bool.not_true, Bool.not_false,
      Bool.or_true, Bool.and_true, Bool.true_or, Bool.or_self, Bool.false_eq_true, if_false, Option.isSome]
    rfl
  have ucells (x : Nat) : u.byte x = (s.writeCells l).byte x := (State.noted_latchFor _ _).keeps.2 x
  have uothers {x : Nat} (h : x ∉ pl.cells.map Prod.fst) : u.byte x = s.byte x := by
    rw [ucells, State.byte_writeCells_of_not_mem]
    rintro c hc rfl
    exact h (List.mem_map_of_mem ((hm c).1 hc))
  have word {x : Nat} (h : w ≤ x ∧ x < w + 16) : u.byte x = s.byte x := uothers (fun hx => by
    obtain ⟨⟨y, v⟩, hc, rfl⟩ := List.mem_map.1 hx
    have := hout y v hc
    dsimp only at h
    omega)
  have load {d : Nat} (hd : d + 4 ≤ 16) : u.load (w + d) 4 = s.load (w + d) 4 := State.load_congr (fun i _ => word (by omega))
  have home : s.AtHome (u.syncArrive (pushCore (some w) pl) (some w) b) :=
    (((s.atHome_writeCells l).trans (State.atHome_of_eq (s := s.writeCells l) (v := (s.writeCells l).tagLines l a.tag) rfl rfl rfl)).trans
      (State.noted_latchFor _ _).atHome).trans (u.atHome_syncArrive ..)
  obtain ⟨performed, bytes, -, -⟩ := home.performed ha (g := fun x => { x with done := some ([], 0) }) (fun _ => rfl)
  obtain ⟨count, gen, outside⟩ := u.syncArrive_word (pushCore (some w) pl) w b
  rw [load (by omega), show u.load w 4 = s.load w 4 from load (d := 0) (by omega)] at count gen
  rw [load (by omega)] at gen
  have loads (pa : Nat) := State.load_congr (pa := pa) (n := 4) (fun i _ => bytes (pa + i))
  refine ⟨_, hx, performed, fun x v hv => ?_, ?_, (loads _).trans count, (loads _).trans gen, fun x hx hw => ?_⟩
  · have := hout x v hv
    rw [bytes, outside x (by omega), ucells]
    exact State.byte_writeCells_of_agree _ ((hm _).2 hv) (fun b' hb => agree_of_nodup hn x v b' hv ((hm _).1 hb))
  · exact State.load_congr (fun i hi => by rw [bytes, outside _ (by omega), word (by omega)])
  · rw [bytes, outside x hw, uothers hx]

/-- An `sa` combine-add that its plane takes is counted and answered; without a sync word, memory is as the plane left it. -/
theorem saPlaneArrival_adds {w : Option Nat} {b : Nat} {pl : Payload} {u : State} (hr : s.refusal a = none)
    (hw : a.act = .push (some .sa) w b pl) (hc : s.canApply a = true) (hs : s.canServe a = true) (hp : pl.srcs = []) (hn : pl.cells ≠ [])
    (hu : (s.mergeTags a.node (lineStarts (pl.cells.map Prod.fst))).saArrive (pushCore w pl) pl.cells = .ok u) :
    ∃ t, exec (.saPlaneArrival id) s = .next t ∧ Performed s t id a { a with done := some ([], 0) } ∧ (w = none → ∀ x, t.byte x = u.byte x) := by
  have settled (v : State) : v.settlePayload pl = (v, pl.cells) := if_pos (by simpa [hp] using fun e : 0 = pl.cells.length => hn (List.eq_nil_of_length_eq_zero e.symm))
  have hx : exec (.saPlaneArrival id) s = .next ((((u.latchCore (pushCore w pl)).syncArrive (pushCore w pl) w b).countApply a).updAccess id
      (fun x => { x with done := some ([], 0) })) := by
    show execSaPlaneArrival id s = _
    simp only [execSaPlaneArrival, ha, hd, hw, hr, settled, hu, State.ready, Act.writes, Act.serves, hc, hs, Option.isSome_none, Bool.not_true,
      Bool.or_true, Bool.and_true, Bool.or_self, Bool.false_eq_true, if_false]
  obtain ⟨m, rfl⟩ := State.saArrive_ok hu
  have home := (s.atHome_mergeTags a.node (lineStarts (pl.cells.map Prod.fst))).trans
    ((State.atHome_of_eq (s := s.mergeTags a.node (lineStarts (pl.cells.map Prod.fst)))
      (v := { s.mergeTags a.node (lineStarts (pl.cells.map Prod.fst)) with mem := m }) rfl rfl rfl).trans
      ((State.noted_latchCore _ (pushCore w pl)).atHome.trans (State.atHome_syncArrive _ (pushCore w pl) w b)))
  obtain ⟨performed, bytes, -, -⟩ := home.performed ha (g := fun x => { x with done := some ([], 0) }) (fun _ => rfl)
  refine ⟨_, hx, performed, ?_⟩
  rintro rfl x
  rw [bytes]
  exact (State.noted_latchCore ..).keeps.2 x

/-! ### The first step of a page move (R205) -/

/-- A table in which MIG of the entries that map a frame is set. -/
def markMig (frame : Nat) (l : SMap Window) : SMap Window :=
  l.map (fun w : Nat × Window => if w.2.mapsFrame frame then (w.1, { w.2 with mig := true }) else w)
/-- The translation entries of the page are marked in every table of its world. -/
theorem untimedServe_marks {va : Word} {tier : Tier} {copy frame : Nat} (he : a.err = false) (hw : a.act = .move va tier) (ho : a.owed = .mig copy)
    (hs : s.canServe a = true) (hm : s.migFrame a.core va.toNat = some frame) :
    ∃ t, exec (.untimedServe id) s = .next t ∧ KeepsRegsAndMemory s t ∧ ∀ d i, (s.core d).world = a.world → ∀ w, (i, w) ∈ (s.core d).windows →
      w.mapsFrame frame = true → (i, { w with mig := true }) ∈ (t.core d).windows := by
  set u := (s.retable a.world (markMig frame)).updAccess id (fun a => { a with done := some ([], 0) }) with hu
  obtain ⟨before, hx⟩ : ∃ before, exec (.untimedServe id) s = .next (u.updCtx a.core a.ctx (fun x =>
      { x with copies := x.copies.map (fun c : CopySt =>
        if c.id = copy then { c with mig := c.mig.map (fun m => { m with marked := true, writes := before }) } else c) })) := by
    refine ⟨(s.posted.filter (fun b => b.act.writes &&
      b.act.touches.any (fun pa => decide (frame ≤ pa ∧ pa < frame + pageBytes)))).map Access.id, ?_⟩
    show execUntimedServe id s = _
    simp only [execUntimedServe, ha, hd, he, hs, hw, ho, hm, Option.isSome_none, Bool.not_true, Bool.or_self, Bool.false_eq_true, if_false,
      Option.any_some]
    rfl
  have tables (d : Nat) : (u.core d).windows = ((s.retable a.world (markMig frame)).core d).windows := rfl
  refine ⟨_, hx, keeps_trans (keeps_trans (s.retable_keeps a.world rfl) (keeps_of_eq rfl rfl)) (keeps_updCtx u a.core a.ctx _
    ⟨rfl, rfl, rfl, rfl, rfl, rfl, rfl, rfl, rfl, rfl, rfl, rfl, rfl, rfl, rfl, rfl⟩), fun d i hd w hi hf => ?_⟩
  rw [State.windows_updCtx, tables, State.windows_retable rfl hd]
  exact List.mem_map.2 ⟨(i, w), hi, if_pos hf⟩
end

end Sys2Proof.Machine
end

section
/-! SUPPORT. What a home refuses, and what responses, chunks, fences and page moves settle at the issuer (06 R141; 08 R176; 09 R195, R205). -/

namespace Sys2Proof.Machine

/-! ### Refusals and error responses (R141) -/

/-- A write that its home refuses is counted, and its error response is due; the die of the address logs it. -/
theorem untimedApply_refuses {s : State} {id pa : Nat} {a : Access} {pl : Payload} (ha : s.access id = some a) (hd : a.done = none)
    (hr : s.refusal a = some pa) (hw : a.act = .write pl) (hc : s.canApply a = true) :
    ∃ t, exec (.untimedApply id) s = .next t ∧ KeepsRegsAndMemory s t ∧ Performed s t id a { a with act := .read [], err := true } ∧
      ((s.die (addrDie pa)).log.length < 64 → ∃ e, (t.die (addrDie pa)).log = (s.die (addrDie pa)).log ++ [e] ∧ e.kind = 9 ∧
        e.addr = BitVec.ofNat 64 pa) := by
  have hid : a.id = id := by simpa using List.find?_some ha
  set u := (s.countApply a).updAccess id (fun x => { x with act := .read [], err := true }) with hu
  have hx : exec (.untimedApply id) s = .next (u.logRefusal a pa) := by
    show execUntimedApply id s = _
    simp only [execUntimedApply, ha, hd, hc, hw, hr, Option.isSome_none, Bool.not_true, Bool.or_self, Bool.false_eq_true, if_false]
    rw [State.refuse, hw, hid]
    rfl
  obtain ⟨⟨regs, counted, answer⟩, bytes, -, dies⟩ :=
    s.noted_refl.atHome.performed ha (g := fun x => { x with act := .read [], err := true }) (fun _ => rfl)
  have same : u.die (addrDie pa) = s.die (addrDie pa) := congrArg (fun m => SMap.get ({} : Die) m (addrDie pa)) dies
  refine ⟨_, hx, keeps_trans ⟨regs, bytes⟩ (State.logFault_keeps ..), ⟨regs, counted, answer⟩, fun hlog => ?_⟩
  rw [State.logRefusal, State.log_logFault _ (by rwa [same]), same]
  exact ⟨_, rfl, rfl, rfl⟩

/-- A held record joins a context that is still owed it (R284), and nothing else changes. -/
theorem State.holdRemote_keeps (s : State) (c k f : Nat) (va : Word) : KeepsRegsAndMemory s (s.holdRemote c k f va) := by
  refine keeps_updCtx s c k _ ?_
  split
  · exact sameRegs_refl _
  · split <;> exact ⟨rfl, rfl, rfl, rfl, rfl, rfl, rfl, rfl, rfl, rfl, rfl, rfl, rfl, rfl, rfl, rfl⟩
theorem State.remote_holdRemote {s : State} {c k f : Nat} (va : Word) (hk : s.keeps f c k = true) (hr : (s.ctx c k).remote = none) :
    ((s.holdRemote c k f va).ctx c k).remote = some { count := 0, xval := va } := by
  rw [State.holdRemote, State.ctx_updCtx_self]
  simp [hk, hr]
theorem State.access_dropAccess (s : State) (id : Nat) : (s.dropAccess id).access id = none :=
  List.find?_eq_none.2 (fun x hx => by simpa using (List.mem_filter.1 hx).2)
/-- The error response of a store leaves a held remote-write record. -/
theorem errorResponseArrival_holds {s : State} {id : Nat} {a : Access} {va : Word} (ha : s.access id = some a) (he : a.err = true)
    (hw : a.act = .read []) (ho : a.owed = .store va) (hc : a.core < 512) (hk : s.keeps a.frond a.core a.ctx = true)
    (hr : (s.ctx a.core a.ctx).remote = none) : ∃ t, exec (.errorResponseArrival id) s = .next t ∧ KeepsRegsAndMemory s t ∧ t.access id = none ∧
      (t.ctx a.core a.ctx).remote = some { count := 0, xval := va } := by
  set u := (s.dropAccess id).holdRemote a.core a.ctx a.frond va with hu
  have hx : exec (.errorResponseArrival id) s = .next (u.updCtx a.core a.ctx (fun x =>
      { x with fences := x.fences.map (fun f : FenceSt => if f.set.contains id then { f with set := [], err := true } else f) })) := by
    show execErrorResponseArrival id s = _
    simp only [execErrorResponseArrival, ha, he, hw, ho, hc, Act.writes, State.settleFailure, Bool.not_true, Bool.or_self, Bool.false_eq_true,
      if_false, if_true]
    rfl
  refine ⟨_, hx, keeps_trans (keeps_trans (t := s.dropAccess id) (keeps_of_eq rfl rfl) (State.holdRemote_keeps ..)) (keeps_updCtx u a.core a.ctx _
    ⟨rfl, rfl, rfl, rfl, rfl, rfl, rfl, rfl, rfl, rfl, rfl, rfl, rfl, rfl, rfl, rfl⟩), s.access_dropAccess id, ?_⟩
  rw [State.ctx_updCtx_self]
  exact State.remote_holdRemote (s := s.dropAccess id) va hk hr

/-! ### Completion bits (R195, R385) -/

theorem twoPow_eq_ofNat (w i : Nat) : BitVec.twoPow w i = BitVec.ofNat w (2 ^ i) :=
  BitVec.eq_of_toNat_eq (by rw [BitVec.toNat_twoPow, BitVec.toNat_ofNat])
/-- The last response of a chunk of a store sets its completion bit and the latches of the core. -/
theorem untimedChunkComplete_sets {s : State} {core ctx copy chunk : Nat} {cp : CopySt} {ch : Chunk}
    (hcp : (s.ctx core ctx).copies.find? (fun x => decide (x.id = copy)) = some cp) (hch : (s.ctx core ctx).chunk copy chunk = some ch)
    (hw : ch.waiting = 0) (hf : ch.failed = false) (hs : cp.store = true) :
    let bit := bufAddr core .xb (cp.cbm + chunk / 8)
    ∃ t, exec (.untimedChunkComplete core ctx copy chunk) s = .next t ∧ (∀ c k, SameRegs (s.ctx c k) (t.ctx c k)) ∧
      t.byte bit = s.byte bit ||| BitVec.ofNat 8 (2 ^ (chunk % 8)) ∧ (∀ x, x ≠ bit → t.byte x = s.byte x) ∧
      ∀ k < 4, (t.ctx core k).latch = true := by
  intro bit
  set u := s.setByte bit (s.byte bit ||| BitVec.twoPow 8 (chunk % 8)) with hu
  obtain ⟨f, hf, hx⟩ : ∃ f : Ctx → Ctx, (∀ x, ∃ l, f x = { x with copies := l }) ∧
      exec (.untimedChunkComplete core ctx copy chunk) s = .next ((u.latchCore core).updCtx core ctx f) := by
    refine ⟨fun x => { x with copies := (x.copies.map (fun c : CopySt =>
      if c.id = copy then { c with chunks := c.chunks.filter (fun h => decide (h.i ≠ chunk)) } else c)).filter (fun c => !c.chunks.isEmpty) },
      fun x => ⟨_, rfl⟩, ?_⟩
    show Host.Outcome.next (s.completeChunk core ctx copy chunk) = _
    simp only [State.completeChunk, hcp, hch, hw, hf, hs, ne_eq, not_true_eq_false, if_false, Bool.true_or, if_true, Bool.false_and,
      Bool.false_eq_true]
    rfl
  have regs (x : Ctx) : SameRegs x (f x) := by
    obtain ⟨l, hl⟩ := hf x
    rw [hl]
    exact ⟨rfl, rfl, rfl, rfl, rfl, rfl, rfl, rfl, rfl, rfl, rfl, rfl, rfl, rfl, rfl, rfl⟩
  have noted : u.Noted ((u.latchCore core).updCtx core ctx f) := (u.noted_latchCore core).trans (State.noted_updCtx _ core ctx (regs _))
  have bytes (x : Nat) : ((u.latchCore core).updCtx core ctx f).byte x = if x = bit then s.byte bit ||| BitVec.twoPow 8 (chunk % 8) else s.byte x :=
    (noted.keeps.2 x).trans (State.byte_setByte ..)
  refine ⟨_, hx, noted.2, ?_, fun x hx => ?_, fun k hk => ?_⟩
  · rw [bytes, if_pos rfl, twoPow_eq_ofNat]
  · rw [bytes, if_neg hx]
  · have latched := u.latch_latchCore core hk
    rw [State.ctx_updCtx]
    split
    · rename_i e
      obtain ⟨l, hl⟩ := hf ((u.latchCore core).ctx core ctx)
      rw [hl]
      exact e.2 ▸ latched
    · exact latched

/-! ### Fences (R176) -/

/-- What a context holds once a fence of it has completed: an event that the fence alone held is released in the next cycle, and one that a failed fence
held and that writes is dropped (R176, R178). -/
def FenceSt.frees (f : FenceSt) (now : Nat) (h : HeldEv) : HeldEv :=
  if h.fences.contains f.id then
    let rest := h.fences.filter (fun n => decide (n ≠ f.id))
    if f.err && h.ev.drops then { h with fences := [], dropped := true, rel := some (now + 1) }
    else { h with fences := rest, rel := if rest.isEmpty then some (now + 1) else none }
  else h
def FenceSt.leaves (f : FenceSt) (now : Nat) (x : Ctx) : Ctx :=
  { x with fences := x.fences.filter (fun y => decide (y.id ≠ f.id)), heldev := x.heldev.map (f.frees now) }
theorem exec_fenceComplete_ready {s : State} {core ctx : Nat} {f : FenceSt} (h : s.fenceReady core ctx = some f) :
    exec (.fenceComplete core ctx) s = .next (s.updCtx core ctx (f.leaves s.now)) := by
  show execFenceComplete core ctx s = _
  simp only [execFenceComplete, h]
  rfl
theorem FenceSt.frees_alone {f : FenceSt} (now : Nat) {h : HeldEv} (he : f.err = false) (hf : h.fences = [f.id]) :
    f.frees now h = { h with fences := [], rel := some (now + 1) } := by simp [FenceSt.frees, he, hf]
/-- The first fence of a context completes when its set is performed, and what it alone held is released in the next cycle. -/
theorem fenceComplete_releases {s : State} {core ctx : Nat} {g : FenceSt} {r : List FenceSt} (hg : (s.ctx core ctx).fences = g :: r)
    (he : ∀ y ∈ (s.ctx core ctx).fences, y.err = false) (hp : ∀ n ∈ g.set, s.pendingReq core ctx n = false) :
    ∃ t, exec (.fenceComplete core ctx) s = .next t ∧ KeepsRegsAndMemory s t ∧
      (t.ctx core ctx).fences = (s.ctx core ctx).fences.filter (fun y => decide (y.id ≠ g.id)) ∧
      ∀ h ∈ (s.ctx core ctx).heldev, h.fences = [g.id] → ({ h with fences := [], rel := some (s.now + 1) } : HeldEv) ∈ (t.ctx core ctx).heldev := by
  have sound : g.err = false := he g (hg ▸ List.mem_cons_self ..)
  have ready : s.fenceReady core ctx = some g := by
    have none_ : (s.ctx core ctx).fences.find? FenceSt.err = none := List.find?_eq_none.2 (fun y hy => by simp [he y hy])
    have performed : g.set.all (fun n => !s.pendingReq core ctx n) = true := List.all_eq_true.2 (fun n hn => by simp [hp n hn])
    simp only [State.fenceReady, none_]
    rw [hg, List.head?_cons, Option.filter_some, if_pos performed]
  refine ⟨_, exec_fenceComplete_ready ready, keeps_updCtx s core ctx _
    ⟨rfl, rfl, rfl, rfl, rfl, rfl, rfl, rfl, rfl, rfl, rfl, rfl, rfl, rfl, rfl, rfl⟩, ?_, fun h hh hf => ?_⟩
  · rw [State.ctx_updCtx_self]
    rfl
  · rw [State.ctx_updCtx_self]
    exact List.mem_map.2 ⟨h, hh, FenceSt.frees_alone s.now sound hf⟩

/-! ### Page moves (R205) -/

theorem State.migOf_updMig {s : State} {c k copy : Nat} {m : MigSt} (f : MigSt → MigSt) (h : s.migOf c k copy = some m) :
    (s.updMig c k copy f).migOf c k copy = some (f m) := by
  have same : ((fun y : CopySt => decide (y.id = copy)) ∘ fun y : CopySt => if y.id = copy then { y with mig := y.mig.map f } else y) =
      fun y => decide (y.id = copy) := by
    funext y
    by_cases e : y.id = copy <;> simp [e]
  obtain ⟨y, hy, hm⟩ := Option.bind_eq_some_iff.1 h
  have hid : y.id = copy := by simpa using List.find?_some hy
  unfold State.migOf State.updMig
  rw [State.ctx_updCtx_self, List.find?_map, same, hy, Option.map_some, Option.bind_some, if_pos hid, hm]
  rfl
/-- Step 2 of a page move is done once the writes that were posted before the marking have gone. -/
theorem migrationWritesApplied_applies {s : State} {core ctx copy : Nat} {m : MigSt} (hm : s.migOf core ctx copy = some m) (hk : m.marked = true)
    (hw : ∀ y ∈ s.posted, y.id ∉ m.writes) : ∃ t, exec (.migrationWritesApplied core ctx copy) s = .next t ∧ KeepsRegsAndMemory s t ∧
      t.migOf core ctx copy = some { m with applied := true } := by
  have gone : m.writes.all (fun i => !(s.posted.any (fun a => decide (a.id = i) && a.act.writes && a.done.isNone))) = true := by
    refine List.all_eq_true.2 (fun i hi => ?_)
    rw [Bool.not_eq_true', List.any_eq_false]
    intro y hy
    have : y.id ≠ i := fun e => hw y hy (e ▸ hi)
    simp [this]
  refine ⟨_, ?_, ?_, State.migOf_updMig (fun m => { m with applied := true }) hm⟩
  · show execMigrationWritesApplied core ctx copy s = _
    simp only [execMigrationWritesApplied, hm, hk, gone, Bool.and_self, if_true]
  · exact keeps_updCtx s core ctx _ ⟨rfl, rfl, rfl, rfl, rfl, rfl, rfl, rfl, rfl, rfl, rfl, rfl, rfl, rfl, rfl, rfl⟩

/-- The frame of the only valid entry with a base. -/
theorem State.migFrame_of_unique {s : State} {core va i : Nat} {w : Window} (hi : (i, w) ∈ (s.core core).windows) (hv : w.v = true)
    (hb : w.vbase = va) (hu : ∀ j z, (j, z) ∈ (s.core core).windows → z.v = true → z.vbase = va → z = w) : s.migFrame core va = some w.pbase := by
  unfold State.migFrame
  cases h : ((s.core core).windows.map Prod.snd).findSome? (fun w => if w.v && decide (w.vbase = va) then some w.pbase else none) with
  | none =>
    have := List.findSome?_eq_none_iff.1 h w (List.mem_map.2 ⟨(i, w), hi, rfl⟩)
    simp [hv, hb] at this
  | some p =>
    obtain ⟨z, hz, hp⟩ := List.exists_of_findSome?_eq_some h
    obtain ⟨⟨j, z⟩, hj, rfl⟩ := List.mem_map.1 hz
    dsimp only at hp
    split at hp
    · rename_i hz
      simp only [Bool.and_eq_true, decide_eq_true_eq] at hz
      rw [← Option.some.inj hp, hu j z hj hz.1 hz.2]
    · cases hp
/-- A move for which there is no frame ends with the page where it stands and its marks taken back. -/
theorem migrationCopyDone_stays {s : State} {core ctx copy i : Nat} {m : MigSt} {w : Window} (hf : s.faulty = [])
    (hm : s.migOf core ctx copy = some m) (ha : m.applied = true) (hi : (i, w) ∈ (s.core core).windows) (hv : w.v = true)
    (hb : w.vbase = m.va.toNat) (hu : ∀ j z, (j, z) ∈ (s.core core).windows → z.v = true → z.vbase = m.va.toNat → z = w) :
    ∃ t, exec (.migrationCopyDone core ctx copy none) s = .next t ∧ KeepsRegsAndMemory s t ∧ (i, { w with mig := false }) ∈ (t.core core).windows := by
  set u := s.retable (s.core core).world (clearMig w.pbase) with hu'
  have hx : exec (.migrationCopyDone core ctx copy none) s = .next (u.updCtx core ctx (fun x => x.updChunk copy 0 (fun h =>
      { h with waiting := 0, failed := true }))) := by
    show execMigrationCopyDone core ctx copy none s = _
    simp only [execMigrationCopyDone, hm, ha, State.endMigration, State.migFrame_of_unique hi hv hb hu, State.badRead_of_sound hf,
      Bool.not_true, Bool.false_eq_true, if_false, Option.map_none, Option.filter_none]
    rfl
  have maps : w.mapsFrame w.pbase = true := (w.mapsFrame_iff _).2 ⟨hv, le_rfl, by omega⟩
  refine ⟨_, hx, keeps_trans (s.retable_keeps _ rfl) (keeps_updCtx u core ctx _
    ⟨rfl, rfl, rfl, rfl, rfl, rfl, rfl, rfl, rfl, rfl, rfl, rfl, rfl, rfl, rfl, rfl⟩), ?_⟩
  rw [State.windows_updCtx, State.windows_retable rfl rfl]
  exact List.mem_map.2 ⟨(i, w), hi, if_pos maps⟩

end Sys2Proof.Machine
end

section
/-! Settles O39: each clause of the statement by the theorem about its event. -/

namespace Sys2Proof.Machine

/-- Settles O39, by one theorem for each event at a home or at an issuer. (What is seen of a line that another world wrote last, and what stands in
the rest of it after a write, is log 12.) -/
theorem untimedAccessesPerform : Obligations.UntimedAccessesPerform := by
  unfold Obligations.UntimedAccessesPerform
  intro s id core ctx copy chunk a ha waits counted response regs seen holds plain c
  refine ⟨fun ⟨hd, he, hf⟩ hr => ⟨fun pl hw hc hp => ?write, fun moves hw hc => ?read, fun pa n aop v cmp hw hc hs _ => ?atomic, fun pa k hw hc hs => ?dec,
      fun w b pl hw hc hp hout => ?push, fun w b pl t' hw hc hs hp hn ht => ?plane, fun va tier frame hw ho hs hm => ?move⟩,
    fun pa pl ⟨hd, _, _⟩ hr hw hc => ?refused, fun va he hw ho hc hk hr => errorResponseArrival_holds ha he hw ho hc hk hr,
    fun cp ch hcp hch hw hf hs _ => untimedChunkComplete_sets hcp hch hw hf hs, fun g r hg he hp => fenceComplete_releases hg he hp,
    fun m hm hk hw => migrationWritesApplied_applies hm hk hw, fun m i w hf hm hap hi hv hb hu => migrationCopyDone_stays hf hm hap hi hv hb hu⟩
  case write =>
    obtain ⟨t, hx, ⟨regs, counted, answer⟩, held, tags⟩ := untimedApply_writes ha hd hr hw hc hp.1 hp.2
    exact ⟨t, hx, regs, counted, answer, held, fun x b h => tags (x, b) h⟩
  case read =>
    obtain ⟨t, hx, keeps, answer, clocks⟩ := untimedServe_reads ha hd he hf hr hw hc
    exact ⟨t, hx, keeps, answer, seesOwn s _ _, clocks⟩
  case atomic =>
    obtain ⟨t, hx, ⟨regs, counted, answer⟩, held⟩ := untimedAtomic_stores ha hd hf hr hc hs hw
    exact ⟨t, hx, regs, counted, answer, held⟩
  case dec =>
    obtain ⟨t, hx, ⟨regs, counted, -⟩, held⟩ := untimedAtomic_decrements ha hd hf hr hc hs hw
    exact ⟨t, hx, regs, counted, held⟩
  case push =>
    obtain ⟨t, hx, ⟨regs, counted, answer⟩, rest⟩ := pushArrival_stores ha hd hr hw hc hp.1 hp.2 hout
    exact ⟨t, hx, regs, counted, answer, rest⟩
  case plane =>
    obtain ⟨t, hx, ⟨regs, counted, answer⟩, rest⟩ := saPlaneArrival_adds ha hd hr hw hc hs hp hn ht
    exact ⟨t, hx, regs, counted, answer, rest⟩
  case move =>
    obtain ⟨t, hx, keeps, marked⟩ := untimedServe_marks ha hd he hw ho hs hm
    exact ⟨t, hx, keeps, fun d i hd w hi hv hlo hhi => marked d i hd w hi ((w.mapsFrame_iff frame).2 ⟨hv, hlo, hhi⟩)⟩
  case refused =>
    obtain ⟨t, hx, keeps, ⟨-, counted, answer⟩, logged⟩ := untimedApply_refuses ha hd hr hw hc
    exact ⟨t, hx, keeps, counted, answer, logged⟩

end Sys2Proof.Machine
end

section
/-! SUPPORT. System registers (07 R158, R165, 17 R387): the fields of the words that `qst` and `vbank` read, what a read and a write of each
register do in their slot, and what a commit makes of a write. -/

namespace Sys2Proof.Machine

/-! ### A word made of bytes (R155) -/

/-- The number whose byte j is `d j`, of n bytes. -/
def bytesSum (d : Nat → Nat) (n : Nat) : Nat := (List.range n).foldl (fun a j => a + d j * 2 ^ (8 * j)) 0
theorem bytesSum_succ (d : Nat → Nat) (n : Nat) : bytesSum d (n + 1) = bytesSum d n + d n * 2 ^ (8 * n) := by
  simp [bytesSum, List.range_succ]
theorem bytesSum_lt {d : Nat → Nat} {n : Nat} (h : ∀ j < n, d j < 256) : bytesSum d n < 2 ^ (8 * n) := by
  induction n with
  | zero => exact Nat.one_pos
  | succ n ih =>
    have low := ih (fun j hj => h j (by omega))
    have top : (d n + 1) * 2 ^ (8 * n) ≤ 256 * 2 ^ (8 * n) := Nat.mul_le_mul_right _ (h n (by omega))
    rw [bytesSum_succ, show 2 ^ (8 * (n + 1)) = 256 * 2 ^ (8 * n) by rw [Nat.mul_add, Nat.pow_add, Nat.mul_comm]]
    rw [Nat.add_mul] at top
    omega
theorem bytesSum_byte {d : Nat → Nat} {n q : Nat} (h : ∀ j < n, d j < 256) (hq : q < n) : bytesSum d n / 2 ^ (8 * q) % 256 = d q := by
  induction n with
  | zero => exact absurd hq (Nat.not_lt_zero q)
  | succ n ih =>
    have below : ∀ j < n, d j < 256 := fun j hj => h j (by omega)
    rw [bytesSum_succ]
    rcases Nat.lt_or_eq_of_le (Nat.le_of_lt_succ hq) with hlt | rfl
    · have above : d n * 2 ^ (8 * n) = 2 ^ (8 * q) * (256 * (d n * 2 ^ (8 * (n - q - 1)))) := by
        rw [show 8 * n = 8 * q + 8 + 8 * (n - q - 1) by omega, Nat.pow_add, Nat.pow_add]
        ring
      rw [above, Nat.add_mul_div_left _ _ (Nat.two_pow_pos _), Nat.add_mul_mod_self_left, ih below hlt]
    · rw [Nat.add_mul_div_right _ _ (Nat.two_pow_pos _), Nat.div_eq_of_lt (bytesSum_lt below), Nat.zero_add,
        Nat.mod_eq_of_lt (h q (Nat.lt_succ_self q))]

/-! ### The queue word and the bank word -/

theorem Ctx.qst_eq (c : Ctx) : c.qst = BitVec.ofNat 64 (bytesSum (fun j => c.count j + 16 * c.owes j) 8) := rfl
/-- Byte q of `qst` holds COUNT below OWED, where each fits its four bits (R155). -/
theorem Ctx.qst_fields {c : Ctx} (h : ∀ q < 8, c.count q < 16 ∧ c.owes q < 16) {q : Nat} (hq : q < 8) :
    c.qst.toNat / 2 ^ (8 * q) % 16 = c.count q ∧ c.qst.toNat / 2 ^ (8 * q + 4) % 16 = c.owes q := by
  have bytes : ∀ j < 8, c.count j + 16 * c.owes j < 256 := fun j hj => by
    have := h j hj
    omega
  have value : c.qst.toNat = bytesSum (fun j => c.count j + 16 * c.owes j) 8 := by
    rw [Ctx.qst_eq, BitVec.toNat_ofNat, Nat.mod_eq_of_lt (bytesSum_lt bytes)]
  have byte : c.qst.toNat / 2 ^ (8 * q) % 256 = c.count q + 16 * c.owes q := value ▸ bytesSum_byte bytes hq
  have fits := h q hq
  rw [Nat.pow_add, ← Nat.div_div_eq_div_mul]
  omega

theorem Bank.code_le_two (b : Bank) : b.code ≤ 2 := by cases b <;> decide
theorem testBit_of_div_mod {n i : Nat} {b : Bool} (h : n / 2 ^ i % 2 = b.toNat) : n.testBit i = b := by
  rw [Nat.testBit_eq_decide_div_mod_eq, h]
  cases b <;> rfl
theorem Ctx.vbank_toNat (c : Ctx) : c.vbank.toNat = 2 + c.bank1.next.code * 4 + c.bank2.next.code * 16 + c.bank3.next.code * 64
    + c.bank1.clearing.isSome.toNat * 256 + c.bank2.clearing.isSome.toNat * 512 + c.bank3.clearing.isSome.toNat * 1024 := by
  have h1 := c.bank1.next.code_le_two
  have h2 := c.bank2.next.code_le_two
  have h3 := c.bank3.next.code_le_two
  have w1 := c.bank1.clearing.isSome.toNat_le
  have w2 := c.bank2.clearing.isSome.toNat_le
  have w3 := c.bank3.clearing.isSome.toNat_le
  rw [Ctx.vbank, BitVec.toNat_ofNat, Nat.mod_eq_of_lt (by omega)]
/-- `vbank` holds the code of each bank in two bits and WAKE in bits 10:8, with bank 0 always ON (R158). -/
theorem Ctx.vbank_fields (c : Ctx) : c.vbank.toNat % 4 = 2 ∧ c.vbank.toNat / 4 % 4 = c.bank1.next.code ∧
    c.vbank.toNat / 16 % 4 = c.bank2.next.code ∧ c.vbank.toNat / 64 % 4 = c.bank3.next.code ∧
    c.vbank.toNat.testBit 8 = c.bank1.clearing.isSome ∧ c.vbank.toNat.testBit 9 = c.bank2.clearing.isSome ∧
    c.vbank.toNat.testBit 10 = c.bank3.clearing.isSome := by
  have value := c.vbank_toNat
  have h1 := c.bank1.next.code_le_two
  have h2 := c.bank2.next.code_le_two
  have h3 := c.bank3.next.code_le_two
  have w1 := c.bank1.clearing.isSome.toNat_le
  have w2 := c.bank2.clearing.isSome.toNat_le
  have w3 := c.bank3.clearing.isSome.toNat_le
  refine ⟨?_, ?_, ?_, ?_, testBit_of_div_mod ?_, testBit_of_div_mod ?_, testBit_of_div_mod ?_⟩ <;> omega
/-- The values of `vbank` that trap are those with 0b11 in a bank field (R158). -/
theorem vbankBad_iff (v : Word) : vbankBad v = true ↔ ∃ k ∈ [2, 4, 6], v.toNat / 2 ^ k % 4 = 3 := by
  have field (lo : Nat) : fld v lo 2 = 3#2 ↔ v.toNat / 2 ^ lo % 4 = 3 := by
    rw [← BitVec.toNat_inj, toNat_fld]
    rfl
  simp [vbankBad, field, or_assoc]

/-! ### Reads and writes (R387) -/

/-- The read-only registers (R165). -/
def sysReadOnly : List SysReg := [.ctxid, .coreid, .dieid, .world, .prof, .wid, .wlay, .tslc, .dtime, .gtick, .qst]
/-- What a write of a value stages, for the registers that take it as it comes; none for `vbank`, which is checked first (R158), and for the
read-only registers. -/
def sysStaging (v : Word) : SysReg → Option (Staged → Staged)
  | .ltrip => some (fun g => { g with ltrip := some v })
  | .lpass => some (fun g => { g with lpass := some v })
  | .lrot => some (fun g => { g with lrot := some (v &&& 31) })
  | .xcause => some (fun g => { g with xcause := some v })
  | .xval => some (fun g => { g with xval := some v })
  | .xtok => some (fun g => { g with xtok := some v })
  | .xcnt => some (fun g => { g with xcnt := some v })
  | .ctxid | .coreid | .dieid | .world | .prof | .wid | .wlay | .tslc | .dtime | .gtick | .qst | .vbank => none
/-- Staging a register leaves the bundle's fences and the end of the item as they were. -/
theorem sysStaging_bare {v : Word} {r : SysReg} {f : Staged → Staged} (h : sysStaging v r = some f) (g : Staged) :
    (f g).fences = g.fences ∧ (f g).halt = g.halt := by
  cases r <;> cases h <;> exact ⟨rfl, rfl⟩

/-- A bundle that has staged no fence and no end of its item leaves its context committed. -/
theorem State.ctx_finish_of_bare {s : State} (len : Nat) (hf : s.cur.staged.fences = []) (hh : s.cur.staged.halt = false) :
    (s.finish len).ctx s.curCore s.curCtx = s.cur.commit s.now len := by
  rw [State.finish_eq, hh, if_neg Bool.false_ne_true, State.ctx_bundleDone_of_noFence len hf]

section
variable {s : State} {p : BitVec 4} {g : BitVec 6} {r : SysReg}

/-- A read puts the register, as it stands at issue, in flight for gD. -/
theorem exec_rdsys_opens (h : Opens s p (countG g)) : exec (.rdsys p g r) s = .next (s.toG g 1 (s.readSys r)) :=
  runScalar_opens (fun s => s.toG g (latInt s.t16) (s.readSys r)) h

theorem exec_wrsys_eq (p : BitVec 4) (g : BitVec 6) (r : SysReg) (s : State) : exec (.wrsys p g r) s = execWrsys p g r s := rfl

variable (hf : Fires s (.wrsys p g r) p)
include hf

/-- A register that takes its value as it comes stages it. -/
theorem exec_wrsys_stages {f : Staged → Staged} (hu : sysStaging (s.cur.gr g) r = some f) : exec (.wrsys p g r) s = .next (s.stage f) := by
  rw [exec_wrsys_eq, execWrsys, runSlot_fires _ hf]
  cases r <;> cases hu <;> rfl
/-- A read-only register ignores the write (R166). -/
theorem exec_wrsys_readOnly (hr : r ∈ sysReadOnly) : exec (.wrsys p g r) s = .next s := by
  rw [exec_wrsys_eq, execWrsys, runSlot_fires _ hf]
  clear hf
  fin_cases hr <;> rfl
/-- What a write has staged is in force once its bundle has committed. -/
theorem wrsys_changes {f : Staged → Staged} {get : Ctx → Word} {x : Word} (n : Nat) (hg : s.cur.staged = {})
    (hu : sysStaging (s.cur.gr g) r = some f) (hx : get (({ s.cur with staged := f {} } : Ctx).commit s.now n) = x) :
    ∃ t, exec (.wrsys p g r) s = .next t ∧ KeepsRegsAndMemory s t ∧ get ((t.finish n).ctx s.curCore s.curCtx) = x := by
  refine ⟨s.stage f, exec_wrsys_stages hf hu, s.stage_keeps f, ?_⟩
  have cur : (s.stage f).cur = { s.cur with staged := f {} } := by rw [State.cur_stage, hg]
  obtain ⟨fences, halt⟩ := sysStaging_bare hu {}
  have context : ((s.stage f).finish n).ctx s.curCore s.curCtx = (s.stage f).cur.commit s.now n :=
    State.ctx_finish_of_bare n (by rw [cur]; exact fences) (by rw [cur]; exact halt)
  rw [context, cur, hx]
end

section
variable {s : State} {p : BitVec 4} {g : BitVec 6} (hf : Fires s (.wrsys p g .vbank) p)
include hf
/-- A write of `vbank` with a bank field of 0b11 traps with the register's number; another stages the bank states (R158). -/
theorem exec_wrsys_vbank : exec (.wrsys p g .vbank) s = if vbankBad (s.cur.gr g) then .next (s.takeTrap s.curCore s.curCtx 0x08 0x0E 0)
    else .next (s.stage (fun x => { x with vbank := some (s.cur.gr g) })) := by
  rw [exec_wrsys_eq, execWrsys, runSlot_fires _ hf]
  dsimp only
  split <;> rfl
end

end Sys2Proof.Machine
end

section
/-! Settles O30: reads by the register read, writes by what they stage, and the fields of `qst` and `vbank`. -/

namespace Sys2Proof.Machine

/-- Settles O30: every read by the register's own value, every write by what it stages and its bundle commits, and the two words made of fields by
the rules of their fields. (`xcause` reads as its low eight bits by log 83, and `vbank` shows what was last accepted by log 24.) -/
theorem systemRegisters : Obligations.SystemRegisters := by
  unfold Obligations.SystemRegisters
  intro s p g n hg c v reads writes
  have read (r : SysReg) : reads r (s.readSys r) := exec_rdsys_opens
  have write (r : SysReg) {f : Staged → Staged} {get : Ctx → Word} {x : Word} (hu : sysStaging v r = some f)
      (hx : get (({ c with staged := f {} } : Ctx).commit s.now n) = x) : writes r get x := fun hf => wrsys_changes hf n hg hu hx
  refine ⟨read .ltrip, read .lpass, read .lrot, read .ctxid, read .coreid, read .dieid, read .world, read .prof, read .wid, read .wlay, read .tslc,
    read .dtime, read .gtick, read .xcause, read .xval, read .xtok, read .xcnt,
    write .ltrip rfl rfl, write .lpass rfl rfl, write .lrot rfl rfl, write .xcause rfl rfl, write .xval rfl rfl, write .xtok rfl rfl,
    write .xcnt rfl rfl, fun r hr hf => exec_wrsys_readOnly hf hr, fun hf => ?_, fun ho hq => ⟨⟨c.qst, read .qst ho, fun q h => Ctx.qst_fields hq h⟩,
      c.vbank, read .vbank ho, c.vbank_fields⟩⟩
  rw [exec_wrsys_vbank hf]
  simp only [← vbankBad_iff]
  split
  · rfl
  · exact ⟨_, rfl, s.stage_keeps _, by rw [State.cur_stage]⟩

end Sys2Proof.Machine
end

section
/-! SUPPORT. The canonical form of memory (08 R168; log 1) as a claim about a state, an outcome and the other shapes in which the model's functions
hand a state on; how it passes through choices and folds; and the functions that write bytes. -/

namespace Sys2Proof.Machine

/-- Memory in its canonical form, under a name whose lemmas are called by the function they speak of. -/
def Canonical (m : SMap Byte) : Prop := Memory.wf m
/-- What an instruction or a step goes on to has canonical memory. -/
def CanonicalOut (o : Out) : Prop := ∀ t, o = .next t → Canonical t.mem
/-- A state that comes with an answer has canonical memory. -/
def CanonicalFst {β : Type} (x : State × β) : Prop := Canonical x.1.mem
/-- The state, where there is one, has canonical memory. -/
def CanonicalOpt (o : Option State) : Prop := ∀ t ∈ o, Canonical t.mem

/-! ### Choices, folds and answers -/

section
variable {c : Prop} [Decidable c] {α : Type} {s t : State}
theorem Canonical.ite (hs : Canonical s.mem) (ht : Canonical t.mem) : Canonical (if c then s else t).mem := by
  split
  · exact hs
  · exact ht
theorem Canonical.foldl {g : State → α → State} {l : List α} (h : Canonical s.mem) (hg : ∀ t a, Canonical t.mem → Canonical (g t a).mem) :
    Canonical (l.foldl g s).mem :=
  foldl_invariant (P := fun t : State => Canonical t.mem) h (fun t a _ => hg t a)
theorem Canonical.fst {β : Type} {x : State × β} (h : CanonicalFst x) : Canonical x.1.mem := h
theorem Canonical.of_fst {β : Type} {x : State × β} {b : β} (h : CanonicalFst x) (e : x = (s, b)) : Canonical s.mem := by
  subst e
  exact h
theorem CanonicalFst.mk {β : Type} {b : β} (h : Canonical s.mem) : CanonicalFst (s, b) := h
theorem CanonicalFst.ite {β : Type} {x y : State × β} (hx : CanonicalFst x) (hy : CanonicalFst y) : CanonicalFst (if c then x else y) := by
  split
  · exact hx
  · exact hy
theorem CanonicalFst.foldl {β : Type} {g : State × β → α → State × β} {l : List α} {x : State × β} (h : CanonicalFst x)
    (hg : ∀ x a, CanonicalFst x → CanonicalFst (g x a)) : CanonicalFst (l.foldl g x) :=
  foldl_invariant h (fun x a _ => hg x a)
theorem Canonical.elim {o : Option α} {f : α → State} (h : Canonical s.mem) (hf : ∀ a, Canonical (f a).mem) :
    Canonical (o.elim s f).mem := by
  cases o with
  | none => exact h
  | some a => exact hf a
theorem Canonical.getD {o : Option State} (ho : CanonicalOpt o) (h : Canonical s.mem) : Canonical (o.getD s).mem := by
  cases o with
  | none => exact h
  | some t => exact ho t rfl
theorem CanonicalOut.next (h : Canonical s.mem) : CanonicalOut (.next s) := fun _ e => by cases e; exact h
theorem CanonicalOut.ite {o u : Out} (ho : CanonicalOut o) (hu : CanonicalOut u) : CanonicalOut (if c then o else u) := by
  split
  · exact ho
  · exact hu
theorem CanonicalOpt.none : CanonicalOpt .none := fun _ e => by cases e
theorem CanonicalOpt.some (h : Canonical s.mem) : CanonicalOpt (.some s) := fun _ e => by cases e; exact h
theorem CanonicalOpt.ite {o u : Option State} (ho : CanonicalOpt o) (hu : CanonicalOpt u) : CanonicalOpt (if c then o else u) := by
  split
  · exact ho
  · exact hu
theorem CanonicalOpt.map {o : Option α} {f : α → State} (hf : ∀ a, Canonical (f a).mem) : CanonicalOpt (o.map f) := by
  cases o with
  | none => exact .none
  | some a => exact .some (hf a)
theorem CanonicalOpt.findSome? {l : List α} {f : α → Option State} (hf : ∀ a, CanonicalOpt (f a)) : CanonicalOpt (l.findSome? f) := by
  intro t e
  obtain ⟨a, _, ha⟩ := List.exists_of_findSome?_eq_some e
  exact hf a t ha
theorem Canonical.after {o : Out} (ho : CanonicalOut o) (h : Canonical s.mem) : Canonical (after o s).mem := by
  cases o with
  | next t => exact ho t rfl
  | fault r => exact h
  | refused r => exact h
theorem CanonicalOpt.after {o : Out} (ho : CanonicalOut o) (h : Canonical s.mem) : CanonicalOpt (.some (Machine.after o s)) :=
  .some (.after ho h)
theorem Canonical.stateOf {o : Out} (ho : CanonicalOut o) (h : Canonical s.mem) : Canonical (stateOf o s).mem := Canonical.after ho h
end

/-! ### The functions that write bytes -/

namespace Canonical
variable {s : State} {a n v w c : Nat} {x : Byte} {l : List Host.Cell} {k : List Nat}
theorem setByte (h : Canonical s.mem) : Canonical (s.setByte a x).mem := State.setByte_wf a x h
theorem writeCells (h : Canonical s.mem) : Canonical (s.writeCells l).mem := State.writeCells_wf l h
theorem timedWrite (h : Canonical s.mem) : Canonical (s.timedWrite l).mem := State.timedWrite_wf l h
theorem store (h : Canonical s.mem) : Canonical (s.store a n v).mem := State.store_wf a n v h
theorem zeroise (h : Canonical s.mem) : Canonical (s.zeroise a n).mem := State.zeroise_wf a n h
theorem zeroiseCore (h : Canonical s.mem) : Canonical (s.zeroiseCore c).mem := State.zeroiseCore_wf c h
theorem claim (h : Canonical s.mem) : Canonical (s.claim w k).mem := State.claim_wf w k h
theorem landAs (h : Canonical s.mem) : Canonical (s.landAs w l).mem := State.landAs_wf w l h
end Canonical

/-! ### Updates of other fields: each leaves memory alone, and stands under a name so that the kernel need not look through it -/

section
variable {s : State}
theorem Canonical.updHub {f : Hub → Hub} (h : Canonical s.mem) : Canonical (s.updHub f).mem := h
theorem Canonical.updCore {c : Nat} {f : Core → Core} (h : Canonical s.mem) : Canonical (s.updCore c f).mem := h
theorem Canonical.updCtx {c k : Nat} {f : Ctx → Ctx} (h : Canonical s.mem) : Canonical (s.updCtx c k f).mem := h
theorem Canonical.updDie {d : Nat} {f : Die → Die} (h : Canonical s.mem) : Canonical (s.updDie d f).mem := h
theorem Canonical.updEp {d e : Nat} {f : Endpoint → Endpoint} (h : Canonical s.mem) : Canonical (s.updEp d e f).mem := h
theorem Canonical.updPeer {m : Nat} {f : Peer → Peer} (h : Canonical s.mem) : Canonical (s.updPeer m f).mem := h
theorem Canonical.updDomain {f : Domain → Domain} (h : Canonical s.mem) : Canonical (s.updDomain f).mem := h
theorem Canonical.updAccess {id : Nat} {f : Access → Access} (h : Canonical s.mem) : Canonical (s.updAccess id f).mem := h
theorem Canonical.holdCopy {c k f i cbm : Nat} (h : Canonical s.mem) : Canonical (s.holdCopy c k f i cbm).mem := h
theorem Canonical.holdOverflow {c k f : Nat} {x : Word} {b : Bool} (h : Canonical s.mem) : Canonical (s.holdOverflow c k f x b).mem := h
theorem Canonical.sigServed {a : Access} {i j : Int} (h : Canonical s.mem) : Canonical (s.sigServed a i j).mem := h
theorem Canonical.fenceLayer {d : Nat} (h : Canonical s.mem) : Canonical (s.fenceLayer d).mem := h
theorem Canonical.roleFault (h : Canonical s.mem) : Canonical s.roleFault.mem := h
theorem Canonical.tell {e : Event} (h : Canonical s.mem) : Canonical (s.tell e).mem := h
theorem Canonical.endPacket {i st r : Nat} {b : Bool} (h : Canonical s.mem) : Canonical (s.endPacket i st r b).mem := h
theorem Canonical.enterFault {n : Nat} (h : Canonical s.mem) : Canonical (s.enterFault n).mem := h
theorem Canonical.failMember {m : Nat} (h : Canonical s.mem) : Canonical (s.failMember m).mem := h
theorem Canonical.sendRun {m n : Nat} {l : List Byte} {o : List Nat} (h : Canonical s.mem) : Canonical (s.sendRun m n l o).mem := h
theorem Canonical.updWorld {w : Nat} {f : World → World} (h : Canonical s.mem) : Canonical (s.updWorld w f).mem := h
theorem Canonical.updSession {n : Nat} {f : Session → Session} (h : Canonical s.mem) : Canonical (s.updSession n f).mem := h
theorem Canonical.updChannel {n : Nat} {f : Channel → Channel} (h : Canonical s.mem) : Canonical (s.updChannel n f).mem := h
theorem Canonical.answer {r : Reply} (h : Canonical s.mem) : Canonical (s.answer r).mem := h
theorem Canonical.updFrond {f : Nat} {g : Frond → Frond} (h : Canonical s.mem) : Canonical (s.updFrond f g).mem := h
theorem Canonical.zeroBlocks {l : List Nat} {why : Nat × Nat} (h : Canonical s.mem) : Canonical (s.zeroBlocks l why).mem := h
theorem Canonical.updPacket {id : Nat} {f : Packet → Packet} (h : Canonical s.mem) : Canonical (s.updPacket id f).mem := h
theorem Canonical.updConn {n : Nat} {f : Conn → Conn} (h : Canonical s.mem) : Canonical (s.updConn n f).mem := h
theorem Canonical.endSessions {f : Nat → Session → Bool} (h : Canonical s.mem) : Canonical (s.endSessions f).mem := h
theorem Canonical.sign {n : Nat} (h : Canonical s.mem) : Canonical (s.sign n).mem := h
theorem Canonical.updCkpt {f : Checkpoint → Checkpoint} (h : Canonical s.mem) : Canonical (s.updCkpt f).mem := h
end

end Sys2Proof.Machine
end

section
/-! SUPPORT. Canonical memory and the model's operations, chapter by chapter: one lemma per function that can write a byte or is too large to be seen
through. A function that only updates other fields has none: what holds of the memory it leaves alone is `h` itself. -/

namespace Sys2Proof.Machine

/-! ### Registers written and accesses posted -/

section
variable {s : State}
theorem Canonical.writeRange {w lo n : Nat} {l : List Host.Cell} (h : Canonical s.mem) : Canonical (s.writeRange w lo n l).mem :=
  .timedWrite (.zeroise h)
theorem Canonical.toG {rd : BitVec 6} {lat : Nat} {v : Word} (h : Canonical s.mem) : Canonical (s.toG rd lat v).mem := .ite h h
theorem Canonical.toP {rd : BitVec 4} {lat : Nat} {b : Bool} (h : Canonical s.mem) : Canonical (s.toP rd lat b).mem := .ite h h
theorem Canonical.originate {a : Access} (h : Canonical s.mem) : Canonical (s.originate a).mem := by
  unfold State.originate
  split
  · exact h
  · exact .ite h (.ite h h)
theorem Canonical.post {a : Access} (h : Canonical s.mem) : Canonical (s.post a).mem := .ite (.originate (.ite h h)) (.ite h h)
theorem Canonical.hop {id : Nat} (h : Canonical s.mem) : Canonical (s.hop id).mem := by
  unfold State.hop
  dsimp only
  split
  · exact .ite (.originate h) h
  · exact h
theorem Canonical.order {act : Act} {home : Nat} {owed : Owed} (h : Canonical s.mem) : Canonical (s.order act home owed).mem := .ite h (.post h)
end

/-! ### Operands, and a slot under its predicate -/

section
variable {s : State}
theorem CanonicalFst.takeSrc {x : Src} (h : Canonical s.mem) : CanonicalFst (takeSrc s x) := by
  unfold Machine.takeSrc
  split
  · exact .mk h
  · exact .ite (.mk (.ite h h)) (.ite (.mk (.ite h h)) (.mk (.ite h h)))
theorem CanonicalFst.askQueue {q n : Nat} (h : Canonical s.mem) : CanonicalFst (askQueue s q n) := .ite (.mk h) (.mk h)
theorem CanonicalOut.settleSlot {e : Eff} (h : Canonical s.mem) (he : CanonicalFst e) : CanonicalOut (settle s e) := by
  unfold settle
  split
  · exact .next he
  · exact .next h
  · exact .next he
theorem CanonicalOut.runSlot {i : Instr} {p : BitVec 4} {body : State → Eff} (h : Canonical s.mem) (hb : CanonicalFst (body s)) :
    CanonicalOut (runSlot s i p body) := by
  unfold Machine.runSlot
  split
  · exact .next h
  · split
    · exact .next h
    · exact .ite (.ite (.next h) (.settleSlot h hb)) (.next h)
theorem CanonicalOut.runScalar {p : BitVec 4} {n : Nat} {body : State → State} (h : Canonical s.mem) (hb : Canonical (body s).mem) :
    CanonicalOut (runScalar s p n body) := .ite (.ite (.next h) (.next hb)) (.next h)
end

/-! ### Fronds: abort, slip and freeze -/

section
variable {s : State} {f : Nat}
theorem Canonical.orphans (h : Canonical s.mem) : Canonical (s.orphans f).mem := .foldl h fun _ _ ht => ht
theorem Canonical.abortFrond {why : Nat × Nat} (h : Canonical s.mem) : Canonical (s.abortFrond f why).mem :=
  .ite h (.orphans (.zeroBlocks (.updFrond (.foldl h fun _ _ ht => .updCore ht))))
theorem Canonical.endSlip (h : Canonical s.mem) : Canonical (s.endSlip f).mem := by
  unfold State.endSlip
  dsimp only
  split
  · exact h
  · exact .abortFrond h
theorem Canonical.freeze (h : Canonical s.mem) : Canonical (s.freeze f).mem := .foldl h fun _ _ ht => ht
end

/-! ### The end of a bundle -/

section
variable {s : State}
theorem Canonical.addFences {l : List Scope} (h : Canonical s.mem) : Canonical (s.addFences l).mem := by
  induction l generalizing s with
  | nil => exact h
  | cons x r ih => exact ih h
theorem Canonical.endItem {c k : Nat} (h : Canonical s.mem) : Canonical (s.endItem c k).mem := by
  unfold State.endItem
  split <;> exact h
theorem Canonical.finish {len : Nat} (h : Canonical s.mem) : Canonical (s.finish len).mem := .ite (.endItem (.addFences h)) (.addFences h)
theorem CanonicalOut.execEmptyBundle {lnd qt : Bool} (h : Canonical s.mem) : CanonicalOut (execEmptyBundle lnd qt s) :=
  .ite (.next h) (.next (.finish h))
end

/-! ### Errors of memory, and the fences they raise -/

section
variable {s : State} {addr : Word} {req : Requester} {core : Nat}
theorem Canonical.contain {f code : Nat} (h : Canonical s.mem) : Canonical (s.contain f code).mem := .ite h (.abortFrond h)
theorem Canonical.fenceCore {c code : Nat} (h : Canonical s.mem) : Canonical (s.fenceCore c code).mem := .foldl h fun _ _ ht => .contain ht
theorem CanonicalOut.execScratchpadCorrectableError (h : Canonical s.mem) : CanonicalOut (execScratchpadCorrectableError core addr s) :=
  .next (.foldl h fun _ _ ht => .freeze ht)
theorem CanonicalOut.execScratchpadUncorrectableError (h : Canonical s.mem) : CanonicalOut (execScratchpadUncorrectableError core addr s) :=
  .next (.fenceCore h)
theorem CanonicalOut.execCopyParityError (h : Canonical s.mem) : CanonicalOut (execCopyParityError core addr s) := .next (.fenceCore h)
theorem Canonical.spoil {pa : Nat} (h : Canonical s.mem) : Canonical (s.spoil pa).mem := .ite h h
theorem Canonical.uncorrectable {pa : Nat} {token : Word} {world : Nat} (h : Canonical s.mem) :
    Canonical (s.uncorrectable pa req token world).mem := by
  unfold State.uncorrectable
  split
  · exact .contain h
  · exact h
theorem Canonical.failRead (h : Canonical s.mem) : Canonical (s.failRead addr req).mem := .uncorrectable (.spoil h)
theorem CanonicalOut.execNearTierUncorrectable (h : Canonical s.mem) : CanonicalOut (execNearTierUncorrectable addr req s) := .next (.failRead h)
theorem CanonicalOut.execLayerPoolUncorrectable (h : Canonical s.mem) : CanonicalOut (execLayerPoolUncorrectable addr req s) := .next (.failRead h)
theorem CanonicalOut.execFarTierUncorrectable (h : Canonical s.mem) : CanonicalOut (execFarTierUncorrectable addr req s) := .next (.failRead h)
theorem Canonical.forwardDie {d : Nat} (h : Canonical s.mem) : Canonical (s.forwardDie d).mem := by
  unfold State.forwardDie
  split
  · exact h
  · exact .ite h h
theorem Canonical.forwardLogs (h : Canonical s.mem) : Canonical s.forwardLogs.mem := .foldl h fun _ _ ht => .forwardDie ht
theorem CanonicalOut.execLostevClear {die : Nat} {value : Word} (h : Canonical s.mem) : CanonicalOut (execLostevClear die value s) :=
  .next (.ite h h)
theorem CanonicalOut.execCoreRelease {die c : Nat} (h : Canonical s.mem) : CanonicalOut (execCoreRelease die c s) := .next (.ite (.zeroiseCore h) h)
end

/-! ### Code pages and the directory -/

section
variable {s : State} {core : Nat}
theorem CanonicalOut.execDirectoryWrite {frame : Nat} {value : Word} (h : Canonical s.mem) : CanonicalOut (execDirectoryWrite core frame value s) :=
  .next (.ite h h)
theorem CanonicalOut.execInstructionStoreWrite {frame syllable : Nat} {value : Syllable} (h : Canonical s.mem) :
    CanonicalOut (execInstructionStoreWrite core frame syllable value s) := .next (.ite h h)
theorem Canonical.cptAdd {w page : Nat} {syl : List Syllable} {loaded sealed : Bool} (h : Canonical s.mem) :
    Canonical (s.cptAdd w page syl loaded sealed).mem := .ite h (.landAs h)
theorem Canonical.cptInsert {w page : Nat} {tag : BitVec 32} {syl : List Syllable} (h : Canonical s.mem) :
    Canonical (s.cptInsert w page tag syl).mem := .ite h (.cptAdd h)
theorem CanonicalOut.execFreinoEntryTrap {ctx : Nat} (h : Canonical s.mem) : CanonicalOut (execFreinoEntryTrap core ctx s) := by
  refine .ite (.next h) (.ite (.next (.abortFrond h)) ?_)
  split
  · exact .next (.abortFrond h)
  · exact .ite (.next (.abortFrond (.cptInsert h))) (.next (.foldl (.cptInsert h) fun _ _ ht => ht))
end

/-! ### Control instructions, barriers and signals -/

section
variable {s : State} {p : BitVec 4} {ga gd : BitVec 6} {r l : BitVec 5}
theorem CanonicalFst.transfer {tok : Word} {kind : Nat} (h : Canonical s.mem) : CanonicalFst (transfer s tok kind) := .ite (.mk h) (.mk h)
theorem CanonicalFst.callTo {tok : Word} (h : Canonical s.mem) : CanonicalFst (callTo s tok r gd) := .ite (.mk h) (.ite (.mk h) (.mk (.toG h)))
theorem CanonicalOut.execBr (h : Canonical s.mem) : CanonicalOut (execBr p l s) := .runSlot h (.transfer h)
theorem CanonicalOut.execLquit (h : Canonical s.mem) : CanonicalOut (execLquit p l s) := .runSlot h (.ite (.transfer h) (.ite (.mk h) (.mk h)))
theorem CanonicalOut.execCall (h : Canonical s.mem) : CanonicalOut (execCall p l r gd s) := .runSlot h (.callTo h)
theorem CanonicalOut.execBrx (h : Canonical s.mem) : CanonicalOut (execBrx p ga s) := .runSlot h (.transfer h)
theorem CanonicalOut.execCallx (h : Canonical s.mem) : CanonicalOut (execCallx p ga r gd s) := .runSlot h (.callTo h)
theorem CanonicalOut.execRet (h : Canonical s.mem) : CanonicalOut (execRet p ga s) := .runSlot h (.transfer h)
theorem CanonicalOut.execLsetup {ns : BitVec 3} {nb : BitVec 4} (h : Canonical s.mem) : CanonicalOut (execLsetup p ga ns nb s) :=
  .runSlot h (.ite (.mk h) (.ite (.mk h) (.mk h)))
theorem CanonicalOut.execLend (h : Canonical s.mem) : CanonicalOut (execLend p s) := .ite (.runSlot h (.ite (.mk h) (.mk h))) (.next h)
theorem Canonical.arrive {c k lev : Nat} (h : Canonical s.mem) : Canonical (s.arrive c k lev).mem := by
  unfold State.arrive
  split <;> exact h
theorem Canonical.announceBar {lev : BitVec 3} (h : Canonical s.mem) : Canonical (announceBar s lev).mem := .ite h (.arrive h)
theorem CanonicalOut.execBarL {lev : BitVec 3} (h : Canonical s.mem) : CanonicalOut (execBarL p lev s) :=
  .runSlot h (.ite (.mk (.abortFrond h)) (.ite (.mk (.announceBar h)) (.ite (.mk h) (.mk h))))
theorem CanonicalOut.execTkalign {off : BitVec 10} (h : Canonical s.mem) : CanonicalOut (execTkalign p off s) := .runSlot h (.mk h)
theorem CanonicalOut.execChildLaunch {gb : BitVec 6} (h : Canonical s.mem) : CanonicalOut (execChildLaunch p gd ga gb s) :=
  .runSlot h (.mk (.ite h h))
theorem CanonicalOut.execSigDec {off : BitVec 9} {k : BitVec 6} (h : Canonical s.mem) : CanonicalOut (execSigDec p ga off k s) := by
  refine .runSlot h ?_
  dsimp only
  split
  · exact .mk h
  · exact .mk (.order h)
theorem Canonical.announceSig {a : Word} {pa : Nat} {thr : Int} (h : Canonical s.mem) : Canonical (announceSig s a pa thr).mem := .order h
theorem CanonicalOut.execSigWait {off : BitVec 9} {thr : BitVec 6} (h : Canonical s.mem) : CanonicalOut (execSigWait p ga off thr s) := by
  refine .runSlot h ?_
  dsimp only
  split
  · exact .mk h
  · split
    · exact .mk (.announceSig h)
    · exact .mk h
    · exact .mk h
theorem CanonicalOut.execCwait {gm : BitVec 6} {off : BitVec 12} (h : Canonical s.mem) : CanonicalOut (execCwait p gm off s) :=
  .runSlot h (.ite (.mk h) (.mk h))
theorem CanonicalOut.execSwait {gg : BitVec 6} {off : BitVec 11} (h : Canonical s.mem) : CanonicalOut (execSwait p gg off s) :=
  .runSlot h (.ite (.mk h) (.mk h))
theorem CanonicalOut.execWfe (h : Canonical s.mem) : CanonicalOut (execWfe p s) := .runSlot h (.ite (.mk h) (.mk h))
theorem CanonicalOut.execFence {scope : Scope} (h : Canonical s.mem) : CanonicalOut (execFence p scope s) := .runSlot h (.mk h)
theorem CanonicalOut.execRdsys {sys : SysReg} (h : Canonical s.mem) : CanonicalOut (execRdsys p gd sys s) := .runScalar h (.toG h)
theorem CanonicalOut.execWrsys {sys : SysReg} (h : Canonical s.mem) : CanonicalOut (execWrsys p ga sys s) := by
  refine .runSlot h ?_
  dsimp only
  split
  case h_4 => exact .ite (.mk h) (.mk h)
  all_goals exact .mk h
theorem CanonicalOut.execSoftwareTrap {imm : BitVec 16} (h : Canonical s.mem) : CanonicalOut (execSoftwareTrap p imm s) := .runSlot h (.mk h)
theorem CanonicalOut.execHalt (h : Canonical s.mem) : CanonicalOut (execHalt p s) := .runSlot h (.mk h)
end

/-! ### Contexts saved and restored -/

section
variable {s : State} {core ctx c k : Nat}
theorem Canonical.ctxLoad {l : SMap Byte} (h : Canonical s.mem) : Canonical (s.ctxLoad c k l).mem := .writeCells (.zeroise h)
theorem CanonicalOut.execContextPreempt (h : Canonical s.mem) : CanonicalOut (execContextPreempt core ctx s) := .next (.ite h h)
theorem CanonicalOut.execContextResume (h : Canonical s.mem) : CanonicalOut (execContextResume core ctx s) := .next (.ite (.ite h h) h)
theorem CanonicalOut.execContextSave (h : Canonical s.mem) : CanonicalOut (execContextSave core ctx s) := .next (.ite h h)
theorem CanonicalOut.execContextRestore (h : Canonical s.mem) : CanonicalOut (execContextRestore core ctx s) := .next (.ite h h)
theorem Canonical.saveCtx (h : Canonical s.mem) : Canonical (s.saveCtx c k).mem := .updCtx (.writeRange h)
theorem CanonicalOut.execContextSaveDone (h : Canonical s.mem) : CanonicalOut (execContextSaveDone core ctx s) := .next (.ite (.saveCtx h) h)
theorem Canonical.loadSaved {base : Word} {st : CtxState} (h : Canonical s.mem) : Canonical (s.loadSaved c k base st).mem := by
  unfold State.loadSaved
  split
  · exact .uncorrectable h
  · exact .updCtx (.ctxLoad h)
theorem CanonicalOut.execContextRestoreDone (h : Canonical s.mem) : CanonicalOut (execContextRestoreDone core ctx s) :=
  .next (.ite (.loadSaved h) h)
theorem CanonicalFst.writeCtxctl {v : Word} (h : Canonical s.mem) : CanonicalFst (s.writeCtxctl c v) := by
  unfold State.writeCtxctl
  extract_lets act next
  have hn {o : Out} {t : State} (ho : CanonicalOut o) (ht : Canonical t.mem) : Canonical (next o t).mem := by
    cases o with
    | next u => exact ho u rfl
    | fault r => exact ht
    | refused r => exact ht
  have ha {ok : State → Nat → Bool} {f : State → Nat → State} {sh : Nat} {a : State × Bool}
      (hf : ∀ t k, Canonical t.mem → Canonical (f t k).mem) (h : CanonicalFst a) : CanonicalFst (act ok f sh a) :=
    .foldl h fun _ _ ht => .ite (.ite (.mk (hf _ _ (.fst ht))) (.mk (.fst ht))) ht
  clear_value act next
  exact ha (fun _ _ ht => hn (.execContextResume ht) ht) (ha (fun _ _ ht => hn (.execContextRestore ht) ht)
    (ha (fun _ _ ht => hn (.execContextSave ht) ht) (ha (fun _ _ ht => hn (.execContextPreempt ht) ht) (.mk h))))
theorem Canonical.windowWrite {off : Nat} {v : Word} (h : Canonical s.mem) : Canonical (s.windowWrite c k off v).mem := .updCtx (.ctxLoad h)
end

/-! ### Layout records -/

section
variable {s : State} {p yd : BitVec 4}
theorem CanonicalOut.writeY {i : Instr} {f : State → Rec × Rec} (h : Canonical s.mem) : CanonicalOut (writeY s i p yd f) := .runSlot h (.mk h)
theorem CanonicalOut.execYclr (h : Canonical s.mem) : CanonicalOut (execYclr p yd s) := .writeY h
theorem CanonicalOut.execYsetd {dim : BitVec 3} {stl : BitVec 14} {sth : BitVec 1} {bx : BitVec 8} {sz : BitVec 16} (h : Canonical s.mem) :
    CanonicalOut (execYsetd p yd dim stl sth bx sz s) := .writeY h
theorem CanonicalOut.execYseto {ga gb : BitVec 6} (h : Canonical s.mem) : CanonicalOut (execYseto p yd ga gb s) := .writeY h
theorem CanonicalOut.execYsetf {esz : BitVec 2} {ndm : BitVec 3} {hi : BitVec 8} {fill : BitVec 16} (h : Canonical s.mem) :
    CanonicalOut (execYsetf p yd esz ndm hi fill s) := .writeY h
theorem CanonicalOut.execYsetb {geo : BitVec 3} (h : Canonical s.mem) : CanonicalOut (execYsetb p yd geo s) := .writeY h
theorem CanonicalOut.execYcpy {ys : BitVec 4} (h : Canonical s.mem) : CanonicalOut (execYcpy p yd ys s) := .writeY h
end

/-! ### Rows of the stream accumulator -/

section
variable {s : State} {c : Nat}
theorem Canonical.saApply {cells : List Host.Cell} (h : Canonical s.mem) : Canonical (s.saApply c cells).mem := .timedWrite h
theorem Canonical.saRestore {cells : List Host.Cell} (h : Canonical s.mem) : Canonical (s.saRestore c cells).mem := .timedWrite h
theorem CanonicalOpt.addRows {reg row sel : Nat} {rows : List (List (BitVec 32))} (h : Canonical s.mem) :
    CanonicalOpt (s.addRows c reg row sel rows) := .ite .none (.map fun _ => .saApply h)
end

/-! ### Accesses of the untimed world -/

section
variable {s : State} {id core ctx copy c : Nat} {a : Access}
theorem Canonical.saArrive_ok {t : State} {l : List Host.Cell} (h : Canonical s.mem) (e : s.saArrive c l = .ok t) : Canonical t.mem := by
  unfold State.saArrive at e
  dsimp only at e
  split at e
  · cases e
  · split at e
    · cases e
      exact .foldl (.foldl h fun t x ht => .writeCells ht) fun t a ht => .setByte ht
    · cases e
theorem Canonical.saArrive_range {t : State} {l : List Host.Cell} (h : Canonical s.mem) (e : s.saArrive c l = .range t) : Canonical t.mem := by
  unfold State.saArrive at e
  dsimp only at e
  split at e
  · cases e
  · split at e
    · cases e
    · cases e
      exact .foldl h fun t a ht => .setByte ht
theorem Canonical.countApply (h : Canonical s.mem) : Canonical (s.countApply a).mem := by
  unfold State.countApply
  dsimp only
  split <;> exact h
theorem Canonical.mergeTag {n pa : Nat} (h : Canonical s.mem) : Canonical (s.mergeTag n pa).mem := by
  dsimp only [State.mergeTag]
  exact h
theorem Canonical.mergeTags {n : Nat} {l : List Nat} (h : Canonical s.mem) : Canonical (s.mergeTags n l).mem := .foldl h fun _ _ ht => .mergeTag ht
theorem Canonical.refuse {pa : Nat} (h : Canonical s.mem) : Canonical (s.refuse a pa).mem := .ite (.countApply h) h
theorem Canonical.latchCore (h : Canonical s.mem) : Canonical (s.latchCore c).mem := .foldl h fun _ _ ht => ht
theorem Canonical.latchFor {l : List Nat} (h : Canonical s.mem) : Canonical (s.latchFor l).mem := .foldl h fun _ _ ht => .latchCore ht
theorem CanonicalFst.settlePayload {pl : Payload} (h : Canonical s.mem) : CanonicalFst (s.settlePayload pl) :=
  .ite (.mk h) (.foldl (.mk h) fun _ _ ht => .ite (.mk (.fst ht)) (.mk (.fst ht)))
theorem Canonical.combined {f : Afmt} {cells : List Host.Cell} (h : Canonical s.mem) : Canonical (s.combined f cells).mem := by
  refine .foldl h fun _ _ ht => ?_
  split
  · exact ht
  · exact .store ht
theorem Canonical.syncArrive {w : Option Nat} {b : Nat} (h : Canonical s.mem) : Canonical (s.syncArrive c w b).mem := by
  unfold State.syncArrive
  split
  · exact h
  · exact .ite (.latchCore (.store (.store h))) (.store (.store h))
theorem Canonical.finishOp {op : Nat} (h : Canonical s.mem) : Canonical (s.finishOp op).mem := by
  unfold State.finishOp
  split
  · exact h
  · refine .ite h ?_
    dsimp only
    split
    · exact h
    · refine .ite h (.ite h ?_)
      split <;> exact h
theorem Canonical.hostPart {op i : Nat} {err : Bool} {cells : List Host.Cell} {w : Word} (h : Canonical s.mem) :
    Canonical (s.hostPart op i err cells w).mem := .finishOp h
theorem Canonical.respond (h : Canonical s.mem) : Canonical (s.respond id).mem := by
  unfold State.respond
  split
  · exact h
  · split
    · exact h
    · dsimp only
      split
      case h_5 => exact .ite h h
      case h_7 => exact .hostPart h
      all_goals exact h
theorem Canonical.settleFailure (h : Canonical s.mem) : Canonical (s.settleFailure a).mem := by
  unfold State.settleFailure
  split
  · exact h
  · exact .ite h h
  · exact .ite h h
  · exact h
  · exact h
  · exact h
  · exact .hostPart h
  · exact h
theorem CanonicalOut.execErrorResponseArrival (h : Canonical s.mem) : CanonicalOut (execErrorResponseArrival id s) := by
  unfold Machine.execErrorResponseArrival
  split
  · exact .next h
  · exact .ite (.next h) (.next (.ite (.settleFailure h) (.settleFailure h)))
theorem CanonicalOut.execUntimedApply (h : Canonical s.mem) : CanonicalOut (execUntimedApply id s) := by
  unfold Machine.execUntimedApply
  split
  · exact .next h
  · refine .ite (.next h) ?_
    split
    · exact .next (.ite (.countApply h) (.countApply h))
    · split
      · exact .next (.refuse h)
      · exact .next (.countApply (.latchFor (.writeCells (.claim (.fst (.settlePayload h))))))
    · exact .next h
theorem CanonicalOut.execUntimedServe (h : Canonical s.mem) : CanonicalOut (execUntimedServe id s) := by
  unfold Machine.execUntimedServe
  split
  · exact .next h
  · refine .ite (.next h) ?_
    split
    · split
      · exact .next (.refuse h)
      · split
        · exact .next (.uncorrectable h)
        · exact .next (.mergeTags h)
    · split
      · exact .next (.refuse h)
      · split
        · exact .next (.uncorrectable h)
        · dsimp only
          split
          · exact .next (.sigServed (.mergeTag h))
          · exact .next (.updAccess (.mergeTag h))
    · dsimp only
      split <;> exact .next h
    · exact .next h
theorem CanonicalFst.atomicAt (h : Canonical s.mem) : CanonicalFst (s.atomicAt a) := by
  unfold State.atomicAt
  split
  · exact .mk (.store h)
  · exact .mk (.store h)
  · exact .mk (.combined (.fst (.settlePayload h)))
  · exact .mk h
theorem CanonicalOut.execUntimedAtomic (h : Canonical s.mem) : CanonicalOut (execUntimedAtomic id s) := by
  unfold Machine.execUntimedAtomic
  split
  · exact .next h
  · refine .ite (.next h) ?_
    split
    case h_4 => exact .next h
    all_goals
      split
      · exact .next (.refuse h)
      · dsimp only
        split
        · exact .next (.uncorrectable (.countApply h))
        · exact .next (.countApply (.latchFor (.fst (.atomicAt (.claim (.mergeTags h))))))
theorem CanonicalOut.execPushArrival (h : Canonical s.mem) : CanonicalOut (execPushArrival id s) := by
  unfold Machine.execPushArrival
  split
  · exact .next h
  · refine .ite (.next h) ?_
    split
    · exact .next h
    · split
      · exact .next (.refuse h)
      · refine .next (.countApply (.syncArrive (.latchFor ?_)))
        split
        · exact .writeCells (.fst (.settlePayload (.ite (.mergeTags h) h)))
        · exact .combined (.fst (.settlePayload (.ite (.mergeTags h) h)))
    · exact .next h
theorem CanonicalOut.execSaPlaneArrival (h : Canonical s.mem) : CanonicalOut (execSaPlaneArrival id s) := by
  unfold Machine.execSaPlaneArrival
  split
  · exact .next h
  · refine .ite (.next h) ?_
    split
    · split
      · exact .next (.refuse h)
      · dsimp only
        split
        · exact .next (.refuse h)
        · exact .next (.countApply (.saArrive_range (.fst (.settlePayload (.mergeTags h))) ‹_›))
        · exact .next (.countApply (.syncArrive (.latchCore (.saArrive_ok (.fst (.settlePayload (.mergeTags h))) ‹_›))))
    · exact .next h
theorem Canonical.completeChunk {chunk : Nat} (h : Canonical s.mem) : Canonical (s.completeChunk core ctx copy chunk).mem := by
  unfold State.completeChunk
  dsimp only
  split
  · have hc {l : List Host.Cell} {k : List Nat} {pa : Nat} {b : Byte} :
        Canonical ((((s.timedWrite l).latchFor k).setByte pa b).latchCore core).mem :=
      .latchCore (.setByte (.latchFor (.timedWrite h)))
    exact .ite h (.updCtx (.ite (.holdCopy hc) hc))
  · exact h
theorem CanonicalOut.execUntimedChunkComplete {chunk : Nat} (h : Canonical s.mem) : CanonicalOut (execUntimedChunkComplete core ctx copy chunk s) :=
  .next (.completeChunk h)
theorem Canonical.discard (h : Canonical s.mem) : Canonical (s.discard a).mem := by
  unfold State.discard
  dsimp only
  split
  · exact .ite (.settleFailure h) (.completeChunk (.settleFailure h))
  · exact .settleFailure h
theorem CanonicalOut.execMigrationWritesApplied (h : Canonical s.mem) : CanonicalOut (execMigrationWritesApplied core ctx copy s) := by
  unfold Machine.execMigrationWritesApplied
  split
  · exact .ite (.next h) (.next h)
  · exact .next h
theorem Canonical.endMigration {frame : Option Nat} (h : Canonical s.mem) : Canonical (s.endMigration core ctx copy frame).mem := by
  unfold State.endMigration
  split
  · exact h
  · dsimp only
    split
    · refine .uncorrectable ?_
      split
      · exact h
      · exact .writeCells (.zeroise h)
    · split
      · exact h
      · exact .writeCells (.zeroise h)
theorem CanonicalOut.execMigrationCopyDone {frame : Option Word} (h : Canonical s.mem) :
    CanonicalOut (execMigrationCopyDone core ctx copy frame s) := by
  unfold Machine.execMigrationCopyDone
  split
  · exact .next h
  · exact .ite (.next h) (.next (.endMigration h))
theorem CanonicalOut.execFenceComplete (h : Canonical s.mem) : CanonicalOut (execFenceComplete core ctx s) := by
  unfold Machine.execFenceComplete
  split <;> exact .next h
end

/-! ### Links and their flits -/

section
variable {s : State} {die e id : Nat}
theorem CanonicalOut.execLskewWrite {value : Word} (h : Canonical s.mem) : CanonicalOut (execLskewWrite die e value s) := .next (.ite h h)
theorem CanonicalOut.execLinkCalibration (h : Canonical s.mem) : CanonicalOut (execLinkCalibration die e s) := .next (.ite h h)
theorem Canonical.calibrationFailed (h : Canonical s.mem) : Canonical (s.calibrationFailed die e).mem :=
  .ite h (.tell (.roleFault (.ite (.fenceLayer h) (.ite (.fenceLayer (.foldl h fun _ _ ht => .fenceLayer ht)) h))))
theorem CanonicalOut.execLinkCalibrationDone {raw marg : BitVec 8} {late : Bool} (h : Canonical s.mem) :
    CanonicalOut (execLinkCalibrationDone die e raw marg late s) := .ite (.next h) (.next (.ite h (.calibrationFailed h)))
theorem CanonicalOut.execLstatClear {value : Word} (h : Canonical s.mem) : CanonicalOut (execLstatClear die e value s) := .next (.ite h h)
theorem CanonicalOut.execTimedFlitArrival {outcome : FlitOutcome} {frond : Nat} {addr : Word} (h : Canonical s.mem) :
    CanonicalOut (execTimedFlitArrival die e outcome frond id addr s) := by
  unfold Machine.execTimedFlitArrival
  dsimp only
  split
  · exact .next h
  · exact .next h
  · exact .next (.contain h)
theorem CanonicalOut.execTimedFlitRelease (h : Canonical s.mem) : CanonicalOut (execTimedFlitRelease die id s) := .next (.ite h h)
theorem CanonicalOut.execUntimedFlitArrival {outcome : FlitOutcome} (h : Canonical s.mem) :
    CanonicalOut (execUntimedFlitArrival die e outcome id s) := by
  unfold Machine.execUntimedFlitArrival
  dsimp only
  split <;> exact .next h
theorem CanonicalOut.execUePacketReceive {port : Nat} {packet : UePacket} (h : Canonical s.mem) :
    CanonicalOut (execUePacketReceive port packet s) := by
  refine .ite (.next h) (.ite (.next h) ?_)
  split
  · exact .next (.ite h h)
  · exact .next (.ite h h)
  · exact .next h
  · exact .next h
theorem CanonicalOut.execCxlLinkDown {port : Nat} (h : Canonical s.mem) : CanonicalOut (execCxlLinkDown die port s) :=
  .ite (.next h) (.next (.foldl h fun _ _ ht => .endMigration ht))
end

/-! ### Queues, and the life of a packet -/

section
variable {s : State} {p : Packet} {w : Nat}
theorem Canonical.feRead_ok {t : State} {va n cls : Nat} {l : List Byte} (h : Canonical s.mem) (e : s.feRead w va n cls = .ok l t) :
    Canonical t.mem := by
  rw [State.feRead_ok e]
  exact h
theorem Canonical.feRead_fail {t : State} {va n cls st : Nat} (h : Canonical s.mem) (e : s.feRead w va n cls = .fail st t) : Canonical t.mem := by
  unfold State.feRead at e
  split at e
  · cases e; exact h
  · dsimp only at e
    split at e
    · cases e
    · split at e
      · cases e; exact h
      · cases e; exact h
      · split at e <;> cases e
theorem CanonicalOpt.feWrite {pa : Nat} {l : List Host.Cell} (h : Canonical s.mem) : CanonicalOpt (s.feWrite w pa l) := by
  unfold State.feWrite
  dsimp only
  split
  · rename_i hu
    have ht := CanonicalOut.execUntimedApply (s := s.hubPost w pa (.write { cells := l }) .none) (.post h) _ hu
    exact .ite (.some ht) .none
  · exact .none
theorem Canonical.queueError {q : Nat} (h : Canonical s.mem) : Canonical (s.queueError w q).mem := .ite h h
theorem CanonicalOpt.eraseKeys {x : Queue} {l : List (BitVec 512)} (h : Canonical s.mem) : CanonicalOpt (s.eraseKeys w x l) := by
  refine foldl_invariant (P := CanonicalOpt) (.some h) (fun o p _ ho => ?_)
  cases o with
  | none => exact .none
  | some t =>
    refine .ite ho ?_
    split
    · exact .feWrite (ho t rfl)
    · exact ho
theorem CanonicalOut.execPacketConsume {world queue : Nat} (h : Canonical s.mem) : CanonicalOut (execPacketConsume world queue s) := by
  refine .ite (.next h) ?_
  split
  · exact .next h
  · have hr := Canonical.feRead_fail h ‹_›
    exact .next (.queueError hr)
  · refine .ite (.next h) (.ite (.next h) (.ite (.next h) ?_))
    dsimp only
    split
    · exact .next h
    · have hr := CanonicalOpt.eraseKeys (.feRead_ok h ‹_›) _ ‹_›
      exact .next (.ite hr (.queueError hr))
theorem Canonical.takeArm (h : Canonical s.mem) : Canonical (s.takeArm p).mem := by
  unfold State.takeArm
  split
  · exact h
  · exact .ite h h
theorem CanonicalOut.execPacketStart {id : Nat} (h : Canonical s.mem) : CanonicalOut (execPacketStart id s) := by
  unfold Machine.execPacketStart
  split
  · exact .next h
  · exact .ite (.next h) (.ite (.next h) (.ite (.next (.takeArm h)) (.next h)))
theorem Canonical.retire (h : Canonical s.mem) : Canonical (s.retire p).mem := by
  unfold State.retire
  dsimp only
  split
  · exact h
  · exact .ite h (.ite h h)
theorem Canonical.stopQueue (h : Canonical s.mem) : Canonical (Packet.stopQueue p s).mem := .ite h (.queueError h)
theorem Canonical.lostWord {signal : Bool} (h : Canonical s.mem) : Canonical (s.lostWord p signal).mem := .stopQueue h
theorem Canonical.signalStep (h : Canonical s.mem) : Canonical (s.signalStep p).mem := by
  refine .ite (.retire h) ?_
  split
  · exact .retire (.lostWord h)
  · exact .post h
theorem Canonical.statusStep (h : Canonical s.mem) : Canonical (s.statusStep p).mem := by
  refine .ite (.signalStep (.ite (.stopQueue h) h)) ?_
  split
  · exact .signalStep (.lostWord (.ite (.stopQueue h) h))
  · exact .post (.ite (.stopQueue h) h)
theorem CanonicalOut.execPacketComplete {id : Nat} (h : Canonical s.mem) : CanonicalOut (execPacketComplete id s) := by
  unfold Machine.execPacketComplete
  split
  · exact .next h
  · split
    · exact .next h
    · exact .next h
    · split
      · exact .ite (.next h) (.next h)
      · exact .ite (.next h) (.next h)
      · exact .ite (.next h) (.next h)
      · split <;> exact .next h
      · split <;> exact .next h
      · exact .next h
    · exact .next (.statusStep h)
    · exact .ite (.next h) (.next (.signalStep (.ite (.lostWord h) h)))
    · exact .ite (.next h) (.next (.retire (.ite (.lostWord h) h)))
end

/-! ### The scheduler -/

section
variable {s : State} {frond entry i core : Nat}
theorem CanonicalOpt.leaseClaim {d : Nat} (h : Canonical s.mem) : CanonicalOpt (s.leaseClaim d) := .ite (.some h) .none
theorem CanonicalOut.execLeaseClaim {die : BitVec 8} (h : Canonical s.mem) : CanonicalOut (execLeaseClaim die s) := .next (.getD (.leaseClaim h) h)
theorem CanonicalOut.execLeaseRenew {die : BitVec 8} {epoch : BitVec 32} (h : Canonical s.mem) : CanonicalOut (execLeaseRenew die epoch s) :=
  .next (.ite h (.getD (.leaseClaim h) h))
theorem CanonicalOut.execBindRecordWrite {word : Nat} {value : Word} (h : Canonical s.mem) :
    CanonicalOut (execBindRecordWrite entry word value s) := .next (.ite h h)
theorem Canonical.acceptRecord {cores : List Nat} {t : SMap Window} (h : Canonical s.mem) : Canonical (s.acceptRecord i cores t).mem :=
  .ite (.foldl (.foldl h fun _ _ ht => ht) fun _ _ ht => ht) (.foldl h fun _ _ ht => ht)
theorem Canonical.refuseRecord {status aux : Nat} (h : Canonical s.mem) : Canonical (s.refuseRecord i status aux).mem := .ite h h
theorem Canonical.dispatch (h : Canonical s.mem) : Canonical (s.dispatch i).mem := by
  refine .ite h (.ite (.refuseRecord h) ?_)
  split
  · refine .refuseRecord ?_
    split <;> exact h
  · exact .ite (.refuseRecord h) (.acceptRecord h)
theorem Canonical.dispatchAll (h : Canonical s.mem) : Canonical s.dispatchAll.mem := .foldl h fun _ _ ht => .dispatch ht
theorem CanonicalOut.execCommit {value : Word} (h : Canonical s.mem) : CanonicalOut (execCommit entry value s) :=
  .ite (.next h) (.next (.dispatch h))
theorem CanonicalOut.execAlmanacBindDeadline (h : Canonical s.mem) : CanonicalOut (execAlmanacBindDeadline entry s) :=
  .next (.ite (.refuseRecord h) h)
theorem CanonicalFst.childLaunch {c k rid f : Nat} {token va wbase wcnt : Word} (h : Canonical s.mem) :
    CanonicalFst (s.childLaunch c k rid f token va wbase wcnt) := by
  refine .ite (.mk h) ?_
  split
  · exact .mk h
  · dsimp only
    split
    · exact .mk (.uncorrectable h)
    · refine .ite (.mk h) ?_
      split <;> exact .mk h
theorem Canonical.releaseEvent {c k : Nat} {e : HeldEv} (h : Canonical s.mem) : Canonical (s.releaseEvent c k e).mem := by
  unfold State.releaseEvent
  dsimp only
  split
  · exact .post h
  · exact .discard h
  · exact .arrive h
  · exact .fst (.childLaunch h)
  · exact h
theorem CanonicalOut.execFrondStart (h : Canonical s.mem) : CanonicalOut (execFrondStart frond s) := .next (.ite h h)
theorem CanonicalOut.execAlmanacStart (h : Canonical s.mem) : CanonicalOut (execAlmanacStart frond s) := .next (.ite h h)
theorem CanonicalOut.execItemStart (h : Canonical s.mem) : CanonicalOut (execItemStart frond s) := by
  refine .ite (.next h) ?_
  split
  · exact .next h
  · exact .next (.foldl h fun _ _ ht => ht)
theorem CanonicalOut.execFrondEnd (h : Canonical s.mem) : CanonicalOut (execFrondEnd frond s) := .next (.ite h (.ite h h))
theorem CanonicalOut.execAlmanacLimitExpiry (h : Canonical s.mem) : CanonicalOut (execAlmanacLimitExpiry frond s) := .next (.ite (.abortFrond h) h)
theorem CanonicalOut.execArmedStart (h : Canonical s.mem) : CanonicalOut (execArmedStart core s) := by
  unfold Machine.execArmedStart
  split <;> exact .next h
theorem CanonicalOut.execBarrierTimeout {ctx : Nat} (h : Canonical s.mem) : CanonicalOut (execBarrierTimeout core ctx s) :=
  .next (.ite (.abortFrond h) h)
theorem CanonicalOut.execWaitTimeout {ctx : Nat} (h : Canonical s.mem) : CanonicalOut (execWaitTimeout core ctx s) := .next (.ite (.abortFrond h) h)
end

/-! ### Writes of the configuration space -/

section
variable {s : State}
theorem CanonicalOpt.cfgTry {addr : Nat} {v : Word} (h : Canonical s.mem) : CanonicalOpt (s.cfgTry addr v) := by
  unfold State.cfgTry
  split
  · exact .none
  · exact .none
  · exact .none
  · exact .some (.stateOf (.execLostevClear h) h)
  · exact .some h
  · exact .some h
  · exact .ite (.some (.stateOf (.execCoreRelease h) h)) .none
  · exact .ite (.some (.fst (.writeCtxctl h))) .none
  · exact .some h
  · exact .ite (.some (.stateOf (.execLskewWrite h) h)) .none
  · exact .ite (.some (.stateOf (.execLstatClear h) h)) .none
  · exact .ite (.some (.stateOf (.execDirectoryWrite h) h)) .none
  · exact .ite (.some (.windowWrite h)) .none
  · exact .ite (.some h) .none
  · exact .ite .none (.ite (.some h) (.leaseClaim h))
  · exact .ite (.some (.stateOf (.execBindRecordWrite h) h)) .none
  · exact .ite .none (.some (.stateOf (.execCommit h) h))
  · exact .ite .none (.some h)
theorem Canonical.cfgWrite {addr : Nat} {v : Word} (h : Canonical s.mem) : Canonical (s.cfgWrite addr v).mem := by
  unfold State.cfgWrite
  split
  · exact .fst (.writeCtxctl h)
  · exact .getD (.cfgTry h) h
theorem CanonicalOut.execConfigRegisterWrite {addr : BitVec 32} {value : Word} (h : Canonical s.mem) :
    CanonicalOut (execConfigRegisterWrite addr value s) := by
  unfold Machine.execConfigRegisterWrite
  split
  · exact .next h
  · exact .next (.cfgWrite h)
end

/-! ### Command packets -/

section
variable {s : State} {id w : Nat}
theorem CanonicalOut.command {opc : Nat} {sub : Option Nat} {f : Packet → State × Nat} (h : Canonical s.mem) (hf : ∀ p, CanonicalFst (f p)) :
    CanonicalOut (s.command id opc sub f) := by
  unfold State.command
  split
  · exact .next h
  · exact .ite (.next h) (.next (.fst (hf _)))
theorem Canonical.settle {status : Nat} (h : Canonical s.mem) : Canonical (s.settle id status).mem := .ite h h
theorem CanonicalOut.atConsumption {opc : Nat} {sub : Option Nat} {f : Packet → State × Nat} (h : Canonical s.mem)
    (hf : ∀ p, CanonicalFst (f p)) : CanonicalOut (s.atConsumption id opc sub f) := by
  unfold State.atConsumption
  split
  · exact .next h
  · exact .ite (.next h) (.next (.settle (.fst (hf _))))
theorem CanonicalOut.execNop (h : Canonical s.mem) : CanonicalOut (execNop id s) := .command h fun _ => .mk h
theorem CanonicalOut.execLaunch (h : Canonical s.mem) : CanonicalOut (execLaunch id s) := by
  unfold Machine.execLaunch
  split
  · exact .next h
  · split
    · exact .next h
    · dsimp only
      split
      · exact .next h
      · have hr := Canonical.feRead_fail h ‹_›
        exact .next hr
      · have hr := Canonical.feRead_ok h ‹_›
        exact .ite (.next hr) (.next hr)
theorem CanonicalOut.execAlmanac (h : Canonical s.mem) : CanonicalOut (execAlmanac id s) := by
  unfold Machine.execAlmanac
  split
  · exact .next h
  · refine .ite (.next h) ?_
    split
    · exact .next h
    · exact .next h
    · have hr := Canonical.feRead_fail h ‹_›
      exact .next hr
    · have hr := Canonical.feRead_ok h ‹_›
      refine .ite (.next (.queueError hr)) ?_
      split
      · exact .next h
      · have hr := Canonical.feRead_fail hr ‹_›
        exact .next hr
      · have hr := Canonical.feRead_ok hr ‹_›
        exact .next hr
theorem CanonicalOut.execPred (h : Canonical s.mem) : CanonicalOut (execPred id s) := by
  unfold Machine.execPred
  split
  · exact .next h
  · split
    · exact .next h
    · have hr := Canonical.feRead_fail h ‹_›
      exact .next hr
    · have hr := Canonical.feRead_ok h ‹_›
      exact .next (.fst (.foldl (.mk hr) fun _ _ ht => .mk (.fst ht)))
theorem CanonicalOut.execSigdec (h : Canonical s.mem) : CanonicalOut (execSigdec id s) := by
  unfold Machine.execSigdec
  split
  · exact .next h
  · split
    · exact .next h
    · exact .next (.post h)
theorem Canonical.evalSigwait {p : Packet} (h : Canonical s.mem) : Canonical (s.evalSigwait p).mem := by
  unfold State.evalSigwait
  split
  · exact h
  · have hr := Canonical.feRead_fail h ‹_›
    exact hr
  · have hr := Canonical.feRead_ok h ‹_›
    exact .ite hr hr
theorem CanonicalOut.execSigwait (h : Canonical s.mem) : CanonicalOut (execSigwait id s) := by
  unfold Machine.execSigwait
  split
  · exact .next h
  · exact .next (.evalSigwait h)
theorem CanonicalOut.execSigwaitReevaluate (h : Canonical s.mem) : CanonicalOut (execSigwaitReevaluate id s) := by
  unfold Machine.execSigwaitReevaluate
  split
  · exact .next h
  · exact .next (.evalSigwait h)
theorem CanonicalOut.execSigwaitTimeout (h : Canonical s.mem) : CanonicalOut (execSigwaitTimeout id s) := by
  unfold Machine.execSigwaitTimeout
  split
  · exact .next h
  · exact .next (.ite h h)
theorem CanonicalOut.execCopy (h : Canonical s.mem) : CanonicalOut (execCopy id s) := by
  unfold Machine.execCopy
  split
  · exact .next h
  · refine .ite (.next h) ?_
    split
    · exact .next h
    · refine .ite (.next (.post h)) ?_
      dsimp only
      split
      · exact .next h
      · split
        · exact .next (.uncorrectable h)
        · split
          · exact .next h
          · have hr := Canonical.feRead_fail h ‹_›
            exact .next hr
          · have hr := Canonical.feRead_ok h ‹_›
            exact .next (.post hr)
theorem CanonicalOut.execLoadkey (h : Canonical s.mem) : CanonicalOut (execLoadkey id s) := .command h fun _ => .ite (.mk h) (.mk h)
theorem CanonicalOut.execEraseload (h : Canonical s.mem) : CanonicalOut (execEraseload id s) := .command h fun _ => .mk h
theorem CanonicalOut.execIfstLock (h : Canonical s.mem) : CanonicalOut (execIfstLock id s) :=
  .atConsumption h fun _ => .ite (.mk h) (.ite (.mk h) (.mk h))
theorem CanonicalOut.execIfstUnlock (h : Canonical s.mem) : CanonicalOut (execIfstUnlock id s) := .atConsumption h fun _ => .ite (.mk h) (.mk h)
theorem CanonicalOut.execIfstRelease (h : Canonical s.mem) : CanonicalOut (execIfstRelease id s) := .command h fun _ => .ite (.mk h) (.mk h)
theorem CanonicalOut.execCfgwr (h : Canonical s.mem) : CanonicalOut (execCfgwr id s) := by
  refine .atConsumption h fun _ => .ite (.mk (.foldl h fun _ _ ht => .cfgWrite ht)) (.mk (.foldl h fun _ _ ht => ?_))
  split <;> exact ht
theorem Canonical.packetPost {pa : Nat} {a : Act} (h : Canonical s.mem) : Canonical (s.packetPost id w pa a).mem := .post h
theorem CanonicalOut.execCfgrd (h : Canonical s.mem) : CanonicalOut (execCfgrd id s) := by
  unfold Machine.execCfgrd
  split
  · exact .next h
  · refine .ite (.next h) ?_
    split
    · exact .next h
    · exact .next (.foldl (.updPacket h) fun _ _ ht => .packetPost ht)
theorem CanonicalOut.execWorldCreate {key : BitVec 512} (h : Canonical s.mem) : CanonicalOut (execWorldCreate id key s) :=
  .command h fun _ => .ite (.mk h) (.mk h)
theorem CanonicalOut.execWorldDrain (h : Canonical s.mem) : CanonicalOut (execWorldDrain id s) :=
  .command h fun _ => .ite (.mk h) (.mk (.foldl h fun _ _ ht => ht))
theorem Canonical.ungrant (h : Canonical s.mem) : Canonical (s.ungrant w).mem := .foldl h fun _ _ ht => .zeroiseCore ht
theorem Canonical.forgetMemory (h : Canonical s.mem) : Canonical (s.forgetMemory w).mem := .foldl h fun _ _ ht => .writeCells ht
theorem Canonical.eraseWorld (h : Canonical s.mem) : Canonical (s.eraseWorld w).mem := .forgetMemory (.ungrant h)
theorem CanonicalOut.execWorldDrainComplete {world : Nat} (h : Canonical s.mem) : CanonicalOut (execWorldDrainComplete world s) :=
  .next (.ite (.eraseWorld h) h)
theorem CanonicalOut.execWorldGrant (h : Canonical s.mem) : CanonicalOut (execWorldGrant id s) := by
  unfold Machine.execWorldGrant
  split
  · exact .next h
  · refine .ite (.next h) ?_
    split
    · exact .next h
    · have hr := Canonical.feRead_fail h ‹_›
      exact .next hr
    · have hr := Canonical.feRead_ok h ‹_›
      exact .ite (.next hr) (.next (.settle (.foldl hr fun _ _ ht => .zeroiseCore ht)))
theorem Canonical.extend {i : Nat} {d : List Byte} (h : Canonical s.mem) : Canonical (s.extend i d).mem := h
theorem CanonicalOut.execMeasure (h : Canonical s.mem) : CanonicalOut (execMeasure id s) := by
  unfold Machine.execMeasure
  split
  · exact .next h
  · refine .ite (.next h) ?_
    split
    · exact .next h
    · have hr := Canonical.feRead_fail h ‹_›
      exact .next hr
    · have hr := Canonical.feRead_ok h ‹_›
      exact .next (.endPacket (.extend hr))
theorem CanonicalOut.execQueueCreate (h : Canonical s.mem) : CanonicalOut (execQueueCreate id s) := .command h fun _ => .ite (.mk h) (.mk h)
theorem CanonicalOut.execQueueReset (h : Canonical s.mem) : CanonicalOut (execQueueReset id s) := .command h fun _ => .ite (.mk h) (.mk h)
theorem CanonicalOut.execQueueDestroy (h : Canonical s.mem) : CanonicalOut (execQueueDestroy id s) :=
  .atConsumption h fun _ => .ite (.mk h) (.mk (.foldl h fun _ _ ht => ht))
end

/-! ### Changes of a role -/

section
variable {s : State} {die : Nat}
theorem CanonicalOut.execPartition {id : Nat} (h : Canonical s.mem) : CanonicalOut (execPartition id s) := by
  unfold Machine.execPartition
  split
  · exact .next h
  · refine .ite (.next h) ?_
    split
    · exact .next h
    · exact .next (.foldl h fun _ _ ht => .ite ht ht)
theorem Canonical.stopAtLanding {c k : Nat} (h : Canonical s.mem) : Canonical (s.stopAtLanding c k).mem := .ite h h
theorem Canonical.resumeStopped {l : List (Nat × Nat)} (h : Canonical s.mem) : Canonical (s.resumeStopped l).mem := .foldl h fun _ _ ht => ht
theorem Canonical.assignLogical (h : Canonical s.mem) : Canonical s.assignLogical.mem := .foldl h fun _ _ ht => ht
theorem Canonical.roleSettle (h : Canonical s.mem) : Canonical s.roleSettle.mem := by
  unfold State.roleSettle
  split
  · exact .ite (.assignLogical h) h
  · exact h
theorem Canonical.enumerateStaying {r : RoleChange} {k : Nat} (h : Canonical s.mem) : Canonical (s.enumerateStaying r k).mem :=
  .ite (.foldl h fun _ _ ht => .ite ht ht) h
theorem CanonicalOut.execRoleDrainComplete (h : Canonical s.mem) : CanonicalOut (execRoleDrainComplete s) := by
  unfold Machine.execRoleDrainComplete
  split
  · exact .next h
  · exact .ite (.next h) (.next (.roleSettle (.foldl (.foldl h fun _ _ ht => .ite ht ht) fun _ _ ht => .ite (.enumerateStaying ht) ht)))
theorem CanonicalOut.execFlushComplete (h : Canonical s.mem) : CanonicalOut (execFlushComplete die s) := .next (.ite h h)
theorem CanonicalOut.execZeroiseComplete (h : Canonical s.mem) : CanonicalOut (execZeroiseComplete die s) := by
  unfold Machine.execZeroiseComplete
  split
  · exact .next h
  · exact .ite (.next h) (.next (.enumerateStaying (.updDie (.foldl (.zeroise h) fun _ _ ht => .updCore (.zeroiseCore ht)))))
theorem CanonicalOut.execReenumerateComplete (h : Canonical s.mem) : CanonicalOut (execReenumerateComplete die s) := by
  unfold Machine.execReenumerateComplete
  split
  · exact .next h
  · exact .next (.ite (.roleSettle (.ite (.foldl h fun _ _ ht => ht) h)) h)
theorem CanonicalOut.execRoleChangeCommit (h : Canonical s.mem) : CanonicalOut (execRoleChangeCommit s) := by
  unfold Machine.execRoleChangeCommit
  split
  · exact .next h
  · exact .ite (.next h) (.next (.dispatchAll (.resumeStopped (.extend (.foldl (.foldl h fun _ _ ht => ht) fun _ _ ht => ht)))))
theorem CanonicalOut.execDrainDeadlineExpiry (h : Canonical s.mem) : CanonicalOut (execDrainDeadlineExpiry s) := by
  unfold Machine.execDrainDeadlineExpiry
  split
  · exact .next h
  · exact .ite (.next h) (.next (.dispatchAll (.endPacket (.resumeStopped (.updHub (.foldl h fun _ _ ht => .ite (.updDie ht) ht))))))
theorem CanonicalOut.execLayerFence {addr : Word} (h : Canonical s.mem) : CanonicalOut (execLayerFence die addr s) := by
  unfold Machine.execLayerFence
  split
  · exact .next h
  · exact .next (.ite (.enumerateStaying h) h)
end

/-! ### Reset and boot -/

section
variable {s : State} {f : Flash}
theorem Canonical.acceptImages_some {t : State} {floor slot : Nat} {l : List Nat} {r : List Image} (h : Canonical s.mem)
    (e : s.acceptImages floor f slot l = some (t, r)) : Canonical t.mem := by
  induction l generalizing s t r with
  | nil => cases e; exact h
  | cons k l ih =>
    rw [State.acceptImages] at e
    cases hk : loadImage floor f k with
    | none => rw [hk] at e; cases e
    | some i =>
      rw [hk] at e
      dsimp only at e
      split at e
      · cases e
      · rename_i hr
        cases e
        exact ih (.extend h) hr
theorem Canonical.calibrateAll (h : Canonical s.mem) : Canonical (s.calibrateAll f).mem := by
  unfold State.calibrateAll
  generalize endpoints = l
  exact .foldl (.foldl h fun _ _ ht => .updEp ht) fun _ _ ht => .calibrationFailed ht
theorem Canonical.detectFarTier {m : Manifest} (h : Canonical s.mem) : Canonical (s.detectFarTier f m).mem := .ite h h
theorem CanonicalOut.execResetRelease {flash : Flash} (h : Canonical s.mem) : CanonicalOut (execResetRelease flash s) := by
  refine .ite (.next h) ?_
  dsimp only
  split
  · exact .next h
  · refine .ite (.next (.enterFault (.extend h))) (.ite (.next (.enterFault (.extend (.extend h)))) ?_)
    split
    · exact .next (.enterFault (.extend (.extend h)))
    · rename_i t _ e
      have ht : Canonical t.mem := by
        refine .acceptImages_some ?_ e
        exact .extend (.extend h)
      split
      · exact .next (.enterFault ht)
      · exact .next (.calibrateAll (.detectFarTier (.updHub (.acceptImages_some ht ‹_›))))
theorem CanonicalOut.execReset  : CanonicalOut (execReset s) := .next State.reset_wf
theorem CanonicalOut.execStatusWindowGet (h : Canonical s.mem) : CanonicalOut (execStatusWindowGet s) := .next (.ite h h)
theorem CanonicalOut.execEnterRun (h : Canonical s.mem) : CanonicalOut (execEnterRun s) := .next (.ite h h)
theorem CanonicalOut.execInterfaceDrainComplete (h : Canonical s.mem) : CanonicalOut (execInterfaceDrainComplete s) := .next (.ite h h)
theorem CanonicalOut.execFrameTick (h : Canonical s.mem) : CanonicalOut (execFrameTick s) := .ite (.next h) (.next (.roleSettle (.forwardLogs h)))
end

/-! ### The domain: runs, members and rekeying -/

section
variable {s : State} {world m peer w domain : Nat} {va x : Word}
theorem Canonical.postParts {op : Nat} {l : List (Nat × Nat × Act)} (h : Canonical s.mem) : Canonical (s.postParts op w l).mem :=
  .foldl h fun _ _ ht => .post ht
theorem Canonical.beginOp {o : HostOp} {l : List (Nat × Nat × Act)} (h : Canonical s.mem) : Canonical (s.beginOp o l).mem :=
  .finishOp (.postParts h)
theorem CanonicalOut.execPut {packets : List (List Byte)} (h : Canonical s.mem) : CanonicalOut (execPut world va packets s) := by
  refine .ite (.next h) (.ite (.next h) (.ite (.next h) ?_))
  dsimp only
  split
  · exact .next h
  · exact .next (.beginOp h)
theorem CanonicalOut.execGet {len : Nat} (h : Canonical s.mem) : CanonicalOut (execGet world va len s) := by
  refine .ite (.next h) (.ite (.next (.ite h h)) (.ite (.next h) ?_))
  dsimp only
  split
  · exact .next h
  · exact .next (.beginOp h)
theorem Canonical.hostAtomic {aop : Aop} {new : Word} (h : Canonical s.mem) : Canonical (s.hostAtomic world va aop x new).mem := by
  refine .ite h (.ite h ?_)
  split
  · exact h
  · exact .beginOp h
theorem CanonicalOut.execFetchAndAdd (h : Canonical s.mem) : CanonicalOut (execFetchAndAdd world va x s) := .next (.hostAtomic h)
theorem CanonicalOut.execCompareAndSwap {cmp : Word} (h : Canonical s.mem) : CanonicalOut (execCompareAndSwap world va cmp x s) :=
  .next (.hostAtomic h)
theorem CanonicalOut.execSwap (h : Canonical s.mem) : CanonicalOut (execSwap world va x s) := .next (.hostAtomic h)
theorem Canonical.memberRequest {msg : RunMsg} (h : Canonical s.mem) : Canonical (s.memberRequest m msg).mem := by
  unfold State.memberRequest
  dsimp only
  split
  · exact h
  · split
    · exact h
    · exact .beginOp h
  · split
    · exact h
    · exact .beginOp h
theorem Canonical.memberReply {op : Nat} {ok : Bool} {bytes : List Byte} (h : Canonical s.mem) : Canonical (s.memberReply m op ok bytes).mem := by
  unfold State.memberReply
  split
  · exact h
  · split
    · exact .ite h (.ite h h)
    · exact h
theorem Canonical.release {l : List RunMsg} (h : Canonical s.mem) : Canonical (s.release m l).mem := by
  refine .foldl h fun _ _ ht => ?_
  split
  · exact .memberReply ht
  · exact .memberRequest ht
theorem CanonicalFst.settleMsg {m : RunMsg} (h : Canonical s.mem) : CanonicalFst (s.settleMsg m) := by
  unfold State.settleMsg
  split
  · split
    · exact .settlePayload h
    · exact h
  · exact h
theorem Canonical.resend {seq : Nat} (h : Canonical s.mem) : Canonical (s.resend m seq).mem := by
  unfold State.resend
  split
  · exact .ite h h
  · exact h
theorem Canonical.controlAll {c : Control} (h : Canonical s.mem) : Canonical (s.controlAll c).mem := .foldl h fun _ _ ht => ht
theorem Canonical.controlHome {c : Control} (h : Canonical s.mem) : Canonical (s.controlHome c).mem := .ite h h
theorem Canonical.quiesce (h : Canonical s.mem) : Canonical s.quiesce.mem := .ite (.controlAll h) h
theorem Canonical.fillRun {n cut : Nat} {l : List RunMsg} (h : Canonical s.mem) : Canonical (s.fillRun m n l cut).s.mem := by
  induction l generalizing s n cut with
  | nil => exact h
  | cons x r ih =>
    have hx : CanonicalFst (if cut = 0 then s.settleMsg x else (s, x)) := .ite (.settleMsg h) (.mk h)
    unfold State.fillRun
    split
    · exact h
    · dsimp only
      generalize (if cut = 0 then s.settleMsg x else (s, x)) = y at hx
      split
      · exact ih (.fst hx)
      · exact .fst hx
theorem CanonicalOut.execRunIdleClose (h : Canonical s.mem) : CanonicalOut (execRunIdleClose peer s) := by
  have hp {f : Peer → Peer} : Canonical (s.updPeer peer f).mem := .updPeer h
  refine .ite (.next h) (.ite (.next (.release (.updPeer (.fst (.foldl (.mk h) fun _ _ ht => .mk (.fst (.settleMsg (.fst ht)))))))) ?_)
  exact .ite (.next (.ite (.ite (.quiesce hp) hp) (.controlHome hp))) (.next (.sendRun (.updPeer (.fillRun h))))
theorem CanonicalOut.takeRun {run : Run} (h : Canonical s.mem) : CanonicalOut (s.takeRun peer run) := by
  refine .ite (.next h) (.ite (.next h) ?_)
  dsimp only
  split
  · exact .next h
  · exact .ite (.next (.updPeer (.answer h))) (.ite (.next (.updPeer (.updPeer (.answer h)))) (.next (.release (.updPeer (.answer h)))))
theorem CanonicalOut.execRunReceive {arrival : RunArrival} (h : Canonical s.mem) : CanonicalOut (execRunReceive peer arrival s) := by
  refine .ite (.next h) ?_
  split
  · exact .takeRun h
  · exact .next h
theorem CanonicalOut.execRunRetryExhausted {run : RunName} (h : Canonical s.mem) : CanonicalOut (execRunRetryExhausted run s) := by
  unfold Machine.execRunRetryExhausted
  split <;> exact .next h
theorem Canonical.readPolicy_ok {t : State} {va : Nat} {l : List Byte} (h : Canonical s.mem) (e : s.readPolicy w va = .ok l t) :
    Canonical t.mem := by
  rw [State.readPolicy_ok e]
  exact h
theorem Canonical.readPolicy_fail {t : State} {va st : Nat} (h : Canonical s.mem) (e : s.readPolicy w va = .fail st t) : Canonical t.mem := by
  unfold State.readPolicy at e
  split at e
  · exact .feRead_fail (.feRead_ok h ‹_›) e
  · exact .feRead_fail h e
theorem CanonicalOut.execDomform {id : Nat} {proofs : List MemberProof} (h : Canonical s.mem) : CanonicalOut (execDomform id proofs s) := by
  unfold Machine.execDomform
  split
  · exact .next h
  · refine .ite (.next h) (.ite ?_ (.next (.controlAll (.controlAll (.foldl h fun _ _ ht => ht)))))
    split
    · exact .next h
    · have hr := Canonical.readPolicy_fail h ‹_›
      exact .next hr
    · have hr := Canonical.readPolicy_ok h ‹_›
      exact .next (.foldl hr fun _ _ ht => ht)
theorem CanonicalOut.execDomrekey {id : Nat} (h : Canonical s.mem) : CanonicalOut (execDomrekey id s) :=
  .command h fun _ => .ite (.mk h) (.mk (.quiesce h))
theorem Canonical.removeMember (h : Canonical s.mem) : Canonical (s.removeMember m).mem := by
  unfold State.removeMember
  extract_lets t
  have ht : Canonical t.mem := .updDomain (.updPeer (.failMember h))
  exact .ite (.controlAll ht) ht
theorem CanonicalOut.execRekeyRequest {ask : RekeyAsk} (h : Canonical s.mem) : CanonicalOut (execRekeyRequest ask s) := by
  refine .next ?_
  split
  · exact .ite (.quiesce h) h
  · exact .ite h (.ite (.quiesce (.removeMember h)) (.removeMember h))
  · exact .ite (.quiesce h) h
  · exact .ite (.foldl h fun _ _ ht => .removeMember ht) h
  · exact .ite h h
theorem CanonicalOut.execRekeyDrained {report : RekeyReport} (h : Canonical s.mem) : CanonicalOut (execRekeyDrained report s) :=
  .next (.ite (.ite h h) (.ite (.controlHome h) h))
theorem CanonicalOut.execRekeySwitch (h : Canonical s.mem) : CanonicalOut (execRekeySwitch domain s) := by
  refine .next (.ite h (.foldl ?_ fun _ _ ht => ht))
  split
  · exact .controlAll (.controlAll h)
  · exact h
theorem Canonical.dissolve (h : Canonical s.mem) : Canonical s.dissolve.mem := .foldl h fun _ _ ht => ht
theorem CanonicalOut.execRekeySwitched {report : RekeyReport} {secret : BitVec 256} (h : Canonical s.mem) :
    CanonicalOut (execRekeySwitched report secret s) :=
  .ite (.next (.ite h h)) (.ite (.next h) (.ite (.next (.dissolve h)) (.next (.controlHome h))))
theorem CanonicalOut.execRekeyResume (h : Canonical s.mem) : CanonicalOut (execRekeyResume domain s) :=
  .ite (.next h) (.ite (.next (.quiesce h)) (.next (.foldl (.ite (.controlAll h) h) fun _ _ ht => ht)))
theorem CanonicalOut.execRekeyPhaseTimeout (h : Canonical s.mem) : CanonicalOut (execRekeyPhaseTimeout domain peer s) :=
  .ite (.next h) (.ite (.next (.dissolve h)) (.ite (.next h) (.ite (.next (.removeMember h)) (.next (.quiesce (.removeMember h))))))
end

/-! ### Requests of the attestation protocol -/

section
variable {s : State} {asker : Asker} {conn slot : Nat} {busy : Bool}
theorem CanonicalOut.spdmFails {c : Nat} {e : SpdmErr} (h : Canonical s.mem) : CanonicalOut (s.spdmFails c e) := .next (.ite h h)
theorem CanonicalOut.spdm {c : Nat} {checks : List (Bool × SpdmErr)} {f : Unit → State} (h : Canonical s.mem) (hf : Canonical (f ()).mem) :
    CanonicalOut (s.spdm c checks f) := by
  refine .ite (.next h) ?_
  split
  · exact .next (.ite h h)
  · exact .next hf
theorem CanonicalOut.execGetVersion {inSession : Bool} (h : Canonical s.mem) : CanonicalOut (execGetVersion conn inSession s) :=
  .spdm h (.answer (.updConn (.endSessions h)))
theorem CanonicalOut.execGetCapabilities (h : Canonical s.mem) : CanonicalOut (execGetCapabilities asker s) := .spdm h h
theorem CanonicalOut.execNegotiateAlgorithms {offered : List SpdmAlg} (h : Canonical s.mem) :
    CanonicalOut (execNegotiateAlgorithms asker offered s) := .spdm h (.ite h h)
theorem CanonicalOut.execGetDigests (h : Canonical s.mem) : CanonicalOut (execGetDigests asker s) := .spdm h h
theorem CanonicalOut.execGetCertificate {offset len : Nat} (h : Canonical s.mem) : CanonicalOut (execGetCertificate asker slot offset len s) :=
  .spdm h h
theorem CanonicalOut.execChallenge {nonce : Word} (h : Canonical s.mem) : CanonicalOut (execChallenge asker slot nonce busy s) := .spdm h h
theorem CanonicalOut.execGetMeasurements {session : Option Nat} {index : Nat} {signed : Bool} {nonce : Word} (h : Canonical s.mem) :
    CanonicalOut (execGetMeasurements conn session slot index signed nonce busy s) :=
  .spdm h (.ite (.answer (.updConn (.sign h))) (.answer (.updConn h)))
theorem CanonicalOut.execKeyExchange {exchange : List Byte} (h : Canonical s.mem) : CanonicalOut (execKeyExchange asker slot exchange busy s) :=
  .spdm h h
theorem CanonicalOut.execFinish {session : Nat} {mac : BitVec 384} (h : Canonical s.mem) : CanonicalOut (execFinish conn session mac s) := by
  unfold Machine.execFinish
  exact .spdm h (.answer (.updSession h))
theorem CanonicalOut.execEndSession {session : Nat} (h : Canonical s.mem) : CanonicalOut (execEndSession conn session s) := .spdm h h
theorem CanonicalOut.execSpdmUnsupportedRequest {code : BitVec 8} (h : Canonical s.mem) : CanonicalOut (execSpdmUnsupportedRequest conn code s) :=
  .spdmFails h
end

/-! ### Channels of a session -/

section
variable {s : State} {w ch : Nat} {msg m : ChMsg}
theorem CanonicalOut.execWorldOpen {session : Nat} {body : List Byte} (h : Canonical s.mem) : CanonicalOut (execWorldOpen session body s) :=
  .ite (.next h) (.ite (.next (.answer h)) (.next (.answer (.updWorld (.updSession (.updChannel h))))))
theorem Canonical.refuseMsg (h : Canonical s.mem) : Canonical (s.refuseMsg m).mem := .ite h h
theorem Canonical.accept_ok {t : State} {k : Byte} {l : List Byte} (h : Canonical s.mem) (e : s.accept m k = .ok (t, l)) : Canonical t.mem := by
  unfold State.accept at e
  dsimp only at e
  split at e
  · cases e
  · split at e
    · cases e
    · split at e
      · cases e
      · cases e; exact h
theorem Canonical.accept_error {t : State} {k : Byte} (h : Canonical s.mem) (e : s.accept m k = .error t) : Canonical t.mem := by
  unfold State.accept at e
  dsimp only at e
  split at e
  · cases e; exact h
  · split at e
    · cases e; exact .refuseMsg h
    · split at e
      · cases e; exact .ite (.tell (.updChannel (.refuseMsg h))) (.updChannel (.refuseMsg h))
      · cases e
theorem Canonical.writeTail {q : Nat} {t : BitVec 32} (h : Canonical s.mem) : Canonical (s.writeTail w q t).mem :=
  .ite h (.ite (.queueError h) (.ite h h))
theorem Canonical.channelWrite {cells : List (Nat × Byte)} (h : Canonical s.mem) : Canonical (s.channelWrite ch w cells).mem := .beginOp h
theorem Canonical.channelStep (h : Canonical s.mem) : Canonical (s.channelStep ch).mem := by
  unfold State.channelStep
  dsimp only
  split
  · split
    · exact .channelWrite h
    · exact .ite h (.channelWrite h)
    · exact .writeTail h
    · exact h
  · exact h
theorem Canonical.channelJob {j : ChJob} (h : Canonical s.mem) : Canonical (s.channelJob ch j).mem := .channelStep h
theorem Canonical.deviceMessage {kind : Byte} {plain : List Byte} (h : Canonical s.mem) : Canonical (s.deviceMessage ch kind plain).mem := .ite h h
theorem Canonical.statusReply (h : Canonical s.mem) : Canonical (s.statusReply ch).mem := .deviceMessage h
theorem CanonicalOut.execChannelPut (h : Canonical s.mem) : CanonicalOut (execChannelPut msg s) := by
  refine .ite ?_ ?_
  · split
    · exact .next (.accept_error h ‹_›)
    · exact .next (.statusReply (.accept_ok h ‹_›))
  · split
    · exact .next (.accept_error h ‹_›)
    · exact .next (.channelJob (.accept_ok h ‹_›))
theorem CanonicalOut.execCommandPacketMessage (h : Canonical s.mem) : CanonicalOut (execCommandPacketMessage msg s) := by
  unfold Machine.execCommandPacketMessage
  split
  · exact .next (.accept_error h ‹_›)
  · exact .next (.ite (.channelJob (.accept_ok h ‹_›)) (.accept_ok h ‹_›))
theorem CanonicalOut.execTailWrite (h : Canonical s.mem) : CanonicalOut (execTailWrite msg s) := by
  unfold Machine.execTailWrite
  split
  · exact .next (.accept_error h ‹_›)
  · exact .next (.ite (.channelJob (.accept_ok h ‹_›)) (.accept_ok h ‹_›))
theorem CanonicalOut.execHeartbeat (h : Canonical s.mem) : CanonicalOut (execHeartbeat msg s) := by
  unfold Machine.execHeartbeat
  split
  · have hr := Canonical.accept_error h ‹_›
    exact .next hr
  · have hr := Canonical.accept_ok h ‹_›
    exact .next hr
theorem CanonicalOut.execChannelClose (h : Canonical s.mem) : CanonicalOut (execChannelClose msg s) := by
  unfold Machine.execChannelClose
  split
  · have hr := Canonical.accept_error h ‹_›
    exact .next hr
  · have hr := Canonical.accept_ok h ‹_›
    exact .next hr
theorem Canonical.dropOps (h : Canonical s.mem) : Canonical (s.dropOps w).mem := by
  refine .foldl h fun _ _ ht => ?_
  split
  · exact ht
  · exact .ite ht ht
theorem Canonical.dropWork (h : Canonical s.mem) : Canonical (s.dropWork w).mem := .dropOps h
theorem Canonical.teardown (h : Canonical s.mem) : Canonical (s.teardown w).mem := .tell (.eraseWorld (.dropWork h))
theorem Canonical.lapse (h : Canonical s.mem) : Canonical (s.lapse w).mem := .ite (.teardown h) h
theorem CanonicalOut.execHeartbeatTimeout {session : Nat} (h : Canonical s.mem) : CanonicalOut (execHeartbeatTimeout session s) :=
  .ite (.next h) (.ite (.next h) (.next (.foldl h fun _ _ ht => .lapse ht)))
theorem CanonicalOut.execKeyHoldExpiry {world : Nat} (h : Canonical s.mem) : CanonicalOut (execKeyHoldExpiry world s) :=
  .next (.ite (.teardown h) h)
end

/-! ### The measured load -/

section
variable {s : State} {w : Nat}
theorem Canonical.failLoad {code : Nat} (h : Canonical s.mem) : Canonical (s.failLoad w code).mem := .eraseWorld h
theorem CanonicalOpt.loadBytes {va : Nat} {l : List Byte} (h : Canonical s.mem) : CanonicalOpt (s.loadBytes w va l) := .map fun _ => .landAs h
theorem CanonicalFst.loadRecords {l : List (Nat × List Byte)} (h : Canonical s.mem) : CanonicalFst (s.loadRecords w l) := by
  refine .foldl (.mk h) fun _ _ ht => .ite ?_ ht
  split
  · exact .mk (CanonicalOpt.loadBytes (.fst ht) _ ‹_›)
  · exact .mk (.fst ht)
theorem Canonical.dropFenced (h : Canonical s.mem) : Canonical (s.dropFenced w).mem := .foldl h fun _ _ ht => ht
theorem Canonical.loadStore {l : Loading} (h : Canonical s.mem) : Canonical (s.loadStore w l).mem := by
  unfold State.loadStore
  split
  · exact .failLoad h
  · extract_lets cores t r
    have hr : Canonical r.1.mem := .fst (.loadRecords (.foldl h fun _ _ ht => .updCore ht))
    exact .ite (.failLoad hr) (.ite (.failLoad hr) hr)
theorem Canonical.loadNext (h : Canonical s.mem) : Canonical (s.loadNext w).mem := by
  unfold State.loadNext
  split
  · exact h
  · refine .ite (.failLoad h) ?_
    dsimp only
    split
    · exact .loadStore (.dropFenced h)
    · exact .dropFenced h
    · refine .ite (.dropFenced h) ?_
      split
      · exact .failLoad (.dropFenced h)
      · exact .dropFenced h
theorem Canonical.loadPages_ok {t : State} {land : List Byte} {pages : List LoadPage} (h : Canonical s.mem) (e : s.loadPages w land pages = .ok t) :
    Canonical t.mem := by
  suffices hs : ∀ u, s.loadPages w land pages = .ok u → Canonical u.mem from hs t e
  refine foldl_invariant (P := fun a : Except Nat State => ∀ u, a = .ok u → Canonical u.mem) (fun u e => by cases e; exact h)
    (fun a p _ ha u e => ?_)
  dsimp only at e
  split at e
  · cases e
  · split at e
    · cases e
    · split at e
      · cases e
      · cases e
        have hs := ha _ rfl
        exact .cptAdd hs
theorem Canonical.loadOpened {secs : List Section} {items : List Opened} (h : Canonical s.mem) : Canonical (s.loadOpened w secs items).mem := by
  unfold State.loadOpened
  dsimp only
  split
  · exact .failLoad h
  · refine .ite (.failLoad h) ?_
    split
    · exact .failLoad h
    · split
      · exact .failLoad h
      · split
        · split
          · exact .failLoad h
          · split
            · exact .failLoad h
            · exact .foldl (.loadPages_ok h ‹_›) fun _ _ ht => .ite ht ht
        · exact .failLoad h
theorem CanonicalOut.execMeasuredLoad {world : Nat} {file : List Byte} (h : Canonical s.mem) : CanonicalOut (execMeasuredLoad world file s) := by
  refine .ite (.next h) ?_
  split
  · exact .next (.failLoad h)
  · refine .ite (.next (.failLoad h)) ?_
    split
    · exact .next (.failLoad h)
    · refine .ite (.next (.failLoad h)) ?_
      split
      · exact .next (.failLoad h)
      · exact .ite (.next (.failLoad h)) (.next (.loadOpened h))
end

/-! ### Checkpoints -/

section
variable {s : State} {c w : Nat}
theorem Canonical.ckptBegin (h : Canonical s.mem) : Canonical s.ckptBegin.mem := .ite h h
theorem CanonicalOut.execCheckpoint {id : Nat} (h : Canonical s.mem) : CanonicalOut (execCheckpoint id s) := by
  unfold Machine.execCheckpoint
  split
  · exact .next h
  · exact .ite (.next h) (.next (.ckptBegin h))
theorem Canonical.ckptEnd {q : Checkpoint} {status : Nat} (h : Canonical s.mem) : Canonical (s.ckptEnd q status).mem :=
  .dispatchAll (.resumeStopped h)
theorem CanonicalOut.execCheckpointBarrier (h : Canonical s.mem) : CanonicalOut (execCheckpointBarrier s) := .next (.ite h h)
theorem CanonicalOut.execCheckpointBudgetExpiry (h : Canonical s.mem) : CanonicalOut (execCheckpointBudgetExpiry s) := by
  unfold Machine.execCheckpointBudgetExpiry
  split
  · exact .next h
  · exact .next (.ite (.ckptEnd h) h)
theorem Canonical.saveBlock (h : Canonical s.mem) : Canonical (s.saveBlock c).mem := .writeRange (.foldl h fun _ _ ht => .writeRange ht)
theorem CanonicalOut.execCheckpointSaveDone (h : Canonical s.mem) : CanonicalOut (execCheckpointSaveDone s) := by
  unfold Machine.execCheckpointSaveDone
  split
  · exact .next h
  · exact .ite (.next h) (.next (.foldl (.foldl h fun _ _ ht => .saveCtx ht) fun _ _ ht => .saveBlock ht))
theorem Canonical.logBad {ranges : List (Nat × Nat)} (h : Canonical s.mem) : Canonical (s.logBad w ranges).mem := .foldl h fun _ _ ht => ht
theorem CanonicalOut.execCheckpointStreamDone {sinkOk : Bool} (h : Canonical s.mem) : CanonicalOut (execCheckpointStreamDone sinkOk s) := by
  unfold Machine.execCheckpointStreamDone
  split
  · exact .next h
  · exact .ite (.next h) (.next (.ite (.logBad (.answer (.foldl (.updCkpt h) fun _ _ ht => .answer ht))) (.updCkpt h)))
theorem Canonical.unsave {e : Nat × Nat × CtxState} (h : Canonical s.mem) : Canonical (s.unsave e).mem := by
  unfold State.unsave
  split
  · exact .loadSaved h
  · exact h
theorem CanonicalOut.execCheckpointBlobDone (h : Canonical s.mem) : CanonicalOut (execCheckpointBlobDone s) := by
  unfold Machine.execCheckpointBlobDone
  split
  · exact .next h
  · exact .next (.ite h (.ckptEnd (.foldl h fun _ _ ht => .unsave ht)))
theorem Canonical.placePinned {area : SMap Byte} (h : Canonical s.mem) : Canonical (s.placePinned w c area).mem := by
  refine .ite h ?_
  split <;> exact h
theorem Canonical.restoreCore (h : Canonical s.mem) : Canonical (s.restoreCore w c).mem := by
  suffices hr : CanonicalFst (s.restoreCore w c, ()) from hr
  unfold State.restoreCore
  refine foldl_invariant (P := fun t : State => CanonicalFst (t, ())) ?_ fun t k _ ht => ?_
  · exact .mk (.updCore (.logBad (.writeCells (.zeroiseCore h))))
  · dsimp only
    split
    · exact ht
    · exact .mk (.updCtx (.ctxLoad (.placePinned (.fst ht))))
theorem Canonical.restoreWorld {b : BlobWorld} (h : Canonical s.mem) : Canonical (s.restoreWorld b).mem := by
  suffices hr : CanonicalFst (s.restoreWorld b, ()) from hr
  unfold State.restoreWorld
  split
  · exact .mk h
  · refine foldl_invariant (P := fun t : State => CanonicalFst (t, ())) ?_ fun t k _ ht => .mk (.restoreCore (.fst ht))
    exact foldl_invariant (P := fun t : State => CanonicalFst (t, ())) (.mk h) fun t k _ ht => .mk (.writeCells (.fst ht))
theorem CanonicalOut.execCheckpointRestore {blob : Blob} (h : Canonical s.mem) : CanonicalOut (execCheckpointRestore blob s) :=
  .ite (.next h) (.next (.foldl (.writeCells h) fun _ _ ht => .restoreWorld ht))
end

/-! ### Loads, stores and atomics -/

section
variable {s : State} {p : BitVec 4} {gb r vr gr : BitVec 6} {off : BitVec 25} {w : Width} {buf : Buf} {d : Dst} {sz : Sz} {port : BitVec 3}
theorem CanonicalFst.loadTo {lat : Nat} {v : Vec} (h : Canonical s.mem) : CanonicalFst (loadTo s d w lat v) := by
  unfold Machine.loadTo
  split
  · exact .mk h
  · dsimp only
    split
    · exact .mk h
    · exact .mk (.fst (.askQueue h))
theorem CanonicalOut.execLd (h : Canonical s.mem) : CanonicalOut (execLd p w buf d gb off s) := by
  refine .runSlot h ?_
  split
  · exact .mk h
  · exact .loadTo h
theorem CanonicalOut.execSt (h : Canonical s.mem) : CanonicalOut (execSt p w buf vr port gb off s) := by
  refine .runSlot h ?_
  split <;> exact .mk h
theorem CanonicalOut.execLds {sx : Bool} (h : Canonical s.mem) : CanonicalOut (execLds p sz buf gr sx gb off s) := by
  refine .runSlot h ?_
  split
  · exact .mk h
  · exact .mk (.toG h)
theorem CanonicalOut.execSts (h : Canonical s.mem) : CanonicalOut (execSts p sz buf gr gb off s) := by
  refine .runSlot h ?_
  split <;> exact .mk h
theorem CanonicalOut.execAtom {aop : Aop} {gs : BitVec 6} (h : Canonical s.mem) : CanonicalOut (execAtom p sz buf gr aop gs gb off s) := by
  refine .runSlot h ?_
  split
  · exact .mk h
  · exact .mk (.ite h h)
theorem CanonicalFst.timedRead {pa n lat : Nat} (h : Canonical s.mem) : CanonicalFst (timedRead s d w pa n lat) := by
  unfold Machine.timedRead
  split
  · exact .mk h
  · dsimp only
    split
    · exact .mk h
    · exact .mk (.fst (.askQueue h))
theorem CanonicalOut.execGld (h : Canonical s.mem) : CanonicalOut (execGld p w d gb off s) := by
  refine .runSlot h ?_
  split
  · exact .mk h
  · exact .timedRead h
theorem CanonicalOut.execGst (h : Canonical s.mem) : CanonicalOut (execGst p w vr port gb off s) := by
  refine .runSlot h ?_
  split <;> exact .mk h
theorem CanonicalOut.execGatom {qd : BitVec 3} {aop : Aop} {gs : BitVec 6} (h : Canonical s.mem) :
    CanonicalOut (execGatom p sz qd aop gs gb off s) := by
  refine .runSlot h ?_
  dsimp only
  split
  · exact .mk h
  · split
    · exact .mk h
    · exact .mk (.order (.fst (.askQueue h)))
theorem CanonicalOut.execMcst {gm : BitVec 6} {rank : BitVec 9} {xoff : BitVec 15} (h : Canonical s.mem) :
    CanonicalOut (execMcst p w vr port gm gb rank xoff s) := by
  refine .runSlot h ?_
  split
  · exact .mk h
  · dsimp only
    split <;> exact .mk h
theorem CanonicalOut.execSpStG {off : BitVec 10} (h : Canonical s.mem) : CanonicalOut (execSpStG p r off s) := .runSlot h (.mk h)
theorem CanonicalOut.execSpStV {off : BitVec 6} (h : Canonical s.mem) : CanonicalOut (execSpStV p r off s) := .runSlot h (.mk h)
theorem CanonicalOut.execSpLdG {off : BitVec 10} (h : Canonical s.mem) : CanonicalOut (execSpLdG p r off s) := .runSlot h (.mk (.toG h))
theorem CanonicalOut.execSpLdV {off : BitVec 6} (h : Canonical s.mem) : CanonicalOut (execSpLdV p r off s) := .runSlot h (.mk h)
end

/-! ### Copies -/

section
variable {s : State} {yr ar p : BitVec 4} {buf : Buf} {soff : BitVec 14} {gx : BitVec 5} {cbm : BitVec 12} {store : Bool} {n : Nat}
theorem Canonical.timedChunks {r d : Nat} {f : Nat → List Move × List Host.Cell} {l : List Nat} (h : Canonical s.mem) :
    Canonical (timedChunks s r d f l).mem := by
  induction l generalizing s with
  | nil => exact h
  | cons i l ih => exact ih h
theorem CanonicalFst.timedCopy {claims : List Claim} {readAt landAt : Nat} {chunk : Nat → List Move × List Host.Cell} (h : Canonical s.mem) :
    CanonicalFst (timedCopy s n claims readAt landAt chunk) := .ite (.mk h) (.mk (.timedChunks (.foldl h fun _ _ ht => ht)))
theorem CanonicalFst.withChecks {t : Option Tile} {pre : List (Option Stop)} {post : Tile → List (Option Stop)} {go : Tile → Eff}
    (h : Canonical s.mem) (hg : ∀ t, CanonicalFst (go t)) : CanonicalFst (withChecks s t pre post go) := by
  unfold Machine.withChecks
  split
  · exact h
  · split
    · exact h
    · split
      · exact h
      · exact hg _
theorem CanonicalFst.tlMemory {soff : Nat} (h : Canonical s.mem) : CanonicalFst (tlMemory s yr ar store buf soff) :=
  .withChecks h fun _ => .ite (.timedCopy h) (.timedCopy h)
theorem CanonicalFst.tlBuffer {soff : Nat} {w : Word} (h : Canonical s.mem) : CanonicalFst (tlBuffer s yr store buf soff w) :=
  .withChecks h fun _ => .ite (.timedCopy h) (.timedCopy h)
theorem CanonicalOut.execCpyTl {dir : Bool} (h : Canonical s.mem) : CanonicalOut (execCpyTl p yr ar dir buf soff gx s) :=
  .runSlot h (.ite (.tlMemory h) (.tlBuffer h))
theorem CanonicalOut.execCpyBc (h : Canonical s.mem) : CanonicalOut (execCpyBc p yr ar buf soff gx s) :=
  .runSlot h (.withChecks h fun _ => .timedCopy h)
theorem Canonical.clearBits {cbm : Nat} (h : Canonical s.mem) : Canonical (clearBits s cbm n).mem := .foldl h fun _ _ ht => .setByte ht
theorem Canonical.postAll {l : List (Act × Nat × Owed)} (h : Canonical s.mem) : Canonical (postAll s l).mem := .foldl h fun _ _ ht => .order ht
theorem Canonical.untimedCopy {cbm : Nat} {va : Word} {chunk : Nat → List (Act × Nat × Word) × List Host.Cell} (h : Canonical s.mem) :
    Canonical (untimedCopy s cbm n store va chunk).mem := .foldl (.clearBits h) fun _ _ ht => .postAll ht
theorem CanonicalFst.packageStore {soff cbm : Nat} {add : Option Afmt} {badRef mustSync : Bool} {r : Nat × Bool} (h : Canonical s.mem) :
    CanonicalFst (packageStore s yr ar buf soff cbm add badRef mustSync r) := .withChecks h fun _ => .mk (.untimedCopy h)
theorem CanonicalFst.packageLoad {soff cbm : Nat} {badRef : Bool} {r : Nat × Bool} (h : Canonical s.mem) :
    CanonicalFst (packageLoad s yr ar buf soff cbm badRef r) := .withChecks h fun _ => .mk (.untimedCopy h)
theorem CanonicalOut.execCpyUt {dir : Bool} (h : Canonical s.mem) : CanonicalOut (execCpyUt p yr ar dir buf soff cbm gx s) :=
  .runSlot h (.ite (.packageStore h) (.packageLoad h))
theorem CanonicalOut.execCpyAdd {afmt : Afmt} (h : Canonical s.mem) : CanonicalOut (execCpyAdd p yr ar buf afmt soff cbm gx s) :=
  .runSlot h (.packageStore h)
theorem CanonicalFst.fabricCopy {soff cbm : Nat} {add : Option Afmt} {mustSync : Bool} {noRemote : Bool} {w : Word} (h : Canonical s.mem) :
    CanonicalFst (fabricCopy s yr ar buf soff cbm store add mustSync noRemote w) := .withChecks h fun _ => .mk (.untimedCopy h)
theorem CanonicalOut.execCpyPut (h : Canonical s.mem) : CanonicalOut (execCpyPut p yr ar buf soff cbm gx s) := .runSlot h (.fabricCopy h)
theorem CanonicalOut.execCpyGet (h : Canonical s.mem) : CanonicalOut (execCpyGet p yr ar buf soff cbm gx s) := .runSlot h (.fabricCopy h)
theorem CanonicalOut.execColl {mode : CollMode} (h : Canonical s.mem) : CanonicalOut (execColl p yr ar buf mode soff cbm gx s) :=
  .runSlot h (.ite (.fabricCopy h) (.packageStore h))
theorem CanonicalOut.execMig {tier : Tier} (h : Canonical s.mem) : CanonicalOut (execMig p ar tier cbm s) := by
  refine .runSlot h ?_
  dsimp only
  split
  · exact .mk h
  · exact .mk (.order (.clearBits h))
end

/-! ### The matrix engine -/

section
variable {s : State} {p : BitVec 4} {ga : BitVec 6} {qd pr : BitVec 3} {c : Nat} {dst nm1 : BitVec 10} {fmt : MFmt} {ac : Bool}
theorem Canonical.settleDrains {l : List CallEnt} (h : Canonical s.mem) : Canonical (s.settleDrains c l).mem := by
  induction l generalizing s with
  | nil => exact h
  | cons x r ih =>
    unfold State.settleDrains
    split
    · exact .ite (ih h) (ih h)
    · exact ih h
theorem Canonical.settleEngine (h : Canonical s.mem) : Canonical (s.settleEngine c).mem := .settleDrains h
theorem Canonical.applyWb (h : Canonical s.mem) : Canonical (s.applyWb c).mem := by
  unfold State.applyWb
  split
  · exact .settleEngine h
  · exact h
theorem Canonical.pushCall {k : CallKind} (h : Canonical s.mem) : Canonical (pushCall s k).mem := .settleEngine h
theorem CanonicalFst.askQueues {l : List (Nat × Nat)} (h : Canonical s.mem) : CanonicalFst (askQueues s l) := by
  induction l generalizing s with
  | nil => exact h
  | cons x r ih =>
    unfold Machine.askQueues
    split
    · exact ih (.of_fst (.askQueue h) ‹_›)
    · exact h
theorem CanonicalOut.execMcall {rtn : BitVec 6} (h : Canonical s.mem) : CanonicalOut (execMcall p rtn s) := by
  refine .runSlot h ?_
  split
  · exact .mk h
  · refine .ite (.mk h) ?_
    dsimp only
    split
    · exact .mk h
    · split
      · exact .mk h
      · have hr := Canonical.of_fst (.askQueues h) ‹_›
        exact .mk (.foldl (.pushCall hr) fun _ _ ht => ht)
theorem CanonicalOut.execMrep {n : BitVec 12} (h : Canonical s.mem) : CanonicalOut (execMrep p n s) := .runSlot h (.ite (.mk h) (.mk h))
theorem Canonical.progGroups {table : Bool} {words : List (Nat × Word)} (h : Canonical s.mem) : Canonical (progGroups s table words).mem :=
  .ite h (.foldl h fun _ _ ht => ht)
theorem CanonicalFst.programStore {table : Bool} (h : Canonical s.mem) : CanonicalFst (programStore s ga dst nm1 table) :=
  .ite (.mk h) (.ite (.mk h) (.ite (.mk h) (.mk (.progGroups h))))
theorem CanonicalOut.execMprog (h : Canonical s.mem) : CanonicalOut (execMprog p ga dst nm1 s) := .runSlot h (.programStore h)
theorem CanonicalOut.execMprogT (h : Canonical s.mem) : CanonicalOut (execMprogT p ga dst nm1 s) := .runSlot h (.programStore h)
theorem CanonicalOut.execMwb (h : Canonical s.mem) : CanonicalOut (execMwb p ga s) := by
  refine .runSlot h ?_
  split
  · exact .mk h
  · exact .mk (.pushCall h)
theorem CanonicalOut.execMstat (h : Canonical s.mem) : CanonicalOut (execMstat p qd s) := by
  refine .runSlot h (.ite (.mk h) ?_)
  split
  · exact .mk h
  · have hr := Canonical.of_fst (.askQueue h) ‹_›
    exact .mk hr
theorem CanonicalOut.execMdrain (h : Canonical s.mem) : CanonicalOut (execMdrain p qd s) := by
  refine .runSlot h ?_
  split
  · exact .mk h
  · split
    · exact .mk h
    · exact .mk (.pushCall (.of_fst (.askQueue h) ‹_›))
theorem CanonicalOut.microOp {i : Instr} {f : Engine → Engine} {g : State → State} (hg : Canonical (g s).mem) : CanonicalOut (microOp s i f g) :=
  .next (.settleEngine hg)
theorem CanonicalOut.execUaLd {asb : Bool} {tgt : Bool} (h : Canonical s.mem) : CanonicalOut (execUaLd fmt asb ac pr tgt s) := .microOp h
theorem CanonicalOut.execUbLd {bs : Bool} (h : Canonical s.mem) : CanonicalOut (execUbLd fmt bs pr s) := .microOp h
theorem CanonicalOut.execUStep {asb bs zr : Bool} (h : Canonical s.mem) : CanonicalOut (execUStep fmt asb bs ac zr s) := .microOp h
theorem Canonical.emitDrain {ac : SMap (BitVec 32)} {p : Word} {dst : DrainDst} {bf16 : Bool} (h : Canonical s.mem) :
    Canonical (emitDrain s ac p dst qd bf16).mem := by
  unfold Machine.emitDrain
  dsimp only
  split <;> exact .foldl h fun _ _ ht => ht
theorem CanonicalOut.execUDrain {zr : Bool} {dst : DrainDst} {bf16 : Bool} (h : Canonical s.mem) :
    CanonicalOut (execUDrain ac pr zr dst qd bf16 s) := .microOp (.emitDrain h)
theorem CanonicalOut.execULoop {lv : BitVec 2} {tgt : BitVec 10} {cnt : BitVec 24} (h : Canonical s.mem) : CanonicalOut (execULoop lv tgt cnt s) :=
  .microOp h
theorem CanonicalOut.execUAddp {sh : BitVec 6} {imm : BitVec 24} (h : Canonical s.mem) : CanonicalOut (execUAddp pr sh imm s) := .microOp h
theorem CanonicalOut.execUEnd (h : Canonical s.mem) : CanonicalOut (execUEnd s) := .microOp h
end

/-! ### Vector instructions -/

section
variable {s : State} {p : BitVec 4} {w : Width} {vd ga n : BitVec 6} {sa sb sc : Src} {fmt src : Fmt} {rm : Rm} {i : Instr} {lat : Nat}
theorem CanonicalOut.vecOne {f : State → Nat → Nat} (h : Canonical s.mem) : CanonicalOut (vecOne s i p w vd lat sa f) := by
  refine .runSlot h ?_
  dsimp only
  split <;> exact .mk (.fst (.takeSrc h))
theorem CanonicalOut.vecTwo {f : Nat → Nat → Nat} (h : Canonical s.mem) : CanonicalOut (vecTwo s i p w vd lat sa sb f) := by
  refine .runSlot h ?_
  dsimp only
  split <;> exact .mk (.fst (.takeSrc (.fst (.takeSrc h))))
theorem CanonicalOut.vecThree {f : Nat → Nat → Nat → Nat} (h : Canonical s.mem) : CanonicalOut (vecThree s i p w vd lat sa sb sc f) := by
  refine .runSlot h ?_
  dsimp only
  split <;> exact .mk (.fst (.takeSrc (.fst (.takeSrc (.fst (.takeSrc h))))))
theorem CanonicalOut.execVadd (h : Canonical s.mem) : CanonicalOut (execVadd p w fmt vd rm sa sb s) := .vecTwo h
theorem CanonicalOut.execVsub (h : Canonical s.mem) : CanonicalOut (execVsub p w fmt vd rm sa sb s) := .vecTwo h
theorem CanonicalOut.execVmul (h : Canonical s.mem) : CanonicalOut (execVmul p w fmt vd rm sa sb s) := .vecTwo h
theorem CanonicalOut.execVfma (h : Canonical s.mem) : CanonicalOut (execVfma p w fmt vd rm sa sb sc s) := .vecThree h
theorem CanonicalOut.execVfnma (h : Canonical s.mem) : CanonicalOut (execVfnma p w fmt vd rm sa sb sc s) := .vecThree h
theorem CanonicalOut.execVadds (h : Canonical s.mem) : CanonicalOut (execVadds p w fmt vd sa sb s) := .vecTwo h
theorem CanonicalOut.execVsubs (h : Canonical s.mem) : CanonicalOut (execVsubs p w fmt vd sa sb s) := .vecTwo h
theorem CanonicalOut.execVmin (h : Canonical s.mem) : CanonicalOut (execVmin p w fmt vd sa sb s) := .vecTwo h
theorem CanonicalOut.execVmax (h : Canonical s.mem) : CanonicalOut (execVmax p w fmt vd sa sb s) := .vecTwo h
theorem CanonicalOut.execVabs (h : Canonical s.mem) : CanonicalOut (execVabs p w fmt vd sa s) := .vecOne h
theorem CanonicalOut.execVneg (h : Canonical s.mem) : CanonicalOut (execVneg p w fmt vd sa s) := .vecOne h
theorem CanonicalOut.execVand (h : Canonical s.mem) : CanonicalOut (execVand p w vd sa sb s) := .vecTwo h
theorem CanonicalOut.execVor (h : Canonical s.mem) : CanonicalOut (execVor p w vd sa sb s) := .vecTwo h
theorem CanonicalOut.execVxor (h : Canonical s.mem) : CanonicalOut (execVxor p w vd sa sb s) := .vecTwo h
theorem CanonicalOut.execVandn (h : Canonical s.mem) : CanonicalOut (execVandn p w vd sa sb s) := .vecTwo h
theorem CanonicalOut.execVshl (h : Canonical s.mem) : CanonicalOut (execVshl p w fmt vd sa sb s) := .vecTwo h
theorem CanonicalOut.execVshr (h : Canonical s.mem) : CanonicalOut (execVshr p w fmt vd sa sb s) := .vecTwo h
theorem CanonicalOut.execVsra (h : Canonical s.mem) : CanonicalOut (execVsra p w fmt vd sa sb s) := .vecTwo h
theorem CanonicalOut.execVshli (h : Canonical s.mem) : CanonicalOut (execVshli p w fmt vd n sa s) := .vecOne h
theorem CanonicalOut.execVshri (h : Canonical s.mem) : CanonicalOut (execVshri p w fmt vd n sa s) := .vecOne h
theorem CanonicalOut.execVsrai (h : Canonical s.mem) : CanonicalOut (execVsrai p w fmt vd n sa s) := .vecOne h
theorem CanonicalOut.execVcmp {cnd : VCnd} (h : Canonical s.mem) : CanonicalOut (execVcmp p w fmt vd cnd sa sb s) := .vecTwo h
theorem CanonicalOut.execVsel (h : Canonical s.mem) : CanonicalOut (execVsel p w vd sa sb sc s) := .vecThree h
theorem CanonicalOut.execVcvt {sat : Bool} (h : Canonical s.mem) : CanonicalOut (execVcvt p w fmt vd rm sat src sa s) := .vecOne h
theorem CanonicalOut.execVdup (h : Canonical s.mem) : CanonicalOut (execVdup p w fmt vd ga s) := .runSlot h (.mk h)
theorem CanonicalOut.execVrsum (h : Canonical s.mem) : CanonicalOut (execVrsum p w fmt vd sa s) := .vecOne h
theorem CanonicalOut.execVrmax (h : Canonical s.mem) : CanonicalOut (execVrmax p w fmt vd sa s) := .vecOne h
theorem CanonicalOut.execVrmin (h : Canonical s.mem) : CanonicalOut (execVrmin p w fmt vd sa s) := .vecOne h
theorem CanonicalOut.execExpF (h : Canonical s.mem) : CanonicalOut (execExpF p w vd sa s) := .vecOne h
theorem CanonicalOut.execExpR (h : Canonical s.mem) : CanonicalOut (execExpR p w vd sa s) := .vecOne h
theorem CanonicalOut.execExp2F (h : Canonical s.mem) : CanonicalOut (execExp2F p w vd sa s) := .vecOne h
theorem CanonicalOut.execExp2R (h : Canonical s.mem) : CanonicalOut (execExp2R p w vd sa s) := .vecOne h
theorem CanonicalOut.execLog2F (h : Canonical s.mem) : CanonicalOut (execLog2F p w vd sa s) := .vecOne h
theorem CanonicalOut.execLog2R (h : Canonical s.mem) : CanonicalOut (execLog2R p w vd sa s) := .vecOne h
theorem CanonicalOut.execRcpF (h : Canonical s.mem) : CanonicalOut (execRcpF p w vd sa s) := .vecOne h
theorem CanonicalOut.execRcpR (h : Canonical s.mem) : CanonicalOut (execRcpR p w vd sa s) := .vecOne h
theorem CanonicalOut.execRsqF (h : Canonical s.mem) : CanonicalOut (execRsqF p w vd sa s) := .vecOne h
theorem CanonicalOut.execRsqR (h : Canonical s.mem) : CanonicalOut (execRsqR p w vd sa s) := .vecOne h
theorem CanonicalOut.execSqrtF (h : Canonical s.mem) : CanonicalOut (execSqrtF p w vd sa s) := .vecOne h
theorem CanonicalOut.execSqrtR (h : Canonical s.mem) : CanonicalOut (execSqrtR p w vd sa s) := .vecOne h
theorem CanonicalOut.execTanhF (h : Canonical s.mem) : CanonicalOut (execTanhF p w vd sa s) := .vecOne h
theorem CanonicalOut.execTanhR (h : Canonical s.mem) : CanonicalOut (execTanhR p w vd sa s) := .vecOne h
theorem CanonicalOut.execSigmF (h : Canonical s.mem) : CanonicalOut (execSigmF p w vd sa s) := .vecOne h
theorem CanonicalOut.execSigmR (h : Canonical s.mem) : CanonicalOut (execSigmR p w vd sa s) := .vecOne h
theorem CanonicalOut.execSinF (h : Canonical s.mem) : CanonicalOut (execSinF p w vd sa s) := .vecOne h
theorem CanonicalOut.execSinR (h : Canonical s.mem) : CanonicalOut (execSinR p w vd sa s) := .vecOne h
theorem CanonicalOut.execCosF (h : Canonical s.mem) : CanonicalOut (execCosF p w vd sa s) := .vecOne h
theorem CanonicalOut.execCosR (h : Canonical s.mem) : CanonicalOut (execCosR p w vd sa s) := .vecOne h
theorem CanonicalOut.execXpack (h : Canonical s.mem) : CanonicalOut (execXpack p w fmt vd src sa ga s) := .vecOne h
theorem CanonicalOut.execXunpack (h : Canonical s.mem) : CanonicalOut (execXunpack p w fmt vd src sa ga s) := .vecOne h
theorem CanonicalOut.execXscale (h : Canonical s.mem) : CanonicalOut (execXscale p w fmt vd sa ga s) := .vecOne h
theorem CanonicalOut.execXmaxe {tgt : Fmt} (h : Canonical s.mem) : CanonicalOut (execXmaxe p w fmt vd tgt sa sb s) := .vecTwo h
theorem CanonicalOut.execXperm (h : Canonical s.mem) : CanonicalOut (execXperm p w fmt vd sa sb s) := .vecTwo h
theorem CanonicalOut.execXrot (h : Canonical s.mem) : CanonicalOut (execXrot p w fmt vd sa ga s) := .vecOne h
theorem CanonicalOut.execXzip {hi : Bool} (h : Canonical s.mem) : CanonicalOut (execXzip p w fmt vd hi sa sb s) := .vecTwo h
theorem CanonicalOut.execXunzip {odd : Bool} (h : Canonical s.mem) : CanonicalOut (execXunzip p w fmt vd odd sa sb s) := .vecTwo h
theorem CanonicalOut.execXtrans {lrows : BitVec 3} (h : Canonical s.mem) : CanonicalOut (execXtrans p w fmt vd lrows sa s) := .vecOne h
end

/-! ### The stream accumulator -/

section
variable {s : State} {p : BitVec 4} {ga gb : BitVec 6} {c : Nat} {d : SaDesc} {sae32 : Bool} {carry : List (Nat × Nat × Bool)}
theorem CanonicalFst.saSource {x : Src} {chk : Option Stop} {k : State → Vec → Eff} (h : Canonical s.mem)
    (hk : ∀ t v, Canonical t.mem → CanonicalFst (k t v)) : CanonicalFst (saSource s x chk k) := by
  unfold Machine.saSource
  dsimp only
  split
  · exact .takeSrc h
  · split
    · exact h
    · split
      · exact h
      · exact hk _ _ (.fst (.takeSrc h))
theorem CanonicalOut.execSaAdd {w : Width} {fmt : Fmt} {sa : Src} (h : Canonical s.mem) : CanonicalOut (execSaAdd p w fmt ga sa s) := by
  refine .runSlot h (.saSource h fun _ _ ht => ?_)
  dsimp only
  split
  · exact .mk ht
  · exact .mk (.saApply ht)
theorem CanonicalOut.execSaNrd {w : Width} {fmt : Fmt} {vd : BitVec 6} {sa : Src} (h : Canonical s.mem) :
    CanonicalOut (execSaNrd p w fmt vd sa ga s) := .runSlot h (.saSource h fun _ _ ht => .mk ht)
theorem CanonicalOut.execSaSax (h : Canonical s.mem) : CanonicalOut (execSaSax p ga s) := by
  refine .runSlot h ?_
  dsimp only
  split <;> exact .mk h
theorem CanonicalFst.scheduleFold (h : Canonical s.mem) : CanonicalFst (scheduleFold s ga gb) := by
  unfold Machine.scheduleFold
  dsimp only
  split <;> exact .mk h
theorem CanonicalOut.execSaSealC (h : Canonical s.mem) : CanonicalOut (execSaSealC p ga gb s) := .runSlot h (.scheduleFold h)
theorem CanonicalOut.execSaSealG (h : Canonical s.mem) : CanonicalOut (execSaSealG p ga gb s) := by
  refine .runSlot h ?_
  dsimp only
  split <;> exact .mk h
theorem CanonicalOut.execSaSealP (h : Canonical s.mem) : CanonicalOut (execSaSealP p ga gb s) := by
  refine .runSlot h ?_
  split
  · exact .mk (.of_fst (.scheduleFold h) ‹_›)
  · have hr := Canonical.of_fst (.scheduleFold h) ‹_›
    exact .mk hr
theorem Canonical.foldRow {r : Nat} (h : Canonical s.mem) : Canonical (foldRow s c d r).mem := .setByte (.timedWrite (.saApply h))
theorem Canonical.foldRows {k f reg row cnt : Nat} (h : Canonical s.mem) : Canonical (foldRows s c k f reg row cnt).mem := by
  refine .ite h (.foldl ?_ fun _ _ ht => .setByte ht)
  dsimp only
  split <;> split
  · exact h
  · exact .ite (.foldl h fun _ _ ht => .foldRow ht) h
  · exact h
  · exact .ite (.foldl h fun _ _ ht => .foldRow ht) h
theorem CanonicalOut.execCpyEv {yr ar : BitVec 4} {buf : Buf} {soff : BitVec 14} (h : Canonical s.mem) :
    CanonicalOut (execCpyEv p yr ar sae32 buf soff s) :=
  .runSlot h (.withChecks h fun _ => .ite (.timedCopy h) (.ite (.mk h) (.mk (.foldl h fun _ _ ht => ht))))
theorem CanonicalOut.execCpyRs {yr ar : BitVec 4} {buf : Buf} {soff : BitVec 14} (h : Canonical s.mem) :
    CanonicalOut (execCpyRs p yr ar sae32 buf soff s) := .runSlot h (.withChecks h fun _ => .ite (.mk h) (.mk (.foldl h fun _ _ ht => ht)))
theorem Canonical.setInbound (h : Canonical s.mem) : Canonical (s.setInbound c d).mem := .ite h h
theorem CanonicalFst.restoreRow {img : List Host.Cell} {r : Nat} (h : Canonical s.mem) : CanonicalFst (restoreRow s c d img carry r) :=
  .ite (.mk (.saRestore (.saRestore h))) (.mk (.saRestore h))
theorem CanonicalFst.restoreChunk {reg i : Nat} {img : List Host.Cell} (h : Canonical s.mem) :
    CanonicalFst (restoreChunk s c sae32 reg i carry img) := by
  refine .ite (.mk (.ite (.setInbound (.saRestore h)) (.saRestore h))) ?_
  extract_lets t d
  have ht : Canonical t.mem := .ite (.saRestore h) h
  clear_value t
  exact .ite (.mk (.ite (.setByte ht) ht)) (.foldl (.mk (.ite (.setInbound ht) ht)) fun _ _ hu => .mk (.fst (.restoreRow (.fst hu))))
theorem Canonical.landRestoreLine {t : Timed} {n : Nat} (h : Canonical s.mem) : Canonical (s.landRestoreLine t n).mem := by
  unfold State.landRestoreLine
  split
  · exact .saRestore h
  · exact h
end

/-! ### What lands at its cycle -/

section
variable {s : State} {id core ctx : Nat}
theorem CanonicalOut.execResultLanding (h : Canonical s.mem) : CanonicalOut (execResultLanding core ctx id s) := .next h
theorem CanonicalOut.execQueueDelivery (h : Canonical s.mem) : CanonicalOut (execQueueDelivery id s) := by
  unfold Machine.execQueueDelivery
  split
  · split
    · exact .next (.ite h h)
    · exact .next h
  · exact .next (.respond h)
theorem CanonicalOut.execBankWakeDone {bank : Nat} (h : Canonical s.mem) : CanonicalOut (execBankWakeDone core ctx bank s) := .next h
theorem CanonicalOut.execTimedWriteLanding (h : Canonical s.mem) : CanonicalOut (execTimedWriteLanding id s) := by
  unfold Machine.execTimedWriteLanding
  split
  · split
    · exact .next (.landAs h)
    · exact .next (.timedWrite h)
    · exact .next h
  · exact .next h
theorem CanonicalOut.execTimedReadSample (h : Canonical s.mem) : CanonicalOut (execTimedReadSample id s) := by
  unfold Machine.execTimedReadSample
  split
  · dsimp only
    split
    · split
      · exact .next (.uncorrectable h)
      · split <;> exact .next h
    · split
      · exact .next (.uncorrectable h)
      · exact .next h
    · exact .next h
    · exact .next h
  · exact .next h
theorem CanonicalOut.execTimedChunkLanding (h : Canonical s.mem) : CanonicalOut (execTimedChunkLanding id s) := by
  unfold Machine.execTimedChunkLanding
  split
  · dsimp only
    split
    · exact .next (.landAs h)
    · exact .next (.writeCells (.fst (.restoreChunk h)))
    · exact .next h
  · exact .next h
theorem CanonicalOut.execMulticastLanding (h : Canonical s.mem) : CanonicalOut (execMulticastLanding id s) := by
  unfold Machine.execMulticastLanding
  split
  · split
    · exact .next (.foldl (.timedWrite h) fun _ _ ht => .latchCore ht)
    · exact .next h
  · exact .next h
theorem CanonicalOut.execDrainRowLanding (h : Canonical s.mem) : CanonicalOut (execDrainRowLanding id s) := by
  cases ht : s.timed id with
  | none =>
    rw [Machine.execDrainRowLanding, ht]
    exact .next h
  | some x =>
    cases ha : x.act with
    | drainCb cells =>
      rw [← exec_drainRowLanding_eq, exec_drainRowLanding_cb ht ha]
      exact .next (.timedWrite h)
    | drainSb k reg row sel rows call =>
      cases hr : (s.unschedule id).addRows x.core reg row sel rows with
      | none =>
        obtain ⟨l, e, -⟩ := exec_drainRowLanding_refused ht ha hr
        rw [← exec_drainRowLanding_eq, e]
        exact .next (.holdOverflow h)
      | some t =>
        rw [← exec_drainRowLanding_eq, exec_drainRowLanding_sb ht ha hr]
        have hm := CanonicalOpt.addRows (s := s.unschedule id) h t hr
        exact .next hm
    | _ =>
      rw [Machine.execDrainRowLanding]
      simp only [ht, ha]
      exact .next h
theorem CanonicalOut.execSaFold (h : Canonical s.mem) : CanonicalOut (execSaFold id s) := by
  unfold Machine.execSaFold
  split
  · split
    · exact .next (.foldRows h)
    · exact .next h
  · exact .next h
theorem CanonicalOut.execSaGroupSum (h : Canonical s.mem) : CanonicalOut (execSaGroupSum id s) := by
  unfold Machine.execSaGroupSum
  split
  · split <;> exact .next h
  · exact .next h
theorem CanonicalOut.execFreezeEnd {frond : Nat} (h : Canonical s.mem) : CanonicalOut (execFreezeEnd frond s) := by
  unfold Machine.execFreezeEnd
  split
  · exact .next (.abortFrond h)
  · exact .next h
theorem CanonicalOut.execTkalignRelease (h : Canonical s.mem) : CanonicalOut (execTkalignRelease core ctx s) := .next h
theorem CanonicalOut.execSigWaitRepost (h : Canonical s.mem) : CanonicalOut (execSigWaitRepost core ctx s) := by
  unfold Machine.execSigWaitRepost
  dsimp only
  split
  · exact .next (.ite h (.post h))
  · exact .next h
theorem CanonicalOut.execLandingEntry (h : Canonical s.mem) : CanonicalOut (execLandingEntry core ctx s) := by
  unfold Machine.execLandingEntry
  split
  · split <;> exact .next h
  · exact .next h
end

/-! ### Scalar instructions -/

section
variable {s : State} {p : BitVec 4}
theorem CanonicalOut.writeG {gd : BitVec 6} {lat : Nat} {v : Word} (h : Canonical s.mem) : CanonicalOut (writeG s p gd lat v) :=
  .runScalar h (.toG h)
theorem CanonicalOut.writeP {pd : BitVec 4} {b : Bool} (h : Canonical s.mem) : CanonicalOut (writeP s p pd b) := .runScalar h (.toP h)
theorem CanonicalOut.execLea {ad : BitVec 4} {ga : BitVec 6} {imm : BitVec 9} (h : Canonical s.mem) : CanonicalOut (execLea p ad ga imm s) :=
  .runScalar h h
theorem CanonicalOut.execMovm {md : BitVec 3} {ga : BitVec 6} (h : Canonical s.mem) : CanonicalOut (execMovm p md ga s) := .runScalar h h
theorem CanonicalOut.execLeaa {ad aa : BitVec 4} {imm : BitVec 13} (h : Canonical s.mem) : CanonicalOut (execLeaa p ad aa imm s) := .runScalar h h
end

end Sys2Proof.Machine
end

section
/-! SUPPORT. Canonical memory through the issue of a bundle, the events of the machine and the step. -/

namespace Sys2Proof.Machine

/-! ### The issue of a bundle -/

section
variable {s t f : State} {c k : Nat} {l : List Instr} {w : List Wait}
/-- Every step from outside and every slot keeps the form. -/
theorem CanonicalOut.exec {i : Instr} (h : Canonical s.mem) : CanonicalOut (exec i s) := by
  cases i with
  | br => exact .execBr h
  | brx => exact .execBrx h
  | call => exact .execCall h
  | lsetup => exact .execLsetup h
  | lend => exact .execLend h
  | lquit => exact .execLquit h
  | callx => exact .execCallx h
  | ret => exact .execRet h
  | barL => exact .execBarL h
  | tkalign => exact .execTkalign h
  | childLaunch => exact .execChildLaunch h
  | sigDec => exact .execSigDec h
  | sigWait => exact .execSigWait h
  | fence => exact .execFence h
  | cwait => exact .execCwait h
  | swait => exact .execSwait h
  | softwareTrap => exact .execSoftwareTrap h
  | halt => exact .execHalt h
  | rdsys => exact .execRdsys h
  | wrsys => exact .execWrsys h
  | wfe => exact .execWfe h
  | saSealC => exact .execSaSealC h
  | saSealG => exact .execSaSealG h
  | saSealP => exact .execSaSealP h
  | add | sub | adds | subs | mul | mulh | mulhn | div | rem | addi | xori | andi | ori | and | or | xor | shli | shri | srai | roti | shl
  | shr | sra | rot | bfx | bfxs | bfi | fsh | popc | clz | ctz | min | max | sel | movi | andn | movg =>
    exact .writeG h
  | cmp | cmpi | pand | por | pxor | pandn =>
    exact .writeP h
  | lea => exact .execLea h
  | movm => exact .execMovm h
  | leaa => exact .execLeaa h
  | spStG => exact .execSpStG h
  | spStV => exact .execSpStV h
  | spLdG => exact .execSpLdG h
  | spLdV => exact .execSpLdV h
  | vadd => exact .execVadd h
  | vsub => exact .execVsub h
  | vmul => exact .execVmul h
  | vfma => exact .execVfma h
  | vfnma => exact .execVfnma h
  | vadds => exact .execVadds h
  | vsubs => exact .execVsubs h
  | vmin => exact .execVmin h
  | vmax => exact .execVmax h
  | vabs => exact .execVabs h
  | vneg => exact .execVneg h
  | vand => exact .execVand h
  | vor => exact .execVor h
  | vxor => exact .execVxor h
  | vandn => exact .execVandn h
  | vshl => exact .execVshl h
  | vshr => exact .execVshr h
  | vsra => exact .execVsra h
  | vshli => exact .execVshli h
  | vshri => exact .execVshri h
  | vsrai => exact .execVsrai h
  | vcmp => exact .execVcmp h
  | vsel => exact .execVsel h
  | vcvt => exact .execVcvt h
  | vdup => exact .execVdup h
  | vrsum => exact .execVrsum h
  | vrmax => exact .execVrmax h
  | vrmin => exact .execVrmin h
  | saAdd => exact .execSaAdd h
  | expF => exact .execExpF h
  | expR => exact .execExpR h
  | exp2F => exact .execExp2F h
  | exp2R => exact .execExp2R h
  | log2F => exact .execLog2F h
  | log2R => exact .execLog2R h
  | rcpF => exact .execRcpF h
  | rcpR => exact .execRcpR h
  | rsqF => exact .execRsqF h
  | rsqR => exact .execRsqR h
  | sqrtF => exact .execSqrtF h
  | sqrtR => exact .execSqrtR h
  | tanhF => exact .execTanhF h
  | tanhR => exact .execTanhR h
  | sigmF => exact .execSigmF h
  | sigmR => exact .execSigmR h
  | sinF => exact .execSinF h
  | sinR => exact .execSinR h
  | cosF => exact .execCosF h
  | cosR => exact .execCosR h
  | xpack => exact .execXpack h
  | xunpack => exact .execXunpack h
  | xscale => exact .execXscale h
  | xmaxe => exact .execXmaxe h
  | xperm => exact .execXperm h
  | xrot => exact .execXrot h
  | xzip => exact .execXzip h
  | xunzip => exact .execXunzip h
  | xtrans => exact .execXtrans h
  | saNrd => exact .execSaNrd h
  | saSax => exact .execSaSax h
  | mcall => exact .execMcall h
  | mrep => exact .execMrep h
  | mprog => exact .execMprog h
  | mprogT => exact .execMprogT h
  | mwb => exact .execMwb h
  | mstat => exact .execMstat h
  | mdrain => exact .execMdrain h
  | uaLd => exact .execUaLd h
  | ubLd => exact .execUbLd h
  | uStep => exact .execUStep h
  | uDrain => exact .execUDrain h
  | uLoop => exact .execULoop h
  | uAddp => exact .execUAddp h
  | uEnd => exact .execUEnd h
  | ld => exact .execLd h
  | st => exact .execSt h
  | lds => exact .execLds h
  | sts => exact .execSts h
  | atom => exact .execAtom h
  | gld => exact .execGld h
  | gst => exact .execGst h
  | gatom => exact .execGatom h
  | mcst => exact .execMcst h
  | cpyTl => exact .execCpyTl h
  | cpyUt => exact .execCpyUt h
  | cpyAdd => exact .execCpyAdd h
  | cpyBc => exact .execCpyBc h
  | cpyEv => exact .execCpyEv h
  | cpyRs => exact .execCpyRs h
  | cpyPut => exact .execCpyPut h
  | cpyGet => exact .execCpyGet h
  | coll => exact .execColl h
  | mig => exact .execMig h
  | yclr => exact .execYclr h
  | ysetd => exact .execYsetd h
  | yseto => exact .execYseto h
  | ysetf => exact .execYsetf h
  | ysetb => exact .execYsetb h
  | ycpy => exact .execYcpy h
  | freezeEnd => exact .execFreezeEnd h
  | errorResponseArrival => exact .execErrorResponseArrival h
  | timedFlitRelease => exact .execTimedFlitRelease h
  | packetConsume => exact .execPacketConsume h
  | packetStart => exact .execPacketStart h
  | packetComplete => exact .execPacketComplete h
  | nop => exact .execNop h
  | launch => exact .execLaunch h
  | almanac => exact .execAlmanac h
  | pred => exact .execPred h
  | sigdec => exact .execSigdec h
  | sigwait => exact .execSigwait h
  | sigwaitReevaluate => exact .execSigwaitReevaluate h
  | sigwaitTimeout => exact .execSigwaitTimeout h
  | copy => exact .execCopy h
  | partition => exact .execPartition h
  | checkpoint => exact .execCheckpoint h
  | loadkey => exact .execLoadkey h
  | eraseload => exact .execEraseload h
  | domrekey => exact .execDomrekey h
  | ifstLock => exact .execIfstLock h
  | ifstUnlock => exact .execIfstUnlock h
  | ifstRelease => exact .execIfstRelease h
  | cfgwr => exact .execCfgwr h
  | cfgrd => exact .execCfgrd h
  | configRegisterWrite => exact .execConfigRegisterWrite h
  | worldCreate => exact .execWorldCreate h
  | worldDrain => exact .execWorldDrain h
  | worldDrainComplete => exact .execWorldDrainComplete h
  | worldGrant => exact .execWorldGrant h
  | measure => exact .execMeasure h
  | queueCreate => exact .execQueueCreate h
  | queueReset => exact .execQueueReset h
  | queueDestroy => exact .execQueueDestroy h
  | almanacBindDeadline => exact .execAlmanacBindDeadline h
  | almanacStart => exact .execAlmanacStart h
  | armedStart => exact .execArmedStart h
  | almanacLimitExpiry => exact .execAlmanacLimitExpiry h
  | frondStart => exact .execFrondStart h
  | itemStart => exact .execItemStart h
  | frondEnd => exact .execFrondEnd h
  | barrierTimeout => exact .execBarrierTimeout h
  | waitTimeout => exact .execWaitTimeout h
  | resultLanding => exact .execResultLanding h
  | queueDelivery => exact .execQueueDelivery h
  | bankWakeDone => exact .execBankWakeDone h
  | timedWriteLanding => exact .execTimedWriteLanding h
  | timedReadSample => exact .execTimedReadSample h
  | untimedApply => exact .execUntimedApply h
  | untimedServe => exact .execUntimedServe h
  | untimedAtomic => exact .execUntimedAtomic h
  | fenceComplete => exact .execFenceComplete h
  | multicastLanding => exact .execMulticastLanding h
  | timedChunkLanding => exact .execTimedChunkLanding h
  | untimedChunkComplete => exact .execUntimedChunkComplete h
  | pushArrival => exact .execPushArrival h
  | migrationWritesApplied => exact .execMigrationWritesApplied h
  | drainRowLanding => exact .execDrainRowLanding h
  | saFold => exact .execSaFold h
  | saGroupSum => exact .execSaGroupSum h
  | saPlaneArrival => exact .execSaPlaneArrival h
  | contextSaveDone => exact .execContextSaveDone h
  | landingEntry => exact .execLandingEntry h
  | tkalignRelease => exact .execTkalignRelease h
  | sigWaitRepost => exact .execSigWaitRepost h
  | contextRestoreDone => exact .execContextRestoreDone h
  | emptyBundle lnd => exact .execEmptyBundle (lnd := lnd) h
  | illegalEncoding | leaseExpiry => exact .next h
  | resetRelease => exact .execResetRelease h
  | frameTick => exact .execFrameTick h
  | enterRun => exact .execEnterRun h
  | interfaceDrainComplete => exact .execInterfaceDrainComplete h
  | roleDrainComplete => exact .execRoleDrainComplete h
  | flushComplete => exact .execFlushComplete h
  | zeroiseComplete => exact .execZeroiseComplete h
  | reenumerateComplete => exact .execReenumerateComplete h
  | roleChangeCommit => exact .execRoleChangeCommit h
  | drainDeadlineExpiry => exact .execDrainDeadlineExpiry h
  | layerFence => exact .execLayerFence h
  | scratchpadCorrectableError => exact .execScratchpadCorrectableError h
  | scratchpadUncorrectableError => exact .execScratchpadUncorrectableError h
  | nearTierUncorrectable => exact .execNearTierUncorrectable h
  | layerPoolUncorrectable => exact .execLayerPoolUncorrectable h
  | farTierUncorrectable => exact .execFarTierUncorrectable h
  | copyParityError => exact .execCopyParityError h
  | coreRelease => exact .execCoreRelease h
  | lskewWrite => exact .execLskewWrite h
  | linkCalibration => exact .execLinkCalibration h
  | linkCalibrationDone => exact .execLinkCalibrationDone h
  | lstatClear => exact .execLstatClear h
  | lostevClear => exact .execLostevClear h
  | timedFlitArrival => exact .execTimedFlitArrival h
  | untimedFlitArrival => exact .execUntimedFlitArrival h
  | uePacketReceive => exact .execUePacketReceive h
  | put => exact .execPut h
  | get => exact .execGet h
  | fetchAndAdd => exact .execFetchAndAdd h
  | compareAndSwap => exact .execCompareAndSwap h
  | swap => exact .execSwap h
  | statusWindowGet => exact .execStatusWindowGet h
  | runReceive => exact .execRunReceive h
  | runIdleClose => exact .execRunIdleClose h
  | runRetryExhausted => exact .execRunRetryExhausted h
  | cxlLinkDown => exact .execCxlLinkDown h
  | getVersion => exact .execGetVersion h
  | getCapabilities => exact .execGetCapabilities h
  | negotiateAlgorithms => exact .execNegotiateAlgorithms h
  | getDigests => exact .execGetDigests h
  | getCertificate => exact .execGetCertificate h
  | challenge => exact .execChallenge h
  | getMeasurements => exact .execGetMeasurements h
  | keyExchange => exact .execKeyExchange h
  | finish => exact .execFinish h
  | endSession => exact .execEndSession h
  | spdmUnsupportedRequest _ code => exact .execSpdmUnsupportedRequest (code := code) h
  | channelPut => exact .execChannelPut h
  | commandPacketMessage => exact .execCommandPacketMessage h
  | tailWrite => exact .execTailWrite h
  | heartbeat => exact .execHeartbeat h
  | channelClose => exact .execChannelClose h
  | heartbeatTimeout => exact .execHeartbeatTimeout h
  | keyHoldExpiry => exact .execKeyHoldExpiry h
  | measuredLoad => exact .execMeasuredLoad h
  | rekeyDrained => exact .execRekeyDrained h
  | rekeySwitch => exact .execRekeySwitch h
  | rekeySwitched => exact .execRekeySwitched h
  | rekeyResume => exact .execRekeyResume h
  | rekeyPhaseTimeout => exact .execRekeyPhaseTimeout h
  | checkpointBarrier => exact .execCheckpointBarrier h
  | checkpointBudgetExpiry => exact .execCheckpointBudgetExpiry h
  | checkpointSaveDone => exact .execCheckpointSaveDone h
  | checkpointStreamDone => exact .execCheckpointStreamDone h
  | checkpointBlobDone => exact .execCheckpointBlobDone h
  | domform => exact .execDomform h
  | worldOpen => exact .execWorldOpen h
  | leaseClaim => exact .execLeaseClaim h
  | leaseRenew => exact .execLeaseRenew h
  | bindRecordWrite => exact .execBindRecordWrite h
  | commit => exact .execCommit h
  | migrationCopyDone => exact .execMigrationCopyDone h
  | contextPreempt => exact .execContextPreempt h
  | contextResume => exact .execContextResume h
  | contextSave => exact .execContextSave h
  | contextRestore => exact .execContextRestore h
  | instructionStoreWrite => exact .execInstructionStoreWrite h
  | directoryWrite => exact .execDirectoryWrite h
  | freinoEntryTrap => exact .execFreinoEntryTrap h
  | reset => exact .execReset
  | rekeyRequest => exact .execRekeyRequest h
  | checkpointRestore => exact .execCheckpointRestore h
theorem Canonical.afterTrap {migOnly : Bool} (h : Canonical s.mem) : Canonical (s.afterTrap c k migOnly).mem :=
  .ite h (.ite h (.ite h (.abortFrond h)))
theorem Canonical.trapAt {from_ : Point} {cause : Nat} {xval xcnt : Word} {migOnly : Bool} (h : Canonical s.mem) :
    Canonical (s.trapAt c k from_ cause xval xcnt migOnly).mem := .afterTrap h
theorem Canonical.bundleStop_some {b : Bundle} {x n : Word} (h : Canonical s.mem) (e : s.bundleStop b = some (c, x, n, t)) : Canonical t.mem := by
  unfold State.bundleStop at e
  dsimp only at e
  split at e
  · cases e; exact h
  · split at e
    · cases e; exact h
    · split at e
      · cases e; exact h
      · split at e
        · cases e; exact h
        · split at e
          · cases e; exact h
          · cases e
/-- What the slots of a bundle come to keeps the form. -/
def CanonicalSlots : Slots → Prop
  | .done t | .gone t => Canonical t.mem
  | .trap _ _ _ _ | .block _ => True
theorem CanonicalSlots.runSlots (hf : Canonical f.mem) (h : Canonical s.mem) : CanonicalSlots (runSlots f l s w) := by
  induction l generalizing s w with
  | nil =>
    unfold Machine.runSlots
    split
    · exact h
    · trivial
  | cons i r ih =>
    have hi : Canonical (after (exec i s) s).mem := .after (.exec h) h
    unfold Machine.runSlots
    dsimp only
    split
    · trivial
    · exact ih hi
    · exact ih hi
    all_goals exact Canonical.after (.exec hf) hf
theorem Canonical.announce (h : Canonical s.mem) : Canonical (announce s l).mem := by
  refine .foldl h fun _ _ ht => ?_
  split
  · exact .ite ht (.announceBar ht)
  · refine .ite ht ?_
    split
    · exact .announceSig ht
    · exact ht
  · exact ht
theorem Canonical.fallThrough (h : Canonical s.mem) : Canonical (s.fallThrough c k).mem := by
  unfold State.fallThrough
  split
  · split
    · exact h
    · exact .ite h h
    · exact .ite h h
  · exact h
theorem Canonical.runSlots_done (e : runSlots f l s w = .done t) (hf : Canonical f.mem) (h : Canonical s.mem) : Canonical t.mem := by
  have hr := CanonicalSlots.runSlots (l := l) (w := w) hf h
  rw [e] at hr
  exact hr
theorem Canonical.runSlots_gone (e : runSlots f l s w = .gone t) (hf : Canonical f.mem) (h : Canonical s.mem) : Canonical t.mem := by
  have hr := CanonicalSlots.runSlots (l := l) (w := w) hf h
  rw [e] at hr
  exact hr
theorem Canonical.attempt {p : Point} {b : Bundle} (h : Canonical s.mem) : Canonical (s.attempt p b).mem := by
  unfold State.attempt
  dsimp only
  split
  · exact .trapAt (.bundleStop_some h ‹_›)
  · split <;> rename_i e
    · exact .trapAt h
    · exact .runSlots_gone e h h
    · exact .ite h (.announce h)
    · exact .ite (.fallThrough (.after (.execEmptyBundle h) h)) (.fallThrough (.finish (.runSlots_done e h h)))
theorem Canonical.issue (h : Canonical s.mem) : Canonical (s.issue c k).mem := by
  unfold State.issue
  dsimp only
  split
  · exact .trapAt (.fallThrough h)
  · split
    · exact .trapAt (.fallThrough h)
    · exact .attempt (.fallThrough h)
end

/-! ### Events of the machine -/

section
variable {s : State} {c id : Nat}
theorem Canonical.takeAction {t : Timed} (h : Canonical s.mem) : Canonical (s.takeAction t).mem := by
  unfold State.takeAction
  split
  · exact .after (.execTimedWriteLanding h) h
  · exact .after (.execTimedWriteLanding h) h
  · exact .after (.execTimedReadSample h) h
  · exact .after (.execTimedReadSample h) h
  · exact .after (.execTimedReadSample h) h
  · exact .after (.execTimedChunkLanding h) h
  · exact .after (.execTimedChunkLanding h) h
  · exact .after (.execMulticastLanding h) h
  · exact .after (.execQueueDelivery h) h
  · exact .after (.execDrainRowLanding h) h
  · exact .after (.execDrainRowLanding h) h
  · exact .after (.execSaFold h) h
  · exact .after (.execSaGroupSum h) h
  · exact h
theorem Canonical.startOp {i : Instr} (h : Canonical s.mem) : Canonical (s.startOp c i).mem := by
  cases i with
  | uaLd => exact .after (.execUaLd h) h
  | ubLd => exact .after (.execUbLd h) h
  | uStep => exact .after (.execUStep h) h
  | uDrain => exact .after (.execUDrain h) h
  | uLoop => exact .after (.execULoop h) h
  | uAddp => exact .after (.execUAddp h) h
  | uEnd => exact .after (.execUEnd h) h
  | _ => exact h
theorem CanonicalOpt.engineStep (h : Canonical s.mem) : CanonicalOpt (s.engineStep c) := by
  refine .ite (.some (.settleEngine h)) ?_
  split
  · exact .none
  · refine .ite .none ?_
    split
    · exact .ite (.some (.applyWb h)) .none
    · split
      · exact .none
      · exact .ite (.some (.startOp h)) .none
theorem CanonicalOpt.ctxEvent {k : Nat} (h : Canonical s.mem) : CanonicalOpt (s.ctxEvent c k) := by
  unfold State.ctxEvent
  dsimp only
  split
  · exact .after (.execResultLanding h) h
  · exact .after (.execBankWakeDone h) h
  · exact .some (.releaseEvent h)
  · refine .ite (.after (.execFenceComplete h) h) (.ite (.after (.execTkalignRelease h) h) (.ite (.some h) ?_))
    refine .ite (.some (.stopAtLanding h)) (.ite (.after (.execBarrierTimeout h) h) (.ite (.after (.execWaitTimeout h) h) ?_))
    exact .ite (.some h) .none
theorem CanonicalOpt.coreEvent (h : Canonical s.mem) : CanonicalOpt (s.coreEvent c) :=
  .ite (.some h) (.ite (.after (.execArmedStart h) h) (.map fun _ => h))
theorem Canonical.moveAccess (h : Canonical s.mem) : Canonical (s.moveAccess id).mem := by
  unfold State.moveAccess
  split
  · exact h
  · refine .ite (.after (.execQueueDelivery h) h) (.ite (.after (.execErrorResponseArrival h) h) ?_)
    split
    · exact .after (.execUntimedApply h) h
    · exact .after (.execUntimedApply h) h
    · exact .after (.execUntimedServe h) h
    · exact .after (.execUntimedServe h) h
    · exact .after (.execUntimedServe h) h
    · exact .after (.execUntimedAtomic h) h
    · exact .after (.execUntimedAtomic h) h
    · exact .after (.execUntimedAtomic h) h
    · exact .after (.execSaPlaneArrival h) h
    · exact .after (.execPushArrival h) h
    · exact h
theorem Canonical.actPacket {p : Packet} (h : Canonical s.mem) : Canonical (s.actPacket p).mem := by
  unfold State.actPacket
  dsimp only
  split
  · exact .after (.execNop h) h
  · exact .after (.execLaunch h) h
  · exact .after (.execAlmanac h) h
  · exact .after (.execPred h) h
  · exact .after (.execSigdec h) h
  · exact .after (.execSigwait h) h
  · exact .after (.execCopy h) h
  · exact .after (.execPartition h) h
  · exact .after (.execCheckpoint h) h
  · exact .after (.execLoadkey h) h
  · exact .after (.execEraseload h) h
  · exact .after (.execDomform h) h
  · exact .after (.execDomrekey h) h
  · exact .after (.execIfstLock h) h
  · exact .after (.execIfstUnlock h) h
  · exact .after (.execIfstRelease h) h
  · exact .after (.execCfgwr h) h
  · exact .after (.execCfgrd h) h
  · exact .after (.execWorldCreate h) h
  · exact .after (.execWorldDrain h) h
  · exact .after (.execWorldGrant h) h
  · exact .after (.execMeasure h) h
  · exact .after (.execQueueCreate h) h
  · exact .after (.execQueueReset h) h
  · exact .after (.execQueueDestroy h) h
  · exact h
theorem CanonicalOpt.freshStep (h : Canonical s.mem) : CanonicalOpt s.freshStep := .findSome? fun _ => .ite .none (.some (.actPacket h))
theorem Canonical.movePacket (h : Canonical s.mem) : Canonical (s.movePacket id).mem := by
  unfold State.movePacket
  split
  · exact h
  · split
    · exact .getD (.freshStep (.after (.execPacketStart h) h)) (.after (.execPacketStart h) h)
    · exact .after (.execPacketComplete h) h
    · exact .after (.execPacketComplete h) h
    · exact .after (.execPacketComplete h) h
    · exact h
    · exact .ite (.actPacket h) (.after (.execPacketComplete h) h)
theorem Canonical.landLine {line : Nat} (h : Canonical s.mem) : Canonical (s.landLine id line).mem := by
  unfold State.landLine
  split
  · split
    · exact .landAs h
    · exact .landRestoreLine h
    · exact h
  · exact h
theorem Canonical.landChunkLine {k copy i line : Nat} (h : Canonical s.mem) : Canonical (s.landChunkLine c k copy i line).mem := by
  unfold State.landChunkLine
  split
  · exact .latchFor (.timedWrite h)
  · exact h
theorem Canonical.takeCand {x : Cand} (h : Canonical s.mem) : Canonical (s.takeCand x).mem := by
  cases x with
  | access => exact .moveAccess h
  | hop => exact .hop h
  | chunk => exact .after (.execUntimedChunkComplete h) h
  | line => exact .landLine h
  | chunkLine => exact .landChunkLine h
  | save => exact .after (.execContextSaveDone h) h
  | restore => exact .after (.execContextRestoreDone h) h
  | consume => exact .getD (.freshStep (.after (.execPacketConsume h) h)) (.after (.execPacketConsume h) h)
  | packet => exact .movePacket h
  | run => exact .after (.execRunIdleClose h) h
  | resend => exact .resend h
  | die =>
    dsimp only [State.takeCand]
    split
    · exact .after (.execFlushComplete h) h
    · exact .after (.execZeroiseComplete h) h
    · exact .after (.execReenumerateComplete h) h
  | drained => exact .after (.execWorldDrainComplete h) h
  | rekey ph =>
    cases ph with
    | idle => exact .after (.execRekeyResume h) h
    | quiesce => exact h
    | drained => exact .after (.execRekeyDrained h) h
    | switching => exact .after (.execRekeySwitch h) h
    | switched => exact .after (.execRekeySwitched h) h
  | signed => exact h
  | load => exact .loadNext h
  | ckpt => exact .ite (.after (.execCheckpointSaveDone h) h) (.after (.execCheckpointBlobDone h) h)
theorem CanonicalOpt.frondEvent {f : Nat} (h : Canonical s.mem) : CanonicalOpt (s.frondEvent f) := by
  refine .ite (.after (.execFreezeEnd h) h) (.ite (.after (.execAlmanacStart h) h) (.ite (.after (.execFrondStart h) h) ?_))
  exact .ite (.after (.execItemStart h) h) (.ite (.after (.execFrondEnd h) h) (.ite (.after (.execAlmanacLimitExpiry h) h) .none))
theorem CanonicalOpt.entryEvent {i : Nat} (h : Canonical s.mem) : CanonicalOpt (s.entryEvent i) :=
  .ite .none (.ite (.after (.execAlmanacBindDeadline h) h) (.ite (.some (.dispatch h)) .none))
theorem CanonicalOpt.pushOn (h : Canonical s.mem) : CanonicalOpt s.pushOn := by
  refine .ite .none ?_
  split
  · exact .some (.moveAccess h)
  · exact .some (.hop h)
  · exact .some (.moveAccess h)
  · exact .none
theorem CanonicalOpt.roleEvent (h : Canonical s.mem) : CanonicalOpt s.roleEvent := by
  unfold State.roleEvent
  split
  · exact .none
  · refine .ite (.after (.execRoleChangeCommit h) h) (.ite ?_ (.ite ?_ (.ite ?_ .none)))
    · exact .ite (.after (.execRoleDrainComplete h) h) (.ite (.after (.execDrainDeadlineExpiry h) h) .none)
    · exact .some (.roleSettle (.foldl h fun _ _ ht => .enumerateStaying ht))
    · split
      · exact .after (.execFlushComplete h) h
      · exact .after (.execZeroiseComplete h) h
      · exact .after (.execReenumerateComplete h) h
      · exact .ite (.pushOn h) .none
theorem CanonicalOpt.ckptEvent (h : Canonical s.mem) : CanonicalOpt s.ckptEvent := by
  unfold State.ckptEvent
  split
  · exact .none
  · refine .ite (.some (.ckptBegin h)) (.ite (.after (.execCheckpointBarrier h) h) ?_)
    exact .ite (.after (.execCheckpointBudgetExpiry h) h) .none
theorem CanonicalOpt.hubEvent (h : Canonical s.mem) : CanonicalOpt s.hubEvent := by
  refine .ite (.ite (.some h) .none) (.ite (.after (.execEnterRun h) h) (.ite (.after (.execInterfaceDrainComplete h) h) ?_))
  split
  · exact .after (.execRunIdleClose h) h
  · split
    · exact .after (.execSigwaitTimeout h) h
    · exact .some (.channelStep h)
    · exact .map fun _ => .after (.execTimedFlitRelease h) h
    · exact .none
theorem CanonicalOpt.moveEvent (h : Canonical s.mem) : CanonicalOpt s.moveEvent := .map fun _ => .after (.execMigrationWritesApplied h) h
theorem Canonical.correct (h : Canonical s.mem) : Canonical s.correct.mem := .foldl h fun _ _ ht => ht
theorem Canonical.tick (h : Canonical s.mem) : Canonical s.tick.mem := by
  refine .foldl (.foldl ?_ fun _ _ ht => .after (.execSigWaitRepost ht) ht) fun _ _ ht => .after (.execSigwaitReevaluate ht) ht
  exact .correct (.after (.execFrameTick h) h)
theorem Canonical.advance (h : Canonical s.mem) : Canonical s.advance.mem := .ite (.tick h) h
theorem CanonicalOpt.beforeIssue (h : Canonical s.mem) : CanonicalOpt s.beforeIssue := by
  unfold State.beforeIssue
  split
  · exact .some (.takeAction h)
  · split
    · exact .some (CanonicalOpt.findSome? (fun _ => .engineStep h) _ ‹_›)
    · split
      · exact .some (CanonicalOpt.findSome? (fun _ => .frondEvent h) _ ‹_›)
      · split
        · exact .some (CanonicalOpt.findSome? (fun _ => .ctxEvent h) _ ‹_›)
        · split
          · exact .some (CanonicalOpt.findSome? (fun _ => .coreEvent h) _ ‹_›)
          · split
            · exact .some (CanonicalOpt.findSome? (fun _ => .entryEvent h) _ ‹_›)
            · split
              · exact .some (CanonicalOpt.roleEvent h _ ‹_›)
              · exact .some (CanonicalOpt.ckptEvent h _ ‹_›)
              · exact .some (CanonicalOpt.hubEvent h _ ‹_›)
              · exact .moveEvent h
theorem Canonical.afterIssue (h : Canonical s.mem) : Canonical s.afterIssue.mem := by
  unfold State.afterIssue
  split
  · exact .endSlip h
  · exact .takeAction h
  · split
    · exact .hop h
    · split
      · exact .advance h
      · dsimp only
        split
        · exact .advance h
        · exact .elim (.advance h) fun _ => .takeCand h
theorem Canonical.event (h : Canonical s.mem) : Canonical s.event.mem := by
  unfold State.event
  split
  · exact CanonicalOpt.freshStep h _ ‹_›
  · exact CanonicalOpt.beforeIssue h _ ‹_›
  · split
    · exact .issue h
    · exact .afterIssue h
end

/-! ### The step -/

section
theorem Canonical.takeInbox_some {s t : State} {i : Instr} (h : Canonical s.mem) (e : s.takeInbox = some (i, t)) : Canonical t.mem := by
  unfold State.takeInbox at e
  split at e
  · cases e
  · split at e <;> cases e <;> exact h
theorem CanonicalOut.step {s : State} (h : Canonical s.mem) : CanonicalOut (step s) := by
  unfold Machine.step
  split
  · exact .exec (.takeInbox_some h ‹_›)
  · exact .next (.event h)
end

end Sys2Proof.Machine
end

section
/-! Settles O60: the step keeps the canonical form. -/

namespace Sys2Proof.Machine

/-- Settles O60: the form is an invariant of every function that changes memory, and the step composes them. (That memory has a canonical form is
log 1.) -/
theorem memoryFormKept : Obligations.MemoryFormKept := by
  unfold Obligations.MemoryFormKept
  intro s t h e
  exact CanonicalOut.step h t e

end Sys2Proof.Machine
end
